-- ==== Sys2Proof/Config.lean ====
section
/-! DEFINITION. The free values: everything the spec leaves open is one of these constants without a body, applied
to a plain counter of the state (State.free) or to the operands it depends on. -/

namespace Sys2Proof

/-- Which of two allowed outcomes occurs (R60 early or pending reads, R100 sources, R320 stale translations). -/
opaque Config.coin : Nat → Bool

/-- Which of several allowed sources serves a byte (R100): an index, taken modulo the number of sources. -/
opaque Config.pick : Nat → Nat

/-- The latency in clk of a variable-latency result, a landing or a completion (R58 gives none). -/
opaque Config.latency : Nat → Nat

/-- A result the spec names but whose bits it does not state. -/
opaque Config.freeWord : Nat → BitVec 32

/-- A byte the spec names but whose value it does not state. -/
opaque Config.freeByte : Nat → BitVec 8

/-- The ML-DSA-44 public key of the identity key pair that a 32-byte seed generates (R344), byte i. The algorithm is FIPS 204's, which the
spec names and does not give. -/
opaque Config.publicKey : BitVec 256 → Nat → BitVec 8

/-- An ML-DSA-44 signature of a message under the identity key of a seed (R344), byte i; FIPS 204 lets the signer draw a random number, the
second argument. -/
opaque Config.signature : BitVec 256 → Nat → List (BitVec 8) → Nat → BitVec 8

end Sys2Proof
end

