-- ==== Sys2Proof/Syntax.lean ====
section
/-! DEFINITION. The syntax of one step: one constructor per row of spec/opcode_table.json. The instruction rows carry
the fields of their encoding (R111 to R117; an extension word's fields follow those of word 0; `hi` is the high part
of a preceding LIT word, R116). The event and command rows carry what names the unit they concern. -/

namespace Sys2Proof

/-- Where an uncorrectable storage error strikes (R386). -/
inductive EccPlace where
  /-- Parity-protected copies: L0, instruction lines, loop buffers, record caches, TLBs; `unit` is the core, `index` the home
  address of a byte of the line. -/
  | cached
  /-- A temporary; `unit` is the thread, `index` its number. -/
  | temp
  /-- A vector register; `unit` is the thread, `index` the physical register. -/
  | vreg
  /-- A uniform register; `unit` is the group. -/
  | ureg
  /-- A predicate of a thread. -/
  | pred
  /-- A reservoir register of a thread. -/
  | rsv
  /-- An address pointer of a thread. -/
  | ptr
  /-- The fields of an address register of a group. -/
  | gfield
  /-- An element of a tile register; `unit` is the group, `index` is 1024 times the tile plus the element. -/
  | tile
  /-- An element of an accumulator tile; `unit` is the core, `index` is 1024 times the tile plus the element. -/
  | acc
  /-- SRAM, L2 or HBM data: `index` is the home address of a byte of the 32-byte granule. -/
  | data
  /-- L2 tags and directory: `index` is the home address of a byte of the 128-byte line. -/
  | tags
  /-- HBM found by a scrub: as `data`, and the scrub logs it. -/
  | scrub
  deriving DecidableEq, Repr

/-- One step of the machine: an instruction, an event of the device, or an action of the host. -/
inductive Instr where
  /-- POWER_ON (R342): Power-on starts the boot sequence: the ROM measures itself, verifies the images, trains the ports, clears all state and sets READY. -/
  | powerOn (cause : BitVec 8)
  /-- BOOT_STEP_WATCHDOG (R426): A boot step exceeds 2^24 heartbeat ticks; the start fails with cause 0x08 and begins again. -/
  | bootStepWatchdog
  /-- HEARTBEAT_TICK (R18): The package heartbeat counter advances once every 64 clk. -/
  | heartbeatTick
  /-- SLEEP_WAKE (R154): A sleeping thread's tick count reaches 0 and the thread becomes Ready. -/
  | sleepWake (th : Nat)
  /-- BALANCER_INTERVAL (R281): At each heartbeat divisible by 256, the balancer computes stage fill ratios and moves up to four cores from a donor to a receiver. -/
  | balancerInterval (die : Nat)
  /-- I3C_REFRESH (R334): The I3C telemetry values are refreshed once every 2^20 heartbeat ticks. -/
  | i3cRefresh (t0 t1 t2 t3 hub power : BitVec 16)
  /-- PICKER_DECISION (R33): A slot's picker chooses a PC and an issue set from its Ready threads and updates their ages. -/
  | pickerDecision (iss : Nat)
  /-- RUN_ISSUE (R34): Once every awaited register is ready, the issue set fetches and checks the run and executes it to its trailer. -/
  | runIssue (iss : Nat)
  /-- RESULT_LANDS (R59): A variable-latency result is written to its register, or is discarded when the granule is draining. -/
  | resultLands (id : Nat)
  /-- TEAM_PLACE (R26): The work distributor claims a core block and all the resources for a waiting team. -/
  | teamPlace (die : Nat)
  /-- HANDOVER_COMPLETE (R85): A claimed granule finishes write-back and zeroing (or restore loading) and enters Held; the team becomes resident when its last granule does. -/
  | handoverComplete (core gran : Nat)
  /-- TEAM_FINISH_COMPLETE (R24): The publication of a finished team completes; its granules return to L1 and its other resources are released. -/
  | teamFinishComplete (team : Nat)
  /-- BARRIER_RELEASE (R39): A barrier phase releases when every remaining thread has arrived; for a team on several cores this happens 24 clk after the last arrival. -/
  | barrierRelease (isTeam : Bool) (owner bar : Nat)
  /-- PUBLICATION_COMPLETE (R99): Every write-back of a publication has been performed at its home. -/
  | publicationComplete (core : Nat)
  /-- FENCESC_COMPLETE (R106): An SC fence completes when its die's heartbeat reaches h + 2, and it refreshes the snapshot at .sys. -/
  | fencescComplete (th : Nat)
  /-- BANK_ALU_BIN_UPDATE (R384): A bank ALU performs a GADD bin update at the shadow's home; a bin overflow is logged as a class-1 fault. -/
  | bankAluBinUpdate (id : Nat)
  /-- LUTLD_LOAD_BEGIN (R172): A waiting activation-table load begins once no group latches the bank it fills. -/
  | lutldLoadBegin (core t : Nat)
  /-- LUTLD_LOAD_COMPLETE (R172): The table image has been written; the version increments, the bank becomes active, and the version is returned. -/
  | lutldLoadComplete (core t : Nat)
  /-- COPY_CMD_ISSUE (R196): A copy command issues once its target slot is Free; it checks, translates, claims the slot and takes ownership of its destination lines. -/
  | copyCmdIssue (core ring : Nat)
  /-- COPY_CMD_COMPLETE (R197): A copy command completes in command order: it writes its lines, commits the slot, decrements the counter and advances DONE. -/
  | copyCmdComplete (core ring : Nat)
  /-- CCOPY_COMPLETE (R294): A hub copy finishes and performs its completion signal. -/
  | ccopyComplete (c : Nat)
  /-- TAPE_SYNC_COMPLETE (R259): Every header and frame write of a tape sync has been performed, which acts as a release at .sys. -/
  | tapeSyncComplete (th : Nat)
  /-- PIPELINE_RESIDENT (R276): A pipeline becomes resident on a die once C free cores exist, and gives them out to its stages. -/
  | pipelineResident (die pipe : Nat)
  /-- CORE_SAVE (R324): Once the pre-empted context's results have landed, the core publishes, syncs the tapes, writes its core record and releases its resources. -/
  | coreSave (core : Nat)
  /-- CORE_RESTORE (R325): The saved teams are restored on a reserved core once it holds no other context's team. -/
  | coreRestore (core : Nat)
  /-- TORC_STEP (R301): A Torc engine performs the next step of an instance's program. -/
  | torcStep (die block : Nat)
  /-- TORC_CHUNK_ARRIVAL (R302): A chunk arrives at a Torc engine and is taken into a chunk slot, spilled to the pool, or discarded. -/
  | torcChunkArrival (die : Nat) (tag seq : BitVec 32) (src ch : Nat) (data : List (BitVec 8))
  /-- TORC_ABORT_RECEIVE (R417): A rank receives ABORT(TAG, s) and ends instance s with COLL_MEMBER_LOST. -/
  | torcAbortReceive (die : Nat) (tag seq : BitVec 32) (rank : Nat)
  /-- COLL_TIMEOUT (R417): A Torc step waits 2^24 ticks with no chunk progress; the rank declares member loss and sends ABORT. -/
  | collTimeout (die block : Nat)
  /-- POOL_TIMEOUT (R419): A spill write or refetch does not complete within 2^20 ticks; the instance ends with LINK. -/
  | poolTimeout (die block : Nat)
  /-- DET_COMMIT (R314): A finished deterministic task commits its held writes once the previous task's commit has completed. -/
  | detCommit (grid : Nat)
  /-- HOST_CXL_MEM_ACCESS (R333): A host CXL.mem access is performed at its line's home slice. -/
  | hostCxlMemAccess (pa : Nat) (wr : Bool) (data : List (BitVec 8))
  /-- HOST_SNOOP (R333): A host snoop of a host-memory line is answered by the line's home slice. -/
  | hostSnoop (pa : Nat)
  /-- ECC_UNCORRECTABLE (R386): An uncorrectable storage error poisons the granule, word or element, and a scrub logs ECC_UNCORR. -/
  | eccUncorrectable (kind : EccPlace) (unit index : Nat)
  /-- MESH_LINK_ERROR (R423): An uncorrected mesh or bridge link error is logged, and the package then resets. -/
  | meshLinkError (die stop : Nat)
  /-- HOST_PORT_DOWN (R423): The UCIe host port fails beyond retry, goes down, and LINK is logged. -/
  | hostPortDown
  /-- HOST_PORT_RETRAINED (R424): The host port retrains; dirty host lines are written back and pending MSI-X messages are sent. -/
  | hostPortRetrained
  /-- HOST_RETRAIN_TIMEOUT (R424): Retraining does not succeed within 2^20 ticks, and the port stays down until the next boot. -/
  | hostRetrainTimeout
  /-- UALINK_PORT_DOWN (R423): A UALink port goes down and LINK is logged; Torc acts by R417. -/
  | ualinkPortDown (die port : Nat)
  /-- POOL_PORT_DOWN (R423): The pool port goes down and LINK is logged; Torc acts by R419. -/
  | poolPortDown
  /-- MAILBOX_WATCHDOG (R428): A mailbox request still unfinished after 2^26 ticks: firmware restarts, logs WATCHDOG and returns RESOURCE. -/
  | mailboxWatchdog
  /-- OVERRUN_CLEAR (R336): Writing 1 to STATUS.OVERRUN clears it. -/
  | overrunClear
  /-- MAILBOX_WRITE (R335): A host write to a mailbox location that has no behaviour of its own stores the value. -/
  | mailboxWrite (off : Nat) (data : List (BitVec 8))
  /-- IDENT (R339): Returns the identity block. -/
  | ident
  /-- RESYNC (R340): Returns the cameo snapshot. -/
  | resync
  /-- CTXNEW (R322): Registers a context from a 48-byte payload. -/
  | ctxnew
  /-- CTXDEL (R322): Removes an idle context and releases its tiles, grants and bindings. -/
  | ctxdel
  /-- RESUME (R325): Reserves the saved cores and restores a pre-empted or fault-stopped context on the named dies. -/
  | resume
  /-- CTXMAP_DIE_SHARED (R93): CTXMAP operation 0 sets a die's die-shared granule count. -/
  | ctxmapDieShared
  /-- CTXMAP_QUEUE_BIND (R267): CTXMAP operation 1 binds a task queue to a context with a spill area. -/
  | ctxmapQueueBind
  /-- CTXMAP_COUNTERS (R273): CTXMAP operation 2 assigns dependence counters to a context. -/
  | ctxmapCounters
  /-- CTXMAP_SEM_GRANT (R341): CTXMAP operation 3 grants semaphore blocks to a compute context. -/
  | ctxmapSemGrant
  /-- CTXMAP_INVALIDATE (R321): CTXMAP operation 4 performs a translation invalidation of a virtual range and responds when it completes. -/
  | ctxmapInvalidate
  /-- CMDSTART (R284): Starts a command context at a PC, binds its context and grants semaphore blocks. -/
  | cmdstart
  /-- CMDSTOP (R338): Stops a command context at its next run boundary. -/
  | cmdstop
  /-- PREEMPT (R324): Pre-empts a context on the named dies and responds when every die has saved. -/
  | preempt
  /-- POOLCFG (R338): Maps or disables the CXL pool range. -/
  | poolcfg
  /-- ATTEST (R344): Returns an attestation report, signed over a nonce and the measurements. -/
  | attest
  /-- MEASURE_READ (R343): Returns the measurement registers M0–M7. -/
  | measureRead
  /-- MEASURE_EXTEND (R343): Extends one of M4–M7 with a 32-byte digest. -/
  | measureExtend
  /-- FWLOG (R368): Returns a part of the firmware fault log. -/
  | fwlog
  /-- DEGRADE (R338): Returns the degraded-unit map. -/
  | degrade
  /-- RESET (R342): Completes its response, then resets the package and boots. -/
  | reset
  /-- NOP (R152): No operation. -/
  | nop
  /-- ADD (R131): Integer addition modulo 2^N. -/
  | add (f : BitVec 4) (d : BitVec 7) (a : BitVec 7) (b : BitVec 7)
  /-- SUB (R131): Integer subtraction. -/
  | sub (f : BitVec 4) (d : BitVec 7) (a : BitVec 7) (b : BitVec 7)
  /-- ADDI (R132): Adds an immediate. -/
  | addi (d : BitVec 7) (a : BitVec 7) (i : BitVec 11) (hi : Option (BitVec 25))
  /-- MUL (R131): Low half of an integer product. -/
  | mul (f : BitVec 4) (d : BitVec 7) (a : BitVec 7) (b : BitVec 7)
  /-- MULH (R131): High half of an integer product. -/
  | mulh (f : BitVec 4) (d : BitVec 7) (a : BitVec 7) (b : BitVec 7)
  /-- MAD (R131): Integer multiply-add into the destination. -/
  | mad (f : BitVec 4) (d : BitVec 7) (a : BitVec 7) (b : BitVec 7)
  /-- AND (R131): Bitwise AND. -/
  | and (f : BitVec 4) (d : BitVec 7) (a : BitVec 7) (b : BitVec 7)
  /-- OR (R131): Bitwise OR. -/
  | or (f : BitVec 4) (d : BitVec 7) (a : BitVec 7) (b : BitVec 7)
  /-- XOR (R131): Bitwise XOR. -/
  | xor (f : BitVec 4) (d : BitVec 7) (a : BitVec 7) (b : BitVec 7)
  /-- ANDI (R132): Bitwise AND with an immediate. -/
  | andi (d : BitVec 7) (a : BitVec 7) (i : BitVec 11) (hi : Option (BitVec 25))
  /-- ORI (R132): Bitwise OR with an immediate. -/
  | ori (d : BitVec 7) (a : BitVec 7) (i : BitVec 11) (hi : Option (BitVec 25))
  /-- XORI (R132): Bitwise XOR with an immediate. -/
  | xori (d : BitVec 7) (a : BitVec 7) (i : BitVec 11) (hi : Option (BitVec 25))
  /-- SHL (R131): Shift left. -/
  | shl (f : BitVec 4) (d : BitVec 7) (a : BitVec 7) (b : BitVec 7)
  /-- SHR (R131): Logical shift right. -/
  | shr (f : BitVec 4) (d : BitVec 7) (a : BitVec 7) (b : BitVec 7)
  /-- SAR (R131): Arithmetic shift right. -/
  | sar (f : BitVec 4) (d : BitVec 7) (a : BitVec 7) (b : BitVec 7)
  /-- ROT (R131): Rotate left. -/
  | rot (f : BitVec 4) (d : BitVec 7) (a : BitVec 7) (b : BitVec 7)
  /-- BFX (R133): Extracts a bit field. -/
  | bfx (f : BitVec 4) (d : BitVec 7) (a : BitVec 7) (b : BitVec 7)
  /-- BFI (R133): Inserts a bit field. -/
  | bfi (f : BitVec 3) (d : BitVec 7) (a : BitVec 7) (b : BitVec 7)
  /-- BITC (R134): Counts leading or trailing zeros or one bits, or reverses the bits. -/
  | bitc (f : BitVec 2) (w : BitVec 1) (d : BitVec 7) (a : BitVec 7)
  /-- MIN (R131): Integer minimum. -/
  | min (u : BitVec 1) (w : BitVec 1) (s : BitVec 1) (d : BitVec 7) (a : BitVec 7) (b : BitVec 7)
  /-- MAX (R131): Integer maximum. -/
  | max (u : BitVec 1) (w : BitVec 1) (s : BitVec 1) (d : BitVec 7) (a : BitVec 7) (b : BitVec 7)
  /-- CMP (R135): Integer compare into a predicate. -/
  | cmp (c : BitVec 4) (v : BitVec 1) (w : BitVec 1) (p : BitVec 4) (a : BitVec 7) (b : BitVec 7)
  /-- CMPI (R135): Compares with an immediate into a predicate. -/
  | cmpi (c : BitVec 4) (p : BitVec 4) (a : BitVec 7) (i : BitVec 10) (hi : Option (BitVec 25))
  /-- SEL (R136): Selects A or B by a predicate. -/
  | sel (p : BitVec 4) (d : BitVec 7) (a : BitVec 7) (b : BitVec 7)
  /-- MOV (R137): Copies a value between register classes. -/
  | mov (f : BitVec 4) (d : BitVec 7) (a : BitVec 7)
  /-- MOVI (R132): Moves an immediate into a register. -/
  | movi (d : BitVec 7) (u : BitVec 1) (w : BitVec 1) (i : BitVec 11) (hi : Option (BitVec 25))
  /-- DIV (R65): Integer division truncated toward zero. -/
  | div (f : BitVec 4) (d : BitVec 7) (a : BitVec 7) (b : BitVec 7)
  /-- REM (R65): Integer remainder. -/
  | rem (f : BitVec 4) (d : BitVec 7) (a : BitVec 7) (b : BitVec 7)
  /-- LEA (R139): Forms an address from a pointer and a scaled index. -/
  | lea (n : BitVec 1) (s : BitVec 2) (d : BitVec 7) (a : BitVec 7) (g : BitVec 5)
  /-- LEA_LS (R139): Forms a lane-store window address from the call-stack pointer. -/
  | leaLs (s : BitVec 2) (d : BitVec 7) (a : BitVec 7)
  /-- PLOG (R138): Combines two predicates through a truth table. -/
  | plog (t : BitVec 4) (d : BitVec 4) (a : BitVec 4) (b : BitVec 4)
  /-- BR (R141): Conditional relative branch that ends the run. -/
  | br (n : BitVec 1) (p : BitVec 4) (o : BitVec 20)
  /-- BRI (R141): Indirect branch to a register pair. -/
  | bri (n : BitVec 1) (p : BitVec 4) (a : BitVec 7)
  /-- CALL (R142): Relative call that pushes a frame on the lane-store call stack. -/
  | call (n : BitVec 1) (p : BitVec 4) (o : BitVec 20)
  /-- CALLI (R142): Indirect call. -/
  | calli (n : BitVec 1) (p : BitVec 4) (a : BitVec 7)
  /-- RET (R142): Pops a frame and returns, restoring the window base. -/
  | ret (n : BitVec 1) (p : BitVec 4)
  /-- EXIT (R24): The thread exits; the team's first finish step follows when the last thread exits. -/
  | exit (n : BitVec 1) (p : BitVec 4)
  /-- YIELD (R31): Ends the run, and the thread is not a candidate at the next picker decision. -/
  | yield (n : BitVec 1) (p : BitVec 4)
  /-- WINB (R144): Sets the register window base. -/
  | winb (r : BitVec 1) (i : BitVec 11)
  /-- LSHUF (R146): Shuffles a value across the lanes of a group. -/
  | lshuf (f : BitVec 2) (w : BitVec 1) (x : BitVec 1) (d : BitVec 7) (a : BitVec 7) (b : BitVec 7)
  /-- LPUSH (R147): Sends values to target lanes, with a collision predicate. -/
  | lpush (p : BitVec 4) (d : BitVec 7) (a : BitVec 7) (b : BitVec 7)
  /-- LROT (R146): Rotates values across the lanes of a group. -/
  | lrot (f : BitVec 2) (w : BitVec 1) (d : BitVec 7) (a : BitVec 7) (b : BitVec 7)
  /-- LRED (R148): Reduces over the issued lanes in a fixed tree order. -/
  | lred (f : BitVec 4) (d : BitVec 7) (a : BitVec 7)
  /-- LSCAN (R149): Prefix scan over the issued lanes. -/
  | lscan (e : BitVec 1) (f : BitVec 3) (d : BitVec 7) (a : BitVec 7)
  /-- VOTE (R150): Any, all, ballot or equality vote over the issued lanes. -/
  | vote (w : BitVec 1) (f : BitVec 2) (d : BitVec 7) (a : BitVec 7)
  /-- LMATCH (R151): Mask of the lanes holding equal values. -/
  | lmatch (w : BitVec 1) (d : BitVec 7) (a : BitVec 7)
  /-- FADD (R159): Floating-point addition. -/
  | fadd (r : BitVec 2) (t : BitVec 2) (d : BitVec 7) (a : BitVec 7) (b : BitVec 7)
  /-- FSUB (R159): Floating-point subtraction. -/
  | fsub (r : BitVec 2) (t : BitVec 2) (d : BitVec 7) (a : BitVec 7) (b : BitVec 7)
  /-- FMUL (R159): Floating-point multiplication. -/
  | fmul (r : BitVec 2) (t : BitVec 2) (d : BitVec 7) (a : BitVec 7) (b : BitVec 7)
  /-- FFMA (R159): Fused multiply-add into the destination. -/
  | ffma (r : BitVec 2) (t : BitVec 2) (d : BitVec 7) (a : BitVec 7) (b : BitVec 7)
  /-- FFMAT (R160): Fused multiply-add with a temporary or +0 as the addend. -/
  | ffmat (c : BitVec 3) (y : BitVec 1) (d : BitVec 7) (a : BitVec 7) (b : BitVec 7)
  /-- FMIN (R162): Floating-point minimum. -/
  | fmin (t : BitVec 2) (d : BitVec 7) (a : BitVec 7) (b : BitVec 7)
  /-- FMAX (R162): Floating-point maximum. -/
  | fmax (t : BitVec 2) (d : BitVec 7) (a : BitVec 7) (b : BitVec 7)
  /-- FCMP (R161): Floating-point compare into a predicate. -/
  | fcmp (c : BitVec 4) (t : BitVec 2) (p : BitVec 4) (a : BitVec 7) (b : BitVec 7)
  /-- FCVT (R167): Converts between integer and floating formats, with optional stochastic rounding. -/
  | fcvt (d : BitVec 7) (a : BitVec 7) (b : BitVec 7) (dt : BitVec 4) (st : BitVec 4) (rnd : BitVec 3) (seed : BitVec 6)
  /-- FRND (R165): Rounds to an integral value. -/
  | frnd (r : BitVec 2) (t : BitVec 2) (d : BitVec 7) (a : BitVec 7)
  /-- FDIV (R159): Correctly rounded division. -/
  | fdiv (r : BitVec 2) (t : BitVec 2) (d : BitVec 7) (a : BitVec 7) (b : BitVec 7)
  /-- FSQRT (R159): Correctly rounded square root. -/
  | fsqrt (r : BitVec 2) (t : BitVec 2) (d : BitVec 7) (a : BitVec 7)
  /-- FSFU (R169): Correctly rounded FP32 special function. -/
  | fsfu (f : BitVec 3) (d : BitVec 7) (a : BitVec 7)
  /-- FSGN (R163): Sign manipulation. -/
  | fsgn (o : BitVec 2) (t : BitVec 2) (d : BitVec 7) (a : BitVec 7) (b : BitVec 7)
  /-- FCLASS (R164): Writes a class mask of the operand. -/
  | fclass (t : BitVec 2) (d : BitVec 7) (a : BitVec 7)
  /-- LUT (R171): Evaluates an activation table from the group's latched bank. -/
  | lut (t : BitVec 2) (d : BitVec 7) (a : BitVec 7)
  /-- LUTLD (R172): Queues a load of an activation table into its inactive bank. -/
  | lutld (t : BitVec 2) (d : BitVec 7) (g : BitVec 5)
  /-- LD (R179): Weak load. -/
  | ld (s : BitVec 3) (d : BitVec 7) (g : BitVec 5) (o : BitVec 9)
  /-- ST (R179): Weak store, pending in the core. -/
  | st (s : BitVec 3) (d : BitVec 7) (g : BitVec 5) (o : BitVec 9)
  /-- LDS (R181): Strong load at the home. -/
  | lds (o : BitVec 2) (z : BitVec 2) (d : BitVec 7) (g : BitVec 5) (s : BitVec 3)
  /-- STS (R181): Strong store at the home. -/
  | sts (o : BitVec 2) (z : BitVec 2) (d : BitVec 7) (g : BitVec 5) (s : BitVec 3)
  /-- LDX (R179): Weak indexed load. -/
  | ldx (s : BitVec 3) (d : BitVec 7) (g : BitVec 5) (i : BitVec 7) (c : BitVec 2)
  /-- STX (R179): Weak indexed store. -/
  | stx (s : BitVec 3) (d : BitVec 7) (g : BitVec 5) (i : BitVec 7) (c : BitVec 2)
  /-- ATOM (R183): Atomic read-modify-write at the home. -/
  | atom (f : BitVec 4) (d : BitVec 7) (a : BitVec 7) (g : BitVec 5) (o : BitVec 2) (sc : BitVec 3) (ty : BitVec 2)
  /-- ACAS (R184): Atomic compare-and-swap. -/
  | acas (d : BitVec 7) (a : BitVec 7) (b : BitVec 7) (g : BitVec 5) (o : BitVec 2) (sc : BitVec 3) (ty : BitVec 2) (p : BitVec 4)
  /-- FATOM (R185): Floating-point atomic, binned in deterministic grids. -/
  | fatom (f : BitVec 4) (d : BitVec 7) (a : BitVec 7) (g : BitVec 5) (o : BitVec 2) (sc : BitVec 3) (ty : BitVec 2)
  /-- GADD (R186): Adds exactly into a binned region's shadow. -/
  | gadd (a : BitVec 7) (g : BitVec 5) (o : BitVec 2) (sc : BitVec 3) (ty : BitVec 1)
  /-- PHASE (R187): Release fence followed by an acquire fence. -/
  | phase (s : BitVec 3)
  /-- PHASE_PUB (R187): Release fence that publishes at .die and wider. -/
  | phasePub (s : BitVec 3)
  /-- PHASE_ACQ (R187): Acquire fence that refreshes the snapshot. -/
  | phaseAcq (s : BitVec 3)
  /-- FENCESC (R106): Drains the core and starts the SC fence. -/
  | fencesc
  /-- GSET (R177): Sets an address register's group fields and points the threads at the base. -/
  | gset (u : BitVec 1) (g : BitVec 5) (a : BitVec 7) (b : BitVec 7) (perm : BitVec 4) (kind : BitVec 2)
  /-- GADV (R178): Advances the pointer, with a bounds check. -/
  | gadv (g : BitVec 5) (a : BitVec 7) (w : BitVec 1) (s : BitVec 2)
  /-- GGET (R178): Reads an address-register field. -/
  | gget (d : BitVec 7) (g : BitVec 5) (f : BitVec 2)
  /-- GPTR (R178): Sets the pointer, with a bounds check. -/
  | gptr (g : BitVec 5) (a : BitVec 7)
  /-- BAR_SYNC (R38): Arrives at a barrier and waits. -/
  | barSync (s : BitVec 1) (i : BitVec 4)
  /-- BAR_ARRIVE (R38): Arrives at a barrier without blocking. -/
  | barArrive (s : BitVec 1) (i : BitVec 4)
  /-- BAR_WAIT (R38): Waits for the barrier phase of the latest arrival. -/
  | barWait (s : BitVec 1) (i : BitVec 4)
  /-- SLWAIT (R191): Claims the next Filled slot for reading, or waits. -/
  | slwait (d : BitVec 7) (g : BitVec 5)
  /-- SLREL (R191): Frees a slot that is being read. -/
  | slrel (g : BitVec 5) (b : BitVec 7)
  /-- SLFREE (R191): Claims the next Free slot for filling, or waits. -/
  | slfree (d : BitVec 7) (g : BitVec 5)
  /-- SLCOMMIT (R191): Marks a slot Filled and serves the head waiter. -/
  | slcommit (g : BitVec 5) (b : BitVec 7)
  /-- MMQ (R201): Matrix multiply of quarter rows into an accumulator tile. -/
  | mmq (k : BitVec 4) (acc : BitVec 4) (s : BitVec 2) (ga : BitVec 5) (gb : BitVec 5) (wsa : BitVec 6) (wsb : BitVec 6)
  /-- ACCZ (R203): Zeroes a tile and sets its mode and anchor. -/
  | accz (m : BitVec 1) (acc : BitVec 4) (anchor : BitVec 16)
  /-- ACCDR (R204): Drains a tile to memory or to a tile register, with scale, dropout and residual. -/
  | accdr (f : BitVec 4) (acc : BitVec 4) (td : BitVec 1) (a : BitVec 5) (rg : BitVec 5) (res : BitVec 1) (rnd : BitVec 3) (scl : BitVec 1) (drop : BitVec 1) (wu : BitVec 6)
  /-- ACCSV_SAVE (R205): Saves a tile image to memory. -/
  | accsvSave (acc : BitVec 4) (g : BitVec 5)
  /-- ACCSV_LOAD (R205): Restores a tile image from memory. -/
  | accsvLoad (acc : BitVec 4) (g : BitVec 5)
  /-- TLD (R205): Loads a tile register from memory. -/
  | tld (t : BitVec 3) (g : BitVec 5) (ws : BitVec 6)
  /-- TST (R205): Stores a tile register to memory. -/
  | tst (t : BitVec 3) (g : BitVec 5) (ws : BitVec 6)
  /-- ACCRD (R205): Reads one accumulator element per lane. -/
  | accrd (f : BitVec 2) (d : BitVec 7) (a : BitVec 7) (c : BitVec 4)
  /-- BINCTL_DECL (R207): Declares a binned region on every die. -/
  | binctlDecl (id : BitVec 6) (g : BitVec 5)
  /-- BINCTL_FIN (R207): Finalises elements into their primary words. -/
  | binctlFin (id : BitVec 6) (a : BitVec 7) (b : BitVec 7)
  /-- BINCTL_FINCLR (R207): Finalises elements and clears their bins. -/
  | binctlFinclr (id : BitVec 6) (a : BitVec 7) (b : BitVec 7)
  /-- BINCTL_FREE (R207): Clears a region entry. -/
  | binctlFree (id : BitVec 6)
  /-- RAST (R213): Walks a triangle's covered samples into the lanes. -/
  | rast (sc : BitVec 2) (d : BitVec 7) (wv : BitVec 6) (wt : BitVec 6) (p : BitVec 4) (si : BitVec 7)
  /-- RASTG (R216): Interior adjoint of RAST into the vertex gradients. -/
  | rastg (sc : BitVec 2) (g : BitVec 5) (a : BitVec 7) (b : BitVec 7) (wv : BitVec 6) (p : BitVec 4) (si : BitVec 7)
  /-- EDGS (R218): Samples points on the silhouette edges. -/
  | edgs (d : BitVec 7) (wv : BitVec 6) (wt : BitVec 6) (p : BitVec 4) (wk : BitVec 6)
  /-- TEX (R223): Filtered texture sample. -/
  | tex (lz : BitVec 1) (d : BitVec 7) (a : BitVec 7) (b : BitVec 7)
  /-- TEXG (R223): Gathers one channel of four bilinear taps. -/
  | texg (lz : BitVec 1) (ch : BitVec 2) (d : BitVec 7) (a : BitVec 7) (b : BitVec 7)
  /-- TEXL (R223): Loads one texel. -/
  | texl (d : BitVec 7) (a : BitVec 7) (b : BitVec 7)
  /-- TEXB (R224): Texture adjoint: scatters gradients and returns dL/du, dL/dv. -/
  | texb (lz : BitVec 1) (d : BitVec 7) (a : BitVec 7) (b : BitVec 7) (gr : BitVec 7)
  /-- RREC_DIM (R225): Reads a level's dimensions. -/
  | rrecDim (d : BitVec 7) (a : BitVec 7) (b : BitVec 7)
  /-- RREC_FMT (R225): Reads the format and the level count. -/
  | rrecFmt (d : BitVec 7) (b : BitVec 7)
  /-- RREC_INV (R225): Drops the core's record caches. -/
  | rrecInv
  /-- RQINIT (R234): Initialises a ray query's state. -/
  | rqinit (q : BitVec 1) (d : BitVec 7) (a : BitVec 7) (log : BitVec 1) (fp : BitVec 1) (opq : BitVec 1) (fht : BitVec 1)
  /-- RQPROC (R235): Continues the traversal to the next candidate or to Done. -/
  | rqproc (q : BitVec 1) (d : BitVec 7) (a : BitVec 7)
  /-- RQCAND (R236): Reads a field of the current candidate. -/
  | rqcand (f : BitVec 3) (q : BitVec 1) (d : BitVec 7) (a : BitVec 7)
  /-- RQCOMMIT (R237): Decides the candidate under the closest-hit rule. -/
  | rqcommit (q : BitVec 1) (a : BitVec 7) (b : BitVec 7)
  /-- RQABORT (R237): Ends the query, keeping the committed hit. -/
  | rqabort (q : BitVec 1)
  /-- RQRES (R236): Reads a field of the committed result. -/
  | rqres (f : BitVec 3) (q : BitVec 1) (d : BitVec 7) (a : BitVec 7)
  /-- RQGRAD (R245): Adjoint of an exact intersection into the vertex gradients. -/
  | rqgrad (d : BitVec 7) (a : BitVec 7) (b : BitVec 7) (ir : BitVec 7) (gu : BitVec 7) (g : BitVec 5) (k : BitVec 1)
  /-- RQTRI (R244): Recomputes a triangle hit in FP64. -/
  | rqtri (d : BitVec 7) (a : BitVec 7) (b : BitVec 7) (ir : BitVec 7) (p : BitVec 4) (k : BitVec 1)
  /-- TREC (R253): Pushes one record onto the tape. -/
  | trec (n : BitVec 2) (k : BitVec 7) (a : BitVec 7)
  /-- TPOP (R254): Pops one record from the tape. -/
  | tpop (d : BitVec 7) (a : BitVec 7)
  /-- TMARK_OPEN (R255): Opens a recompute span. -/
  | tmarkOpen (a : BitVec 7) (b : BitVec 7)
  /-- TMARK_CLOSE (R255): Closes the recompute span. -/
  | tmarkClose
  /-- TCTL_BIND (R258): Syncs any bound tape, then binds each thread's tape area. -/
  | tctlBind (g : BitVec 5)
  /-- TCTL_STAT (R258): Reads the tape flags. -/
  | tctlStat (d : BitVec 7)
  /-- TCTL_SEEK (R258): Pops records down to a target position. -/
  | tctlSeek (a : BitVec 7)
  /-- TCTL_SYNC (R259): Writes the tape header and frames to memory. -/
  | tctlSync
  /-- RSVUPD (R260): Streams one candidate into a reservoir with a Clove draw. -/
  | rsvupd (q : BitVec 3) (a : BitVec 7) (b : BitVec 7)
  /-- RSVMRG (R261): Merges one reservoir into another. -/
  | rsvmrg (s : BitVec 3) (d : BitVec 3) (a : BitVec 7) (b : BitVec 7)
  /-- RSVINIT (R262): Clears a reservoir. -/
  | rsvinit (q : BitVec 3)
  /-- RSVFIN (R262): Computes the reservoir's weight. -/
  | rsvfin (d : BitVec 7) (q : BitVec 3)
  /-- RSVGET (R262): Copies reservoir fields into vector registers. -/
  | rsvget (d : BitVec 7) (q : BitVec 3) (b : BitVec 7)
  /-- RSVSET (R262): Writes reservoir fields from vector registers. -/
  | rsvset (q : BitVec 3) (a : BitVec 7) (b : BitVec 7)
  /-- CLOVE (R263): Returns a Clove output word or a uniform draw. -/
  | clove (u : BitVec 1) (k : BitVec 1) (d : BitVec 7) (a : BitVec 7) (b : BitVec 7)
  /-- SPAWN (R265): The leader launches a child grid. -/
  | spawn (g : BitVec 5) (dm : BitVec 4) (ctr : BitVec 12) (sig : BitVec 1)
  /-- TQADD (R268): Enqueues range tasks, or places them in the pending table. -/
  | tqadd (g : BitVec 5) (q : BitVec 6) (xd : BitVec 1) (die : BitVec 2)
  /-- TQGET (R271): Finishes the group's previous chunk and obtains a new chunk, a stolen piece, EMPTY, or a wait. -/
  | tqget (d : BitVec 7) (q : BitVec 6)
  /-- DEPOP_SET (R274): Sets a dependence counter. -/
  | depopSet (d : BitVec 7) (a : BitVec 7) (b : BitVec 7)
  /-- DEPOP_ADD (R274): Adds to a dependence counter. -/
  | depopAdd (d : BitVec 7) (a : BitVec 7) (b : BitVec 7)
  /-- DEPOP_GET (R274): Reads a dependence counter. -/
  | depopGet (d : BitVec 7) (a : BitVec 7)
  /-- SPUSH (R278): Pushes beads to an output strand, or waits. -/
  | spush (d : BitVec 7) (g : BitVec 5) (o : BitVec 1)
  /-- SPOP (R279): Pops a bead, or returns END or YIELD, or waits. -/
  | spop (d : BitVec 7) (g : BitVec 5)
  /-- SCTL_CLOSE (R280): Closes an output strand as producer. -/
  | sctlClose (o : BitVec 2)
  /-- SCTL_STAT (R280): Reads a strand's status. -/
  | sctlStat (d : BitVec 7) (o : BitVec 2)
  /-- SYSR (R62): Reads a status register. -/
  | sysr (d : BitVec 7) (c : BitVec 1) (w : BitVec 1) (s : BitVec 11)
  /-- SYSW (R62): Writes a status register, effective from the next run. -/
  | sysw (c : BitVec 1) (w : BitVec 1) (a : BitVec 7) (s : BitVec 11)
  /-- TRAP (R152): Raises TRAP_INSN; trap 2047 returns from a handler. -/
  | trap (i : BitVec 11)
  /-- ICINV (R153): Discards the core's instruction lines and loop buffers. -/
  | icinv
  /-- SLEEP (R154): The thread sleeps for a count of heartbeat ticks. -/
  | sleep (v : BitVec 1) (a : BitVec 7) (i : BitVec 11)
  /-- FWRET (R155): Ends a firmware handler and resumes the interrupted thread. -/
  | fwret
  /-- CPX_LAUNCH (R288): Launches a grid or pipeline on the dies of the mask. -/
  | cpxLaunch (a : BitVec 7) (b : BitVec 7) (sem : BitVec 12) (dm : BitVec 4) (sig : BitVec 1) (add : BitVec 1)
  /-- CPX_SEMWAIT (R292): Waits until a semaphore meets a condition. -/
  | cpxSemwait (d : BitVec 7) (a : BitVec 7) (sem : BitVec 12) (ne : BitVec 1)
  /-- CPX_SEMSIG (R292): Writes a semaphore. -/
  | cpxSemsig (a : BitVec 7) (sem : BitVec 12)
  /-- CPX_SEMADD (R292): Adds to a semaphore and returns the old value. -/
  | cpxSemadd (d : BitVec 7) (a : BitVec 7) (sem : BitVec 12)
  /-- CPX_CCOPY (R294): Starts a copy through the hub copy path. -/
  | cpxCcopy (d : BitVec 7) (a : BitVec 7) (b : BitVec 7) (sem : BitVec 12) (sig : BitVec 1) (add : BitVec 1) (v : BitVec 7)
  /-- CPX_IRQ (R294): Sends an MSI-X vector to the host. -/
  | cpxIrq (vec : BitVec 11)
  /-- CPX_CHALT (R294): Ends the command context in state Halted. -/
  | cpxChalt
  /-- SUBMIT (R337): A host write to the mailbox SUBMIT register starts a request, or is discarded, setting OVERRUN when BUSY is set, and a request whose CODE is 0x00 or 0x10–0xFF is answered with BADCMD. -/
  | submit (val : BitVec 32)
  /-- MSIX_VECTOR_UNMASK (R294): The host unmasks an MSI-X vector whose pending bit is set, and the device then sends the pending message. -/
  | msixVectorUnmask (vec : Nat)
  deriving DecidableEq, Repr

end Sys2Proof
end

