-- ==== Sys2Proof/Machine/State.lean ====
section
/-! DEFINITION. The state of the package, as plain data: every register, queue, table and memory the spec names,
the three outcomes' reasons, and the state right after reset. Units are tables keyed by their numbers.

Deterministic tasks see global memory through their windows: bit 110 and up of a home address name the task's view.

Keys. A core is 96 * die + index, 0 to 383. A slot (issuer) is 4 * core + slot, 0 to 1535; command core k is issuer
1536 + k. A compute thread's key is ((core * 4 + slot) * 8 + layer) * 64 + lane; command context c is thread
2^20 + c. A group's key is the thread key of its first lane; a command context is a group of its own key.
Home addresses: a physical address below 2^52; die-shared byte o of die d at 2^52 + d * 2^26 + o; device page offset o
at 2^54 + o; team-local byte o of team t at 2^60 + t * 2^21 + o; lane-store byte o of the
thread named u at 2^100 + u * 2^11 + o. -/

namespace Sys2Proof.Machine

/-- The canonical form of memory: cells with strictly rising home addresses, and none that holds the zero that an
unlisted address reads as. -/
def Memory.wf (m : List Host.Cell) : Bool := Tab.wf 0 m

/-- Why the machine stops. -/
inductive Fault where
  /-- An event of a start or of a command acts on a part that the spec gives no behaviour for while the module is in
  minimal mode or unpowered. Raised by no meaning of a legal run. Safe: the machine stops where the spec is silent. -/
  | unpowered
  deriving DecidableEq, Repr

/-- Why an instruction has no meaning. -/
inductive Refusal where
  /-- The instruction has no meaning in this model yet. Raised by the dispatch only. Safe. -/
  | notModelled (mnemonic : String)
  deriving DecidableEq, Repr

/-- The group fields of an address register (R48). -/
structure GField where
  base : DWord := 0
  limit : BitVec 40 := 0
  perm : BitVec 4 := 0
  kind : BitVec 2 := 0
  deriving DecidableEq, Repr

/-- What a thread waits on, its state of R29 (and of R293 for a command context). -/
inductive Wait where
  | ready
  | issued
  /-- Stopped by a fault and back at its resumption point, until every thread of that fault is (R363). A thread at a
  barrier is marked by `held` and `barWait`. -/
  | rejoining
  /-- Waits at a slot ring: SLFREE side or not, home address of the block, destination register. -/
  | ring (free : Bool) (block dreg : Nat)
  | push (out : Nat) (pva : DWord) (seq : Word)
  | pop (pva : DWord) (dreg : Nat)
  /-- Waits for a chunk: the queue, and the number of its request among the die's askers. -/
  | task (queue ask : Nat)
  | asleep (n : Nat)
  | exited
  | sem (n : Nat) (ne : Bool) (cmp : DWord) (dreg : Nat)
  | faulted
  | stopped
  deriving DecidableEq, Repr

/-- A register of a thread, a group or a core. -/
inductive RegId where
  | vreg (th phys : Nat)
  | temp (th n : Nat)
  | ureg (grp n : Nat)
  | pred (th n : Nat)
  | ptr (th n : Nat)
  | gfield (grp n : Nat)
  | rsv (th n : Nat)
  | tile (grp n : Nat)
  deriving DecidableEq, Repr

/-- A register write (the destination of a fixed- or variable-latency result). -/
inductive RegWrite where
  | vreg (th phys : Nat) (v : Word)
  | temp (th n : Nat) (v : Word)
  | ureg (grp n : Nat) (v : Word)
  | pred (th n : Nat) (b : Bool)
  | ptr (th n : Nat) (p : DWord)
  | gfield (grp n : Nat) (f : GField)
  | rsv (th n : Nat) (v : BitVec 128)
  /-- Row `row % 32` of tile register `row / 32`, and whether its source was poisoned (R388). -/
  | tile (grp row : Nat) (cells : List (BitVec 16)) (bad : Bool)
  deriving DecidableEq, Repr

/-- A fixed-latency result in flight within a run (R58): the clk at which it is ready, and the write. -/
structure FixedWrite where
  due : Nat
  write : RegWrite
  deriving DecidableEq, Repr

/-- A variable-latency result in flight (R59): its writes, the thread it belongs to (for Draining, R54), the run and
position of the instruction, and the flags it raises on landing (R158). -/
structure Pending where
  id : Nat
  th : Nat
  uid : Nat
  run : Nat
  pc : DWord
  pos : Nat
  writes : List RegWrite
  flags : BitVec 5 := 0
  /-- Its flags raise no trap (R382). -/
  quiet : Bool := false
  /-- A source was poisoned: the registers are poisoned as the result lands (R388). -/
  bad : Bool := false
  deriving DecidableEq, Repr

/-- The tape registers of a thread (R249, R250). -/
structure Tape where
  bound : Bool := false
  base : DWord := 0
  budget : Nat := 0
  top : Nat := 0
  disc : Bool := false
  isOpen : Bool := false
  s0 : Word := 0
  s1 : Word := 0
  s2 : Word := 0
  s3 : Word := 0
  markp : Nat := 0
  m0 : Word := 0
  m1 : Word := 0
  m2 : Word := 0
  m3 : Word := 0
  count : Nat := 0
  deriving DecidableEq, Repr

/-- The row-progress mask of a faulted MMQ (R395): the word it belongs to and the mask. A thread has one for each fault it is stopped
by, or has resumed from. -/
structure MmqMask where
  pc : DWord
  pos : Nat
  rows : BitVec 8
  /-- ACCSAT was raised by the rows done, with the trap of R397 still to come. -/
  sat : Bool := false
  /-- The fault whose resumption reissues the word. -/
  fid : Nat := 0
  deriving DecidableEq, Repr

/-- A fault record (R365). -/
structure Record where
  code : Nat
  cls : Nat
  ctx : Nat := 0
  stop : Nat := 0
  slot : Nat := 0xFF
  layer : Nat := 0xFF
  lanes : DWord := 0
  pc : DWord := 0
  runpos : Nat := 0
  flags : Nat := 0
  src : Nat := 0
  rows : Nat := 0
  info : Nat := 0
  addr : DWord := 0
  cmd : Nat := 0
  seq : Nat := 0
  hbt : Nat := 0
  /-- The model's own: the clk the fault was raised in, which orders records (R368), and a number that names the record. -/
  clk : Nat := 0
  id : Nat := 0
  deriving DecidableEq, Repr

/-- A fault due at a thread's next run boundary: an armed ACC_SAT (R397), or a poisoned table image (R381). `pc` and `pos` name the
instruction. -/
structure DueTrap where
  code : Nat
  cls : Nat := 0
  info : Nat := 0
  addr : DWord := 0
  rows : Nat := 0
  src : Nat := 0
  pc : DWord
  pos : Nat
  deriving DecidableEq, Repr

/-- A thread (R43, R52, R29). -/
structure Thread where
  live : Bool := false
  uid : Nat := 0
  grp : Nat := 0
  team : Nat := 0
  idx : Nat := 0
  tid : Nat := 0
  lid : Word := 0
  alloc : Nat := 0
  laneSz : Nat := 0
  /-- Where the slice lies in its lane's store (R87). -/
  laneOff : Nat := 0
  pc : DWord := 0
  wait : Wait := .ready
  csp : Nat := 0
  age : Nat := 0
  yielded : Bool := false
  pos : Nat := 0
  winb : Nat := 0
  preds : BitVec 16 := 0x8000
  fpcsr : Word := 0
  chk : Word := 0
  v : Tab Word := []
  tm : Tab Word := []
  tmMask : BitVec 6 := 0
  rsv : Tab (BitVec 128) := []
  ptr : Tab DWord := []
  /-- For barrier 16 * scope + id: one more than the phase of the latest arrival; the thread has arrived in the current
  phase (R52, 0x016) when that exceeds the phases released. -/
  phases : Tab Nat := []
  /-- Held arrivals in order (R38), as 16 * scope + id. -/
  held : List Nat := []
  /-- The wait of a BAR word, evaluated at the trailer after the held arrivals (R38), as 16 * scope + id. -/
  barWait : Option Nat := none
  tape : Tape := {}
  /-- The tape as the last completed sync or the bind left it (R406). -/
  synced : Tape := {}
  /-- Barrier-wait: the run has ended with arrivals held or a wait not over. -/
  atBar : Bool := false
  /-- The heartbeat at which the thread's FENCESC completes (R106). -/
  fence : Option Nat := none
  /-- A tape sync or BINCTL.DECL the thread's next run waits for (R259, R207). -/
  syncing : Bool := false
  /-- Pending results the next issue set waits for (R59). -/
  awaits : List Nat := []
  mmq : List MmqMask := []
  /-- Set by the last word of the run: the next PC, and the window base a RET restores after the trailer (R141). -/
  nextPc : Option DWord := none
  nextWinb : Option Nat := none
  /-- What the last word of the run makes of the thread (a wait or an exit). -/
  nextWait : Option Wait := none
  /-- SYSW values that take effect from the next run (R62). -/
  nextFpcsr : Option Word := none
  nextChk : Option Word := none
  /-- The same for sr.rheap and sr.sheap of a command context, by selector. -/
  nextHeap : Tab Word := []
  /-- Flags raised by landed results whose trap is due at the next run boundary (R158, R382). -/
  trapFlags : BitVec 5 := 0
  trapPc : DWord := 0
  trapPos : Nat := 0
  /-- The number of that result: the earliest names the fault (R382). -/
  trapId : Nat := 0
  /-- Other faults due at the next run boundary, in order (R381, R397). -/
  traps : List DueTrap := []
  /-- Run and position of the blocking word the thread waits at (R278, R380). -/
  blkPc : DWord := 0
  blkPos : Nat := 0
  /-- The order in which waiting threads arrived. -/
  arr : Nat := 0
  /-- The faults that stopped the thread, the latest first, until the threads of each resume together (R363): a fault in a
  handler stands ahead of the one that is handled. -/
  fids : List Nat := []
  /-- The registers whose variable-latency write was issued in the run that a fault stopped (obligation 2 of R60), by fault; and those
  of the run that the thread is to go on with. -/
  lates : List (Nat × List RegId) := []
  lateRun : List RegId := []
  /-- The temporaries written before the fault that stopped the thread mid-run (R46). -/
  tmKept : BitVec 6 := 0
  /-- A deliverable fault raised while the context was being saved: its record (R370). -/
  due : Option Record := none
  /-- The clk of the thread's latest acquire, or of its placement (R103, R110). -/
  acqAt : Nat := 0
  deriving DecidableEq, Repr

/-- A group barrier (R37, R53). -/
structure GBar where
  arrived : DWord := 0
  released : Nat := 0
  deriving DecidableEq, Repr

/-- A table latch (R173, R174). -/
structure Latch where
  latched : Bool := false
  bank : Bool := false
  version : Word := 0
  deriving DecidableEq, Repr

/-- A group (R21). -/
structure Group where
  live : Bool := false
  team : Nat := 0
  gidx : Nat := 0
  width : Nat := 1
  w : Tab Word := []
  g : Tab GField := []
  tiles : Nat := 0
  tile : Tab (BitVec 16) := []
  bars : Tab GBar := []
  latch : Tab Latch := []
  accB : Nat := 0
  accC : Nat := 0
  /-- Chunks taken and not finished, as (queue, task) (R270). -/
  chunks : List (Nat × Nat) := []
  deriving DecidableEq, Repr

/-- A team barrier (R37, R327). -/
structure TBar where
  count : Nat := 0
  released : Nat := 0
  /-- A release of a multi-core team in flight: 24 clk after the last arrival (R39). -/
  releasing : Bool := false
  deriving DecidableEq, Repr

/-- Where a team stands (R24, R85). -/
inductive TeamPhase where
  | handover
  | resident
  | finishing
  | finished
  deriving DecidableEq, Repr

/-- A team (R21 to R28). -/
structure Team where
  live : Bool := false
  phase : TeamPhase := .handover
  grid : Nat := 0
  ctx : Nat := 0
  x : Nat := 0
  y : Nat := 0
  z : Nat := 0
  lin : Nat := 0
  /-- The task of a deterministic grid the team belongs to (R304). -/
  task : Option Nat := none
  cores : List Nat := []
  /-- The cores on which the team's part is saved (R324). -/
  away : List Nat := []
  nthreads : Nat := 0
  exited : Nat := 0
  localSz : Nat := 0
  /-- Claimed granules of local SRAM, as 16 * core + granule, team-local ones first on each core (R86). -/
  localGran : List Nat := []
  tapeGran : List Nat := []
  tag : Option Nat := none
  bars : Tab TBar := []
  children : Nat := 0
  deriving DecidableEq, Repr

/-- The launch descriptor (R289). -/
structure Desc where
  pc : DWord := 0
  ctx : Nat := 0
  kind : Nat := 0
  width : Nat := 8
  threads : Nat := 8
  shape : Nat := 0
  regs : Nat := 16
  ex : Nat := 1
  ey : Nat := 1
  ez : Nat := 1
  lane : Nat := 0
  loc : Nat := 0
  tape : Nat := 0
  tiles : Nat := 0
  accB : Nat := 0
  accC : Nat := 0
  det : Nat := 0
  stage : Nat := 0xFF
  arg : DWord := 0
  priv : DWord := 0
  dtab : DWord := 0
  user : List Word := []
  deriving DecidableEq, Repr

/-- What completion does (R286, R265). -/
inductive Signal where
  | none
  | sem (c n : Nat) (add : Bool) (val : DWord)
  | ctr (die n : Nat)
  deriving DecidableEq, Repr

/-- A GADD bin update on its way to the bank ALU (R94, R384): home address of the shadow, primary address, addend. -/
structure BinUpd where
  id : Nat
  /-- The word that sent it. -/
  word : Nat := 0
  th : Nat
  ctx : Nat
  shadow : Nat
  primary : DWord
  e : Int
  f64 : Bool
  neg : Bool
  mant : Nat
  exp : Int
  deriving DecidableEq, Repr

/-- A task of a deterministic grid: its held writes, GADDs and digest (R310, R312). -/
structure DetTask where
  p : Nat := 0
  /-- Distinct 128-byte lines charged to the window (R310). -/
  lines : List Nat := []
  finished : Bool := false
  /-- Its first execution mismatched: to be executed again, and being executed again (R421). -/
  again : Bool := false
  retry : Bool := false
  window : Nat := 0
  held : Tab (Option Byte) := []
  gadds : List BinUpd := []
  digest : DWord := 0
  deriving DecidableEq, Repr

/-- The deterministic run of a grid (R304 to R314). -/
structure Det where
  table : DWord := 0
  replay : Bool := false
  plimit : Nat := 0
  windows : Nat := 0
  area : DWord := 0
  total : Nat := 0
  committed : Nat := 0
  tasks : List DetTask := []
  grid : DWord := 0
  failed : Bool := false
  /-- The place in the turns of R313 of the group that holds the turn. -/
  turn : Option Nat := none
  deriving DecidableEq, Repr

/-- A grid (R21 to R26). -/
structure Grid where
  live : Bool := false
  ctx : Nat := 0
  desc : Desc := {}
  depth : Nat := 1
  parent : Option Nat := none
  dies : List Nat := []
  /-- For each die, the number of its teams already placed. -/
  placed : Tab Nat := []
  retired : Nat := 0
  signal : Signal := .none
  cmd : Option Nat := none
  det : Option Det := none
  /-- (pipeline, stage) of a stage's grid. -/
  stage : Option (Nat × Nat) := none
  deriving DecidableEq, Repr

/-- A run being executed by an issue set (R34, R56). -/
structure Run where
  id : Nat := 0
  pc : DWord := 0
  words : List Word := []
  stalls : List Nat := []
  aw : List Nat := []
  pos : Nat := 1
  clk : Nat := 0
  threads : List Nat := []
  fixed : List FixedWrite := []
  /-- Registers whose variable-latency write a word of this run has issued (obligation 2 of R60). -/
  late : List RegId := []
  /-- The current word waits for lines that a Torc step owns: it is performed again a clk later (R107). -/
  held : Bool := false
  deriving DecidableEq, Repr

/-- What an issuer does. -/
inductive Phase where
  | idle
  /-- An issue set chosen, and the candidates of the decision, whose ages change when the run begins (R33, R40). -/
  | chosen (pc : DWord) (pos : Nat) (threads cand : List Nat)
  | running (r : Run)
  deriving DecidableEq, Repr

/-- A store that a line copy, requested before it, does not show: its byte, its thread and its clk. -/
structure Missed where
  home : Nat
  uid : Nat
  clk : Nat
  deriving DecidableEq, Repr

/-- A line copy in a cache: its bytes, by home address, unlisted reading zero, and the stores of the core's threads that it does not
show (R98, R100). -/
structure Line where
  bytes : Tab Byte
  missed : List Missed := []
  deriving DecidableEq, Repr

/-- A translation held in a TLB (R320). -/
structure TlbEntry where
  ctx : Nat
  /-- Virtual base and size of the page. -/
  va : Nat
  size : Nat
  pa : Nat
  w : Bool
  x : Bool
  at_ : Bool
  bs : Bool
  uncached : Bool
  /-- The table levels of the first entries on the path that lack W, X, AT and BS (R374). -/
  lw : Nat := 0
  lx : Nat := 0
  lat : Nat := 0
  lbs : Nat := 0
  deriving DecidableEq, Repr

/-- Words fetched for a run and held by context and address (R330): those from `pc` up, and the translations they were
fetched through. -/
structure CodeCopy where
  ctx : Nat
  pc : DWord
  words : List Word
  via : List TlbEntry := []
  deriving DecidableEq, Repr

/-- An issue slot: picker, run, L0 copies, and issue sets that resume mid-run (R42). -/
structure Slot where
  phase : Phase := .idle
  nextAt : Nat := 0
  l0 : Tab (Option Line) := []
  /-- Fills of L0 requested and not landed: the line as it was read (R100). -/
  fills : Tab (Option Line) := []
  /-- The loop buffer: up to 8 runs (R330). -/
  loop : List CodeCopy := []
  resume : List (DWord × Nat × List Nat) := []
  /-- For a command core: the context it last issued, plus one (R284). -/
  last : Nat := 0
  deriving DecidableEq, Repr

/-- An accumulator tile (R73, R74, R328): 80-bit elements by 32 * row + column. -/
structure Acc where
  fix : Bool := false
  anchor : BitVec 16 := 0
  sat : Bool := false
  owner : Option Nat := none
  /-- The context that a tile without an owner belonged to last: its owner register keeps the number (R322). -/
  was : Nat := 0
  el : Tab (BitVec 80) := []
  deriving DecidableEq, Repr

/-- An activation table (R170): banks as images of 3,088 bytes. -/
structure Table where
  version : Word := 0
  active : Bool := false
  /-- The clk in which the active bank was last loaded: it serves from the next clk on (R172). -/
  at_ : Option Nat := none
  bank0 : Tab Byte := []
  bank1 : Tab Byte := []
  deriving DecidableEq, Repr

/-- A queued activation-table load (R172). -/
structure TableLoad where
  t : Nat
  grp : Nat
  ctx : Nat
  ptr : DWord
  begun : Bool
  bank : Bool
  pend : List Nat
  image : Tab Byte
  deriving DecidableEq, Repr

/-- A copy command accepted by an engine (R193 to R197). -/
structure CopyCmd where
  e : Word
  entry : List Byte
  issued : Bool
  /-- Claimed slots, as (home address of the slot-ring block, slot). -/
  claims : List (Nat × Nat)
  /-- Home addresses of the destination bytes it owns (R107). -/
  dests : List Nat
  /-- Destination bytes whose source was poisoned (R388). -/
  bad : List Nat := []
  deriving DecidableEq, Repr

/-- A copy ring the engine of a core serves (R192). -/
structure CopyRing where
  team : Nat
  off : Nat
  /-- PROD as the latest notify left it (R193). -/
  limit : Nat := 0
  cmds : List CopyCmd := []
  deriving DecidableEq, Repr

/-- The state of a local-SRAM granule (R85). -/
inductive Gran where
  | l1
  | handover (team : Nat)
  | held (team : Nat)
  deriving DecidableEq, Repr

/-- A register granule of a lane that drains (R54), and the clk in which its last pending write landed: in that clk it
still counts as draining (R55). -/
structure Drain where
  slot : Nat
  lane : Nat
  uid : Nat
  granule : Nat
  landed : Option Nat := none
  deriving DecidableEq, Repr

/-- A tile register that drains: its group, and the clk in which its last pending write landed (R54, R55). -/
structure TileDrain where
  uid : Nat
  tile : Nat
  landed : Option Nat := none
  deriving DecidableEq, Repr

/-- Whose weak store a pending byte is (R97, R98, R318): the context and address it was stored under, and the threads that have
stored it since it became pending, each with the clk of its first store. -/
structure Who where
  ctx : Nat
  va : Nat
  by_ : List (Nat × Nat)
  deriving DecidableEq, Repr

/-- A resource record (kind 0) or sampler record (kind 1) that a core caches, of its context's heap (R221). -/
structure CachedRecord where
  ctx : Nat
  kind : Nat
  idx : Nat
  bytes : List Byte
  deriving DecidableEq, Repr

/-- A compute core. -/
structure Core where
  ctx : Nat := 0
  gran : Tab Gran := []
  pend : Tab (Option Byte) := []
  pubs : List (Tab (Option Byte)) := []
  /-- Who stored the pending bytes. -/
  who : Tab (Option Who) := []
  l1 : Tab (Option Line) := []
  /-- Fills of L1 requested and not landed (R100). -/
  fills : Tab (Option Line) := []
  /-- The L1 TLB: at most 256 translations (R320). -/
  tlb : List TlbEntry := []
  tables : Tab Table := []
  loads : List TableLoad := []
  records : List CachedRecord := []
  code : List CodeCopy := []
  /-- The context that the tables, their loads and versions belong to (R173). -/
  tabCtx : Nat := 0
  acc : Tab Acc := []
  rings : List CopyRing := []
  drains : List Drain := []
  tileDrains : List TileDrain := []
  /-- The context whose saved teams the core is reserved for (R325). -/
  reserved : Option Nat := none
  /-- A save requested by PREEMPT or a fault (R324, R369). -/
  saving : Bool := false
  /-- A restoration is under way: its granules are in Handover. -/
  restoring : Bool := false
  /-- (pipeline, stage) the core belongs to (R276), and whether it is revoked (R281). -/
  stage : Option (Nat × Nat) := none
  revoked : Bool := false
  /-- The receiver a revoked core goes to. -/
  goingTo : Option Nat := none
  deriving DecidableEq, Repr

/-- A waiting request for a chunk (R271): its number, queue, group and first destination register. -/
structure Asker where
  id : Nat
  queue : Nat
  grp : Nat
  dreg : Nat
  deriving DecidableEq, Repr

/-- What a context leaves of one core when it is saved there (R40, R324): its groups and threads, with what they wait for
and what is still to come to them. -/
structure SavedCore where
  teams : List Nat
  groups : List (Nat × Group)
  threads : List (Nat × Thread)
  pend : List Pending := []
  tables : Tab Table := []
  loads : List TableLoad := []
  askers : List Asker := []
  resume : List (Nat × (DWord × Nat × List Nat)) := []
  poison : List (EccPlace × Nat × Nat) := []
  deriving DecidableEq, Repr

/-- A declared binned region (R206). -/
structure Region where
  primary : DWord
  shadow : DWord
  count : Nat
  e : Int
  f64 : Bool
  deriving DecidableEq, Repr

/-- Where a context stands on a die (R324, R369, R389). -/
inductive CtxDie where
  | running
  | saving
  | saved
  | stoppedInPlace
  deriving DecidableEq, Repr

/-- A context (R322). -/
structure Ctx where
  reg : Bool := false
  slot : Nat := 0
  root : DWord := 0
  privB : DWord := 0
  privS : DWord := 0
  saveB : DWord := 0
  saveS : DWord := 0
  accb : DWord := 0
  rheap : DWord := 0
  sheap : DWord := 0
  regions : Tab (Option Region) := []
  dies : Tab CtxDie := []
  /-- Saved cores, by core. -/
  saved : Tab (Option SavedCore) := []
  /-- Digest and length of each quarter its saves wrote (R390), by die. -/
  digests : Tab (BitVec 256 × Nat) := []
  deriving DecidableEq, Repr

/-- A range task in a queue or the pending table (R266). -/
structure Task where
  id : Nat
  entry : List Byte
  queue : Nat
  /-- The issuing thread, and the address of the entry (R411). -/
  th : Nat
  va : DWord
  /-- The clk in which it entered its queue, and whether it came from the pending table (R269). -/
  at_ : Nat := 0
  released : Bool := false
  /-- Its place in the queue's spill area, once it is beyond the 256 entries on chip (R267). -/
  spill : Option Nat := none
  deriving DecidableEq, Repr

/-- A running task, or a piece of one, held by a core (R270). -/
structure Piece where
  core : Nat
  queue : Nat
  task : Nat
  cur : Nat
  hi : Nat
  grain : Nat
  pc : DWord
  arg : DWord
  deriving DecidableEq, Repr

/-- A task begun: chunks handed out and unfinished, and its completion (R270). -/
structure Begun where
  task : Nat
  queue : Nat
  out : Nat
  sctr : Option Nat
  deriving DecidableEq, Repr

/-- A task queue (R267). -/
structure Queue where
  ctx : Nat := 0
  spillB : DWord := 0
  spillS : Nat := 0
  tasks : List Task := []
  deriving DecidableEq, Repr

/-- Where the bytes of a bead stand (R277): a place of the strand's area, or one of its extension. -/
inductive BeadPlace where
  | chip (i : Nat)
  | ext (i : Nat)
  deriving DecidableEq, Repr

/-- A bead (R277): its sequence number, where its bytes stand, the bytes as they were pushed, and the offsets of those whose source was
poisoned (R388). -/
structure Bead where
  seq : Word
  bytes : List Byte
  bad : List Nat := []
  place : BeadPlace := .chip 0
  deriving DecidableEq, Repr

/-- A strand (R275, R277): its beads, oldest first. -/
structure Strand where
  off : Nat := 0
  size : Nat := 0
  bead : Nat := 16
  extB : DWord := 0
  extS : Nat := 0
  beads : List Bead := []
  closed : List Nat := []
  /-- Whether a push, pop or close was performed since the last balancer interval (R414). -/
  moved : Bool := false
  deriving DecidableEq, Repr

/-- A stage of a pipeline on a die (R275). -/
structure Stage where
  desc : Desc := {}
  input : Nat := 0xFF
  out0 : Nat := 0xFF
  out1 : Nat := 0xFF
  cores0 : Nat := 0
  grid : Nat := 0
  placed : Nat := 0
  finished : Bool := false
  gave : Bool := false
  received : Bool := false
  deriving DecidableEq, Repr

/-- A pipeline on a die (R276): waiting until resident. -/
structure Pipe where
  launch : Nat
  ctx : Nat
  resident : Bool
  cores : Nat
  stages : List Stage
  strands : List Strand
  pool : List Nat
  /-- The deadlock condition held at the previous interval (R414). -/
  stuck : Bool
  deriving DecidableEq, Repr

/-- A launched pipeline: dies still to finish, and its completion. -/
structure PipeLaunch where
  ctx : Nat
  dies : List Nat
  signal : Signal
  cmd : Option Nat
  deriving DecidableEq, Repr

/-- Where an arrived chunk is (R302, R419): in a chunk slot, in place `i` of its block's spill area, or held back. -/
inductive ChunkPlace where
  | slot
  | spilled (i : Nat)
  | waiting
  deriving DecidableEq, Repr

/-- A chunk at a Torc engine (R302): its stream, its bytes (those of a spilled one are in the pool), and which of them are
poisoned. `loc` marks a stream from a die of this package by a LOCAL step. -/
structure Chunk where
  /-- A number that names the chunk. -/
  id : Nat := 0
  tag : Word
  seq : Word
  src : Nat
  ch : Nat
  loc : Bool
  data : List Byte
  bad : List Nat := []
  place : ChunkPlace := .slot
  deriving DecidableEq, Repr

/-- Bytes with the offsets of those that are poisoned. -/
structure Data where
  bytes : List Byte
  bad : List Nat
  deriving DecidableEq, Repr

/-- A rank-table entry (R297). -/
structure RankEntry where
  reserved : Nat
  ports : Nat
  die : Nat
  acc : Nat
  deriving DecidableEq, Repr

/-- Where a peer is: a die of this package, or another package through an entry. -/
inductive Target where
  | die (d : Nat)
  | remote (e : RankEntry)
  deriving DecidableEq, Repr

/-- The peers of a data step: that which it sends to, and that which it receives from. -/
structure Peers where
  out : Option (Nat × Target)
  src : Option (Nat × Target)
  deriving DecidableEq, Repr

/-- A data step under way (R301): its peers as it was read, the homes whose lines it owns, once it has taken them, the chunk it made and has
still to have accepted, which keeps a chunk slot when it was combined (R295), and the die and number of a chunk that a die of this package
holds back. -/
structure TorcCmd where
  peers : Peers
  dest : Option (List Nat) := none
  out : Option Data := none
  slot : Bool := false
  wait : Option (Nat × Nat) := none
  deriving DecidableEq, Repr

/-- A Torc instance block with instances started and not completed (R296, R298). -/
structure TorcBlock where
  off : Nat
  ctx : Nat
  /-- Numbers of the latest instance started and the latest completed, not reduced modulo 2^32. -/
  started : Nat
  done : Nat
  /-- Ranges of instances started while START - DONE read 255 or more (R416). -/
  late : List (Nat × Nat)
  /-- The order of starts among blocks that wait to become active. -/
  order : Nat
  active : Bool := false
  step : Nat := 0
  loops : Tab Nat := []
  /-- Open loops, innermost first: counter, limit and first step. -/
  opens : List (Nat × Nat × Nat) := []
  /-- The heartbeat at which the current step began to wait, or a chunk of the instance was accepted since (R417). -/
  since : Nat := 0
  /-- A bin addition left the signed 64-bit range (R384). -/
  binOvf : Bool := false
  /-- Whether the current step has been read, and the data step under way. -/
  begun : Bool := false
  cmd : Option TorcCmd := none
  deriving DecidableEq, Repr

/-- A chunk, or an ABORT, sent to another package. -/
structure Sent where
  port : Nat
  acc : Nat
  die : Nat
  tag : Word
  seq : Word
  src : Nat
  ch : Nat
  abort : Bool := false
  data : List Byte := []
  bad : List Nat := []
  deriving DecidableEq, Repr

/-- How an instance is to end once it runs: an ABORT received, or a failure of the pool (R417, R419). -/
structure Doom where
  tag : Word
  seq : Word
  code : Nat
  cls : Nat
  info : Nat
  deriving DecidableEq, Repr

/-- A spill write or refetch of a chunk that the pool has not completed, and the heartbeat at which it was asked for (R419). -/
structure PoolOp where
  id : Nat
  off : Nat
  tag : Word
  seq : Word
  since : Nat
  deriving DecidableEq, Repr

/-- The Torc engine of a die (R295). -/
structure Torc where
  blocks : List TorcBlock := []
  /-- The context, plus one, that started a block last, by its offset. -/
  ctxs : Tab Nat := []
  /-- Arrived chunks, in arrival order. -/
  chunks : List Chunk := []
  /-- What was sent to other packages, oldest first. -/
  sent : List Sent := []
  dooms : List Doom := []
  poolOps : List PoolOp := []
  deriving DecidableEq, Repr

/-- A compute die: work distributor, balancer, dependence counters, ports. -/
structure Die where
  gshared : Nat := 0
  grids : List Nat := []
  queues : Tab Queue := []
  pendTab : List Task := []
  pieces : List Piece := []
  begun : List Begun := []
  askers : List Asker := []
  ctr : Tab Word := []
  ctrCtx : Tab Nat := []
  tags : Tab Nat := []
  pipes : List Pipe := []
  torc : Torc := {}
  nextTask : Nat := 0
  /-- The translations held in the die's L2 TLB, at most 2,048 at each of its 16 walker stops, by column (R320). -/
  tlb : Tab (List TlbEntry) := []
  deriving DecidableEq, Repr

/-- A CCOPY in flight (R294). -/
structure CCopy where
  pc : DWord
  pos : Nat
  /-- Homes of the destination bytes it owns, those whose source was poisoned, and why it ends: code, INFO and address. -/
  dests : List Nat
  bad : List Nat
  fail : Option (Nat × Nat × DWord)
  signal : Signal
  deriving DecidableEq, Repr

/-- The state of a command context in its status row (R293). -/
inductive CmdState where
  | halted
  | ready
  | semWait
  | faulted
  | stopped
  deriving DecidableEq, Repr

/-- A command context beside its thread (R283, R293). -/
structure Cmd where
  st : CmdState := .halted
  fault : Nat := 0
  out : Nat := 0
  ctx : Nat := 0
  copies : List CCopy := []
  stopping : Bool := false
  faultDue : Bool := false
  tlb : List TlbEntry := []
  deriving DecidableEq, Repr

/-- A pending-fault entry of the cameo (R340, R368). -/
structure FaultEntry where
  ctx : Nat
  first : Nat
  count : Nat
  /-- The model's own: the clk of its first record, and that record's place among those of the clk (R368). -/
  clk : Nat := 0
  place : Nat := 0
  deriving DecidableEq, Repr

/-- A link at the host port (R423, R424). -/
inductive HostPort where
  | up
  | retraining (since : Nat)
  | down
  deriving DecidableEq, Repr

/-- The host attachment: mailbox, MSI-X, I3C, ports, boot and measurement (chapters 20 and 27). -/
structure HostIf where
  /-- Mailbox bytes stored by their offset: request, response, payload (R335). -/
  mbox : Tab Byte := []
  ready : Bool := false
  busy : Bool := false
  overrun : Bool := false
  doneSeq : BitVec 16 := 0
  /-- The request as read at acceptance (R337): bytes 0 to 31 and the payload. -/
  req : Tab Byte := []
  busySince : Nat := 0
  /-- A request that waits before it responds: the mask of dies whose save a PREEMPT started or that a RESUME names, or zero. -/
  waiting : Option Nat := none
  msixMask : Tab Bool := []
  msixPend : Tab Bool := []
  /-- Vectors sent to the host, oldest first. -/
  sent : List Nat := []
  port : HostPort := .up
  /-- The UCIe rate in use, in GT/s (R332). -/
  rate : Nat := 32
  poolUp : Bool := true
  poolOn : Bool := false
  poolSize : DWord := 0
  ualDown : Tab Bool := []
  /-- Host-memory lines written at their home slices since the host port left the state up: they stay there, dirty, until
  it is up again (R424). -/
  lines : Tab Bool := []
  /-- A number for the free choice of the lines that their home slices do not hold since the host port left the state up (R424). -/
  downKey : Nat := 0
  /-- What the latest host read over CXL.mem returned, and its poison indication (R333, R387). -/
  answer : List Byte := []
  answerBad : Bool := false
  i3c : Tab Byte := []
  deriving DecidableEq, Repr

/-- Boot and measurement (R342, R343, R426, R427). -/
structure Boot where
  attempts : Nat := 0
  count : Word := 0
  /-- Causes of the failed starts since the last good one or RESET, oldest first. -/
  causes : List Nat := []
  minimal : Bool := false
  up : Bool := false
  m : Tab (BitVec 256) := []
  deriving DecidableEq, Repr

/-- What flash, fuses and the build of the part fix (R20, R89, R338, R339): plain data, so that every claim holds for
every part. -/
structure Part where
  cLines : Nat := 2604166
  cpLines : Nat := 2097152
  accId : Nat := 0
  silicon : Word := 0
  firmware : Word := 0
  ucie : Nat := 32
  fuseState : BitVec 256 := 0
  romDigest : BitVec 256 := 0
  confDigest : BitVec 256 := 0
  /-- The fused seed of the identity key (R344). -/
  idSeed : BitVec 256 := 0
  fwDigest : BitVec 256 := 0
  /-- Absent cores, by core key; absent pairs of slices 2p and 2p + 1 with the three channels they front, by 64 * die + p;
  ports of two lanes, and ports without a partner, by 4 * die + port. -/
  noCore : Tab Bool := []
  noPair : Tab Bool := []
  narrow : Tab Bool := []
  noLink : Tab Bool := []
  noPool : Bool := false
  deriving DecidableEq, Repr

/-- The package. -/
structure State where
  clk : Nat := 0
  /-- Heartbeat ticks performed; sr.hbt is clk / 64 (R18). -/
  ticks : Nat := 0
  agenda : List (Nat × Instr) := []
  /-- The issuer whose word is being executed. -/
  cur : Nat := 0
  mem : Tab Byte := []
  /-- Bytes of lines that an issued engine command owns, with the value the engine writes (R107, step 3). -/
  owned : Tab (Option Byte) := []
  /-- Which of these bytes come from a poisoned source (R107, R388). -/
  ownedBad : Tab Bool := []
  /-- Lines that a waiting Torc step owns, by home address / 128: their accesses wait for its writes (R107, R301). -/
  torcHeld : Tab Bool := []
  /-- Bytes of these lines written meanwhile by what does not wait: their writes come after the step's (R107, R108). -/
  torcOver : List Nat := []
  /-- Poisoned 32-byte granules, by home address / 32 (R387). -/
  poison : Tab Bool := []
  /-- Poisoned registers and elements, by kind and place. -/
  poisonReg : List (EccPlace × Nat × Nat) := []
  threads : Tab Thread := []
  groups : Tab Group := []
  teams : Tab Team := []
  grids : Tab Grid := []
  cores : Tab Core := []
  slots : Tab Slot := []
  dies : Tab Die := []
  ctxs : Tab Ctx := []
  cmds : Tab Cmd := []
  launches : List (Nat × PipeLaunch) := []
  /-- Owner of each semaphore block: 0 none, ctx + 1 a compute context, 65536 + 1 + c a command context (R341). -/
  semOwner : Tab Nat := []
  pend : List Pending := []
  bins : List BinUpd := []
  /-- Dies whose waiting requests for chunks are looked at as the clk ends (R269, R271). -/
  serving : List Nat := []
  /-- Waiting threads in the order their instructions arrived (R191, R278, R279). -/
  waiters : List Nat := []
  log : List Record := []
  logSeq : Nat := 0
  faults : List FaultEntry := []
  truncated : Bool := false
  host : HostIf := {}
  boot : Boot := {}
  part : Part := {}
  /-- The MODEL's own counters: free values taken, results in flight, threads, teams, grids and launches named. -/
  free : Nat := 0
  nextId : Nat := 1
  deriving DecidableEq, Repr

/-- Memory, the bytes that engine commands own, the lines that Torc steps own and the poisoned granules are in their canonical forms. -/
def State.wf (s : State) : Bool :=
  Memory.wf s.mem && Tab.wf none s.owned && Tab.wf false s.poison && Tab.wf false s.ownedBad && Tab.wf false s.torcHeld

/-- The host attachment before a start has trained its ports (R342): none of them is up. -/
def HostIf.untrained : HostIf := { port := .down, poolUp := false, ualDown := (List.range 16).map fun i => (i, true) }

/-- The package right after power-on or RESET, before the boot sequence of R342 begins: every field of every unit at
its reset value; the only thing due is POWER_ON. -/
def State.reset : State := { agenda := [(0, .powerOn 0)], host := HostIf.untrained }

end Sys2Proof.Machine
end

