-- ==== Sys2Proof/Machine/Bits.lean ====
section
/-! DEFINITION. Bit fields, byte order and sign extension, shared by every meaning (R5). -/

namespace Sys2Proof.Machine

/-- The field [lo + len - 1 : lo] of a number. -/
def field (n lo len : Nat) : Nat := n / 2 ^ lo % 2 ^ len

/-- Bit `i` of a number. -/
def bit (n i : Nat) : Bool := n / 2 ^ i % 2 == 1

/-- The value of a two's complement number of `len` bits. -/
def sgn (len n : Nat) : Int :=
  let v := n % 2 ^ len
  if v < 2 ^ (len - 1) then (v : Int) else (v : Int) - 2 ^ len

/-- An integer modulo 2^len, as a natural number. -/
def wrap (len : Nat) (i : Int) : Nat := (i % (2 ^ len : Int)).toNat

/-- Little-endian bytes of a number. -/
def leBytes : Nat → Nat → List Byte
  | 0, _ => []
  | k + 1, n => BitVec.ofNat 8 n :: leBytes k (n / 256)

/-- The number a little-endian byte string holds. -/
def leNat : List Byte → Nat
  | [] => 0
  | b :: r => b.toNat + 256 * leNat r

/-- Low and high words of a 64-bit value (R45). -/
def loWord (d : DWord) : Word := d.extractLsb' 0 32

/-- The high word of a pair. -/
def hiWord (d : DWord) : Word := d.extractLsb' 32 32

/-- The 64-bit value of a pair. -/
def pairOf (lo hi : Word) : DWord := (hi ++ lo : BitVec 64)

/-- 1 for true. -/
def b2n (b : Bool) : Nat := if b then 1 else 0

/-- Byte `i` of a field of bytes given as a table. -/
def tabNat (t : Tab Byte) (off : Nat) : Nat → Nat
  | 0 => 0
  | k + 1 => (t.get 0 off).toNat + 256 * tabNat t (off + 1) k

/-- Writes bytes into a table at consecutive offsets. -/
def putBytes (t : Tab Byte) : Nat → List Byte → Tab Byte
  | _, [] => t
  | off, b :: r => putBytes (t.put 0 off b) (off + 1) r

/-- Bytes of a table at consecutive offsets. -/
def tabBytes (t : Tab Byte) (off : Nat) : Nat → List Byte
  | 0 => []
  | k + 1 => t.get 0 off :: tabBytes t (off + 1) k

/-- The floor of a quotient of an integer by a power of two, or the exact product for a negative power. -/
def floorScale (n : Int) (e : Int) : Int :=
  if 0 ≤ e then n * 2 ^ e.toNat else n / 2 ^ (-e).toNat

/-- The integer square root by bisection on `k` bits. -/
def isqrtAux (n : Nat) : Nat → Nat → Nat
  | 0, r => r
  | k + 1, r =>
    let r' := r + 2 ^ k
    isqrtAux n k (if r' * r' ≤ n then r' else r)

/-- floor of the square root. -/
def isqrt (n : Nat) : Nat := isqrtAux n (Nat.log2 n / 2 + 1) 0

/-- Keeps the first occurrence of each element. -/
def dedup : List Nat → List Nat
  | [] => []
  | x :: r => x :: (dedup r).filter (· != x)

/-- Inserts into an ascending list. -/
def insertSorted (x : Nat) : List Nat → List Nat
  | [] => [x]
  | y :: r => if x ≤ y then x :: y :: r else y :: insertSorted x r

/-- Sorts ascending. -/
def sortNat : List Nat → List Nat
  | [] => []
  | x :: r => insertSorted x (sortNat r)

/-- The numbers from `lo`, `k` of them. -/
def upto : Nat → Nat → List Nat
  | _, 0 => []
  | lo, k + 1 => lo :: upto (lo + 1) k

/-- The first element that satisfies a test. -/
def firstThat {α : Type} (p : α → Bool) : List α → Option α
  | [] => none
  | x :: r => if p x then some x else firstThat p r

end Sys2Proof.Machine
end

