-- ==== Sys2Proof/Machine/Units.lean ====
section
/-! DEFINITION. The units of the package by number: readers and writers of the state's tables, the numbering of cores,
stops, threads and home addresses (R10 to R12, R22, R83 to R87), and the agenda of due events. -/

namespace Sys2Proof.Machine

-- Entries of the tables.

def State.thr (s : State) (k : Nat) : Thread := s.threads.get {} k
def State.grp (s : State) (k : Nat) : Group := s.groups.get {} k
def State.team (s : State) (k : Nat) : Team := s.teams.get {} k
def State.grid (s : State) (k : Nat) : Grid := s.grids.get {} k
def State.core (s : State) (k : Nat) : Core := s.cores.get {} k
def State.slot (s : State) (k : Nat) : Slot := s.slots.get {} k
def State.die (s : State) (k : Nat) : Die := s.dies.get {} k
def State.cx (s : State) (k : Nat) : Ctx := s.ctxs.get {} k
def State.cmd (s : State) (k : Nat) : Cmd := s.cmds.get {} k

def State.setThr (s : State) (k : Nat) (t : Thread) : State := { s with threads := s.threads.put {} k t }
def State.setGrp (s : State) (k : Nat) (t : Group) : State := { s with groups := s.groups.put {} k t }
def State.setTeam (s : State) (k : Nat) (t : Team) : State := { s with teams := s.teams.put {} k t }
def State.setGrid (s : State) (k : Nat) (t : Grid) : State := { s with grids := s.grids.put {} k t }
def State.setCore (s : State) (k : Nat) (t : Core) : State := { s with cores := s.cores.put {} k t }
def State.setSlot (s : State) (k : Nat) (t : Slot) : State := { s with slots := s.slots.put {} k t }
def State.setDie (s : State) (k : Nat) (t : Die) : State := { s with dies := s.dies.put {} k t }
def State.setCx (s : State) (k : Nat) (t : Ctx) : State := { s with ctxs := s.ctxs.put {} k t }
def State.setCmd (s : State) (k : Nat) (t : Cmd) : State := { s with cmds := s.cmds.put {} k t }

def State.updThr (s : State) (k : Nat) (f : Thread → Thread) : State := s.setThr k (f (s.thr k))
def State.updGrp (s : State) (k : Nat) (f : Group → Group) : State := s.setGrp k (f (s.grp k))
def State.updTeam (s : State) (k : Nat) (f : Team → Team) : State := s.setTeam k (f (s.team k))
def State.updGrid (s : State) (k : Nat) (f : Grid → Grid) : State := s.setGrid k (f (s.grid k))
def State.updCore (s : State) (k : Nat) (f : Core → Core) : State := s.setCore k (f (s.core k))
def State.updSlot (s : State) (k : Nat) (f : Slot → Slot) : State := s.setSlot k (f (s.slot k))
def State.updDie (s : State) (k : Nat) (f : Die → Die) : State := s.setDie k (f (s.die k))
def State.updCx (s : State) (k : Nat) (f : Ctx → Ctx) : State := s.setCx k (f (s.cx k))
def State.updCmd (s : State) (k : Nat) (f : Cmd → Cmd) : State := s.setCmd k (f (s.cmd k))

-- Numbers.

/-- The first thread key of the command contexts. -/
def cmdBase : Nat := 2 ^ 20

/-- The first issuer of the command cores. -/
def cmdIssuer : Nat := 1536

/-- Whether a thread key is a command context's. -/
def isCmd (k : Nat) : Bool := decide (cmdBase ≤ k)

def coreOfThread (k : Nat) : Nat := k / 2048
def slotOfThread (k : Nat) : Nat := k / 512 % 4
def layerOfThread (k : Nat) : Nat := k / 64 % 8
def laneOfThread (k : Nat) : Nat := if isCmd k then 0 else k % 64
def dieOfCore (c : Nat) : Nat := c / 96
def dieOfThread (k : Nat) : Nat := dieOfCore (coreOfThread k)
def issuerOfThread (k : Nat) : Nat := if isCmd k then cmdIssuer + (k - cmdBase) / 16 else k / 512
def coreOfIssuer (i : Nat) : Nat := i / 4
def threadKey (core slot layer lane : Nat) : Nat := ((core * 4 + slot) * 8 + layer) * 64 + lane

/-- A stop in the layout of sr.stop: package row in [12:8], column in [4:0] (R11). -/
def stopAt (die row col : Nat) : Nat := ((die / 2) * 8 + row) * 256 + (die % 2) * 16 + col

/-- The stop of a core (R12). -/
def stopOfCore (c : Nat) : Nat := stopAt (dieOfCore c) (1 + c % 96 / 16) (c % 96 % 16)

/-- The work distributor's stop of a die (R12). -/
def distributorStop (d : Nat) : Nat := stopAt d 7 6

/-- The collective-engine stop T0 of a die (R12). -/
def torcStop (d : Nat) : Nat := stopAt d 7 2

/-- The stop in a fault record of a thread (R365). -/
def stopOfThread (k : Nat) : Nat := if isCmd k then 0x1000 + (k - cmdBase) / 16 else stopOfCore (coreOfThread k)

/-- The context a thread runs in; for a command context the one CMDSTART bound (R63). -/
def State.ctxOf (s : State) (k : Nat) : Nat :=
  if isCmd k then (s.cmd (k - cmdBase)).ctx else (s.team (s.thr k).team).ctx

/-- sr.clk: the clocks since RESET, of 64 bits (R18). -/
def State.clk64 (s : State) : Nat := s.clk % 2 ^ 64

/-- sr.hbt: floor of sr.clk over 64 (R18). -/
def State.hbt (s : State) : Nat := s.clk64 / 64

/-- Heartbeat ticks since RESET, without bound: what the model's own deadlines are counted in. -/
def State.beats (s : State) : Nat := s.clk / 64

-- Home addresses.

def homeShared (d o : Nat) : Nat := 2 ^ 52 + d * 2 ^ 26 + o
def homeDev (o : Nat) : Nat := 2 ^ 54 + o
def homeTeam (t o : Nat) : Nat := 2 ^ 60 + t * 2 ^ 21 + o
def homeLane (u o : Nat) : Nat := 2 ^ 100 + u * 2 ^ 11 + o

/-- The home of a byte of a thread's lane-store slice (R87). -/
def State.laneHome (s : State) (k o : Nat) : Nat := homeLane (s.thr k).uid o

/-- The offset of a deterministic task's view of global memory (R310). -/
def viewOf (grid p : Nat) : Nat := (1 + grid * 2 ^ 32 + p) * 2 ^ 110

/-- The view of a team: zero outside deterministic grids. -/
def State.view (s : State) (team : Nat) : Nat :=
  match (s.team team).task with
  | none => 0
  | some p => viewOf (s.team team).grid p

/-- The view of a thread. -/
def State.viewOfThread (s : State) (k : Nat) : Nat := if isCmd k then 0 else s.view (s.thr k).team

/-- Whether the thread runs in a deterministic grid. -/
def State.isDet (s : State) (k : Nat) : Bool := !isCmd k && (s.team (s.thr k).team).task.isSome

-- The agenda.

/-- Inserts an event by its due time, behind the events due at the same clk. -/
def insertEvent (t : Nat) (e : Instr) : List (Nat × Instr) → List (Nat × Instr)
  | [] => [(t, e)]
  | (u, x) :: r => if t < u then (t, e) :: (u, x) :: r else (u, x) :: insertEvent t e r

/-- Puts an event on the agenda. -/
def State.scheduleAt (s : State) (t : Nat) (e : Instr) : State := { s with agenda := insertEvent t e s.agenda }

/-- Puts an event that polls a condition on the agenda, unless it is already due then or later. -/
def State.poll (s : State) (t : Nat) (e : Instr) : State :=
  if s.agenda.any (fun x => x.2 == e && decide (t ≤ x.1)) then s else s.scheduleAt t e

/-- Takes an event off the agenda wherever it stands. -/
def State.unschedule (s : State) (p : Instr → Bool) : State :=
  { s with agenda := s.agenda.filter (fun x => !p x.2) }

/-- Takes one free value: the number it is named by, and the state with the counter advanced. -/
def State.takeFree (s : State) : Nat × State := (s.free, { s with free := s.free + 1 })

/-- Names something new: the number, and the state with the counter advanced. -/
def State.newId (s : State) : Nat × State := (s.nextId, { s with nextId := s.nextId + 1 })

/-- Schedules an event after a free latency (R58 gives variable-latency results none), not before a clk: the clk it is due
in. -/
def State.laterFrom (s : State) (t0 : Nat) (e : Instr) : Nat × State :=
  let (f, s) := s.takeFree
  let t := Nat.max t0 (s.clk + 1 + Config.latency f)
  (t, s.scheduleAt t e)

/-- Schedules an event after a free latency. -/
def State.later (s : State) (e : Instr) : State := (s.laterFrom 0 e).2

-- The run being executed.

/-- The run of the issuer whose word is being executed. -/
def State.run (s : State) : Run :=
  match (s.slot s.cur).phase with
  | .running r => r
  | _ => {}

/-- Replaces that run; an issuer that executes none stays as it is. -/
def State.setRun (s : State) (r : Run) : State :=
  match (s.slot s.cur).phase with
  | .running _ => s.updSlot s.cur fun sl => { sl with phase := .running r }
  | _ => s

/-- The issue set, in ascending lane order. -/
def State.issue (s : State) : List Nat := s.run.threads

/-- The groups of the issue set, each with its lowest issued lane's thread. -/
def State.issueGroups (s : State) : List (Nat × Nat) :=
  let go := fun (acc : List (Nat × Nat)) (k : Nat) =>
    let g := (s.thr k).grp
    if acc.any (fun e => e.1 == g) then acc else acc ++ [(g, k)]
  s.issue.foldl go []

/-- The issued threads of a group. -/
def State.issuedOf (s : State) (g : Nat) : List Nat := s.issue.filter fun k => (s.thr k).grp == g

/-- Whether the issuer of the current word is a command core. -/
def State.onCommand (s : State) : Bool := decide (cmdIssuer ≤ s.cur)

end Sys2Proof.Machine
end

