-- ==== Sys2Proof/Machine/Mesh.lean ====
section
/-! DEFINITION. The package mesh and the placement of memory on it (R10 to R16, R20, R89, R90, R93): the unit at every stop,
routes, slices and the pseudo-channels they front, the physical ranges, and the hash that gives a line its home slice. -/

namespace Sys2Proof.Machine

-- Stops (R11, R12).

/-- The units that stand at the stops of a compute die, beside its slices (R10, R12). -/
inductive StopUnit where
  | walker (n : Nat) | core (n : Nat) | hubBridge (n : Nat) | port (n : Nat) | torc (n : Nat)
  | distributor | barrier | dieBridge (n : Nat)
  deriving DecidableEq, Repr

/-- The unit at a die-local row and column (R12). -/
def unitAt (row col : Nat) : StopUnit :=
  if row = 0 then .walker col
  else if row < 7 then .core (16 * (row - 1) + col)
  else
    [.hubBridge 0, .port 0, .torc 0, .port 1, .torc 1, .hubBridge 1, .distributor, .barrier, .dieBridge 0, .hubBridge 2, .port 2,
      .torc 2, .port 3, .torc 3, .hubBridge 3, .dieBridge 1].getD col .barrier

/-- The package row and column of a stop in the layout of sr.stop. -/
def rowOf (stop : Nat) : Nat := stop / 256 % 16
def colOf (stop : Nat) : Nat := stop % 32

/-- The stop index, which orders stops: 32 times the package row, plus the package column (R11). -/
def stopIndex (stop : Nat) : Nat := 32 * rowOf stop + colOf stop

/-- The die whose quadrant holds a stop. -/
def dieOfStop (stop : Nat) : Nat := rowOf stop / 8 * 2 + colOf stop / 16

/-- The unit at a stop. -/
def unitOf (stop : Nat) : StopUnit := unitAt (rowOf stop % 8) (colOf stop % 16)

/-- The stop of a UALink port. -/
def portStop (d p : Nat) : Nat := stopAt d 7 ([1, 3, 10, 12].getD p 1)

/-- The page-walker stop that serves the misses of a core: that of the core's column (R320). -/
def walkerStop (core : Nat) : Nat := stopAt (dieOfCore core) 0 (core % 96 % 16)

/-- The barrier and heartbeat stop of a die. -/
def barrierStop (d : Nat) : Nat := stopAt d 7 7

/-- The columns of a die's hub bridges H0 to H3. -/
def bridgeCols : List Nat := [0, 5, 9, 14]

/-- The hub bridge at which traffic from a stop enters the hub: that of the nearest column, the lower on a tie (R12). -/
def hubBridgeOf (stop : Nat) : Nat :=
  let c := colOf stop % 16
  let far := fun (x : Nat) => (x - c) + (c - x)
  stopAt (dieOfStop stop) 7 (bridgeCols.foldl (fun b x => if far x < far b then x else b) 0)

/-- The numbers from `a` to `b`, in that direction, without `a`. -/
def walkTo (a b : Nat) : List Nat := if a ≤ b then upto (a + 1) (b - a) else (upto b (a - b)).reverse

/-- The stops that a message passes, the last its destination: along the source's row, then along the destination's column
(R14). -/
def xyRoute (src dst : Nat) : List Nat :=
  ((walkTo (colOf src) (colOf dst)).map fun c => rowOf src * 256 + c) ++ (walkTo (rowOf src) (rowOf dst)).map fun r => r * 256 + colOf dst

-- Slices, stacks and pseudo-channels (R10, R15, R20).

/-- The die-local number of the slice at a stop. -/
def sliceOf (stop : Nat) : Nat := 16 * (rowOf stop % 8) + colOf stop % 16

/-- The stop of a slice. -/
def stopOfSlice (d slice : Nat) : Nat := stopAt d (slice / 16) (slice % 16)

/-- The stack, channel and half of a die's pseudo-channel `n` (R15). -/
def stackOf (d n : Nat) : Nat × Nat × Nat := (2 * d + n / 192, n % 192 / 2, n % 2)

/-- The pseudo-channels that a slice fronts. -/
def frontedBy (slice : Nat) : List Nat := [3 * slice, 3 * slice + 1, 3 * slice + 2]

/-- Whether a slice is present: slices leave a part in pairs, with the three channels that they front (R20). -/
def Part.hasSlice (p : Part) (d slice : Nat) : Bool := !(p.noPair.get false (64 * d + slice / 2))

/-- The slices of a die that are present, ascending. -/
def Part.sliceList (p : Part) (d : Nat) : List Nat := (upto 0 128).filter (p.hasSlice d)

/-- How many slices of a die are present. -/
def Part.slices (p : Part) (d : Nat) : Nat := (p.sliceList d).length

/-- Active pseudo-channels of a die: three to each slice that is present (R15, R20). -/
def Part.channels (p : Part) (d : Nat) : Nat := 3 * p.slices d

-- Physical ranges (R89).

/-- The size P of the package region. -/
def Part.packageSize (p : Part) : Nat := (p.channels 0 + p.channels 1 + p.channels 2 + p.channels 3) * p.cpLines * 128

/-- The size Qd of a die-local region. -/
def Part.localSize (p : Part) (d : Nat) : Nat := p.channels d * (p.cLines - p.cpLines) * 128

/-- The base of a die-local range. -/
def localBase (d : Nat) : Nat := 0x4000000000000 + d * 0x100000000000

/-- A range of the physical address space. -/
inductive PRange where
  | package | dieLocal (d : Nat) | pool | host | reserved
  deriving DecidableEq, Repr

/-- The range a physical address lies in (R89). -/
def Part.rangeOf (p : Part) (a : Nat) : PRange :=
  if a < 0x4000000000000 then (if a < p.packageSize then .package else .reserved)
  else if a < 0x4400000000000 then
    let d := (a - 0x4000000000000) / 0x100000000000
    if a < localBase d + p.localSize d then .dieLocal d else .reserved
  else if a < 0x8000000000000 then .reserved
  else if a < 0xC000000000000 then .pool
  else if a < 0x10000000000000 then .host
  else .reserved

-- The hash (R16, R90).

/-- A pseudo-channel by its die, its slice and its place among the three that the slice fronts. -/
structure Pch where
  die : Nat
  slice : Nat
  place : Nat
  deriving DecidableEq, Repr

/-- The active pseudo-channels of some dies, ascending by place, slice and die. -/
def Part.pchList (p : Part) (dies : List Nat) : List Pch :=
  (upto 0 3).flatMap fun c => (upto 0 128).flatMap fun sl => (dies.filter fun d => p.hasSlice d sl).map fun d => { die := d, slice := sl, place := c }

/-- Where a line lies: the pseudo-channel of its home slice, and the row. -/
structure LinePlace where
  pch : Pch
  row : Nat
  deriving DecidableEq, Repr

/-- Line `ln` of a list of pseudo-channels: each successive block of lines is rotated by 1,021 positions. -/
def placeIn (l : List Pch) (ln row0 : Nat) : LinePlace :=
  let n := l.length
  let q := ln / n
  { pch := l.getD ((ln % n + 1021 * q) % n) { die := 0, slice := 0, place := 0 }, row := row0 + q }

/-- The placement of the line that holds a physical address (R90). -/
def Part.placeOf (p : Part) (a : Nat) : LinePlace :=
  match p.rangeOf a with
  | .dieLocal d => placeIn (p.pchList [d]) ((a - localBase d) / 128) p.cpLines
  | _ => placeIn (p.pchList [0, 1, 2, 3]) (a / 128) 0

/-- The stop of the home slice of a physical address (R16, R90). -/
def Part.homeSlice (p : Part) (a : Nat) : Nat := stopOfSlice (p.placeOf a).pch.die (p.placeOf a).pch.slice

/-- Where an offset of a die's die-shared partition lies: the slice, and the byte of the slice's portion (R93). -/
def Part.sharedPlace (p : Part) (d o : Nat) : Nat × Nat :=
  let l := p.sliceList d
  (l.getD (o / 128 % l.length) 0, o / 128 / l.length * 128 + o % 128)

/-- The stop at which an access to a home address is performed (R86, R93, R95): the home slice of a physical address, the slice
of a die-shared byte, the block core that holds a team-local granule, and the hub for the device page. -/
def State.homeStop (s : State) (h : Nat) : Nat :=
  let h := h % 2 ^ 110
  if h < 2 ^ 52 then s.part.homeSlice h
  else if h < 2 ^ 54 then stopOfSlice ((h - 2 ^ 52) / 2 ^ 26) (s.part.sharedPlace ((h - 2 ^ 52) / 2 ^ 26) ((h - 2 ^ 52) % 2 ^ 26)).1
  else if h < 2 ^ 60 then 0x1000
  else
    let cs := (s.team ((h - 2 ^ 60) / 2 ^ 21)).cores
    stopOfCore (cs.getD ((h - 2 ^ 60) % 2 ^ 21 / 2 ^ 15 % cs.length) 0)

end Sys2Proof.Machine
end

