-- ==== Sys2Proof/Machine/Log.lean ====
section
/-! DEFINITION. Fault records: their bytes (R365), the firmware log and the cameo's entries (R340, R368), and MSI-X
messages (R294, R424). -/

namespace Sys2Proof.Machine

/-- Sends an MSI-X vector, or keeps it pending while it is masked or the host port is not up (R294, R424). -/
def State.msix (s : State) (v : Nat) : State :=
  let h := s.host
  if h.msixMask.get false v || h.port != .up then { s with host := { h with msixPend := h.msixPend.put false v true } }
  else { s with host := { h with sent := h.sent ++ [v] } }

/-- The bytes of a record (R365). -/
def Record.bytes (r : Record) : List Byte :=
  leBytes 1 r.code ++ leBytes 1 r.cls ++ leBytes 2 r.ctx ++ leBytes 2 r.stop ++ leBytes 1 r.slot ++ leBytes 1 r.layer
    ++ leBytes 8 r.lanes.toNat ++ leBytes 8 r.pc.toNat ++ leBytes 1 r.runpos ++ leBytes 1 r.flags ++ leBytes 1 r.src
    ++ leBytes 1 r.rows ++ leBytes 4 r.info ++ leBytes 8 r.addr.toNat ++ leBytes 4 r.cmd ++ leBytes 4 r.seq
    ++ leBytes 8 r.hbt ++ leBytes 8 0

/-- One bit for each thread's home lane. -/
def laneMask (ks : List Nat) : DWord := ks.foldl (fun m k => m ||| (1#64 <<< laneOfThread k)) 0

/-- The lowest lane of a record, 64 for none. -/
def Record.lowLane (r : Record) : Nat := ((upto 0 64).filter fun i => r.lanes.getLsbD i).headD 64

/-- The place of a record among those of one clk: die, stop index, slot and lowest lane, the command cores last (R368). -/
def Record.order (r : Record) : Nat :=
  ((if 0x1000 ≤ r.stop then 4096 + r.stop % 4096 else dieOfStop r.stop * 512 + stopIndex r.stop) * 256 + r.slot) * 128 + r.lowLane

/-- One more record of an entry's context; of the records of one clk the one that the log has first names the entry's code (R368). -/
def FaultEntry.add (e : FaultEntry) (clk place code : Nat) : FaultEntry :=
  if e.clk = clk ∧ place < e.place then { e with count := e.count + 1, first := code, place := place } else { e with count := e.count + 1 }

/-- Counts a record in its context's entry of the cameo, which a first record opens; with 16 entries open there is none, and
the truncated bit is set. A count that goes from 0 to 1 sends vector 2,047 (R340, R368). -/
def State.noteFault (s : State) (ctx code place : Nat) : State :=
  if ctx = 0 then s
  else if s.faults.any fun e => e.ctx == ctx then
    { s with faults := s.faults.map fun e => if e.ctx == ctx then e.add s.clk place code else e }
  else if s.faults.length < 16 then
    State.msix { s with faults := s.faults ++ [{ ctx := ctx, first := code, count := 1, clk := s.clk, place := place }] } 2047
  else { s with truncated := true }

/-- Inserts a record behind those of its place and before. -/
def insertRecord (r : Record) : List Record → List Record
  | [] => [r]
  | x :: l => if r.order < x.order then r :: x :: l else x :: insertRecord r l

/-- How many of the latest records were raised in this clk since the boot. -/
def State.freshRecords (s : State) : Nat := Nat.min s.logSeq (s.log.reverse.takeWhile fun r => r.clk == s.clk).length

/-- Appends a record to the firmware log, which keeps the latest 4,096; those of one clk stand in the order of R368, and SEQ
follows the log. -/
def State.logRecord (s : State) (r : Record) : State :=
  let n := s.freshRecords
  let old := s.log.take (s.log.length - n)
  let new := insertRecord { r with clk := s.clk } (s.log.drop (s.log.length - n))
  let log := old ++ new.mapIdx fun i x => { x with seq := (s.logSeq - n + i) % 2 ^ 32 }
  State.noteFault { s with log := log.drop (log.length - 4096), logSeq := s.logSeq + 1 } r.ctx r.code r.order

/-- Logs a fault of class 1 or 2 that names a unit. -/
def State.logEvent (s : State) (code cls ctx stop src info cmd : Nat) (addr : DWord := 0) (flags : Nat := 0) : State :=
  s.logRecord { code := code, cls := cls, ctx := ctx, stop := stop, src := src, info := info, cmd := cmd, addr := addr
                flags := flags + b2n (code == 0x09), hbt := s.hbt }

end Sys2Proof.Machine
end

