-- ==== Sys2Proof/Machine/Float.lean ====
section
/-! DEFINITION. Floating point (R66 to R70, R73, R156 to R167): a value is exact, as sign, integer significand and
power of two, and every operation rounds once. Encodings are numbers. -/

namespace Sys2Proof.Machine

/-- A binary format: width, precision with the hidden bit, and exponent bias (R66). -/
structure Fmt where
  width : Nat
  prec : Nat
  bias : Nat
  deriving DecidableEq, Repr

def f64 : Fmt := ⟨64, 53, 1023⟩
def f32 : Fmt := ⟨32, 24, 127⟩
def f16 : Fmt := ⟨16, 11, 15⟩
def b16 : Fmt := ⟨16, 8, 127⟩

/-- The rounding of R67, and R70's stochastic rounding with its draw. -/
inductive Rnd where
  | rne | rtz | rup | rdn
  | rsr (u : Nat)
  deriving DecidableEq, Repr

/-- Rounding codes 0 to 3 (R113). -/
def Rnd.ofCode (n : Nat) : Rnd := if n = 0 then .rne else if n = 1 then .rtz else if n = 2 then .rup else .rdn

/-- A decoded operand: a NaN with its sign and its fraction aligned to 62 bits below the quiet bit, an infinity, or a
finite value plus or minus m * 2^e. -/
inductive FVal where
  | nan (neg quiet : Bool) (pay : Nat)
  | inf (neg : Bool)
  | fin (neg : Bool) (m : Nat) (e : Int)
  deriving DecidableEq, Repr

/-- Flags in the layout of sr.fpcsr [4:0] (R158): NV 16, DZ 8, OF 4, UF 2, NX 1. -/
abbrev Flags := BitVec 5

def flNV : Flags := 16
def flDZ : Flags := 8
def flOF : Flags := 4
def flUF : Flags := 2
def flNX : Flags := 1

namespace Fmt

/-- Fraction bits. -/
def frac (f : Fmt) : Nat := f.prec - 1

/-- Exponent field bits. -/
def ebits (f : Fmt) : Nat := f.width - f.prec

/-- The exponent of the smallest normal number. -/
def emin (f : Fmt) : Int := 1 - (f.bias : Int)

/-- The encoding of an infinity. -/
def infBits (f : Fmt) (neg : Bool) : Nat := b2n neg * 2 ^ (f.width - 1) + (2 ^ f.ebits - 1) * 2 ^ f.frac

/-- The largest finite magnitude. -/
def maxBits (f : Fmt) (neg : Bool) : Nat := f.infBits neg - 1

/-- The default NaN (R68). -/
def nanBits (f : Fmt) : Nat := (2 ^ f.ebits - 1) * 2 ^ f.frac + 2 ^ (f.frac - 1)

/-- Decodes an encoding. -/
def decode (f : Fmt) (n : Nat) : FVal :=
  let neg := bit n (f.width - 1)
  let e := field n f.frac f.ebits
  let m := field n 0 f.frac
  if e = 2 ^ f.ebits - 1 then
    if m = 0 then .inf neg else .nan neg (bit m (f.frac - 1)) (field m 0 (f.frac - 1) * 2 ^ (63 - f.frac))
  else if e = 0 then .fin neg m (f.emin - f.frac)
  else .fin neg (2 ^ f.frac + m) ((e : Int) - f.bias - f.frac)

/-- Encodes a NaN made quiet: the most significant payload bits that fit (R68). -/
def quietBits (f : Fmt) (neg : Bool) (pay : Nat) : Nat :=
  b2n neg * 2 ^ (f.width - 1) + (2 ^ f.ebits - 1) * 2 ^ f.frac + 2 ^ (f.frac - 1) + pay / 2 ^ (63 - f.frac)

end Fmt

/-- The number of bits of a positive number. -/
def bitlen (m : Nat) : Nat := if m = 0 then 0 else Nat.log2 m + 1

/-- m * 2^e brought to quantum 2^q: the integer part and, scaled by a power of two `den`, the remainder. -/
def splitAt (m : Nat) (e q : Int) : Nat × Nat × Nat :=
  if q ≤ e then (m * 2 ^ (e - q).toNat, 0, 1)
  else let d := 2 ^ (q - e).toNat; (m / d, m % d, d)

/-- Whether the magnitude rounds up, given the integer part's parity and the remainder. -/
def roundsUp (r : Rnd) (neg odd : Bool) (rem den : Nat) : Bool :=
  match r with
  | .rne => decide (den < 2 * rem) || (2 * rem == den && odd)
  | .rtz => false
  | .rup => decide (0 < rem) && !neg
  | .rdn => decide (0 < rem) && neg
  | .rsr u => decide (0 < rem) && decide (u * den < rem * 2 ^ 24)

/-- m * 2^e rounded to `p` significant bits with exponents from `emin` up: significand, quantum exponent, inexact. -/
def roundCore (p : Nat) (emin : Int) (r : Rnd) (neg : Bool) (m : Nat) (e : Int) : Nat × Int × Bool :=
  if m = 0 then (0, emin - (p - 1 : Nat), false)
  else
    let top : Int := e + (bitlen m : Int) - 1
    let q : Int := (if top < emin then emin else top) - (p - 1 : Nat)
    let (k, rem, den) := splitAt m e q
    let k' := if roundsUp r neg (k % 2 == 1) rem den then k + 1 else k
    if k' = 2 ^ p then (2 ^ (p - 1), q + 1, rem != 0) else (k', q, rem != 0)

/-- Whether a magnitude is tiny after rounding: rounded with an unbounded exponent it lies below 2^emin (R67). -/
def tiny (p : Nat) (emin : Int) (r : Rnd) (neg : Bool) (m : Nat) (e : Int) : Bool :=
  let top : Int := e + (bitlen m : Int) - 1
  if emin ≤ top then false
  else
    let (k, q, _) := roundCore p (top - 1) r neg m e
    decide (q + (bitlen k : Int) - 1 < emin)

/-- Rounds a non-zero or zero magnitude to a format (R67, R70). Of a magnitude above the largest finite one, stochastic rounding takes the
fraction towards 2^(emax + 1), the value that infinity stands in for: R70's own b is then no number (DESIGN CHOICE, log entry 121). -/
def roundTo (f : Fmt) (r : Rnd) (neg : Bool) (m : Nat) (e : Int) : Nat × Flags :=
  let s := b2n neg * 2 ^ (f.width - 1)
  if m = 0 then (s, 0)
  else
    let (k, q, inex) := roundCore f.prec f.emin r neg m e
    let nx : Flags := if inex then flNX else 0
    if k < 2 ^ f.frac then
      let uf : Flags :=
        match r with
        | .rsr _ => if inex then flUF else 0
        | _ => if inex && tiny f.prec f.emin r neg m e then flUF else 0
      (s + k, nx ||| uf)
    else
      let be := q + f.frac + f.bias
      if be ≥ 2 ^ f.ebits - 1 then
        let toInf :=
          match r with
          | .rne => true
          | .rtz => false
          | .rup => !neg
          | .rdn => neg
          | .rsr _ => true
        (if toInf then f.infBits neg else f.maxBits neg, flOF ||| flNX)
      else
        let uf : Flags :=
          match r with
          | .rsr _ => 0
          | _ => if inex && tiny f.prec f.emin r neg m e then flUF else 0
        (s + be.toNat * 2 ^ f.frac + (k - 2 ^ f.frac), nx ||| uf)

/-- Whether an operand is a signalling NaN. -/
def FVal.isSnan : FVal → Bool
  | .nan _ q _ => !q
  | _ => false

/-- Whether an operand is a NaN. -/
def FVal.isNan : FVal → Bool
  | .nan _ _ _ => true
  | _ => false

/-- The first NaN of the operands, quieted in a format (R68), with NV when any operand signals (R69). -/
def pickNan (f : Fmt) (ops : List FVal) : Option (Nat × Flags) :=
  match firstThat FVal.isNan ops with
  | some (.nan neg _ pay) => some (f.quietBits neg pay, if ops.any FVal.isSnan then flNV else 0)
  | _ => none

/-- The default NaN with NV (R68). -/
def invalidOp (f : Fmt) : Nat × Flags := (f.nanBits, flNV)

/-- Signed integer significand of a finite operand. -/
def smant (neg : Bool) (m : Nat) : Int := if neg then -(m : Int) else (m : Int)

/-- Exact sum of two finite values, as a signed significand and an exponent. -/
def addExact (a : Int) (ea : Int) (b : Int) (eb : Int) : Int × Int :=
  if ea ≤ eb then (a + b * 2 ^ (eb - ea).toNat, ea) else (a * 2 ^ (ea - eb).toNat + b, eb)

/-- Rounds an exact signed sum; a zero sum of terms of signs `na` and `nb` takes the sign of R67. -/
def roundSum (f : Fmt) (r : Rnd) (na nb : Bool) (s : Int) (e : Int) : Nat × Flags :=
  if s = 0 then
    (b2n (if na == nb then na else decide (r = .rdn)) * 2 ^ (f.width - 1), 0)
  else roundTo f r (decide (s < 0)) s.natAbs e

/-- a + b. -/
def fAdd (f : Fmt) (r : Rnd) (a b : FVal) : Nat × Flags :=
  match pickNan f [a, b] with
  | some x => x
  | none =>
    match a, b with
    | .inf x, .inf y => if x == y then (f.infBits x, 0) else invalidOp f
    | .inf x, _ => (f.infBits x, 0)
    | _, .inf y => (f.infBits y, 0)
    | .fin na ma ea, .fin nb mb eb =>
      let (s, e) := addExact (smant na ma) ea (smant nb mb) eb
      -- operands equal in magnitude and opposite in sign give the zero of R67; two zeros of one sign keep it
      if ma = 0 ∧ mb = 0 then roundSum f r na nb 0 0
      else if s = 0 then roundSum f r na (!na) 0 0
      else roundSum f r na nb s e
    | _, _ => invalidOp f

/-- The operand with its sign inverted; a NaN keeps its sign (R68). -/
def FVal.neg : FVal → FVal
  | .nan n q p => .nan n q p
  | .inf n => .inf (!n)
  | .fin n m e => .fin (!n) m e

/-- a - b; a NaN operand keeps its sign. -/
def fSub (f : Fmt) (r : Rnd) (a b : FVal) : Nat × Flags := fAdd f r a b.neg

/-- The exact product of two operands that are no NaN: invalid (`none`), an infinity, or finite. -/
def mulExact (a b : FVal) : Option FVal :=
  match a, b with
  | .inf x, .inf y => some (.inf (x != y))
  | .inf x, .fin y m _ => if m = 0 then none else some (.inf (x != y))
  | .fin x m _, .inf y => if m = 0 then none else some (.inf (x != y))
  | .fin x m e, .fin y n g => some (.fin (x != y) (m * n) (e + g))
  | _, _ => none

/-- a * b. -/
def fMul (f : Fmt) (r : Rnd) (a b : FVal) : Nat × Flags :=
  match pickNan f [a, b] with
  | some x => x
  | none =>
    match mulExact a b with
    | none => invalidOp f
    | some (.inf n) => (f.infBits n, 0)
    | some (.fin n m e) => roundTo f r n m e
    | some _ => invalidOp f

/-- a * b + c, rounded once (R67). Whether 0 * inf plus a quiet NaN raises NV is left open by IEEE 754-2019 (R69):
`inv` is a free value. -/
def fFma (f : Fmt) (r : Rnd) (inv : Bool) (a b c : FVal) : Nat × Flags :=
  match pickNan f [a, b, c] with
  | some (x, fl) => (x, if !a.isNan && !b.isNan && (mulExact a b).isNone && inv then fl ||| flNV else fl)
  | none =>
    match mulExact a b with
    | none => invalidOp f
    | some p => fAdd f r p c

/-- Quotient significand with a jammed sticky bit: at least `k` bits. -/
def divJam (m n : Nat) (k : Nat) : Nat × Int :=
  let sh := k + bitlen n
  let q := m * 2 ^ sh / n
  (2 * q + b2n (m * 2 ^ sh % n != 0), -(sh : Int) - 1)

/-- a / b. -/
def fDiv (f : Fmt) (r : Rnd) (a b : FVal) : Nat × Flags :=
  match pickNan f [a, b] with
  | some x => x
  | none =>
    match a, b with
    | .inf _, .inf _ => invalidOp f
    | .inf x, .fin y _ _ => (f.infBits (x != y), 0)
    | .fin x _ _, .inf y => (b2n (x != y) * 2 ^ (f.width - 1), 0)
    | .fin x m e, .fin y n g =>
      if n = 0 then
        if m = 0 then invalidOp f else (f.infBits (x != y), flDZ)
      else
        let (q, s) := divJam m n (f.prec + 3)
        roundTo f r (x != y) q (e - g + s)
    | _, _ => invalidOp f

/-- The square root. -/
def fSqrt (f : Fmt) (r : Rnd) (a : FVal) : Nat × Flags :=
  match pickNan f [a] with
  | some x => x
  | none =>
    match a with
    | .inf false => (f.infBits false, 0)
    | .inf true => invalidOp f
    | .fin neg m e =>
      if m = 0 then (b2n neg * 2 ^ (f.width - 1), 0)
      else if neg then invalidOp f
      else
        let odd := e % 2 != 0
        let m1 := if odd then 2 * m else m
        let e1 := if odd then e - 1 else e
        let k := f.prec + 3
        let big := m1 * 2 ^ (2 * k)
        let s := isqrt big
        roundTo f r false (2 * s + b2n (s * s != big)) (e1 / 2 - (k : Int) - 1)
    | _ => invalidOp f

/-- Exact order of two values that are no NaN, with -0 equal to +0. -/
def fLt (a b : FVal) : Bool :=
  match a, b with
  | .inf true, .inf true => false
  | .inf true, _ => true
  | _, .inf true => false
  | .inf false, _ => false
  | _, .inf false => true
  | .fin na ma ea, .fin nb mb eb =>
    let (s, _) := addExact (smant na ma) ea (-(smant nb mb)) eb
    decide (s < 0)
  | _, _ => false

/-- Equality of two values that are no NaN. -/
def fEq (a b : FVal) : Bool := !(fLt a b) && !(fLt b a)

/-- The sign of an operand. -/
def FVal.sign : FVal → Bool
  | .nan n _ _ => n
  | .inf n => n
  | .fin n _ _ => n

/-- FMIN and FMAX (R162): the encodings of the operands, with -0 below +0. -/
def fMinMax (f : Fmt) (max : Bool) (na nb : Nat) : Nat × Flags :=
  let a := f.decode na
  let b := f.decode nb
  let fl : Flags := if a.isSnan || b.isSnan then flNV else 0
  if a.isNan && b.isNan then (match pickNan f [a, b] with | some (x, _) => (x, fl) | none => (na, fl))
  else if a.isNan then (nb, fl)
  else if b.isNan then (na, fl)
  else
    let less := fLt a b || (fEq a b && a.sign && !b.sign)
    (if less == max then nb else na, fl)

/-- FCMP's conditions (R161): result and flags. -/
def fCompare (c : Nat) (a b : FVal) : Bool × Flags :=
  let un := a.isNan || b.isNan
  let sn : Flags := if a.isSnan || b.isSnan then flNV else 0
  let qn : Flags := if un then flNV else 0
  let lt := !un && fLt a b
  let gt := !un && fLt b a
  let eq := !un && !lt && !gt
  match c with
  | 0 => (eq, sn)
  | 1 => (!eq, sn)
  | 2 => (lt, qn)
  | 3 => (lt || eq, qn)
  | 4 => (gt, qn)
  | 5 => (gt || eq, qn)
  | 6 => (un, sn)
  | 7 => (!un, sn)
  | 8 => (un || lt, sn)
  | 9 => (un || lt || eq, sn)
  | 10 => (un || gt, sn)
  | _ => (un || gt || eq, sn)

/-- FCLASS's mask (R164). -/
def fClass (f : Fmt) (n : Nat) : Nat :=
  match f.decode n with
  | .nan _ q _ => if q then 2 ^ 9 else 2 ^ 8
  | .inf neg => if neg then 1 else 2 ^ 7
  | .fin neg m _ =>
    if m = 0 then (if neg then 2 ^ 3 else 2 ^ 4)
    else if m < 2 ^ f.frac then (if neg then 2 ^ 2 else 2 ^ 5)
    else (if neg then 2 else 2 ^ 6)

/-- A finite value rounded to an integer: the signed integer, and whether it was inexact. -/
def toInteger (r : Rnd) (neg : Bool) (m : Nat) (e : Int) : Int × Bool :=
  let (k, rem, den) := splitAt m e 0
  let k' := if roundsUp r neg (k % 2 == 1) rem den then k + 1 else k
  (smant neg k', rem != 0)

/-- FRND (R165). -/
def fRound (f : Fmt) (r : Rnd) (n : Nat) : Nat × Flags :=
  match f.decode n with
  | .nan neg q pay => (f.quietBits neg pay, if q then 0 else flNV)
  | .inf _ => (n, 0)
  | .fin neg m e =>
    let (i, inex) := toInteger r neg m e
    ((roundTo f .rtz neg i.natAbs 0).1, if inex then flNX else 0)

/-- A conversion between float formats (R167). -/
def fConvert (dst : Fmt) (r : Rnd) (a : FVal) : Nat × Flags :=
  match pickNan dst [a] with
  | some x => x
  | none =>
    match a with
    | .inf n => (dst.infBits n, 0)
    | .fin neg m e => roundTo dst r neg m e
    | _ => invalidOp dst

/-- Float to an integer of `len` bits (R167): saturation with NV, NaN gives 0 with NV. -/
def fToInt (signed : Bool) (len : Nat) (r : Rnd) (a : FVal) : Nat × Flags :=
  let lo : Int := if signed then -(2 ^ (len - 1)) else 0
  let hi : Int := if signed then 2 ^ (len - 1) - 1 else 2 ^ len - 1
  match a with
  | .nan _ _ _ => (0, flNV)
  | .inf neg => (wrap len (if neg then lo else hi), flNV)
  | .fin neg m e =>
    let (i, inex) := toInteger r neg m e
    if i < lo then (wrap len lo, flNV)
    else if hi < i then (wrap len hi, flNV)
    else (wrap len i, if inex then flNX else 0)

/-- An integer to a float format. -/
def intToF (dst : Fmt) (r : Rnd) (i : Int) : Nat × Flags := roundTo dst r (decide (i < 0)) i.natAbs 0

/-- The e80 default NaN (R68). -/
def e80Nan : Nat := 0x7FFF * 2 ^ 64 + 3 * 2 ^ 62

/-- The e80 infinity. -/
def e80Inf (neg : Bool) : Nat := b2n neg * 2 ^ 79 + 0x7FFF * 2 ^ 64 + 2 ^ 63

/-- Decodes an e80 element; a non-canonical encoding is the default NaN (R73). -/
def e80Decode (n : Nat) : FVal :=
  let neg := bit n 79
  let e := field n 64 15
  let s := field n 0 64
  let j := bit s 63
  if e = 0 then
    if j then .nan false true 0 else .fin neg s (-16382 - 63)
  else if !j then .nan false true 0
  else if e = 0x7FFF then
    if s = 2 ^ 63 then .inf neg else .nan neg (bit s 62) (field s 0 62)
  else .fin neg s ((e : Int) - 16383 - 63)

/-- Whether an 80-bit encoding is canonical (R73). -/
def e80Canonical (n : Nat) : Bool := (field n 64 15 == 0) != bit n 63

/-- round_e80: a finite exact value rounded to nearest even (R73); zero keeps the given sign. -/
def roundE80 (neg : Bool) (m : Nat) (e : Int) : Nat :=
  let s := b2n neg * 2 ^ 79
  if m = 0 then s
  else
    let (k, q, _) := roundCore 64 (-16382) .rne neg m e
    if k < 2 ^ 63 then s + k
    else
      let be := q + 63 + 16383
      if be ≥ 0x7FFF then e80Inf neg else s + be.toNat * 2 ^ 64 + k

/-- An exact finite value of an operand, for the units that compute on exact numbers; zero for the rest. -/
def FVal.exact : FVal → Int × Int
  | .fin neg m e => (smant neg m, e)
  | _ => (0, 0)

/-- The values of a finite operand in R67's static modes: FADD.rne of FP32 words. -/
def addF32 (a b : Word) : Word × Flags :=
  let (n, fl) := fAdd f32 .rne (f32.decode a.toNat) (f32.decode b.toNat)
  (BitVec.ofNat 32 n, fl)

end Sys2Proof.Machine
end

