-- ==== Sys2Proof/Machine/Operands.lean ====
section
/-! DEFINITION. Register operands: how each class is read and written (R43 to R51), results in flight within a run and
across runs (R46, R58 to R60), and the register checks of the issue stage (R61, R371, R373). -/

namespace Sys2Proof.Machine

/-- The register a write goes to. -/
def RegWrite.id : RegWrite → RegId
  | .vreg t p _ => .vreg t p
  | .temp t n _ => .temp t n
  | .ureg g n _ => .ureg g n
  | .pred t n _ => .pred t n
  | .ptr t n _ => .ptr t n
  | .gfield g n _ => .gfield g n
  | .rsv t n _ => .rsv t n
  | .tile g row _ _ => .tile g (row / 32)

/-- Marks on poisoned registers are removed by a write of the whole register (R387). -/
def State.cleanReg (s : State) : RegWrite → State
  | .vreg t p _ => { s with poisonReg := s.poisonReg.filter (· != (.vreg, t, p)) }
  | .temp t n _ => { s with poisonReg := s.poisonReg.filter (· != (.temp, t, n)) }
  | .ureg g n _ => { s with poisonReg := s.poisonReg.filter (· != (.ureg, g, n)) }
  | .pred t n _ => { s with poisonReg := s.poisonReg.filter (· != (.pred, t, n)) }
  | .ptr t n _ => { s with poisonReg := s.poisonReg.filter (· != (.ptr, t, n)) }
  | .gfield g n _ => { s with poisonReg := s.poisonReg.filter (· != (.gfield, g, n)) }
  | .rsv t n _ => { s with poisonReg := s.poisonReg.filter (· != (.rsv, t, n)) }
  | .tile g row _ _ => { s with poisonReg := s.poisonReg.filter fun x => !(x.1 == .tile && x.2.1 == g && x.2.2 / 32 == row) }

/-- Writes one row of a tile register. -/
def Group.putRow (g : Group) (row : Nat) (cells : List (BitVec 16)) : Group :=
  { g with tile := (cells.zip (upto (32 * row) cells.length)).foldl (fun t e => t.put 0 e.2 e.1) g.tile }

/-- Performs a register write; p15 ignores it (R48). -/
def State.setReg (s : State) : RegWrite → State
  | .vreg t p v => s.updThr t fun x => { x with v := x.v.put 0 p v }
  | .temp t n v => s.updThr t fun x => { x with tm := x.tm.put 0 n v }
  | .ureg g n v => s.updGrp g fun x => { x with w := x.w.put 0 n v }
  | .pred t n b =>
    if n = 15 then s
    else s.updThr t fun x =>
      { x with preds := if b then x.preds ||| (1#16 <<< n) else x.preds &&& ~~~(1#16 <<< n) }
  | .ptr t n p => s.updThr t fun x => { x with ptr := x.ptr.put 0 n p }
  | .gfield g n f => s.updGrp g fun x => { x with g := x.g.put {} n f }
  | .rsv t n v => s.updThr t fun x => { x with rsv := x.rsv.put 0 n v }
  | .tile g row cells _ => s.updGrp g fun x => x.putRow row cells

/-- Performs a register write and removes the register's poison mark. -/
def State.writeReg (s : State) (w : RegWrite) : State :=
  if s.poisonReg.isEmpty then s.setReg w else (s.setReg w).cleanReg w

/-- Performs register writes in order. -/
def State.writeRegs (s : State) (ws : List RegWrite) : State := ws.foldl State.writeReg s

-- Fixed-latency results.

/-- Whether a later entry of the list writes the same register and is due. -/
def laterDue (clk : Nat) (w : FixedWrite) (rest : List FixedWrite) : Bool :=
  rest.any fun x => decide (x.due ≤ clk) && x.write.id == w.write.id

/-- Splits the results in flight: those due, in issue order, and those still to come; a result that a later due write
to the same register has overtaken is neither. -/
def splitDue (clk : Nat) : List FixedWrite → List RegWrite × List FixedWrite
  | [] => ([], [])
  | w :: r =>
    let (d, p) := splitDue clk r
    if w.due ≤ clk then (w.write :: d, p) else if laterDue clk w r then (d, p) else (d, w :: p)

/-- Performs the fixed-latency results of the current run that are due (R58). -/
def State.landFixed (s : State) : State :=
  let r := s.run
  let (d, p) := splitDue s.clk r.fixed
  (s.setRun { r with fixed := p }).writeRegs d

/-- Performs every fixed-latency result of the current run: its end, or a fault (R58). -/
def State.landAll (s : State) : State :=
  let r := s.run
  (s.setRun { r with fixed := [] }).writeRegs (r.fixed.map (·.write))

/-- Marks temporaries as written by this run (R46). -/
def State.markTemps (s : State) (ws : List RegWrite) : State :=
  ws.foldl (fun s w => match w with
    | .temp t n _ => s.updThr t fun x => { x with tmMask := x.tmMask ||| (1#6 <<< n) }
    | _ => s) s

/-- Puts fixed-latency results in flight: ready `lat` clk after this word's issue (R58). -/
def State.fixed (s : State) (lat : Nat) (ws : List RegWrite) : State :=
  let r := s.run
  (s.setRun { r with fixed := r.fixed ++ ws.map fun w => { due := s.clk + lat, write := w } }).markTemps ws

-- Variable-latency results.

/-- Whether a pending result is that of the thread that now stands at its key: not one of a group that has left the place. -/
def State.stillOf (s : State) (p : Pending) : Bool := (s.thr p.th).uid == p.uid

/-- The latest pending write to a register. -/
def State.pendingTo (s : State) (id : RegId) : Option RegWrite :=
  s.pend.foldl (fun acc p => match firstThat (fun w => w.id == id && s.stillOf p) p.writes with | some w => some w | none => acc) none

/-- Whether a read of a pending register returns the new value (R60); the choice is free. -/
def State.coinFor (s : State) (key : Nat) : Bool := Config.coin (s.free * 2 ^ 40 + key)

/-- The 32-bit value of a pending write. -/
def RegWrite.word : RegWrite → Word
  | .vreg _ _ v => v
  | .temp _ _ v => v
  | .ureg _ _ v => v
  | _ => 0

/-- A register whose variable-latency write is pending reads as the old or the new value (R60). -/
def State.eitherWord (s : State) (id : RegId) (key : Nat) (old : Word) : Word :=
  match s.pendingTo id with
  | none => old
  | some w => if w.word = old then old else if s.coinFor key then w.word else old

/-- Remembers that a word of the current run has issued variable-latency writes (obligation 2 of R60). -/
def State.noteLate (s : State) (ws : List RegWrite) : State := s.setRun { s.run with late := s.run.late ++ ws.map (·.id) }

/-- Puts variable-latency results in flight for one thread (R59): they land after a free latency, not before a clk; the clk
in which they land. -/
def State.variableFrom (s : State) (t0 th : Nat) (ws : List RegWrite) (flags : Flags := 0) (bad : Bool := false)
    (quiet : Bool := false) : Nat × State :=
  if ws.isEmpty then (t0, s)
  else
    let r := s.run
    let (id, s) := (s.noteLate ws).newId
    let p : Pending :=
      { id := id, th := th, uid := (s.thr th).uid, run := r.id, pc := r.pc, pos := r.pos, writes := ws, flags := flags, bad := bad, quiet := quiet }
    ({ s with pend := s.pend ++ [p] }).laterFrom t0 (.resultLands id)

/-- Puts variable-latency results in flight for one thread (R59): they land after a free latency. -/
def State.variable (s : State) (th : Nat) (ws : List RegWrite) (flags : Flags := 0) (bad : Bool := false) (quiet : Bool := false) :
    State :=
  (s.variableFrom 0 th ws flags bad quiet).2

/-- Puts results of several lanes in flight so that they land in the order given (R92). -/
def State.variableInOrder (s : State) (l : List (Nat × List RegWrite)) : State :=
  (l.foldl (fun (a : Nat × State) e => a.2.variableFrom a.1 e.1 e.2) (0, s)).2

-- Reads.

/-- A physical vector register. -/
def State.readPhys (s : State) (k p : Nat) : Word := s.eitherWord (.vreg k p) p ((s.thr k).v.get 0 p)

/-- A vector-context register: the window names v0 to v121, then tm0 to tm5 (R44, R46). -/
def State.v (s : State) (k n : Nat) : Word :=
  if n < 122 then s.readPhys k ((s.thr k).winb + n) else (s.thr k).tm.get 0 (n - 122)

/-- A vector-context pair (R45). -/
def State.v64 (s : State) (k n : Nat) : DWord := pairOf (s.v k n) (s.v k (n + 1))

/-- A uniform register of a group. -/
def State.w (s : State) (g n : Nat) : Word := s.eitherWord (.ureg g n) (256 + n) ((s.grp g).w.get 0 n)

/-- A uniform pair. -/
def State.w64 (s : State) (g n : Nat) : DWord := pairOf (s.w g n) (s.w g (n + 1))

/-- A uniform register of the thread's group (R47). -/
def State.wOf (s : State) (k n : Nat) : Word := s.w (s.thr k).grp n

/-- A uniform pair of the thread's group. -/
def State.wOf64 (s : State) (k n : Nat) : DWord := s.w64 (s.thr k).grp n

/-- A predicate; p15 reads 1 whatever was written to it (R48). -/
def State.p (s : State) (k n : Nat) : Bool :=
  if n = 15 then true
  else
    let old := (s.thr k).preds.getLsbD n
    match s.pendingTo (.pred k n) with
    | some (.pred _ _ b) => if b = old then old else if s.coinFor (512 + n) then b else old
    | _ => old

/-- An address register's pointer. -/
def State.ptrOf (s : State) (k g : Nat) : DWord := (s.thr k).ptr.get 0 g

/-- An address register's group fields, of the thread's group. -/
def State.gf (s : State) (k g : Nat) : GField := (s.grp (s.thr k).grp).g.get {} g

/-- A reservoir register; with a write pending, the old or the new value (R60). -/
def State.q (s : State) (k n : Nat) : BitVec 128 :=
  let old := (s.thr k).rsv.get 0 n
  match s.pendingTo (.rsv k n) with
  | some (.rsv _ _ v) => if v = old then old else if s.coinFor (768 + n) then v else old
  | _ => old

/-- A tile register of a group, by element; with a write pending, the old or the new value (R60). -/
def State.tileReg (s : State) (g n : Nat) : Tab (BitVec 16) :=
  let rows := s.pend.flatMap fun p => p.writes.filter fun w => w.id == .tile g n && s.stillOf p
  if !rows.isEmpty && s.coinFor (1024 + n)
  then (rows.foldl (fun x w => match w with | .tile _ row cells _ => x.putRow row cells | _ => x) (s.grp g)).tile
  else (s.grp g).tile

/-- The thread's index in its group (R22). -/
def State.gi (s : State) (k : Nat) : Nat := (s.thr k).idx

-- Writes as data.

/-- The write to a vector-context register. -/
def State.toV (s : State) (k n : Nat) (x : Word) : RegWrite :=
  if n < 122 then .vreg k ((s.thr k).winb + n) x else .temp k (n - 122) x

/-- The writes to a vector-context pair. -/
def State.toV64 (s : State) (k n : Nat) (x : DWord) : List RegWrite :=
  [s.toV k n (loWord x), s.toV k (n + 1) (hiWord x)]

/-- The writes to a uniform pair. -/
def toW64 (g n : Nat) (x : DWord) : List RegWrite := [.ureg g n (loWord x), .ureg g (n + 1) (hiWord x)]

/-- The writes of a block of registers. -/
def State.toBlock (s : State) (k n : Nat) : List Word → List RegWrite
  | [] => []
  | x :: r => s.toV k n x :: s.toBlock k (n + 1) r

-- Checks of the issue stage.

/-- The register class codes of a record's INFO [10:8] (R373). -/
inductive RegCls where
  | vec | uni | pred | addr | rsv | tile | acc
  /-- The pointer of an address register alone, and its group fields alone. -/
  | point | fields
  deriving DecidableEq, Repr

/-- A register operand: its class, first register and count; `wide` for an even name, `quad` for a multiple of 4;
whether it is read and written. -/
structure Opd where
  cls : RegCls
  n : Nat
  cnt : Nat := 1
  wide : Bool := false
  quad : Bool := false
  rd : Bool := true
  wr : Bool := false
  /-- The threads it counts for, where it is not every issued one. -/
  only : Option (List Nat) := none
  /-- Only its names are checked: the instruction reads and writes some of them alone, which other operands list. -/
  bound : Bool := false
  deriving DecidableEq, Repr

/-- A vector register that is read. -/
def Opd.src (n : BitVec 7) (wide : Bool := false) : Opd := { cls := .vec, n := n.toNat, cnt := if wide then 2 else 1, wide := wide }

/-- A vector register that is written. -/
def Opd.dst (n : BitVec 7) (wide : Bool := false) : Opd :=
  { cls := .vec, n := n.toNat, cnt := if wide then 2 else 1, wide := wide, rd := false, wr := true }

/-- A vector register that is read and written. -/
def Opd.both (n : BitVec 7) (wide : Bool := false) : Opd :=
  { cls := .vec, n := n.toNat, cnt := if wide then 2 else 1, wide := wide, wr := true }

/-- A uniform register that is read. -/
def Opd.usrc (n : Nat) (wide : Bool := false) (cnt : Nat := 1) : Opd :=
  { cls := .uni, n := n, cnt := if wide then 2 else cnt, wide := wide }

/-- A uniform register that is written. -/
def Opd.udst (n : Nat) (wide : Bool := false) : Opd :=
  { cls := .uni, n := n, cnt := if wide then 2 else 1, wide := wide, rd := false, wr := true }

/-- A predicate that is read. -/
def Opd.psrc (n : Nat) : Opd := { cls := .pred, n := n }

/-- A predicate that is written. -/
def Opd.pdst (n : Nat) : Opd := { cls := .pred, n := n, rd := false, wr := true }

/-- An address register that is read. -/
def Opd.g (n : BitVec 5) : Opd := { cls := .addr, n := n.toNat }

/-- A block of vector registers. -/
def Opd.block (n : BitVec 7) (cnt : Nat) (wide : Bool := false) (wr : Bool := false) : Opd :=
  { cls := .vec, n := n.toNat, cnt := cnt, wide := wide, rd := !wr, wr := wr }

/-- INFO [10:8] of an operand (R373). -/
def Opd.clsCode (o : Opd) : Nat :=
  match o.cls with
  | .vec => if 122 ≤ o.n then 7 else 0
  | .uni => 1
  | .pred => 2
  | .addr | .point | .fields => 3
  | .rsv => 4
  | .tile => 5
  | .acc => 6

/-- INFO of a register fault (R373). -/
def Opd.info (o : Opd) : Nat := o.n % 128 + 256 * o.clsCode

/-- Whether an operand lies outside its class or the thread's allocation (R44, R45, R49, R112, R373). -/
def State.outOfRange (s : State) (k : Nat) (o : Opd) : Bool :=
  let last := o.n + o.cnt - 1
  match o.cls with
  | .vec =>
    (o.wide && o.n % 2 == 1) || (o.quad && o.n % 4 != 0) || (o.quad && decide (122 ≤ o.n))
      || (decide (o.n < 122) && decide (122 ≤ last)) || decide (127 < last)
      || (decide (last < 122) && decide ((s.thr k).alloc ≤ (s.thr k).winb + last))
  | .uni => (o.wide && o.n % 2 == 1) || decide (64 ≤ last)
  | .tile => decide ((s.grp (s.thr k).grp).tiles ≤ o.n)
  | .acc => decide ((s.grp (s.thr k).grp).accC ≤ o.n)
  | _ => false

/-- The registers an operand covers, for one thread. -/
def State.regsOf (s : State) (k : Nat) (o : Opd) : List RegId :=
  (if o.bound then [] else upto o.n o.cnt).flatMap fun n =>
    match o.cls with
    | .vec => if n < 122 then [.vreg k ((s.thr k).winb + n)] else [.temp k (n - 122)]
    | .uni => [.ureg (s.thr k).grp n]
    | .pred => if n = 15 then [] else [.pred k n]
    | .addr => [.ptr k n, .gfield (s.thr k).grp n]
    | .point => [.ptr k n]
    | .fields => [.gfield (s.thr k).grp n]
    | .rsv => [.rsv k n]
    | .tile => [.tile (s.thr k).grp n]
    | .acc => []

/-- Whether an operand reads a temporary that the run has not written (R46). -/
def State.tempUndef (s : State) (k : Nat) (o : Opd) : Bool :=
  o.rd && o.cls == .vec && (upto o.n o.cnt).any fun n =>
    decide (122 ≤ n) && !((s.thr k).tmMask.getLsbD (n - 122))

/-- Whether an operand breaks obligation 1 of R60 while STALLCHK is set (R61). -/
def State.breaksStall (s : State) (k : Nat) (o : Opd) : Bool :=
  o.rd && (s.thr k).chk.getLsbD 0 && (s.regsOf k o).any fun id =>
    s.run.fixed.any fun f => decide (s.clk < f.due) && f.write.id == id

/-- Whether an operand breaks obligation 2 or 3 of R60 while AWAITCHK is set (R61): its write was issued in this run, or is
pending. Obligation 2 does not apply between the instructions on an accumulator tile (R199). -/
def State.breaksAwait (s : State) (k : Nat) (o : Opd) : Bool :=
  (s.thr k).chk.getLsbD 1 && (s.regsOf k o).any fun id => s.run.late.contains id || (s.pendingTo id).isSome

/-- Whether an operand reads a poisoned register (R388). -/
def State.poisoned (s : State) (k : Nat) (o : Opd) : Bool :=
  o.rd && !s.poisonReg.isEmpty && (s.regsOf k o).any fun id =>
    match id with
    | .vreg t p => s.poisonReg.contains (.vreg, t, p)
    | .temp t n => s.poisonReg.contains (.temp, t, n)
    | .ureg g n => s.poisonReg.contains (.ureg, g, n)
    | .pred t n => s.poisonReg.contains (.pred, t, n)
    | .ptr t n => s.poisonReg.contains (.ptr, t, n)
    | .gfield g n => s.poisonReg.contains (.gfield, g, n)
    | .rsv t n => s.poisonReg.contains (.rsv, t, n)
    | .tile _ _ => false

/-- The first operand, in order, that any thread of the issue set fails on. -/
def State.firstBad (s : State) (bad : Nat → Opd → Bool) (ops : List Opd) : Option Opd :=
  firstThat (fun o => s.issue.any fun k => (match o.only with | none => true | some l => l.contains k) && bad k o) ops

/-- The register checks of one word (R371, steps 2 and 4; R373; R388): code, class and INFO of the first failure. The
temporaries that FFMAT names by number, tiles and accumulators are among the operands. -/
def State.rangeFault (s : State) (ops : List Opd) : Option (Nat × Nat × Nat) :=
  (s.firstBad s.outOfRange ops).map fun o => (0x03, 0, o.info)

/-- TEMP_UNDEF, then STALL_SHORT, then a poisoned register (R371, R388). -/
def State.hazardFault (s : State) (ops : List Opd) : Option (Nat × Nat × Nat) :=
  match s.firstBad s.tempUndef ops with
  | some o => some (0x04, 0, o.n % 128 + 256 * 7)
  | none =>
    match s.firstBad s.breaksStall ops with
    | some o => some (0x05, 0, o.info)
    | none =>
      match s.firstBad s.breaksAwait ops with
      | some o => some (0x05, 0, o.info + 2 ^ 12)
      | none =>
        match s.firstBad s.poisoned ops with
        | some o => some (0x1C, 2, o.info)
        | none => none

end Sys2Proof.Machine
end

