-- ==== Sys2Proof/Machine/Memory.lean ====
section
/-! DEFINITION. Memory: the homes, the windows and physical ranges (R83 to R93), translation (R316 to R320), the checks
of an access (R176, R374 to R377), and the two ways to read and write: weakly in the core (R97 to R100) and at the
home (R95, R101), with publication (R99) and snapshot refresh (R103). -/

namespace Sys2Proof.Machine

-- Homes.

/-- The task a view address belongs to: grid and index. -/
def viewTask (h : Nat) : Nat × Nat := let v := h / 2 ^ 110 - 1; (v / 2 ^ 32, v % 2 ^ 32)

/-- A task of a deterministic grid, by its index. -/
def State.detTask (s : State) (g p : Nat) : Option DetTask :=
  match (s.grid g).det with
  | none => none
  | some d => firstThat (fun t => t.p == p) d.tasks

/-- Changes a task of a deterministic grid. -/
def State.updDetTask (s : State) (g p : Nat) (f : DetTask → DetTask) : State :=
  s.updGrid g fun gr =>
    { gr with det := gr.det.map fun d => { d with tasks := d.tasks.map fun t => if t.p == p then f t else t } }

/-- The byte at a real home: the value an engine that owns its line writes, or what memory holds (R107, step 3). -/
def State.realHome (s : State) (h : Nat) : Byte := (s.owned.get none h).getD (s.mem.get 0 h)

/-- The byte at a home; through a deterministic task's view, the held byte stands in for it (R310). -/
def State.readHome (s : State) (h : Nat) : Byte :=
  if h < 2 ^ 110 then s.realHome h
  else
    match s.detTask (viewTask h).1 (viewTask h).2 with
    | some t => (t.held.get none (h % 2 ^ 110)).getD (s.realHome (h % 2 ^ 110))
    | none => s.realHome (h % 2 ^ 110)

/-- The first address of host memory (R89). -/
def hostBase : Nat := 0xC000000000000

/-- Whether the home slice of a host-memory line does not hold it while the host port is not up (R424): a line written since
then is held; any other may have been dropped before, which is free, and the same until the port is up again. -/
def State.lineLost (s : State) (line : Nat) : Bool :=
  s.host.port != .up && decide (hostBase ≤ 128 * line) && decide (128 * line < 2 ^ 52) && !(s.host.lines.get false line)
    && Config.coin ((8 * s.host.downKey + 5) * 2 ^ 200 + line)

/-- A write to host memory while the host port is not up: the line is held, and what the slice did not hold of it is poisoned
(R424). -/
def State.holdHostLine (s : State) (h : Nat) : State :=
  if s.host.port = .up ∨ h < hostBase ∨ 2 ^ 52 ≤ h then s
  else
    let lost := s.lineLost (h / 128)
    let s := { s with host := { s.host with lines := s.host.lines.put false (h / 128) true } }
    if lost then { s with poison := (upto (h / 128 * 4) 4).foldl (fun t g => t.put false g true) s.poison } else s

/-- The poison mark of a real granule: where an engine owns bytes of it, the mark that the engine's write leaves (R107, R387,
R388), else the mark it has. -/
def State.markOf (s : State) (g : Nat) : Bool :=
  if s.owned.isEmpty then s.poison.get false g
  else
    let hs := upto (32 * g) 32
    if hs.any fun h => s.ownedBad.get false h then true
    else if hs.all fun h => (s.owned.get none h).isSome then false
    else s.poison.get false g

/-- A write to a byte that an engine owns comes after the engine's: the granule has the engine's mark, and the byte is the
engine's no more (R107, step 3). -/
def State.recall (s : State) (h : Nat) : State :=
  match s.owned.get none h with
  | none => s
  | some _ =>
    { s with poison := s.poison.put false (h / 32) (s.markOf (h / 32)), owned := s.owned.del h, ownedBad := s.ownedBad.del h }

/-- Writes one byte at its home. -/
def State.writeHome (s : State) (h : Nat) (b : Byte) : State :=
  if h < 2 ^ 110 then
    let s := (s.holdHostLine h).recall h
    { s with mem := s.mem.put 0 h b }
  else s.updDetTask (viewTask h).1 (viewTask h).2 fun t => { t with held := t.held.put none (h % 2 ^ 110) (some b) }

/-- `n` bytes at consecutive homes. -/
def State.readHomes (s : State) (h : Nat) : Nat → List Byte
  | 0 => []
  | n + 1 => s.readHome h :: s.readHomes (h + 1) n

/-- Writes bytes at consecutive homes. -/
def State.writeHomes (s : State) : Nat → List Byte → State
  | _, [] => s
  | h, b :: r => (s.writeHome h b).writeHomes (h + 1) r

/-- The 32-byte granules wholly covered by `n` bytes from `h` on. -/
def coveredGranules (h n : Nat) : List Nat :=
  let lo := (h + 31) / 32
  upto lo ((h + n) / 32 - lo)

/-- Removes the poison of wholly covered granules (R387). -/
def State.clearPoison (s : State) (h n : Nat) : State :=
  if s.poison.isEmpty then s
  else { s with poison := (coveredGranules h n).foldl (fun t g => t.put false g false) s.poison }

/-- Marks the granules that `n` bytes from `h` on touch as poisoned (R386). -/
def State.markPoison (s : State) (h n : Nat) : State :=
  if n = 0 then s
  else { s with poison := (upto (h / 32) ((h + n - 1) / 32 - h / 32 + 1)).foldl (fun t g => t.put false g true) s.poison }

/-- Whether a granule is poisoned; a deterministic task also sees the mark of the home behind its window, unless it holds
the whole granule. -/
def State.granulePoisoned (s : State) (g : Nat) : Bool :=
  if g < 2 ^ 105 then s.markOf g
  else s.poison.get false g
    || (s.markOf (g % 2 ^ 105)
      && match s.detTask (viewTask (32 * g)).1 (viewTask (32 * g)).2 with
        | some t => (upto (32 * (g % 2 ^ 105)) 32).any fun h => (t.held.get none h).isNone
        | none => true)

/-- Whether any of `n` bytes from a home on lies in a poisoned granule (R387), or in a host-memory line that cannot be
fetched (R424). -/
def State.isPoisoned (s : State) (h n : Nat) : Bool :=
  decide (0 < n)
    && ((!(s.poison.isEmpty && s.ownedBad.isEmpty) && (upto (h / 32) ((h + n - 1) / 32 - h / 32 + 1)).any s.granulePoisoned)
      || (s.host.port != .up && (upto (h % 2 ^ 110 / 128) ((h % 2 ^ 110 + n - 1) / 128 - h % 2 ^ 110 / 128 + 1)).any s.lineLost))

/-- A write of one access or engine command at consecutive homes: it also removes the poison it covers. -/
def State.storeHomes (s : State) (h : Nat) (bs : List Byte) : State := (s.writeHomes h bs).clearPoison h bs.length

/-- The die-shared partition of a die, in bytes (R93). -/
def State.sharedSize (s : State) (d : Nat) : Nat := (s.die d).gshared * 2 ^ 17 * s.part.slices d

-- Translation (R316 to R320, R374 to R377).

/-- Why an access fails: code, class, INFO and whether the address is replayable follow from it. -/
structure AccFault where
  code : Nat
  cls : Nat := 0
  chk : Nat := 0
  level : Nat := 0
  info : Option Nat := none
  deriving DecidableEq, Repr

/-- The class of the fault in a record of an engine, a publication or another unit: 1, and 2 for ECC_UNCORR, which R364 gives class 0
or 2 and R362 makes no precise fault there (DEDUCED, log entry 151). -/
def AccFault.unitCls (f : AccFault) : Nat := if f.code = 0x1C then 2 else 1

/-- The entry of a table for a virtual address. -/
def tableIndex (level va : Nat) : Nat := va / 2 ^ (12 + 9 * level) % 512

/-- A page-table entry's malformation with CHK 5 (R377). -/
def entryMalformed (e level : Nat) : Bool :=
  let lf := bit e 1
  let pfnBits := if level = 1 then field e 12 9 else if level = 2 then field e 12 18 else 0
  field e 52 4 != 0 || bit e 11
    || (lf && decide (3 ≤ level)) || (!lf && level == 0)
    || (!lf && (bit e 6 || field e 7 2 != 0 || bit e 10))
    || (bit e 10 && level != 0)
    || decide (2 ≤ field e 7 2)
    || (lf && pfnBits != 0)
    || (lf && bit e 10 && field e 12 4 != 0)

/-- A leaf's malformation with CHK 7: its page is not wholly in one range, or DL disagrees (R377). -/
def Part.leafMalformed (p : Part) (pa size : Nat) (dl : Bool) : Bool :=
  let a := p.rangeOf pa
  let b := p.rangeOf (pa + size - 1)
  a != b || a == .reserved || (match a with | .dieLocal _ => !dl | _ => dl)

/-- The attributes gathered on the path. -/
structure Path where
  w : Bool := true
  x : Bool := true
  at_ : Bool := true
  bs : Bool := true
  lw : Nat := 0
  lx : Nat := 0
  lat : Nat := 0
  lbs : Nat := 0
  psn : Option Nat := none
  deriving DecidableEq, Repr

/-- Adds one entry to the path. -/
def Path.step (p : Path) (e level : Nat) : Path :=
  { w := p.w && bit e 2, x := p.x && bit e 3, at_ := p.at_ && bit e 4, bs := p.bs && bit e 5
    lw := if p.w && !bit e 2 then level else p.lw, lx := if p.x && !bit e 3 then level else p.lx
    lat := if p.at_ && !bit e 4 then level else p.lat, lbs := if p.bs && !bit e 5 then level else p.lbs
    psn := if p.psn.isNone && bit e 9 then some level else p.psn }

/-- The walk from a table down: `n` levels are left, so the entry is read at level n - 1 (R316, R377). -/
def State.walkFrom (s : State) (ctx va : Nat) : Nat → Nat → Path → Except AccFault TlbEntry
  | 0, _, _ => .error { code := 0x0A, chk := 5 }
  | n + 1, table, path =>
    let a := table + 8 * tableIndex n va
    if s.isPoisoned a 8 then .error { code := 0x1C, cls := 2, chk := 5, level := n }
    else
      let e := leNat (s.readHomes a 8)
      if !bit e 0 then .error { code := 0x09, chk := 5, level := n }
      else if entryMalformed e n then .error { code := 0x0A, chk := 5, level := n }
      else
        let path := path.step e n
        let base := field e 12 40 * 2 ^ 12
        if bit e 1 then
          let size := if n = 0 then (if bit e 10 then 2 ^ 16 else 2 ^ 12) else 2 ^ (12 + 9 * n)
          if s.part.leafMalformed base size (bit e 6) then .error { code := 0x0A, chk := 7, level := n }
          else
            match path.psn with
            | some l => .error { code := 0x1C, cls := 0, chk := 5, level := l }
            | none =>
              .ok { ctx := ctx, va := va / size * size, size := size, pa := base, w := path.w, x := path.x
                    at_ := path.at_, bs := path.bs, uncached := field e 7 2 == 1
                    lw := path.lw, lx := path.lx, lat := path.lat, lbs := path.lbs }
        else s.walkFrom ctx va n base path

/-- A full walk of a context's tables. -/
def State.walk (s : State) (ctx va : Nat) : Except AccFault TlbEntry := s.walkFrom ctx va 5 (s.cx ctx).root.toNat {}

/-- The translations a unit may hold: those of its core's L1 TLB and its die's L2 TLB, or of the command context (R320). -/
def State.tlb (s : State) (unit : Nat) : List TlbEntry :=
  if isCmd unit then (s.cmd (unit - cmdBase)).tlb
  else
    let l1 := (s.core (coreOfThread unit)).tlb
    l1 ++ ((s.die (dieOfThread unit)).tlb.flatMap (·.2)).filter fun e => !(l1.contains e)

/-- Puts a translation into a TLB of `cap` entries; a full one loses an entry, which is free (DESIGN CHOICE, log entry 127). -/
def fillTlb (cap i : Nat) (l : List TlbEntry) (e : TlbEntry) : List TlbEntry :=
  if l.contains e then l else if l.length < cap then l ++ [e] else l.set (Config.pick i % cap) e

/-- Holds a translation in the TLBs of a unit: 256 entries in a core's, and 2,048 at the walker stop of the core's column, a sixteenth
of a die's (R320). A command context's is as a core's (log entry 127). -/
def State.addTlb (s : State) (unit : Nat) (e : TlbEntry) : State :=
  if isCmd unit then s.updCmd (unit - cmdBase) fun c => { c with tlb := fillTlb 256 (s.free * 2 ^ 50) c.tlb e }
  else
    let col := coreOfThread unit % 16
    (s.updCore (coreOfThread unit) fun c => { c with tlb := fillTlb 256 (s.free * 2 ^ 50 + 1) c.tlb e }).updDie (dieOfThread unit)
      fun d => { d with tlb := d.tlb.put [] col (fillTlb 2048 (s.free * 2 ^ 50 + 2) (d.tlb.get [] col) e) }

/-- Whether an entry translates an address of a context. -/
def TlbEntry.covers (e : TlbEntry) (ctx va : Nat) : Bool :=
  e.ctx == ctx && decide (e.va ≤ va) && decide (va < e.va + e.size)

/-- A translation: that of a fresh walk, or of an entry that a TLB still holds; which, where they differ, is free
(R320, R321). `unit` is a thread key: of the core's die, or a command context. -/
def State.translate (s : State) (unit ctx va : Nat) : Except AccFault TlbEntry :=
  let fresh := s.walk ctx va
  let others := (s.tlb unit).filter fun e => e.covers ctx va && (match fresh with | .ok f => f != e | .error _ => true)
  match others with
  | [] => fresh
  | _ =>
    let i := Config.pick (s.free * 2 ^ 48 + va / 2 ^ 12) % (others.length + 1)
    match others[i]? with
    | some e => .ok e
    | none => fresh

/-- What an access needs of a translation beside V (R318). -/
structure Need where
  w : Bool := false
  x : Bool := false
  at_ : Bool := false
  bs : Bool := false
  deriving DecidableEq, Repr

/-- The permissions of R318 on the effective attributes. -/
def Need.check (n : Need) (e : TlbEntry) : Except AccFault TlbEntry :=
  if n.w && !e.w then .error { code := 0x0A, chk := 5, level := e.lw }
  else if n.x && !e.x then .error { code := 0x0A, chk := 5, level := e.lx }
  else if n.at_ && !e.at_ then .error { code := 0x0A, chk := 5, level := e.lat }
  else if n.bs && !e.bs then .error { code := 0x0A, chk := 5, level := e.lbs }
  else .ok e

/-- Check 5 of R176 for one page. -/
def State.translateFor (s : State) (unit ctx va : Nat) (n : Need) : Except AccFault TlbEntry :=
  match s.translate unit ctx va with
  | .ok e => n.check e
  | .error f => .error f

-- Windows (R83, R84).

/-- The window or the translated space an address lies in. -/
inductive Win where
  | paged | teamLocal | laneStore | shared | device | reserved
  deriving DecidableEq, Repr

def teamBase : Nat := 0x01FFF00000000000
def laneBase : Nat := 0x01FFF10000000000
def sharedBase : Nat := 0x01FFF20000000000
def deviceBase : Nat := 0x01FFFF0000000000

/-- The window of a virtual address, by the windows' largest sizes (R83). -/
def winOf (va : Nat) : Win :=
  if va < teamBase then .paged
  else if va < teamBase + 2 ^ 21 then .teamLocal
  else if laneBase ≤ va ∧ va < laneBase + 2 ^ 11 then .laneStore
  else if sharedBase ≤ va ∧ va < sharedBase + 2 ^ 26 then .shared
  else if deviceBase ≤ va ∧ va < deviceBase + 2 ^ 16 then .device
  else .reserved

/-- The address-register kind of a window (R83). -/
def Win.kind : Win → Nat
  | .paged => 0
  | .teamLocal => 1
  | .laneStore => 2
  | .shared => 3
  | .device => 0
  | .reserved => 0

/-- Where an access goes: the home address of its first byte (homes are consecutive within a page or window). -/
structure Spot where
  home : Nat
  win : Win
  uncached : Bool := false
  entry : Option TlbEntry := none
  deriving DecidableEq, Repr

/-- Whether an access is global in the sense of R95. -/
def Spot.global (p : Spot) : Bool := p.win == .paged || p.win == .shared || p.win == .device

/-- What an access asks for. -/
structure Ask where
  size : Nat
  align : Nat
  g : Nat
  /-- Bits of the permission field that must be set (R48). -/
  perm : Nat
  wr : Bool := false
  need : Need := {}
  /-- The device page fails check 4 for it: weak accesses, and slot rings (R191, R376). -/
  weak : Bool := false
  /-- The device page is closed to it by the device-page rule: engine accesses (R376). -/
  noDevice : Bool := false
  /-- The major opcode, which INFO names in a deterministic grid (R385). -/
  opc : Nat := 0
  /-- An operation that a deterministic grid may not make at a global address: ATOM, ACAS, and FATOM but for the binned
  addition (R385). -/
  nonBinned : Bool := false
  deriving DecidableEq, Repr

/-- Whether a permission field holds the bits asked for. -/
def permOk (perm : BitVec 4) (bits : Nat) : Bool := Nat.land perm.toNat bits == bits

/-- The paged part of check 5, page by page from the lower one (R375): `left` bytes from `va`, with fuel. -/
def State.checkPages (s : State) (unit ctx : Nat) (n : Need) : Nat → Nat → Nat → Except AccFault Unit
  | 0, _, _ => .ok ()
  | fuel + 1, va, left =>
    if left = 0 then .ok ()
    else
      match s.translateFor unit ctx va n with
      | .error f => .error f
      | .ok _ =>
        let here := 2 ^ 12 - va % 2 ^ 12
        s.checkPages unit ctx n fuel (va + here) (left - here)

/-- Whether a semaphore lies in a block granted to a thread's context, or to a command context itself (R341, R345). -/
def State.ownsSem (s : State) (k n : Nat) : Bool :=
  let o := s.semOwner.get 0 (n / 64)
  o == s.ctxOf k + 1 || (isCmd k && o == 65537 + (k - cmdBase))

/-- Semaphore block rules of the device page for one access (R376, R412, R413). -/
def State.checkDevice (s : State) (k : Nat) (a : Ask) (o : Nat) : Except AccFault Unit :=
  if a.noDevice then .error { code := 0x08, chk := 6 }
  else if 0x8400 ≤ o then .error { code := 0x07, chk := 6 }
  else if 0x8000 ≤ o then (if a.wr then .error { code := 0x08, chk := 6 } else .ok ())
  else if a.size != 8 then .error { code := 0x08, chk := 6 }
  else
    if s.ownsSem k (o / 8) then .ok () else .error { code := 0x21, info := some (o / 8) }

/-- Granules of local SRAM in state L1 (R85). -/
def Core.l1Granules (c : Core) : Nat := 16 - (c.gran.filter fun e => e.2 != .l1).length

/-- A byte of a line copy. -/
def lineByte (t : Tab (Option Line)) (h : Nat) : Option Byte :=
  match t.get none (h / 128) with
  | some l => some (l.bytes.get 0 h)
  | none => none

/-- The line copies of a core's L1: those of the granules in state L1 (R85). -/
def Core.copies (c : Core) : Tab (Option Line) := if c.l1Granules = 0 then [] else c.l1

/-- Whether a waiting Torc step owns the line of one of some homes (R107, R301). -/
def State.torcOwns (s : State) (hs : List Nat) : Bool := !s.torcHeld.isEmpty && hs.any fun h => s.torcHeld.get false (h / 128)

/-- Where an access goes, once no Torc step owns a line of it; else it waits, which code 0 stands for (R107, R301). A weak store stays in the
core, and a weak load may be served by a copy there. -/
def State.openSpot (s : State) (k : Nat) (a : Ask) (p : Spot) : Except AccFault Spot :=
  let copy := (lineByte (s.slot (issuerOfThread k)).l0 p.home).isSome || (lineByte (s.core (coreOfThread k)).copies p.home).isSome
  if s.torcOwns (upto p.home a.size) && !(a.weak && (a.wr || copy)) then .error { code := 0 } else .ok p

/-- The checks of R176 for one lane, in their order: where the access goes, or why it fails. -/
def State.checkAccess (s : State) (k : Nat) (a : Ask) (ea : DWord) : Except AccFault Spot :=
  let va := ea.toNat
  let f := s.gf k a.g
  if va % a.align != 0 then .error { code := 0x06, chk := 1 }
  else if va < f.base.toNat || f.base.toNat + f.limit.toNat < va + a.size then .error { code := 0x07, chk := 2 }
  else if !permOk f.perm a.perm then .error { code := 0x08, chk := 3 }
  else
    let w := winOf va
    let o := va % 2 ^ 26
    if w == .reserved then .error { code := 0x07, chk := 4 }
    else if f.kind.toNat != w.kind || (isCmd k && f.kind != 0) then .error { code := 0x08, chk := 4 }
    else
      match w with
      | .teamLocal =>
        if (s.team (s.thr k).team).localSz < va - teamBase + a.size then .error { code := 0x07, chk := 4 }
        else .ok { home := homeTeam (s.thr k).team (va - teamBase), win := w }
      | .laneStore =>
        if (s.thr k).laneSz < va - laneBase + a.size then .error { code := 0x0B, chk := 4 }
        else .ok { home := s.laneHome k (va - laneBase), win := w }
      | .shared =>
        if s.sharedSize (dieOfThread k) < o + a.size then .error { code := 0x07, chk := 4 }
        else if a.nonBinned && s.isDet k then .error { code := 0x0D, info := some a.opc }
        else s.openSpot k a { home := homeShared (dieOfThread k) (va - sharedBase), win := w }
      | .device =>
        if a.weak then .error { code := 0x08, chk := 4 }
        else if s.isDet k then .error { code := 0x0D, info := some a.opc }
        else
          match s.checkDevice k a (va - deviceBase) with
          | .error e => .error e
          | .ok _ => .ok { home := homeDev (va - deviceBase), win := w }
      | _ =>
        if teamBase < va + a.size then .error { code := 0x08, chk := 4 }
        else if a.nonBinned && s.isDet k then .error { code := 0x0D, info := some a.opc }
        else
          match s.checkPages k (s.ctxOf k) a.need 4 va a.size with
          | .error e => .error e
          | .ok _ =>
            match s.translateFor k (s.ctxOf k) va a.need with
            | .error e => .error e
            | .ok t =>
              s.openSpot k a { home := s.viewOfThread k + t.pa + (va - t.va), win := w, uncached := t.uncached, entry := some t }

/-- INFO of an operand check (R374, R413, R385). -/
def AccFault.infoWord (f : AccFault) (wr : Bool) : Nat :=
  match f.info with
  | some i => i
  | none => f.level * 16 + b2n wr * 8 + f.chk

-- What the core holds: pending stores and copies (R97 to R100).

/-- The core's pending value of a byte: of the latest weak store, or of a publication still under way (R97, R99). -/
def Core.pending (c : Core) (h : Nat) : Option Byte :=
  match c.pend.get none h with
  | some b => some b
  | none => c.pubs.foldr (fun t acc => match acc with | some b => some b | none => t.get none h) none

/-- Changes a byte of a line copy if the line is present; the copy then shows every store to it so far. -/
def lineWrite (t : Tab (Option Line)) (h : Nat) (b : Byte) : Tab (Option Line) :=
  match t.get none (h / 128) with
  | some l => t.put none (h / 128) (some { bytes := l.bytes.put 0 h b, missed := l.missed.filter fun m => m.home != h })
  | none => t

/-- A store of a thread to some bytes that the copies under way of a line, requested before it, do not show. -/
def lineMiss (t : Tab (Option Line)) (hs : List Nat) (uid clk : Nat) : Tab (Option Line) :=
  hs.foldl (fun t h => match t.get none (h / 128) with
    | some l => t.put none (h / 128) (some { l with missed := l.missed ++ [{ home := h, uid := uid, clk := clk }] })
    | none => t) t

/-- Whether a store comes before a thread's loads: its own, or one that an acquire of it may follow (R98, R105). -/
def Thread.follows (t : Thread) (uid clk : Nat) : Bool := uid == t.uid || decide (clk ≤ t.acqAt)

/-- The byte of a copy that may serve a thread: one that misses no store before the thread's load (R98, R100, R105). -/
def Line.byteFor (l : Line) (t : Thread) (h : Nat) : Option Byte :=
  if l.missed.any fun m => m.home == h && t.follows m.uid m.clk then none else some (l.bytes.get 0 h)

/-- Whether a weak load of a thread may pass over a pending byte and read the home: the thread stored none of what is
pending, and no acquire of it follows a store to it (R98, R100, R105). -/
def State.passesOver (s : State) (k : Nat) (c : Core) (h : Nat) : Bool :=
  match c.who.get none h with
  | some w => !(w.by_.any fun e => (s.thr k).follows e.1 e.2)
  | none => false

/-- The bytes of a part from one source, if it serves all of them: what the core holds pending of them overlays it. -/
def Core.partFrom (c : Core) (hs : List Nat) (get : Nat → Option Byte) : Option (List Byte) :=
  hs.mapM fun h => match c.pending h with | some b => some b | none => get h

/-- The values R100 lets a weak load return for the bytes of one aligned 8-byte part, which it reads as one (R101): the pending bytes
over the home or over the clean copy of the core's L1, the slot's L0 copy, and the home alone. -/
def State.sources (s : State) (k : Nat) (hs : List Nat) (cached : Bool) : List (List Byte) :=
  let c := s.core (coreOfThread k)
  let from_ := fun (t : Tab (Option Line)) (h : Nat) => (t.get none (h / 128)).bind fun l => l.byteFor (s.thr k) h
  let served := fun (get : Nat → Option Byte) => (c.partFrom hs get).toList
  served (fun h => some (s.readHome h))
    ++ (if cached then served (from_ c.copies) ++ (hs.mapM (from_ (s.slot (issuerOfThread k)).l0)).toList else [])
    ++ (if hs.all fun h => (c.pending h).isNone || s.passesOver k c h then [hs.map s.readHome] else [])

/-- One of the allowed values; which is free. -/
def choosePart (i : Nat) (l : List (List Byte)) : List Byte :=
  match l with
  | [] => []
  | b :: r => if r.all (· == b) then b else (b :: r).getD (Config.pick i % (b :: r).length) b

/-- The part of `n` bytes of a weak load that lies in one aligned 8-byte part (R100, R101). -/
def State.weakPart (s : State) (k h n : Nat) (p : Spot) : List Byte :=
  if p.win == .laneStore then s.readHomes h n
  else choosePart (s.free * 2 ^ 160 + h) (s.sources k (upto h n) (p.win == .paged && !p.uncached))

/-- The aligned 8-byte parts of `n` bytes from a home on, as (home, length), with fuel. -/
def eightParts : Nat → Nat → Nat → List (Nat × Nat)
  | 0, _, _ => []
  | fuel + 1, h, n =>
    if n = 0 then []
    else
      let here := Nat.min n (8 - h % 8)
      (h, here) :: eightParts fuel (h + here) (n - here)

/-- The bytes of a weak load. -/
def State.weakBytes (s : State) (k : Nat) (p : Spot) (h n : Nat) : List Byte :=
  (eightParts (n / 8 + 2) h n).flatMap fun e => s.weakPart k e.1 e.2 p

/-- A line as the homes hold it. -/
def State.homeLine (s : State) (line : Nat) : Line :=
  { bytes := (upto (line * 128) 128).foldl (fun t h => t.put 0 h (s.readHome h)) [] }

/-- A line as the slot's L0 receives it for a thread: pending bytes, else the L1 copy, else the home (R98). -/
def State.l0Line (s : State) (k line : Nat) : Line :=
  let c := s.core (coreOfThread k)
  let copy := c.copies.get none line
  let old := fun (h : Nat) => if (c.pending h).isSome then none else copy.bind fun l => l.byteFor (s.thr k) h
  { bytes := (upto (line * 128) 128).foldl
      (fun t h => t.put 0 h ((c.pending h).getD ((old h).getD (s.readHome h)))) []
    missed := match copy with | some l => l.missed.filter fun m => (old m.home).isSome | none => [] }

/-- The dirty lines of a core (R97). -/
def Core.dirtyLines (c : Core) : List Nat := dedup ((c.pend.filter fun e => decide (e.1 % 2 ^ 110 < 2 ^ 52)).map fun e => e.1 / 128)

/-- The lines that a core's L1 holds. -/
def Core.l1Lines (c : Core) : List Nat := dedup (c.dirtyLines ++ c.l1.map (·.1))

/-- The clean lines of a core's L1, which replacement may drop (R91). -/
def Core.cleanLines (c : Core) : List Nat := (c.l1.map (·.1)).filter fun l => !(c.dirtyLines.contains l)

/-- The lines of a core's L1: 256 to a granule in state L1 (R85). -/
def Core.l1Room (c : Core) : Nat := 256 * c.l1Granules

/-- A free choice among numbers. -/
def pickFrom (i : Nat) (l : List Nat) : Nat :=
  match l with
  | [x] => x
  | _ => l.getD (Config.pick i % l.length) 0

/-- A line lands in a slot's L0, of 64 lines. Which lines it can hold together is not stated, so it replaces another when it is
full, and else by a free choice (R91; DESIGN CHOICE, log entry 127). -/
def State.landL0 (s : State) (iss line : Nat) (x : Line) : State :=
  s.updSlot iss fun sl =>
    let rest := sl.l0.del line
    let out := !rest.isEmpty && (decide (64 ≤ rest.length) || s.coinFor (2 ^ 38 + line % 2 ^ 36))
    let kept := if out then rest.del (pickFrom (s.free * 2 ^ 60 + 1) (rest.map (·.1))) else rest
    { sl with l0 := kept.put none line (some x), fills := sl.fills.del line }

/-- Some clean lines of a core's L1 are dropped: `n` of a list; which ones is free (log entry 127). -/
def Core.dropSome (c : Core) (clean : List Nat) (n i : Nat) : Core :=
  let from_ := Config.pick i % clean.length
  { c with l1 := ((clean.drop from_ ++ clean.take from_).take n).foldl (fun t l => t.del l) c.l1 }

/-- A core's L1 holds at most `n` lines beside one, as far as clean lines can give way. -/
def Core.trim (c : Core) (line n i : Nat) : Core :=
  c.dropSome (c.cleanLines.filter (· != line)) ((c.l1Lines.filter (· != line)).length - n) i

/-- A core's L1 holds no more lines than its granules in state L1 have room for (R85). -/
def Core.fitL1 (c : Core) (i : Nat) : Core := c.dropSome c.cleanLines (c.l1Lines.length - c.l1Room) i

/-- A line lands in a core's L1; with only dirty lines there is no room for it. Without need it replaces a line by a free choice (log
entry 127). -/
def State.landL1 (s : State) (core line : Nat) (x : Line) : State :=
  s.updCore core fun c =>
    let c := { c with fills := c.fills.del line }
    let held := (c.l1Lines.filter (· != line)).length
    let c := c.trim line (if s.coinFor (2 ^ 37 + line % 2 ^ 36) then held - 1 else c.l1Room - 1) (s.free * 2 ^ 60 + 2)
    let c := c.trim line (c.l1Room - 1) (s.free * 2 ^ 60 + 4)
    if (c.l1Lines.filter (· != line)).length < c.l1Room then { c with l1 := c.l1.put none line (some x) } else c

/-- The fills of a slot and of its core that land now, ahead of a weak load; which is free (R100). -/
def State.landFills (s : State) (iss core : Nat) : State :=
  let now := fun (tag line : Nat) => s.coinFor (tag * 2 ^ 34 + line % 2 ^ 34)
  let s := ((s.core core).fills.filter fun e => now 4 e.1).foldl (fun s e => match e.2 with | some x => s.landL1 core e.1 x | none => s) s
  ((s.slot iss).fills.filter fun e => now 5 e.1).foldl (fun s e => match e.2 with | some x => s.landL0 iss e.1 x | none => s) s

/-- Fills L1 and L0 with the line of a weak load (R91): each fill lands at once, or later than loads that follow (R100). -/
def State.fillLine (s : State) (k line : Nat) : State :=
  let core := coreOfThread k
  let iss := issuerOfThread k
  let c := s.core core
  let soon := fun (tag : Nat) => s.coinFor (tag * 2 ^ 34 + line % 2 ^ 34)
  let s := if 0 < c.l1Granules ∧ c.l1.get none line = none ∧ c.fills.get none line = none
    then (if soon 6 then s.landL1 core line (s.homeLine line)
      else s.setCore core { c with fills := c.fills.put none line (some (s.homeLine line)) }) else s
  let sl := s.slot iss
  if sl.l0.get none line = none ∧ sl.fills.get none line = none
  then (if soon 7 then s.landL0 iss line (s.l0Line k line)
    else s.setSlot iss { sl with fills := sl.fills.put none line (some (s.l0Line k line)) }) else s

/-- What a weak load leaves behind: its translation and its lines. -/
def State.afterLoad (s : State) (k : Nat) (p : Spot) : State :=
  match p.entry with
  | none => s
  | some e =>
    let s := s.addTlb k e
    if p.uncached then s else s.fillLine k (p.home / 128)

/-- Where the write-back of a line goes (R318): a line of paged memory is translated anew, so that no write-back uses a
translation that an invalidation has ended (R321); windows are not translated. -/
def State.writeBackSpot (s : State) (core h : Nat) (w : Option Who) : Except AccFault (Nat × Option TlbEntry) :=
  match w with
  | none => .ok (h, none)
  | some w =>
    if 2 ^ 52 ≤ h % 2 ^ 110 then .ok (h, none)
    else
      match s.translateFor (threadKey core 0 0 0) w.ctx w.va { w := true } with
      | .error f => .error f
      | .ok e => .ok (h / 2 ^ 110 * 2 ^ 110 + e.pa + (w.va - e.va), some e)

/-- Bytes of lines that a Torc step owns are written after the step writes them (R107, R108): the step leaves them as they are. -/
def State.overTorc (s : State) (hs : List Nat) : State :=
  if s.torcHeld.isEmpty then s else { s with torcOver := s.torcOver ++ hs.filter fun h => s.torcOwns [h] }

/-- A write-back of one byte: the home, and the L1 copy that the dirty byte becomes (R91, R97). -/
def State.writeBack (s : State) (core h : Nat) (b : Byte) : State :=
  ((s.overTorc [h]).writeHome h b).updCore core fun c => { c with l1 := lineWrite c.l1 h b }

/-- Whether a line that was written back stays in L1 as a clean copy, which R91 leaves open: a free choice (DESIGN CHOICE, log entry 143). -/
def State.afterWriteBack (s : State) (core line : Nat) : State :=
  if s.coinFor (2 ^ 35 + line % 2 ^ 34) then s else s.updCore core fun c => { c with l1 := c.l1.del line }

/-- Writes back the pending bytes of one line, as one write. A line that no longer translates, or whose page is no longer
writable, is a fault of class 1: its bytes are lost (R318, R362). -/
def State.writeBackLine (s : State) (core line : Nat) (t : Tab (Option Byte)) : State :=
  match t.filter fun e => e.1 / 128 == line with
  | [] => s
  | (h, b) :: r =>
    let w := (s.core core).who.get none h
    match s.writeBackSpot core h w with
    | .error f =>
      let who : Who := w.getD { ctx := 0, va := 0, by_ := [] }
      s.logEvent f.code f.unitCls who.ctx (stopOfCore core) 0 (f.level * 16 + 8 + f.chk) 0 (BitVec.ofNat 64 who.va)
    | .ok (h', e) =>
      let s := match e with | some e => s.addTlb (threadKey core 0 0 0) e | none => s
      (((h, b) :: r).foldl (fun s e => match e.2 with | some b => s.writeBack core (h' + e.1 - h) b | none => s) s).afterWriteBack core line

/-- Writes back the bytes of one table of pending stores. -/
def State.writeBacks (s : State) (core : Nat) (t : Tab (Option Byte)) : State :=
  (dedup (t.map fun e => e.1 / 128)).foldl (fun s l => s.writeBackLine core l t) s

/-- Forgets who stored the bytes that are no longer pending. -/
def State.settleWho (s : State) (core : Nat) : State :=
  s.updCore core fun c => { c with who := c.who.keep fun h => (c.pending h).isSome }

/-- A publication that completes at once: the ones under way first, then every pending byte (R99). -/
def State.publish (s : State) (core : Nat) : State :=
  let c := s.core core
  let s := s.setCore core { c with pend := [], pubs := [] }
  ((c.pubs ++ [c.pend]).foldl (fun s t => s.writeBacks core t) s).settleWho core

/-- A publication that begins now and completes later (R99): what is pending is on its way. -/
def State.beginPublication (s : State) (core : Nat) : State :=
  let c := s.core core
  if c.pend.isEmpty then s
  else (s.setCore core { c with pend := [], pubs := c.pubs ++ [c.pend] }).later (.publicationComplete core)

/-- Completes the publications under way, oldest first. -/
def State.finishPublications (s : State) (core : Nat) : State :=
  let c := s.core core
  let s := s.setCore core { c with pubs := [] }
  (c.pubs.foldl (fun s t => s.writeBacks core t) s).settleWho core

/-- Writes back the core's pending bytes of one line, ahead of a strong access (R98). -/
def State.flushLine (s : State) (core line : Nat) : State :=
  let c := s.core core
  let on := fun (h : Nat) => h / 128 == line
  if c.pend.isEmpty && c.pubs.isEmpty then s
  else
    let old := (c.pubs ++ [c.pend]).map fun t => t.keep on
    let s := s.setCore core { c with pend := c.pend.keep fun h => !on h, pubs := c.pubs.map fun t => t.keep fun h => !on h }
    (old.foldl (fun s t => s.writeBacks core t) s).settleWho core

/-- Room for a new dirty line: a clean line gives way; with dirty lines alone the store publishes first (R99). Which lines an
L1 can hold together is not stated, so beyond the first line the lack of room is a free choice. -/
def State.makeRoom (s : State) (core line : Nat) : State :=
  let dirty := (s.core core).dirtyLines
  if dirty.contains line then s
  else
    let s := if !dirty.isEmpty && (decide ((s.core core).l1Room ≤ dirty.length) || s.coinFor (2 ^ 30 + line % 2 ^ 9)) then s.publish core else s
    s.updCore core fun c => c.trim line (c.l1Room - 1) (s.free * 2 ^ 60 + 3)

/-- Who stored a byte, with one more store; of a thread's stores the first stands. -/
def Core.storedBy (c : Core) (h : Nat) (w : Who) : Who :=
  match c.who.get none h with
  | some x => { w with by_ := x.by_ ++ w.by_.filter fun e => !(x.by_.any fun d => d.1 == e.1) }
  | none => w

/-- Performs the bytes of a weak store in the core (R97). A die-shared store stays pending on a core that has no L1 granule too: R97 sends
only global stores through there, and lists die-shared ones beside them (DESIGN CHOICE, log entry 124). -/
def State.weakWrite (s : State) (k : Nat) (p : Spot) (h : Nat) (bs : List Byte) (va : Nat) : State :=
  let core := coreOfThread k
  if p.win == .laneStore then s.storeHomes h bs
  else
    let through := p.uncached || (p.win == .paged && (s.core core).l1Granules == 0)
    let s := match p.entry with | some e => s.addTlb k e | none => s
    let s := if p.win == .paged && !through then s.makeRoom core (h / 128) else s
    let hs := upto h bs.length
    let uid := (s.thr k).uid
    -- the slot's own L0 copy takes the bytes, and fills under way miss them; pending bytes of other stores stay
    let s := s.updSlot (issuerOfThread k) fun sl =>
      { sl with l0 := (hs.zip bs).foldl (fun t e => lineWrite t e.1 e.2) sl.l0, fills := lineMiss sl.fills hs uid s.clk }
    let s := s.updCore core fun c => { c with fills := lineMiss c.fills hs uid s.clk }
    if through then
      -- an implicit publication of this store alone; older pending bytes it overwrites are gone with it
      let s := s.updCore core fun c =>
        { c with pend := c.pend.keep fun x => !(hs.contains x), pubs := c.pubs.map fun t => t.keep fun x => !(hs.contains x)
                 who := c.who.keep fun x => !(hs.contains x) }
      (hs.zip bs).foldl (fun s e => s.writeBack core e.1 e.2) s
    else
      let who := fun (x : Nat) => ({ ctx := s.ctxOf k, va := va + (x - h), by_ := [(uid, s.clk)] } : Who)
      s.updCore core fun c =>
        { c with pend := (hs.zip bs).foldl (fun t e => t.put none e.1 (some e.2)) c.pend
                 who := hs.foldl (fun t x => t.put none x (some (c.storedBy x (who x)))) c.who }

-- Strong accesses.

/-- Before a strong access: the core's pending bytes of the line go home (R98). -/
def State.beforeStrong (s : State) (k : Nat) (p : Spot) : State :=
  let s := match p.entry with | some e => s.addTlb k e | none => s
  if isCmd k || p.win == .laneStore then s else s.flushLine (coreOfThread k) (p.home / 128)

/-- After a strong store of `n` bytes: the slot's L0 and the core's L1 drop the line, and fills under way miss the store (R98, R100). -/
def State.dropLine (s : State) (k h n : Nat) : State :=
  if isCmd k then s
  else
    let line := h / 128
    let miss := fun (t : Tab (Option Line)) => lineMiss t (upto h n) (s.thr k).uid s.clk
    (s.updSlot (issuerOfThread k) fun sl => { sl with l0 := sl.l0.del line, fills := miss sl.fills }).updCore (coreOfThread k)
      fun c => { c with l1 := c.l1.del line, fills := miss c.fills }

/-- A strong load of `n` bytes. -/
def State.strongRead (s : State) (k : Nat) (p : Spot) (n : Nat) : List Byte × State :=
  let s := s.beforeStrong k p
  (s.readHomes p.home n, s)

/-- A strong store. -/
def State.strongWrite (s : State) (k : Nat) (p : Spot) (bs : List Byte) : State :=
  ((s.beforeStrong k p).storeHomes p.home bs).dropLine k p.home bs.length

-- Snapshots and releases (R102, R103).

/-- Whether the thread's team has more than one core. -/
def State.multiCore (s : State) (k : Nat) : Bool := !isCmd k && decide (1 < (s.team (s.thr k).team).cores.length)

/-- A snapshot refresh for a scope: 0 .grp, 1 .team, 2 and above wider (R103); no fill requested before it lands. Record
caches drop at the wider refreshes (R221). -/
def State.refresh (s : State) (k scope : Nat) : State :=
  if isCmd k then s
  else
    let s := (s.updSlot (issuerOfThread k) fun sl => { sl with l0 := [], fills := [] }).updThr k fun t => { t with acqAt := s.clk }
    if 2 ≤ scope || (scope == 1 && s.multiCore k)
    then s.updCore (coreOfThread k) fun c => { c with l1 := [], fills := [], records := [] } else s

/-- The publication a release at a scope makes where R99 asks for one; publications under way complete first. -/
def State.publishAt (s : State) (k scope : Nat) : State :=
  if isCmd k then s
  else if 2 ≤ scope || (scope == 1 && s.multiCore k) then s.publish (coreOfThread k)
  else s

-- Engine accesses (R107).

/-- Splits `n` bytes from `va` into parts that lie within one 4 KiB page. -/
def pageParts : Nat → Nat → Nat → List (Nat × Nat)
  | 0, _, _ => []
  | fuel + 1, va, n =>
    if n = 0 then []
    else
      let here := 2 ^ 12 - va % 2 ^ 12
      if n ≤ here then [(va, n)] else (va, here) :: pageParts fuel (va + here) (n - here)

/-- The parts of `n` bytes from `va`. -/
def parts (va n : Nat) : List (Nat × Nat) := pageParts (n / 2 ^ 12 + 2) va n

/-- Who an engine acts for: a thread key (or command context) for translation and pending stores, the context, the team
whose windows it reaches, if any, and the view of memory. -/
structure Agent where
  unit : Nat
  ctx : Nat
  team : Option Nat := none
  view : Nat := 0
  /-- What INFO names where a deterministic grid bars the access: the major opcode of the instruction (R385). -/
  opc : Nat := 0
  deriving DecidableEq, Repr

/-- The major opcode of the word that an issued thread performs. -/
def State.opcodeOf (s : State) (k : Nat) : Nat :=
  if s.issue.contains k then (s.run.words.getD (s.run.pos - 1) 0).toNat / 2 ^ 25 else 0

/-- The agent of a thread's engine command. -/
def State.agentOf (s : State) (k : Nat) : Agent :=
  { unit := k, ctx := s.ctxOf k, team := if isCmd k then none else some (s.thr k).team, view := s.viewOfThread k, opc := s.opcodeOf k }

/-- Where one page part of an engine access lies (R376): the lane store and the device page are closed to engines. -/
def State.engineSpot (s : State) (a : Agent) (n : Need) (va len : Nat) : Except AccFault Spot :=
  match winOf va with
  | .paged =>
    match s.translateFor a.unit a.ctx va n with
    | .error f => .error f
    | .ok t => .ok { home := a.view + t.pa + (va - t.va), win := .paged, uncached := t.uncached, entry := some t }
  | .teamLocal =>
    match a.team with
    | some t =>
      if (s.team t).localSz < va - teamBase + len then .error { code := 0x07, chk := 4 }
      else .ok { home := homeTeam t (va - teamBase), win := .teamLocal }
    | none => .error { code := 0x07, chk := 4 }
  | .shared =>
    if isCmd a.unit then .error { code := 0x07, chk := 4 }
    else if s.sharedSize (dieOfThread a.unit) < va - sharedBase + len then .error { code := 0x07, chk := 4 }
    else .ok { home := homeShared (dieOfThread a.unit) (va - sharedBase), win := .shared }
  | .device => if a.view = 0 then .error { code := 0x08, chk := 6 } else .error { code := 0x0D, info := some a.opc }
  | .laneStore => .error { code := 0x08, chk := 4 }
  | .reserved => .error { code := 0x07, chk := 4 }

/-- The homes of every byte of an engine access, or the first failing part. -/
def State.engineHomes (s : State) (a : Agent) (n : Need) : List (Nat × Nat) → Except AccFault (List Nat)
  | [] => .ok []
  | (va, len) :: r =>
    match s.engineSpot a n va len with
    | .error f => .error f
    | .ok p =>
      match s.engineHomes a n r with
      | .error f => .error f
      | .ok hs => .ok (upto p.home len ++ hs)

/-- The translations of an engine access, up to the first part that fails, stay in the TLBs of its unit (R320). -/
def State.keepWay (s : State) (a : Agent) (n : Need) (va len : Nat) : State :=
  ((parts va len).takeWhile fun p => (s.engineSpot a n p.1 p.2).isOk).foldl (fun s p => match s.engineSpot a n p.1 p.2 with
    | .ok q => (match q.entry with | some e => s.addTlb a.unit e | none => s)
    | .error _ => s) s

/-- The same for some reads. -/
def State.keepWays (s : State) (a : Agent) (l : List (Nat × Nat)) : State := l.foldl (fun s e => s.keepWay a {} e.1 e.2) s

/-- A byte an engine reads: pending in the issuing core, or the home (R107, step 2). -/
def State.engineByte (s : State) (unit h : Nat) : Byte :=
  if isCmd unit then s.readHome h else ((s.core (coreOfThread unit)).pending h).getD (s.readHome h)

/-- The bytes an engine reads at a virtual address, with the faults of translation; `poison` tells whether any lay in
a poisoned granule. -/
def State.engineRead (s : State) (a : Agent) (va n : Nat) : Except AccFault (List Byte × Bool) :=
  match s.engineHomes a {} (parts va n) with
  | .error f => .error f
  | .ok hs => .ok (hs.map (s.engineByte a.unit), hs.any fun h => s.isPoisoned h 1)

/-- The same for a source of an instruction: it waits while a Torc step owns a line of it, which code 0 stands for (R107, R301). -/
def State.sourceRead (s : State) (a : Agent) (va n : Nat) : Except AccFault (List Byte × Bool) :=
  match s.engineHomes a {} (parts va n) with
  | .error f => .error f
  | .ok hs => if s.torcOwns hs then .error { code := 0 } else s.engineRead a va n

/-- Bytes at a virtual address read at their homes, with the faults of translation and whether any was poisoned. -/
def State.homeRead (s : State) (a : Agent) (va n : Nat) : Except AccFault (List (Byte × Bool)) :=
  match s.engineHomes a {} (parts va n) with
  | .error f => .error f
  | .ok hs => .ok (hs.map fun h => (s.readHome h, s.isPoisoned h 1))

/-- A byte an engine writes: it owns the line, so the core's older pending byte goes home ahead of it (R107, R108). -/
def State.engineWriteByte (s : State) (h : Nat) (b : Byte) : State := s.writeHome h b

/-- Removes the poison of granules that one engine write covers wholly (R387). -/
def State.clearWhole (s : State) (hs : List Nat) : State :=
  if s.poison.isEmpty then s
  else
    let whole := (dedup (hs.map (· / 32))).filter fun g => (upto (32 * g) 32).all fun h => hs.contains h
    { s with poison := whole.foldl (fun t g => t.put false g false) s.poison }

/-- Writes bytes at homes in order. -/
def State.engineWrites (s : State) (l : List (Nat × Byte)) : State :=
  (l.foldl (fun s e => s.engineWriteByte e.1 e.2) (s.overTorc (l.map (·.1)))).clearWhole (l.map (·.1))

/-- The first part of an engine access that fails, with its address. -/
def State.enginePartFault (s : State) (a : Agent) (need : Need) : List (Nat × Nat) → Option (Nat × AccFault)
  | [] => none
  | (va, len) :: r =>
    match s.engineSpot a need va len with
    | .error f => some (va, f)
    | .ok _ => s.enginePartFault a need r

/-- The first fault of an engine access to `n` bytes, if any. -/
def State.engineFault (s : State) (a : Agent) (need : Need) (va n : Nat) : Option AccFault :=
  (s.enginePartFault a need (parts va n)).map (·.2)

/-- Writes bytes at a virtual address as an engine; nothing where it does not translate. -/
def State.engineWrite (s : State) (a : Agent) (va : Nat) (bs : List Byte) : State :=
  match s.engineHomes a { w := true } (parts va bs.length) with
  | .error _ => s
  | .ok hs => (s.keepWay a { w := true } va bs.length).engineWrites (hs.zip bs)

/-- The same with the poison of the bytes at some offsets (R387). -/
def State.engineWriteBad (s : State) (a : Agent) (va : Nat) (bs : List Byte) (bad : List Nat) : State :=
  match s.engineHomes a { w := true } (parts va bs.length) with
  | .error _ => s
  | .ok hs => bad.foldl (fun s o => match hs[o]? with | some h => s.markPoison h 1 | none => s)
    ((s.keepWay a { w := true } va bs.length).engineWrites (hs.zip bs))

-- Deterministic windows (R310, R312).

/-- mix64 (R312). -/
def mix64 (x : DWord) : DWord :=
  let x := (x ^^^ (x >>> 31)) * 0x8B3E5D21C6F0A947
  let x := (x ^^^ (x >>> 29)) * 0xC7A136E95F08D2B5
  (x ^^^ (x >>> 32)) * 0xA0F35C19E47B2D63

/-- One term of a task digest. -/
def digestTerm (key val : DWord) : DWord := mix64 (key ^^^ (val * 0x9F4C2E71B5D3A86B))

/-- The store terms of a write of bytes at consecutive virtual addresses: one for each aligned word touched. -/
def storeTerms (va : Nat) (bs : List Byte) : DWord :=
  let words := dedup ((upto va bs.length).map (· / 4))
  words.foldl (fun acc w =>
    let inWord := (upto va bs.length).zip bs |>.filter fun e => e.1 / 4 == w
    let mask := inWord.foldl (fun m e => m + 2 ^ (e.1 % 4)) 0
    let val := inWord.foldl (fun v e => v + e.2.toNat * 2 ^ (8 * (e.1 % 4))) 0
    acc + digestTerm (BitVec.ofNat 64 (4 * w + mask * 2 ^ 57)) (BitVec.ofNat 64 val)) 0

/-- The charge of a window (R310). -/
def DetTask.charge (t : DetTask) : Nat := 128 * t.lines.length + 16 * t.gadds.length

/-- The lines among home addresses that a task has not been charged for. -/
def newLines (t : DetTask) (hs : List Nat) : List Nat := (dedup (hs.map fun h => h % 2 ^ 110 / 128)).filter fun l => !(t.lines.contains l)

/-- Whether writes at these homes, and `gadds` further GADD lanes, would exceed the pending limit (R310). -/
def State.overWindow (s : State) (view : Nat) (hs : List Nat) (gadds : Nat) : Bool :=
  if view = 0 then false
  else
    let (g, p) := viewTask view
    match s.detTask g p, (s.grid g).det with
    | some t, some d => decide (d.plimit < t.charge + 128 * (newLines t (hs.filter fun h => decide (2 ^ 110 ≤ h))).length + 16 * gadds)
    | _, _ => false

/-- Charges and digests a held write (R310, R312). -/
def State.noteWrite (s : State) (view va : Nat) (hs : List Nat) (bs : List Byte) : State :=
  if view = 0 || !(hs.any fun h => decide (2 ^ 110 ≤ h)) then s
  else
    let (g, p) := viewTask view
    s.updDetTask g p fun t => { t with lines := t.lines ++ newLines t hs, digest := t.digest + storeTerms va bs }

end Sys2Proof.Machine
end

