-- ==== Sys2Proof/Machine/Bins.lean ====
section
/-! DEFINITION. Binned regions: the exact addition of an addend to a shadow (R76, R77), the value a shadow denotes and
its rounding (R78), and the region an address lies in (R206). -/

namespace Sys2Proof.Machine

/-- Bins in use of a type. -/
def binCount (f64 : Bool) : Nat := if f64 then 4 else 3

/-- Bytes of an element of a region. -/
def Region.elem (r : Region) : Nat := if r.f64 then 8 else 4

/-- The first declared region of a context whose primary range holds an address (R206). -/
def State.regionAt (s : State) (ctx va : Nat) : Option Region :=
  firstThat (fun r => decide (r.primary.toNat ≤ va) && decide (va < r.primary.toNat + r.count * r.elem))
    ((s.cx ctx).regions.filterMap (·.2))

/-- The home-side address of an element's shadow. -/
def Region.shadowOf (r : Region) (va : Nat) : Nat := r.shadow.toNat + 32 * ((va - r.primary.toNat) / r.elem)

/-- The contribution of a magnitude m * 2^x to each bin in use (R77). -/
def binParts (e : Int) (f64 : Bool) (m : Nat) (x : Int) : List Nat :=
  let n := binCount f64
  let t := (floorScale (m : Int) (x - (e - 32 * ((n : Int) - 1) - 31))).toNat
  (upto 0 n).map fun k => t / 2 ^ (32 * (n - 1 - k)) % 2 ^ 32

/-- The bins that a shadow's bytes hold. -/
def binsOf (n : Nat) (b : List Byte) : List Int := (upto 0 n).map fun k => sgn 64 (leNat ((b.drop (8 * k)).take 8))

/-- The bytes of bins. -/
def binBytes (l : List Int) : List Byte := l.flatMap fun b => leBytes 8 (wrap 64 b)

/-- Adds contributions to bins with a sign. -/
def binSum (neg : Bool) (bins : List Int) (parts : List Nat) : List Int :=
  (bins.zip parts).map fun e => if neg then e.1 - e.2 else e.1 + e.2

/-- Whether every bin is a signed 64-bit number. -/
def binsFit (l : List Int) : Bool := l.all fun b => decide (-(2 ^ 63 : Int) ≤ b) && decide (b < 2 ^ 63)

/-- The value of the bins in units of the lowest bin in use. -/
def binValue (l : List Int) : Int := l.foldl (fun a b => a * 2 ^ 32 + b) 0

/-- V rounded to the element type (R78). -/
def binRound (e : Int) (f64 : Bool) (l : List Int) : Nat :=
  let v := binValue l
  let f := if f64 then Machine.f64 else f32
  if v = 0 then 0 else (roundTo f .rne (decide (v < 0)) v.natAbs (e - 32 * ((binCount f64 : Int) - 1) - 31)).1

/-- An addend that a region takes, or the INFO of BIN_OVF (R383): sign, significand and exponent. -/
def binAddend (e : Int) (x : FVal) : Except Nat (Bool × Nat × Int) :=
  match x with
  | .nan _ _ _ => .error 3
  | .inf _ => .error 2
  | .fin neg m k =>
    if m ≠ 0 ∧ e + 1 ≤ k + (bitlen m : Int) - 1 then .error 1 else .ok (neg, m, k)

end Sys2Proof.Machine
end

