-- ==== Sys2Proof/Machine/Flags.lean ====
section
/-! DEFINITION. Condition codes of integer compares (R114) and the floating-point flags and their traps (R69, R158). -/

namespace Sys2Proof.Machine

/-- The integer condition of a code on two operands of `len` bits: the signed ones, then the unsigned ones (R114). -/
def intCond (c len a b : Nat) : Bool :=
  let x := sgn len a
  let y := sgn len b
  if c = 0 then a == b
  else if c = 1 then a != b
  else if c = 2 then decide (x < y)
  else if c = 3 then decide (x ≤ y)
  else if c = 4 then decide (y < x)
  else if c = 5 then decide (y ≤ x)
  else if c = 6 then decide (a < b)
  else if c = 7 then decide (a ≤ b)
  else if c = 8 then decide (b < a)
  else decide (b ≤ a)

/-- The trap enables of a thread, in the order of the flags: sr.fpcsr [12:8]. -/
def Thread.enables (t : Thread) : Flags := t.fpcsr.extractLsb' 8 5

/-- Raises flags in a thread; none is ever cleared (R158). -/
def State.raiseFlags (s : State) (k : Nat) (fl : Flags) : State :=
  if fl = 0 then s else s.updThr k fun t => { t with fpcsr := t.fpcsr ||| fl.setWidth 32 }

/-- Raises the flags of an instruction in each of its threads. -/
def State.raiseAll (s : State) (l : List (Nat × Flags)) : State := l.foldl (fun s e => s.raiseFlags e.1 e.2) s

/-- The threads of an instruction in which a raised flag has its enable set (R158). -/
def State.trapping (s : State) (l : List (Nat × Flags)) : List (Nat × Flags) :=
  l.filter fun e => decide (e.2 &&& (s.thr e.1).enables ≠ 0)

end Sys2Proof.Machine
end

