-- ==== Sys2Proof/Machine/Ops.lean ====
section
/-! DEFINITION. Taking a fault and returning from one (R42, R362 to R370): the record, delivery to a handler, the
firmware log, the stop of a context on a die. Shared by every meaning. -/

namespace Sys2Proof.Machine

/-- A fault as an instruction finds it. -/
structure Flt where
  code : Nat
  cls : Nat := 0
  info : Nat := 0
  addr : DWord := 0
  /-- The failing threads of a check made per lane (R365). -/
  lanes : Option (List Nat) := none
  /-- The threads it stops: the whole issue set unless a rule names fewer (R363). -/
  stops : Option (List Nat) := none
  src : Nat := 0
  rows : Nat := 0
  cmd : Nat := 0
  /-- Words to pass on resumption: none reissues the faulting word (R367). -/
  skip : Nat := 0
  /-- Goes to the supervisor whatever DELIVER says: trap 2047 outside a handler (R367). -/
  sup : Bool := false
  /-- The deterministic grid that a PENDING_OVF makes fail (R420). -/
  grid : Option Nat := none
  deriving DecidableEq, Repr

/-- Marks a context to be saved on a die: each of its cores stops at its run boundary and saves (R324, R369). -/
def State.stopOnDie (s : State) (ctx d : Nat) : State :=
  match (s.cx ctx).dies.get .running d with
  | .running =>
    let all := upto (96 * d) 96
    let cs := all.filter fun c => (s.core c).ctx == ctx
    let s := s.updCx ctx fun x => { x with dies := x.dies.put .running d .saving }
    -- a saved core that waits for its restoration keeps its record
    let s := (all.filter fun c => (s.core c).reserved == some ctx && !(s.core c).restoring).foldl
      (fun s c => s.updCore c fun k => { k with reserved := none }) s
    let s := cs.foldl (fun s c => s.updCore c fun k => { k with saving := true }) s
    (if cs.isEmpty then [96 * d] else cs).foldl (fun s c => s.poll (s.clk + 1) (.coreSave c)) s
  | _ => s

/-- The record of a precise fault (R365). -/
def State.recordOf (s : State) (f : Flt) (pc : DWord) (pos : Nat) (stopped : List Nat) : Record :=
  let k := stopped.headD 0
  { code := f.code, cls := f.cls, ctx := s.ctxOf k, stop := stopOfThread k
    slot := if isCmd k then 0xFF else slotOfThread k, layer := if isCmd k then 0xFF else layerOfThread k
    lanes := laneMask (f.lanes.getD stopped), pc := pc, runpos := pos, flags := b2n (f.code == 0x09)
    src := if isCmd k && f.src == 0 then 8 else f.src, rows := f.rows, info := f.info, addr := f.addr, cmd := f.cmd
    hbt := s.hbt }

/-- Marks a deterministic grid to be failed by firmware (R420). -/
def State.failGrid (s : State) (g : Nat) : State :=
  (s.updGrid g fun x => { x with det := x.det.map fun d => { d with failed := true } }).poll (s.clk + 1) (.detCommit g)

-- GADD at the bank ALU, and releases.

/-- A bin update is performed at its shadow's home (R94, R384, R388). -/
def State.binUpdate (s : State) (u : BinUpd) : State :=
  let place := fun (code cls info : Nat) =>
    s.logRecord { code := code, cls := cls, ctx := u.ctx, stop := stopOfThread u.th, slot := slotOfThread u.th
                  layer := layerOfThread u.th, lanes := laneMask [u.th], src := 9, info := info, addr := u.primary, hbt := s.hbt }
  if s.isPoisoned u.shadow 32 then place 0x1C 2 0
  else
    let n := binCount u.f64
    let l := binSum u.neg (binsOf n (s.readHomes u.shadow (8 * n))) (binParts u.e u.f64 u.mant u.exp)
    if binsFit l then (s.writeHomes u.shadow (binBytes l)).dropLine u.th u.shadow (8 * n) else place 0x0E 1 5

/-- The bin updates under way that must be performed no later than those that satisfy a test: these, and the ones ahead of them that
name the same shadow and come from the same word (R94, R109) or the same thread (R101). -/
def binsAhead (p : BinUpd → Bool) : List BinUpd → List BinUpd
  | [] => []
  | u :: r =>
    let l := binsAhead p r
    if p u || l.any (fun v => v.shadow == u.shadow && (v.word == u.word || v.th == u.th)) then u :: l else l

/-- Whether a bin update waits: a Torc step owns its shadow's line (R107). -/
def State.binWaits (s : State) (u : BinUpd) : Bool := s.torcOwns (upto u.shadow (8 * binCount u.f64))

/-- Performs the bin updates under way that satisfy a test, and those that must come before them, oldest first; one whose line a Torc
step owns waits for the step's write (R107). -/
def State.flushBins (s : State) (p : BinUpd → Bool) : State :=
  let now := (binsAhead p s.bins).filter fun u => !(s.binWaits u)
  now.foldl State.binUpdate { s with bins := s.bins.filter fun u => !(now.any fun v => v.id == u.id) }

/-- A thread's access to bytes at a home follows its own additions to them that are under way (R98, R101). -/
def State.ownBins (s : State) (k h n : Nat) : State :=
  if s.bins.isEmpty then s
  else s.flushBins fun u => u.th == k && decide (u.shadow < h + n) && decide (h < u.shadow + 8 * binCount u.f64)

/-- A release at a scope (R102): the thread's accesses under way are performed, and the publication of R99 where it
applies. -/
def State.release (s : State) (k scope : Nat) : State := (s.flushBins fun u => u.th == k).publishAt k scope

-- The trap table and the handler slots (R366, R367).

/-- A trap table that counts as present. -/
structure TrapTable where
  pc : DWord
  deliver : DWord
  base : Nat
  count : Nat
  deriving DecidableEq, Repr

/-- The codes that DELIVER may set (R366). -/
def deliverable : DWord := 0x800EC1C0

/-- The trap table of a thread's context, read as an engine source (R366). -/
def State.trapTable (s : State) (k : Nat) : Option TrapTable :=
  let c := s.cx (s.ctxOf k)
  if isCmd k || c.privS.toNat < 4096 then none
  else
    match s.engineRead { unit := k, ctx := s.ctxOf k } c.privB.toNat 64 with
    | .error _ => none
    | .ok (b, poisoned) =>
      let pc := leNat (b.take 8)
      let del := BitVec.ofNat 64 (leNat ((b.drop 8).take 8))
      let base := leNat ((b.drop 16).take 8)
      if poisoned || pc = 0 || decide (del &&& ~~~deliverable ≠ 0) || base % 128 != 0 || (b.drop 28).any (· != 0) then none
      else some { pc := BitVec.ofNat 64 pc, deliver := del, base := base, count := leNat ((b.drop 24).take 4) }

/-- The address of a thread's handler slot. -/
def TrapTable.slotOf (t : TrapTable) (lid : Word) : Nat := t.base + 128 * lid.toNat

/-- Whether a thread's handler slot is ACTIVE; a slot that cannot be read is not. -/
def State.slotActive (s : State) (t : TrapTable) (k : Nat) : Bool :=
  decide ((s.thr k).lid.toNat < t.count) &&
    match s.engineRead { unit := k, ctx := s.ctxOf k } (t.slotOf (s.thr k).lid + 0x4A) 1 with
    | .ok ([b], _) => b != 0
    | _ => false

/-- Whether firmware can write a thread's handler slot. -/
def State.slotWritable (s : State) (t : TrapTable) (k : Nat) : Bool :=
  decide ((s.thr k).lid.toNat < t.count) &&
    (s.engineFault { unit := k, ctx := s.ctxOf k } { w := true } (t.slotOf (s.thr k).lid) 128).isNone

/-- Firmware's write of bytes at a virtual address of a context. -/
def State.firmwareWrite (s : State) (k va : Nat) (bs : List Byte) : State :=
  match s.engineHomes { unit := k, ctx := s.ctxOf k } { w := true } (parts va bs.length) with
  | .error _ => s
  | .ok hs => s.engineWrites (hs.zip bs)

/-- The tail of a handler slot: the resumption point, window base and temporaries (R367). -/
def State.slotTail (s : State) (k : Nat) (pc : DWord) (pos : Nat) : List Byte :=
  let t := s.thr k
  leBytes 8 pc.toNat ++ leBytes 1 pos ++ leBytes 1 (t.winb / 16) ++ leBytes 1 1 ++ leBytes 5 0
    ++ (upto 0 6).flatMap (fun n => leBytes 4 (t.tm.get 0 n).toNat) ++ leBytes 24 0

/-- Sends a stopped thread to the handler. -/
def State.deliverTo (s : State) (t : TrapTable) (r : Record) (rpc : DWord) (rpos k : Nat) : State :=
  let s := s.firmwareWrite k (t.slotOf (s.thr k).lid) (({ r with flags := r.flags + 2 }).bytes ++ s.slotTail k rpc rpos)
  s.updThr k fun x =>
    { x with pc := t.pc, pos := 0, winb := 0, tmKept := x.tmMask, wait := .ready, nextWait := none, nextPc := none, nextWinb := none }

/-- A stopped thread waits at its resumption point, for the supervisor or for its fellows. -/
def State.holdAt (s : State) (rpc : DWord) (rpos k : Nat) : State :=
  s.updThr k fun x =>
    { x with pc := rpc, pos := rpos, wait := .rejoining, nextWait := none, nextPc := none, nextWinb := none }

/-- SYSW values take effect as the thread's next run begins (R62). -/
def Thread.settle (t : Thread) : Thread :=
  { t with fpcsr := t.nextFpcsr.getD t.fpcsr, chk := t.nextChk.getD t.chk, nextFpcsr := none, nextChk := none }

/-- What a thread keeps of a run that a fault stops mid-way, under the fault's name, for the rest of the run: row-progress masks (R395)
and the registers its words have left pending (R60). -/
def Thread.keepRun (t : Thread) (fid : Nat) (rpc : DWord) (rpos : Nat) : Thread :=
  { t with fids := fid :: t.fids
           mmq := t.mmq.map fun m => if m.pc = rpc ∧ m.pos = rpos ∧ !(t.fids.contains m.fid) then { m with fid := fid } else m
           lates := if t.lateRun.isEmpty then t.lates else (fid, t.lateRun) :: t.lates
           lateRun := [] }

/-- A thread takes up the run that a fault stopped: what it kept of it. -/
def Thread.takeUp (t : Thread) (fid : Nat) : Thread :=
  { t with wait := .ready, fids := t.fids.drop 1
           mmq := t.mmq.filter fun m => m.fid != fid || (m.pc == t.pc && m.pos == t.pos)
           lateRun := (t.lates.filter fun e => e.1 == fid).flatMap (·.2), lates := t.lates.filter fun e => e.1 != fid }

/-- A CMDSTOP that waits for the end of a command context's run looks again (R338). -/
def State.stopDone (s : State) (k : Nat) : State :=
  if (s.cmd (k - cmdBase)).stopping then (s.updCmd (k - cmdBase) fun c => { c with stopping := false }).poll s.clk .cmdstop else s

/-- Firmware takes one precise fault of stopped threads (R367, R369, R370): the record's place, and the resumption
point. -/
def State.firmwareTakes (s : State) (f : Flt) (pc : DWord) (pos : Nat) (rpc : DWord) (rpos : Nat) (stopped : List Nat) : State :=
  let k := stopped.headD 0
  let rec0 := s.recordOf f pc pos stopped
  let (fid, s) := s.newId
  let s := stopped.foldl (fun s x => s.updThr x (·.keepRun fid rpc rpos)) s
  if f.code = 0x22 then
    let grid := f.grid.getD (s.team (s.thr k).team).grid
    let nested := match s.trapTable k with | some t => stopped.any (s.slotActive t) | none => false
    let s := s.logRecord { rec0 with flags := rec0.flags + (if nested then 4 else 0) }
    (stopped.foldl (fun s x =>
      if (s.team (s.thr x).team).grid = grid then s.updThr x fun t => { t with wait := .stopped } else s.holdAt rpc rpos x) s).failGrid grid
  else if isCmd k then
    let s := s.logRecord rec0
    ((s.updCmd (k - cmdBase) fun c => { c with st := .faulted, fault := f.code }).updThr k
      fun t => { t with pc := rpc, pos := rpos, wait := .faulted }).stopDone k
  else
    let saving := (s.core (coreOfThread k)).saving
    let tbl := s.trapTable k
    let nested := match tbl with | some t => stopped.any (s.slotActive t) | none => false
    let ready := match tbl with
      | some t => f.cls == 0 && !f.sup && f.code < 64 && t.deliver.getLsbD f.code
          && stopped.all (fun x => !s.slotActive t x && s.slotWritable t x)
      | none => false
    match tbl, ready, saving with
    | some t, true, false => stopped.foldl (fun s x => s.deliverTo t rec0 rpc rpos x) s
    | _, _, _ =>
      let s := s.logRecord { rec0 with flags := rec0.flags + (if nested then 4 else 0), id := fid }
      let s := stopped.foldl (fun s x => s.holdAt rpc rpos x) s
      let s := if ready then stopped.foldl (fun s x => s.updThr x fun t => { t with due := some { rec0 with id := fid } }) s else s
      s.stopOnDie (s.ctxOf k) (dieOfThread k)

/-- The pending results that a trailer makes a thread await (R59): those of the registers named and, of the instruction that left one of
them, what it left pending for the thread's group (R208). -/
def State.awaited (s : State) (k : Nat) (aw : List Nat) : List Nat :=
  let t := s.thr k
  let names := aw.map fun n => RegId.vreg k (t.winb + n)
  let own := s.pend.filter fun p => p.uid == t.uid && p.writes.any fun w => names.contains w.id
  let shared := fun (p : Pending) => p.writes.any fun w => match w with | .ureg g _ _ => g == t.grp | _ => false
  (s.pend.filter fun p => own.any fun q => q.id == p.id || (q.run == p.run && q.pc == p.pc && q.pos == p.pos && shared p)).map (·.id)

/-- Whether a result in flight is complete as threads leave a run: it is a thread's that does not stay, or that of a group of
which no thread stays. -/
def State.leavesWith (s : State) (left : List Nat) (w : RegWrite) : Bool :=
  let group := fun (g : Nat) => !(left.any fun k => (s.thr k).grp == g)
  match w with
  | .vreg t _ _ => !(left.contains t)
  | .temp t _ _ => !(left.contains t)
  | .pred t _ _ => !(left.contains t)
  | .ptr t _ _ => !(left.contains t)
  | .rsv t _ _ => !(left.contains t)
  | .ureg g _ _ => group g
  | .gfield g _ _ => group g
  | .tile g _ _ _ => group g

/-- Threads leave the issue set of the current run: their fixed-latency results are complete (R58), and those of the threads
that stay are in flight as before; with nobody left the issuer stops there. -/
def State.leaveRun (s : State) (gone : List Nat) : State :=
  let r := s.run
  let left := r.threads.filter fun k => !gone.contains k
  if left.isEmpty then s.landAll.updSlot s.cur fun sl => { sl with phase := .idle, nextAt := s.clk + 1 }
  else
    let out := r.fixed.filter fun f => s.leavesWith left f.write
    (s.setRun { r with threads := left, fixed := r.fixed.filter fun f => !(s.leavesWith left f.write) }).writeRegs (out.map (·.write))

/-- Takes a precise fault at the current word (R363): the threads it stops leave the issue set, and the rest go on;
the fixed-latency results of the run are complete. With nobody left the issuer stops there. Code 0 is no fault: the word waits. -/
def State.takeFault (s : State) (f : Flt) : State :=
  let r := s.run
  let stopped := (f.stops.getD r.threads).filter fun k => r.threads.contains k
  if f.code = 0 then s.setRun { r with held := true }
  else if stopped.isEmpty then s
  else
    let pos' := r.pos + f.skip
    let past := decide (f.skip ≠ 0) && decide (r.words.length < pos')
    let rpc := if past then r.pc + BitVec.ofNat 64 (4 * (r.words.length + 3)) else r.pc
    let rpos := if past then 0 else pos'
    let s := s.leaveRun stopped
    let s := stopped.foldl (fun s k => s.updThr k fun t => { t with lateRun := if past then [] else r.late }) s
    let s := if past then stopped.foldl (fun s k => let a := s.awaited k r.aw; s.updThr k fun t => { t with awaits := a }) s else s
    s.firmwareTakes f r.pc r.pos rpc rpos stopped

/-- A fault at a run boundary: of a fetch, or of a variable-latency instruction (R372, R382). -/
def State.boundaryFault (s : State) (f : Flt) (pc : DWord) (pos : Nat) (rpc : DWord) (rpos : Nat) (stopped : List Nat) : State :=
  if stopped.isEmpty then s else s.firmwareTakes f pc pos rpc rpos stopped

-- Return.

/-- Threads in ascending lane order (R33, R109). -/
def laneOrder (ks : List Nat) : List Nat := (upto 0 64).flatMap fun l => ks.filter fun k => laneOfThread k == l

/-- The live threads that a fault has stopped and that have not resumed from it. -/
def State.stoppedBy (s : State) (fid : Nat) : List Nat :=
  (s.threads.filter fun e => e.2.fids.contains fid && e.2.live && e.2.wait != .exited).map (·.1)

/-- The threads of one fault that are back resume together, in ascending lane order (R363): grouped by their resumption point,
ahead of the slot's picker (R42). A row-progress mask stays for the word it belongs to (R202). -/
def State.rejoin (s : State) (fid : Nat) : State :=
  let mine := laneOrder (s.stoppedBy fid)
  if fid = 0 || mine.isEmpty || mine.any fun k => (s.thr k).wait != .rejoining || (s.thr k).fids.headD 0 != fid then s
  else
    let points := mine.foldl (fun acc k =>
      let t := s.thr k
      if acc.any (fun (p : DWord × Nat) => p.1 == t.pc && p.2 == t.pos) then acc else acc ++ [(t.pc, t.pos)]) []
    let sets := points.map fun p => (p.1, p.2, mine.filter fun k => (s.thr k).pc == p.1 && (s.thr k).pos == p.2)
    let s := s.updSlot (issuerOfThread (mine.headD 0)) fun sl => { sl with resume := sl.resume ++ sets }
    mine.foldl (fun s k => s.updThr k (·.takeUp fid)) s

/-- Firmware's return from a handler for one thread (R367, FWRET of R155): the slot's resumption point, window base and
temporaries. -/
def State.handlerReturn (s : State) (t : TrapTable) (k : Nat) : State :=
  let a := t.slotOf (s.thr k).lid
  match s.engineRead { unit := k, ctx := s.ctxOf k } (a + 0x40) 64 with
  | .error _ => s
  | .ok (b, _) =>
    let tms := (upto 0 6).foldl (fun acc n => Tab.put 0 acc n (BitVec.ofNat 32 (leNat ((b.drop (16 + 4 * n)).take 4)))) ([] : Tab Word)
    let s := s.firmwareWrite k (a + 0x4A) [0]
    s.updThr k fun x =>
      { x.settle with
        pc := BitVec.ofNat 64 (leNat (b.take 8)), pos := (b.getD 8 0).toNat, winb := 16 * ((b.getD 9 0).toNat % 16)
        tm := tms, tmMask := x.tmKept, wait := .rejoining, nextWait := none, nextPc := none }

-- Per-lane checks of an access (R176).

/-- The fault of failing lanes, in lane order: the lowest decides, and LANES names every failing lane of a check made per
lane; otherwise it names the issue set (R365). Lanes that only wait are no failing ones. -/
def mergeLanes (l : List Flt) : Option Flt :=
  match l.filter (·.code != 0) with
  | [] => l.head?
  | f :: r => some (match f.lanes with | none => f | some l => { f with lanes := some (l ++ r.flatMap fun g => g.lanes.getD []) })

/-- The results of every lane, or the fault of the failing ones. -/
def lanesOf {α : Type} (l : List (Except Flt α)) : Except Flt (List α) :=
  match mergeLanes (l.filterMap fun e => match e with | .error f => some f | .ok _ => none) with
  | some f => .error f
  | none => .ok (l.filterMap fun e => match e with | .ok x => some x | .error _ => none)

/-- A failing lane of the checks of R176, or of a slot ring's block (R380). -/
def AccFault.laneFlt (f : AccFault) (wr : Bool) (k : Nat) (ea : DWord) : Flt :=
  { code := f.code, cls := f.cls, info := f.infoWord wr, addr := ea, lanes := if f.code = 0x02 then none else some [k] }

/-- The fault of failing lanes: the lowest decides (R176, R365). -/
def laneFault (bad : List (Nat × DWord × AccFault)) (wr : Bool) : Option Flt := mergeLanes (bad.map fun e => e.2.2.laneFlt wr e.1 e.2.1)

/-- Checks an access of each thread: all lanes before any lane acts (R371). Reads also fail on poison (R388). -/
def State.checkLanes (s : State) (a : Ask) (rd : Bool) (ks : List (Nat × DWord)) : Except Flt (List (Nat × Spot)) :=
  let all := ks.map fun e =>
    (e.1, e.2, match s.checkAccess e.1 a e.2 with
      | .ok p => if rd && s.isPoisoned p.home a.size then Except.error ({ code := 0x1C, cls := 2 } : AccFault) else .ok p
      | .error f => .error f)
  let bad := all.filterMap fun e => match e.2.2 with | .error f => some (e.1, e.2.1, f) | .ok _ => none
  match laneFault bad a.wr with
  | some f => .error f
  | none => .ok (all.filterMap fun e => match e.2.2 with | .ok p => some (e.1, p) | .error _ => none)

/-- Stops the issue set with PENDING_OVF when writes at the homes its threads name would exceed the window of a task, whose grid fails
(R310, R363, R420); each thread also brings a number of GADD lanes. Threads of the set that are of other grids go on at the word when
those of the grid have ended (DESIGN CHOICE, log entry 144). -/
def State.checkWindow (s : State) (l : List (Nat × List Nat)) (gadds : Nat := 0) : Except Flt Unit :=
  match firstThat (fun e =>
      let v := s.viewOfThread e.1
      let same := l.filter fun x => s.viewOfThread x.1 == v
      s.overWindow v (same.flatMap (·.2)) (gadds * same.length)) l with
  | some e => .error { code := 0x22, grid := some (s.team (s.thr e.1).team).grid }
  | none => .ok ()

/-- Whether the window of a thread's task is charged above PLIMIT (R310). -/
def State.overCharge (s : State) (k : Nat) : Bool :=
  let (g, p) := viewTask (s.viewOfThread k)
  s.viewOfThread k != 0 && match s.detTask g p, (s.grid g).det with
    | some t, some d => decide (d.plimit < t.charge)
    | _, _ => false

/-- The same test after an effect whose writes were found on the way: the effect is not kept when it fails. -/
def State.checkCharge (s : State) : Except Flt Unit :=
  match firstThat s.overCharge s.issue with
  | some k => .error { code := 0x22, grid := some (s.team (s.thr k).team).grid }
  | none => .ok ()

end Sys2Proof.Machine
end

