-- ==== Sys2Proof/Machine/TapeUnit.lean ====
section
/-! DEFINITION. The tape unit of a core (R248 to R259, R405, R406): records, pushes, pops, discards and syncs. Frames
are written through at once; the header is written by a bind and by a sync. -/

namespace Sys2Proof.Machine

/-- The fault of an engine access at an instruction. -/
def AccFault.engineFlt (f : AccFault) (wr : Bool) (va src : Nat) : Flt :=
  { code := f.code, cls := f.cls, info := f.infoWord wr, addr := BitVec.ofNat 64 va, src := src }

/-- The homes of a thread's header, which an exit and a sync write (R259). -/
def State.headerHomes (s : State) (k : Nat) : List Nat :=
  if !(s.thr k).tape.bound then []
  else match s.engineHomes (s.agentOf k) { w := true } (parts (s.thr k).tape.base.toNat 64) with
    | .ok hs => hs
    | .error _ => []

/-- A read of the tape unit. -/
def State.tapeRead (s : State) (k va n : Nat) : Except Flt (List Byte) :=
  match s.engineRead (s.agentOf k) va n with
  | .error f => .error (f.engineFlt false va 5)
  | .ok (b, _) => .ok b

/-- Why a write of the tape unit fails: it no longer translates, or finds poison in a granule that it does not cover (R406). -/
def State.tapeWriteFault (s : State) (k va n : Nat) : Option AccFault :=
  match s.engineHomes (s.agentOf k) { w := true } (parts va n) with
  | .error f => some f
  | .ok hs =>
    if hs.any fun h => s.isPoisoned h 1 && !((upto (h / 32 * 32) 32).all fun g => hs.contains g) then some { code := 0x1C } else none

/-- The first of some writes that fails, with its address. -/
def State.tapeFails (s : State) (k : Nat) : List (Nat × List Byte) → Option (Nat × AccFault)
  | [] => none
  | (va, bs) :: r => match s.tapeWriteFault k va bs.length with | some f => some (va, f) | none => s.tapeFails k r

/-- A write of the tape unit. -/
def State.tapeWrite (s : State) (k va : Nat) (bs : List Byte) : State :=
  match s.engineHomes (s.agentOf k) { w := true } (parts va bs.length) with
  | .error _ => s
  | .ok hs => ((s.keepWay (s.agentOf k) { w := true } va bs.length).noteWrite (s.viewOfThread k) va hs bs).engineWrites (hs.zip bs)

/-- A failing write is logged as class 1, the tape stands as its last sync left it, and the context stops on the die
(R406). -/
def State.tapeLost (s : State) (k va : Nat) (f : AccFault) : State :=
  ((s.logEvent f.code 1 (s.ctxOf k) (stopOfThread k) 5 (f.infoWord true) 0 (BitVec.ofNat 64 va)).updThr k
    fun x => { x with tape := x.synced }).stopOnDie (s.ctxOf k) (dieOfThread k)

/-- Writes of the tape unit and the tape they leave. -/
def State.tapeCommit (s : State) (k : Nat) (ws : List (Nat × List Byte)) (t : Tape) : State :=
  match s.tapeFails k ws with
  | some (va, f) => s.tapeLost k va f
  | none => (ws.foldl (fun s w => s.tapeWrite k w.1 w.2) s).updThr k fun x => { x with tape := t }

/-- A poisoned source of the tape unit is logged (R388). -/
def State.tapePoison (s : State) (k : Nat) (bad : Bool) : State :=
  if bad then s.logEvent 0x1C 2 (s.ctxOf k) (stopOfThread k) 5 0 0 else s

/-- Whether bytes of the tape unit's source are poisoned. -/
def State.tapeBad (s : State) (k va n : Nat) : Bool :=
  match s.engineRead (s.agentOf k) va n with | .ok (_, bad) => bad | .error _ => false

/-- The address of a frame of a thread's area (R248). -/
def Tape.frame (t : Tape) (f : Nat) : Nat := t.base.toNat + 64 + 64 * f

/-- The address of the byte below a position. -/
def Tape.at_ (t : Tape) (p : Nat) : Nat := t.frame (p / 64) + 8 + p % 64

/-- Whether a Torc step owns a line of the header, or of a frame from one to one above the top: an instruction that reads them waits
(R107). -/
def State.tapeWaits (s : State) (k low : Nat) : Bool :=
  let t := (s.thr k).tape
  t.bound && !s.torcHeld.isEmpty
    && (t.base.toNat :: (upto low (t.top / 64 + 2 - low)).map t.frame).any fun va =>
      match s.engineHomes (s.agentOf k) {} (parts va 64) with
      | .ok hs => s.torcOwns hs
      | .error _ => false

/-- The slot values of the trailer. -/
def Tape.slots (t : Tape) : List Word := [t.s0, t.s1, t.s2, t.s3]

/-- Replaces the slot values. -/
def Tape.withSlots (t : Tape) (l : List Word) : Tape :=
  { t with s0 := l.getD 0 0, s1 := l.getD 1 0, s2 := l.getD 2 0, s3 := l.getD 3 0 }

/-- FLAGS of the header (R249). -/
def Tape.flags (t : Tape) : Nat := b2n t.isOpen + 2 * b2n t.disc + 4

/-- The header's 64 bytes (R249). -/
def Tape.header (t : Tape) : List Byte :=
  leBytes 4 t.top ++ leBytes 4 t.flags ++ t.slots.flatMap (fun w => leBytes 4 w.toNat) ++ leBytes 4 t.markp
    ++ [t.m0, t.m1, t.m2, t.m3].flatMap (fun w => leBytes 4 w.toNat) ++ leBytes 4 t.count ++ leBytes 16 0

/-- The code and the stored bytes of one slot: the previous value against the new one (R252). -/
def codeSlot (p c : Word) : Nat × List Byte :=
  let d := sgn 32 (c - p).toNat
  if p = c then (1, []) else if p = 0 then (0, [])
  else if -32768 ≤ d ∧ d ≤ 32767 then (2, leBytes 2 (wrap 16 d)) else (3, leBytes 4 p.toNat)

/-- The bytes of a record (R251). -/
def recordBytes (kind : Nat) (prev xs : List Word) : List Byte :=
  let cs := (prev.zip xs).map fun e => codeSlot e.1 e.2
  let code := (cs.zip (upto 0 cs.length)).foldl (fun a e => a + e.1.1 * 4 ^ e.2) 0
  cs.flatMap (·.2) ++ leBytes 1 code ++ leBytes 1 (xs.length - 1) ++ leBytes 1 kind

/-- USED and the record count of a frame. -/
def State.frameHead (s : State) (k f : Nat) : Except Flt (Nat × Nat) :=
  match s.tapeRead k ((s.thr k).tape.frame f) 4 with
  | .error e => .error e
  | .ok b => .ok (leNat (b.take 2), leNat (b.drop 2))

/-- The header bytes of a frame. -/
def frameHeadBytes (used recs f : Nat) : List Byte := leBytes 2 used ++ leBytes 2 recs ++ leBytes 4 f

/-- A record on the tape, parsed from its highest byte down. -/
structure TapeRec where
  kind : Nat
  n : Nat
  codes : List Nat
  stored : List Byte
  len : Nat
  deriving DecidableEq, Repr

/-- Bytes a code stores. -/
def codeLen (c : Nat) : Nat := if c = 2 then 2 else if c = 3 then 4 else 0

/-- Parses the record below a position; a malformed one raises TAPE_UNDERFLOW with INFO 3 (R405). -/
def State.parseRec (s : State) (k top : Nat) : Except Flt TapeRec :=
  let t := (s.thr k).tape
  let used := top % 64
  let bad : Flt := { code := 0x13, info := 3, addr := BitVec.ofNat 64 (t.at_ top - 1) }
  match s.tapeRead k (t.frame (top / 64)) 64 with
  | .error e => .error e
  | .ok b =>
    let p := b.drop 8
    if used < 3 || 56 < used then .error bad
    else
      let kind := (p.getD (used - 1) 0).toNat
      let info := (p.getD (used - 2) 0).toNat
      let code := (p.getD (used - 3) 0).toNat
      let n := info % 4 + 1
      let codes := (upto 0 n).map fun i => field code (2 * i) 2
      let len := 3 + (codes.map codeLen).sum
      let kindOk := kind ≤ 0x7F || (0xE0 ≤ kind && kind ≤ 0xE3) || (0xF0 ≤ kind && kind ≤ 0xF2)
      if !kindOk || info / 4 != 0 || code / 4 ^ n != 0 || used < len then .error bad
      else .ok { kind := kind, n := n, codes := codes, stored := (p.drop (used - len)).take (len - 3), len := len }

/-- The position before a record of `len` bytes (R250): an emptied frame falls back to the one below. -/
def State.posBefore (s : State) (k top len : Nat) : Except Flt Nat :=
  if top % 64 = len ∧ 0 < top / 64 then
    match s.frameHead k (top / 64 - 1) with
    | .error e => .error e
    | .ok (u, _) => .ok (64 * (top / 64 - 1) + u % 64)
  else .ok (top - len)

/-- Counts the records above MARKP, and those of them in its frame. -/
def State.spanCount (s : State) (k markp : Nat) : Nat → Nat → Nat × Nat
  | 0, _ => (0, 0)
  | fuel + 1, top =>
    if top ≤ markp then (0, 0)
    else
      match s.parseRec k top with
      | .error _ => (0, 0)
      | .ok r =>
        match s.posBefore k top r.len with
        | .error _ => (0, 0)
        | .ok p =>
          let (a, b) := s.spanCount k markp fuel p
          (a + 1, b + b2n (top / 64 == markp / 64))

/-- Discards the open span (R256); `fin` finishes the tape's registers. -/
def State.discardSpan (s : State) (k : Nat) (fin : Tape → Tape) : State :=
  let t := (s.thr k).tape
  let f := t.markp / 64
  let u := t.markp % 64
  let (n, inFrame) := s.spanCount k t.markp (t.top + 1) t.top
  let recs := match s.frameHead k f with | .ok (_, r) => r - inFrame | .error _ => 0
  s.tapeCommit k [(t.frame f, frameHeadBytes u recs f), (t.frame f + 8 + u, leBytes (56 - u) 0), (t.at_ t.markp - 1, [0xF2])]
    (fin { t with top := t.markp, s0 := t.m0, s1 := t.m1, s2 := t.m2, s3 := t.m3, disc := true, count := t.count - n })

/-- A push (R252): dropped while DISC is set, discarding the span that has no room, or TAPE_FULL. `fin` finishes the tape's
registers. -/
def State.tapePush (s : State) (k kind : Nat) (xs : List Word) (fin : Tape → Tape := id) : Except Flt State :=
  let t := (s.thr k).tape
  if !t.bound then .error { code := 0x12, info := 2 }
  else if t.disc then .ok (s.updThr k fun x => { x with tape := fin t })
  else
    let r := recordBytes kind t.slots xs
    let f := t.top / 64
    let u := t.top % 64
    let here := decide (u + r.length ≤ 56)
    let f' := if here then f else f + 1
    let u' := if here then u else 0
    if t.budget / 64 ≤ f' then
      if t.isOpen then .ok (s.discardSpan k fin)
      else .error { code := 0x12, info := 1, addr := BitVec.ofNat 64 (t.frame f') }
    else
      match (if u' = 0 then .ok 0 else (s.frameHead k f').map (·.2)) with
      | .error e => .error e
      | .ok recs =>
        let hd := frameHeadBytes (u' + r.length) (recs + 1) f'
        let ws := if u' = 0 then [(t.frame f', hd ++ r ++ leBytes (56 - r.length) 0)] else [(t.frame f', hd), (t.frame f' + 8 + u', r)]
        .ok (s.tapeCommit k ws
          (fin { t.withSlots (xs ++ t.slots.drop xs.length) with top := 64 * f' + u' + r.length, count := t.count + 1 }))

/-- Recovers the previous slot values of a record, with the stored bytes of each slot in order (R252). -/
def recoverSlots : List Nat → List Byte → List Word → List Word
  | [], _, s => s
  | _, _, [] => []
  | c :: cs, st, x :: xs =>
    let b := st.take (codeLen c)
    let p : Word :=
      if c = 1 then x else if c = 0 then 0
      else if c = 2 then BitVec.ofNat 32 (wrap 32 ((x.toNat : Int) - sgn 16 (leNat b))) else BitVec.ofNat 32 (leNat b)
    p :: recoverSlots cs (st.drop (codeLen c)) xs

/-- A popped record: its kind and its values, whether its frame was poisoned, and whether the tape was lost. -/
structure Popped where
  kind : Nat
  vals : List Word
  bad : Bool
  lost : Bool
  deriving DecidableEq, Repr

/-- A pop (R252, R257). -/
def State.tapePop (s : State) (k : Nat) : Except Flt (Popped × State) :=
  let t := (s.thr k).tape
  if !t.bound then .error { code := 0x13, info := 2 }
  else if t.top = 0 then .error { code := 0x13, info := 1, addr := t.base }
  else
    match s.parseRec k t.top with
    | .error e => .error e
    | .ok r =>
      let f := t.top / 64
      let u := t.top % 64 - r.len
      match s.posBefore k t.top r.len, s.frameHead k f with
      | .ok top', .ok (_, recs) =>
        let ends := (r.kind == 0xF0 || r.kind == 0xF2) && t.isOpen && t.top == t.markp
        let t' := { t.withSlots (recoverSlots r.codes r.stored t.slots) with
                    top := top', count := t.count - 1, isOpen := t.isOpen && !ends, disc := t.disc && !ends }
        let ws := [(t.frame f, frameHeadBytes u (recs - 1) f), (t.frame f + 8 + u, leBytes r.len 0)]
        let bad := s.tapeBad k (t.frame f) 64
        .ok ({ kind := r.kind, vals := t.slots.take r.n, bad := bad, lost := (s.tapeFails k ws).isSome },
          (s.tapePoison k bad).tapeCommit k ws t')
      | .error e, _ => .error e
      | _, .error e => .error e

/-- Pops down to a target position (R258). -/
def State.tapeSeek (s : State) (k target : Nat) : Nat → Except Flt State
  | 0 => .ok s
  | fuel + 1 =>
    if (s.thr k).tape.top ≤ target then .ok s
    else
      match s.tapePop k with
      | .error e => .error e
      | .ok (p, s) => if p.lost then .ok s else s.tapeSeek k target fuel

/-- Writes the header: what a sync adds to the frames already written, as a release at .sys (R259). A save's sync is no write of the
task's own: it leaves the digest and the charge of its window as they are (R315). -/
def State.tapeSync (s : State) (k : Nat) (counted : Bool := true) : State :=
  let t := (s.thr k).tape
  if !t.bound then s
  else
    match s.tapeFails k [(t.base.toNat, t.header)] with
    | some (va, f) => s.tapeLost k va f
    | none =>
      let s := if counted then s.tapeWrite k t.base.toNat t.header else s.engineWrite (s.agentOf k) t.base.toNat t.header
      (s.updThr k fun x => { x with synced := t }).release k 4

end Sys2Proof.Machine
end

