-- ==== Sys2Proof/Machine/Work.lean ====
section
/-! DEFINITION. Semaphores (R291 to R293), dependence counters (R273, R274), range tasks (R266 to R272) and completion
signals (R265, R286). -/

namespace Sys2Proof.Machine

-- Semaphores.

/-- The value of a semaphore. -/
def State.semValue (s : State) (n : Nat) : DWord := BitVec.ofNat 64 (leNat (s.readHomes (homeDev (8 * n)) 8))

/-- SEMWAIT's condition (R292). -/
def semHolds (ne : Bool) (cmp v : DWord) : Bool := if ne then v != cmp else decide (cmp.toNat ≤ v.toNat)

/-- Ends a command context's wait with the value that satisfied it. -/
def State.semWake (s : State) (n c : Nat) : State :=
  let k := cmdBase + c
  match (s.thr k).wait with
  | .sem m ne cmp d =>
    let v := s.semValue n
    if m == n && semHolds ne cmp v then
      ((s.writeRegs (s.toV64 k d v)).updThr k fun t => { t with wait := .ready }).updCmd c fun x => { x with st := .ready }
    else s
  | _ => s

/-- After a write to a semaphore every waiting context evaluates its condition (R292). -/
def State.semServe (s : State) (n : Nat) : State := (upto 0 64).foldl (fun s c => s.semWake n c) s

/-- A write to a semaphore in its home order (R291). -/
def State.semWrite (s : State) (n : Nat) (v : DWord) : State :=
  (s.storeHomes (homeDev (8 * n)) (leBytes 8 v.toNat)).semServe n

/-- The semaphore a device-page address lies in is served after a store there. -/
def State.devStored (s : State) (p : Spot) : State :=
  if p.win == .device then s.semServe ((p.home - homeDev 0) / 8) else s

/-- The number of a command context's state (R293). -/
def CmdState.code : CmdState → Nat
  | .halted => 0
  | .ready => 1
  | .semWait => 2
  | .faulted => 3
  | .stopped => 4

/-- The status row of a command context (R293). -/
def State.statusRow (s : State) (c : Nat) : List Byte :=
  let m := s.cmd c
  let sem := match (s.thr (cmdBase + c)).wait with | .sem n _ _ _ => n | _ => 0
  leBytes 8 (s.thr (cmdBase + c)).pc.toNat ++ leBytes 1 m.st.code ++ leBytes 1 m.fault ++ leBytes 2 m.out
    ++ leBytes 2 (if m.st == .semWait then sem else 0) ++ leBytes 2 0

/-- A strong read of `n` bytes at a home; the status rows of the device page are the state of the contexts. -/
def State.readDev (s : State) (p : Spot) (n : Nat) : List Byte :=
  let o := p.home - homeDev 0
  if p.win == .device && decide (0x8000 ≤ o) then ((s.statusRow ((o - 0x8000) / 16)).drop (o % 16)).take n
  else s.readHomes p.home n

-- Queues and tasks.

/-- Fields of a task entry (R266). -/
def entryNat (e : List Byte) (off n : Nat) : Nat := leNat ((e.drop off).take n)

def taskLo (e : List Byte) : Nat := entryNat e 0x10 4
def taskHi (e : List Byte) : Nat := entryNat e 0x14 4
def taskGrain (e : List Byte) : Nat := entryNat e 0x18 4
def taskCtl (e : List Byte) : Nat := entryNat e 0x1C 4
def taskWctr (e : List Byte) : Nat := taskCtl e % 2 ^ 12
def taskWait (e : List Byte) : Bool := bit (taskCtl e) 12
def taskSctr (e : List Byte) : Option Nat := if bit (taskCtl e) 28 then some (field (taskCtl e) 16 12) else none

/-- TASK_OVF with the issuing lane; the context is stopped on the issuing die (R411). -/
def State.taskOvf (s : State) (ctx : Nat) (t : Task) (info : Nat) : State :=
  (s.logRecord { code := 0x17, cls := 1, ctx := ctx, stop := stopOfThread t.th, slot := slotOfThread t.th
                 layer := layerOfThread t.th, lanes := laneMask [t.th], src := 7, info := info, cmd := t.queue, addr := t.va
                 hbt := s.hbt }).stopOnDie ctx (dieOfThread t.th)

/-- The distributor of a die as an engine of a context. -/
def distributorOf (d ctx : Nat) : Agent := { unit := threadKey (96 * d) 0 0 0, ctx := ctx }

/-- Changes a queue of a die. -/
def State.updQueue (s : State) (d q : Nat) (f : Queue → Queue) : State := s.updDie d fun x => { x with queues := x.queues.upd {} q f }

/-- A task enters a list of those that wait in a queue: at the tail, but from the pending table ahead of those that came by a TQADD in
the same clk, in the order of their own TQADDs (R269). -/
def insertTask (t : Task) : List Task → List Task
  | [] => [t]
  | x :: r => if t.released && x.at_ == t.at_ && (!x.released || decide (t.id < x.id)) then t :: x :: r else x :: insertTask t r

/-- The place of the spill area that the next spilled entry takes: behind the latest, around the area's end (DESIGN CHOICE, log entry
133: R267 gives the order of the entries and no places). -/
def Queue.nextSpill (q : Queue) : Nat :=
  let used := q.tasks.filterMap (·.spill)
  let from_ := match used.getLast? with | some i => i + 1 | none => 0
  ((upto from_ (q.spillS / 32)).map (· % (q.spillS / 32))).find? (fun i => !used.contains i) |>.getD 0

/-- Brings the oldest spilled entry back on chip, as its memory has it, when a place is free (R267). One that cannot be read any more
comes back as it was spilled (DESIGN CHOICE, log entry 133). -/
def State.unspill (s : State) (d q : Nat) : State :=
  let x := (s.die d).queues.get {} q
  match x.tasks[255]? with
  | some t =>
    match t.spill with
    | none => s
    | some i =>
      let back := fun (b : List Byte) (s : State) => s.updQueue d q fun y =>
        { y with tasks := y.tasks.map fun z => if z.id == t.id then { z with entry := b, spill := none } else z }
      let va := x.spillB.toNat + 32 * i
      match s.engineRead (distributorOf d x.ctx) va 32 with
      | .error _ => back t.entry s
      | .ok (b, bad) =>
        let s := s.keepWay (distributorOf d x.ctx) {} va 32
        back b (if bad then s.logEvent 0x1C 2 x.ctx (distributorStop d) 7 0 q else s)
  | none => s

/-- Puts a task into its queue; the entry that is then beyond 256 is written to the spill area (R267, R411). -/
def State.putTask (s : State) (d : Nat) (t : Task) : State :=
  let q := (s.die d).queues.get {} t.queue
  let l := insertTask { t with at_ := s.clk } q.tasks
  let put := fun (s : State) (l : List Task) => s.updQueue d t.queue fun q => { q with tasks := l }
  match (l.drop 256).find? fun x => x.spill.isNone with
  | none => put s l
  | some x =>
    if q.spillS / 32 ≤ q.tasks.length - 256 then s.taskOvf q.ctx t 2
    else
      let i := q.nextSpill
      let va := q.spillB.toNat + 32 * i
      match s.engineFault (distributorOf d q.ctx) { w := true } va 32 with
      | some _ => (put s (l.filter fun y => y.id != x.id)).taskOvf q.ctx x 3
      | none => put (s.engineWrite (distributorOf d q.ctx) va x.entry) (l.map fun y => if y.id == x.id then { y with spill := some i } else y)

/-- The tasks of the pending table that a counter gates enter their queues in the order of their TQADDs (R269). -/
def State.releaseTasks (s : State) (d n : Nat) : State :=
  let go := (s.die d).pendTab.filter fun t => taskWctr t.entry == n
  let s := s.updDie d fun x => { x with pendTab := x.pendTab.filter fun t => taskWctr t.entry != n }
  go.foldl (fun s t => s.putTask d { t with released := true }) s

/-- Stores a dependence counter; a value that becomes 0 releases pending tasks (R269, R273). -/
def State.ctrStore (s : State) (d n : Nat) (v : Word) : State :=
  let s := s.updDie d fun x => { x with ctr := x.ctr.put 0 n v }
  if v = 0 then s.releaseTasks d n else s

/-- Whether the head of a queue covers no iteration. -/
def Queue.emptyHead (q : Queue) : Option Task :=
  match q.tasks with
  | t :: _ => if taskHi t.entry ≤ taskLo t.entry then some t else none
  | [] => none

/-- Tasks at the head of their queues that cover no iteration complete there (R266); `n` bounds their number. -/
def State.dropHeads (s : State) (d : Nat) : Nat → State
  | 0 => s
  | n + 1 =>
    match firstThat (fun e => e.2.emptyHead.isSome) (s.die d).queues with
    | none => s
    | some (q, x) =>
      let s := (s.updQueue d q fun z => { z with tasks := z.tasks.drop 1 }).unspill d q
      match x.emptyHead.bind fun t => taskSctr t.entry with
      | some c => (s.ctrStore d c ((s.die d).ctr.get 0 c - 1)).dropHeads d n
      | none => s.dropHeads d n

/-- Entries that a die's queues and pending table hold. -/
def Die.entries (x : Die) : Nat := (x.queues.map fun e => e.2.tasks.length).sum + x.pendTab.length

/-- Completes the tasks without iterations that have come to the head of a queue. -/
def State.settleQueues (s : State) (d : Nat) : State := s.dropHeads d ((s.die d).entries + 1)

/-- A task enters its queue. -/
def State.enqueue (s : State) (d : Nat) (t : Task) : State := (s.putTask d t).settleQueues d

/-- A write to a dependence counter. -/
def State.ctrWrite (s : State) (d n : Nat) (v : Word) : State := (s.ctrStore d n v).settleQueues d

/-- The value of a dependence counter. -/
def State.ctrValue (s : State) (d n : Nat) : Word := (s.die d).ctr.get 0 n

/-- Subtracts 1 from a counter. -/
def State.ctrDec (s : State) (d n : Nat) : State := s.ctrWrite d n (s.ctrValue d n - 1)

/-- A task completes (R270). -/
def State.taskComplete (s : State) (d : Nat) (sctr : Option Nat) : State :=
  match sctr with
  | some n => s.ctrDec d n
  | none => s

/-- Whether a task still has a chunk out or a piece with iterations left. -/
def Die.taskOpen (x : Die) (task : Nat) : Bool :=
  (x.begun.any fun b => b.task == task && decide (0 < b.out)) || x.pieces.any fun p => p.task == task && decide (p.cur < p.hi)

/-- Removes a begun task that has completed, and signals. -/
def State.closeTask (s : State) (d task : Nat) : State :=
  let x := s.die d
  match firstThat (fun b => b.task == task) x.begun with
  | none => s
  | some b =>
    if x.taskOpen task then s
    else
      (s.updDie d fun x => { x with begun := x.begun.filter fun y => y.task != task, pieces := x.pieces.filter fun p => p.task != task }).taskComplete d b.sctr

/-- A chunk of a task finishes (R270). -/
def State.chunkDone (s : State) (d task : Nat) : State :=
  (s.updDie d fun x => { x with begun := x.begun.map fun b => if b.task == task then { b with out := b.out - 1 } else b }).closeTask d task

/-- What a request for a chunk finds (R271). -/
inductive Served where
  | chunk (lo hi : Nat) (pc arg : DWord) (task : Nat)
  | empty
  | wait
  deriving DecidableEq, Repr

/-- Gives the next chunk of a core's piece. -/
def State.giveFrom (s : State) (d : Nat) (p : Piece) : Served × State :=
  let e := Nat.min (p.cur + p.grain) p.hi
  let s := s.updDie d fun x =>
    { x with pieces := x.pieces.map fun y => if y = p then { y with cur := e } else y
             begun := x.begun.map fun b => if b.task == p.task then { b with out := b.out + 1 } else b }
  (.chunk p.cur e p.pc p.arg p.task, s)

/-- Where a piece splits (R271). -/
def Piece.cut (v : Piece) : Nat := v.cur + ((v.hi - v.cur) + 2 * v.grain - 1) / (2 * v.grain) * v.grain

/-- The victim of a split: the most iterations left, the lowest stop index on a tie. -/
def pickVictim (l : List Piece) : Option Piece :=
  l.foldl (fun acc v =>
    match acc with
    | none => some v
    | some b =>
      if b.hi - b.cur < v.hi - v.cur ∨ (b.hi - b.cur = v.hi - v.cur ∧ stopOfCore v.core < stopOfCore b.core) then some v else some b) none

/-- Serves one request of a core (R271). -/
def State.serve (s : State) (core q : Nat) : Served × State :=
  let d := dieOfCore core
  let x := s.die d
  match firstThat (fun p => p.core == core && p.queue == q && decide (p.cur < p.hi)) x.pieces with
  | some p => s.giveFrom d p
  | none =>
    match (x.queues.get {} q).tasks with
    | t :: r =>
      let p : Piece := { core := core, queue := q, task := t.id, cur := taskLo t.entry, hi := taskHi t.entry, grain := taskGrain t.entry
                         pc := BitVec.ofNat 64 (entryNat t.entry 0 8), arg := BitVec.ofNat 64 (entryNat t.entry 8 8) }
      let s := s.updDie d fun x =>
        { x with queues := x.queues.upd {} q fun y => { y with tasks := r }, pieces := x.pieces ++ [p]
                 begun := x.begun ++ [{ task := t.id, queue := q, out := 0, sctr := taskSctr t.entry }] }
      ((s.unspill d q).settleQueues d).giveFrom d p
    | [] =>
      match pickVictim (x.pieces.filter fun v => v.queue == q && decide (v.cut < v.hi)) with
      | some v =>
        let p : Piece := { v with core := core, cur := v.cut }
        let s := s.updDie d fun x => { x with pieces := (x.pieces.map fun y => if y = v then { y with hi := v.cut } else y) ++ [p] }
        s.giveFrom d p
      | none => if x.pendTab.any (fun t => t.queue == q) then (.wait, s) else (.empty, s)

/-- TQGET's result registers (R272). -/
def servedRegs (g dreg : Nat) : Served → List RegWrite
  | .chunk lo hi pc arg _ =>
    [.ureg g dreg 0, .ureg g (dreg + 1) (BitVec.ofNat 32 lo), .ureg g (dreg + 2) (BitVec.ofNat 32 hi), .ureg g (dreg + 3) 0]
      ++ toW64 g (dreg + 4) pc ++ toW64 g (dreg + 6) arg
  | _ => .ureg g dreg 1 :: (upto (dreg + 1) 7).map fun n => .ureg g n 0

/-- A group receives what its request found: registers, the chunk it holds, and the acquire of a chunk. -/
def State.receive (s : State) (g th q dreg : Nat) (r : Served) : State :=
  let s := s.writeRegs (servedRegs g dreg r)
  match r with
  | .chunk _ _ _ _ task => (s.updGrp g fun x => { x with chunks := x.chunks ++ [(q, task)] }).refresh th 2
  | _ => s

/-- Whether a group's core can be served: it is not being saved and its team is resident. -/
def State.servable (s : State) (g : Nat) : Bool := (s.grp g).live && (s.team (s.grp g).team).phase == .resident

/-- A thread of a request that has been served is Ready; one whose run has not yet ended does not wait when it does. -/
def Thread.served (t : Thread) (q ask : Nat) : Thread :=
  if t.wait = .task q ask then { t with wait := .ready } else if t.nextWait = some (.task q ask) then { t with nextWait := none } else t

/-- Serves the waiting requests of a queue in the order they arrived, as far as they can be (R271). -/
def State.serveAskers (s : State) (d q : Nat) : List Asker → State
  | [] => s
  | a :: r =>
    if a.queue != q || !s.servable a.grp then s.serveAskers d q r
    else
      match s.serve (coreOfThread a.grp) q with
      | (.wait, s) => s.serveAskers d q r
      | (res, s) =>
        let mine := (upto a.grp (s.grp a.grp).width).filter fun k => (s.thr k).wait == .task q a.id || (s.thr k).nextWait == some (.task q a.id)
        let s := s.receive a.grp (mine.headD a.grp) q a.dreg res
        let s := mine.foldl (fun s k => s.updThr k fun t => t.served q a.id) s
        (s.updDie d fun x => { x with askers := x.askers.filter fun y => y.id != a.id }).serveAskers d q r

/-- Serves the waiting requests of every queue of a die, again while one was served: what serves one may let tasks of another queue
enter. -/
def State.serveQueues (s : State) (d : Nat) : Nat → State
  | 0 => s
  | n + 1 =>
    let t := (dedup ((s.die d).askers.map (·.queue))).foldl (fun s q => s.serveAskers d q (s.die d).askers) s
    if (t.die d).askers.length < (s.die d).askers.length then t.serveQueues d n else t

/-- Serves the waiting requests of a die: when an entry enters, a split becomes possible, or nothing is pending any more (R271). -/
def State.serveDie (s : State) (d : Nat) : State := s.serveQueues d ((s.die d).askers.length + 1)

/-- The waiting requests of a die are looked at as the clk ends, when every entry of the clk stands in its place (R269). -/
def State.serveLater (s : State) (d : Nat) : State :=
  if (s.die d).askers.isEmpty || s.serving.contains d then s else { s with serving := s.serving ++ [d] }

/-- Serves the dies whose requests are due. -/
def State.serveDue (s : State) : State := s.serving.foldl State.serveDie { s with serving := [] }

/-- A group finishes its chunks of a queue (R270). -/
def State.finishChunks (s : State) (g q : Nat) : State :=
  let mine := (s.grp g).chunks.filter fun c => c.1 == q
  if mine.isEmpty then s
  else
    let d := dieOfThread g
    let s := s.updGrp g fun x => { x with chunks := x.chunks.filter fun c => c.1 != q }
    (mine.foldl (fun s c => s.chunkDone d c.2) s).serveLater d

/-- A group whose last thread exits finishes all its chunks. -/
def State.finishAllChunks (s : State) (g : Nat) : State :=
  (dedup ((s.grp g).chunks.map (·.1))).foldl (fun s q => s.finishChunks g q) s

-- Completion signals.

/-- A completion signal (R265, R286), a release at .sys. -/
def State.signal (s : State) : Signal → State
  | .none => s
  | .sem _ n add v => s.semWrite n (if add then s.semValue n + v else v)
  | .ctr d n => (s.ctrDec d n).serveLater d

/-- A command context has one LAUNCH or CCOPY less outstanding (R288). -/
def State.cmdDone (s : State) : Option Nat → State
  | some c => s.updCmd c fun x => { x with out := x.out - 1 }
  | none => s

end Sys2Proof.Machine
end

