-- ==== Sys2Proof/Machine/Place.lean ====
section
/-! DEFINITION. Launch descriptors (R289) and the placement of teams on cores (R21 to R27, R85, R86, R276, R290, R304
to R306). -/

namespace Sys2Proof.Machine

-- Launch descriptors (R289).

/-- A little-endian field of a byte string. -/
def fieldAt (b : List Byte) (off n : Nat) : Nat := leNat ((b.drop off).take n)

/-- Whether `n` bytes from `off` are all zero. -/
def zeroAt (b : List Byte) (off n : Nat) : Bool := ((b.drop off).take n).all (· == 0)

/-- The descriptor in 128 bytes. -/
def parseDesc (b : List Byte) : Desc :=
  { pc := BitVec.ofNat 64 (fieldAt b 0 8), ctx := fieldAt b 8 2, kind := fieldAt b 0xA 1, width := fieldAt b 0xB 1
    threads := fieldAt b 0xC 2, shape := fieldAt b 0xE 1, regs := 16 * fieldAt b 0xF 1, ex := fieldAt b 0x10 2
    ey := fieldAt b 0x12 2, ez := fieldAt b 0x14 2, lane := 64 * fieldAt b 0x16 2, loc := fieldAt b 0x18 4
    tape := fieldAt b 0x1C 1, tiles := fieldAt b 0x1D 1, accB := fieldAt b 0x1E 1, accC := fieldAt b 0x1F 1
    det := fieldAt b 0x20 1, stage := fieldAt b 0x21 1, arg := BitVec.ofNat 64 (fieldAt b 0x28 8)
    priv := BitVec.ofNat 64 (fieldAt b 0x30 8), dtab := BitVec.ofNat 64 (fieldAt b 0x38 8)
    user := (upto 0 16).map fun i => BitVec.ofNat 32 (fieldAt b (0x40 + 4 * i) 4) }

/-- Whether a descriptor breaks R289. -/
def descBad (b : List Byte) : Bool :=
  let d := parseDesc b
  if d.kind = 1 then decide (2 ^ 57 ≤ d.pc.toNat) || !zeroAt b 0xB 0x1D || !zeroAt b 0x30 0x10
  else
    d.kind != 0 || decide (2 ^ 57 ≤ d.pc.toNat) || d.pc.toNat % 4 != 0
      || !([8, 16, 32, 64].contains d.width) || d.threads == 0 || decide (4096 < d.threads) || d.threads % d.width != 0
      || decide (512 < d.threads / d.width) || decide (3 < d.shape) || d.regs == 0 || decide (256 < d.regs)
      || d.ex == 0 || d.ey == 0 || d.ez == 0 || decide (2048 < d.lane) || decide (2 ^ 21 < d.loc) || decide (16 < d.tape)
      || decide (8 < d.tiles) || decide (16 < d.accB + d.accC) || decide (16 < d.det)
      || !(decide (d.stage ≤ 7) || d.stage == 0xFF) || !zeroAt b 0x22 6 || (d.det == 0 && d.dtab != 0)

/-- Rows and columns of a shape. -/
def shapeDims (shape : Nat) : Nat × Nat := if shape = 0 then (1, 1) else if shape = 1 then (1, 2) else if shape = 2 then (2, 1) else (2, 2)

/-- Cores in a block of a shape. -/
def shapeCores (shape : Nat) : Nat := (shapeDims shape).1 * (shapeDims shape).2

/-- Groups of a team. -/
def Desc.groups (d : Desc) : Nat := d.threads / d.width

/-- Team-local granules on each core of the block (R86). -/
def Desc.localPer (d : Desc) : Nat := let k := shapeCores d.shape; (d.loc + 2 ^ 15 * k - 1) / (2 ^ 15 * k)

/-- The team-local size: .local rounded up to a multiple of k granules (R86). -/
def Desc.localSize (d : Desc) : Nat := d.localPer * shapeCores d.shape * 2 ^ 15

-- What is occupied.

/-- An occupied lane position: core, slot, layer, first lane and width. -/
structure Pos where
  core : Nat
  slot : Nat
  layer : Nat
  lane : Nat
  width : Nat
  deriving DecidableEq, Repr

/-- The key of the group at a position. -/
def Pos.key (p : Pos) : Nat := threadKey p.core p.slot p.layer p.lane

/-- Whether two positions overlap. -/
def Pos.overlap (a b : Pos) : Bool :=
  a.core == b.core && a.slot == b.slot && a.layer == b.layer && decide (a.lane < b.lane + b.width) && decide (b.lane < a.lane + a.width)

/-- The positions held by groups. -/
def State.positions (s : State) : List Pos :=
  s.groups.filterMap fun e =>
    if e.2.live && !isCmd e.1
    then some { core := coreOfThread e.1, slot := slotOfThread e.1, layer := layerOfThread e.1, lane := e.1 % 64, width := e.2.width }
    else none

/-- The lowest free aligned position of a width in a slot: the lowest layer, then the lowest first lane (R27). -/
def freeIn (occ : List Pos) (core slot width : Nat) : Option Pos :=
  let all := (upto 0 8).flatMap fun ly => (upto 0 (64 / width)).map fun i => (⟨core, slot, ly, i * width, width⟩ : Pos)
  firstThat (fun p => !(occ.any p.overlap)) all

/-- The position of a group on its core: its slot, then the slots that follow modulo 4 (R27). -/
def groupPos (occ : List Pos) (core slot width : Nat) : Nat → Option Pos
  | 0 => none
  | n + 1 =>
    match freeIn occ core (slot % 4) width with
    | some p => some p
    | none => groupPos occ core (slot + 1) width n

/-- Positions of a team's groups in order (R27), or none when one finds no place. -/
def assign (block : List Nat) (width : Nat) : List Nat → List Pos → Option (List Pos)
  | [], _ => some []
  | g :: r, occ =>
    let k := block.length
    match groupPos occ (block.getD (g % k) 0) (g / k % 4) width 4 with
    | none => none
    | some p => (assign block width r (p :: occ)).map (p :: ·)

/-- Whether storage that drains is not free yet: a pending write is still to land, or the last one landed in this clk (R55). -/
def State.draining (s : State) (landed : Option Nat) : Bool := landed.isNone || landed == some s.clk

/-- Register granules in use on a lane: those of threads that have not exited, and those that drain (R54). -/
def State.granulesUsed (s : State) (core slot lane : Nat) : Nat :=
  (s.threads.map fun e =>
    if e.2.live && e.2.wait != .exited && !isCmd e.1 && coreOfThread e.1 == core && slotOfThread e.1 == slot && e.1 % 64 == lane
    then e.2.alloc / 16 else 0).sum
    + ((s.core core).drains.filter fun d => d.slot == slot && d.lane == lane && s.draining d.landed).length

/-- The lane-store slices held on a lane: offset and size. -/
def State.laneRuns (s : State) (core slot lane : Nat) : List (Nat × Nat) :=
  (s.threads.filter fun e => e.2.live && !isCmd e.1 && coreOfThread e.1 == core && slotOfThread e.1 == slot && e.1 % 64 == lane).map
    fun e => (e.2.laneOff, e.2.laneSz)

/-- The lowest free run of a size among held ones (R87). -/
def freeRun (held : List (Nat × Nat)) (size : Nat) : Option Nat :=
  let ok := fun (o : Nat) => decide (o + size ≤ 2048) && held.all fun h => decide (o + size ≤ h.1) || decide (h.1 + h.2 ≤ o)
  let all := 0 :: sortNat (held.map fun h => h.1 + h.2)
  firstThat ok all

/-- Whether `n` slices of a size find runs one after the other. -/
def freeRuns (held : List (Nat × Nat)) (size : Nat) : Nat → Bool
  | 0 => true
  | n + 1 => match freeRun held size with | some o => freeRuns ((o, size) :: held) size n | none => false

/-- Tile registers in use on a core: those of its groups, and those that drain (R54). -/
def State.tilesUsed (s : State) (core : Nat) : Nat :=
  (s.groups.map fun e => if e.2.live && !isCmd e.1 && coreOfThread e.1 == core then e.2.tiles else 0).sum
    + ((s.core core).tileDrains.filter fun d => s.draining d.landed).length

/-- The local-SRAM granules of a core in state L1, lowest first. -/
def Core.freeGranules (c : Core) : List Nat := (upto 0 16).filter fun g => c.gran.get .l1 g == .l1

/-- Whether a team at these positions finds its per-lane and per-core resources free (R25). -/
def State.fits (s : State) (d : Desc) (block : List Nat) (ps : List Pos) : Bool :=
  (ps.all fun p => (upto p.lane p.width).all fun l =>
      let here := (ps.filter fun q => q.core == p.core && q.slot == p.slot && decide (q.lane ≤ l) && decide (l < q.lane + q.width)).length
      decide (s.granulesUsed p.core p.slot l + here * (d.regs / 16) ≤ 64) && freeRuns (s.laneRuns p.core p.slot l) d.lane here)
    && block.all fun c =>
      decide (s.tilesUsed c + (ps.filter fun q => q.core == c).length * d.tiles ≤ 32)
        && decide (d.localPer + d.tape ≤ (s.core c).freeGranules.length)

/-- Whether a team could meet R25 on a block of its shape of empty cores (R412). -/
def Desc.placeable (d : Desc) : Bool :=
  let block := upto 0 (shapeCores d.shape)
  match assign block d.width (upto 0 d.groups) [] with
  | none => false
  | some ps => ({} : State).fits d block ps

/-- Whether a core may take a team of a grid (R26, R276, R281, R323 to R325). -/
def State.coreOpen (s : State) (c ctx : Nat) (stage : Option (Nat × Nat)) : Bool :=
  let k := s.core c
  -- a core of a pipeline whose context is saved on the die may take other contexts' teams (R324)
  let away := match k.stage with
    | some (l, _) => stage.isNone && ((s.die (dieOfCore c)).pipes.any fun p => p.launch == l && p.ctx != ctx && (s.cx p.ctx).dies.get .running (dieOfCore c) == .saved)
    | none => false
  !(s.part.noCore.get false c) && (k.ctx == 0 || k.ctx == ctx) && !k.saving && !k.restoring
    && k.reserved.isNone && (k.stage == stage || away) && !k.revoked

/-- The block of a shape with a given top-left core. -/
def blockAt (d shape t : Nat) : Option (List Nat) :=
  let (rows, cols) := shapeDims shape
  if t / 16 + rows ≤ 6 ∧ t % 16 + cols ≤ 16
  then some ((upto 0 rows).flatMap fun r => (upto 0 cols).map fun c => 96 * d + t + 16 * r + c)
  else none

/-- The first block of a list of top-left cores that can take a team: the block and the positions of its groups. -/
def State.firstBlock (s : State) (d ctx : Nat) (desc : Desc) (stage : Option (Nat × Nat)) : List Nat → Option (List Nat × List Pos)
  | [] => none
  | t :: r =>
    match blockAt d desc.shape t with
    | none => s.firstBlock d ctx desc stage r
    | some block =>
      if block.all fun c => s.coreOpen c ctx stage then
        match assign block desc.width (upto 0 desc.groups) s.positions with
        | some ps => if s.fits desc block ps then some (block, ps) else s.firstBlock d ctx desc stage r
        | none => s.firstBlock d ctx desc stage r
      else s.firstBlock d ctx desc stage r

/-- Contexts that execute on a die (R323). -/
def State.ctxsOn (s : State) (d : Nat) : List Nat :=
  dedup ((upto (96 * d) 96).filterMap fun c => if (s.core c).ctx = 0 then none else some (s.core c).ctx)

/-- Whether a context may have a team placed on a die. -/
def State.ctxOpen (s : State) (d ctx : Nat) : Bool :=
  (s.cx ctx).dies.get .running d == .running && ((s.ctxsOn d).contains ctx || decide ((s.ctxsOn d).length < 64))

-- Making a team.

/-- The uniform registers of a placed group (R290). -/
def launchRegs (d : Desc) : Tab Word :=
  let l := [(0, loWord d.arg), (1, hiWord d.arg), (2, loWord d.priv), (3, hiWord d.priv)] ++ (upto 8 16).zip d.user
  l.foldl (fun t e => t.put 0 e.1 e.2) []

/-- Where a team stands in its grid. -/
structure Place where
  x : Nat
  y : Nat
  z : Nat
  lin : Nat
  task : Option Nat := none
  deriving DecidableEq, Repr

/-- One group and its threads, placed but not yet resident. -/
def State.makeGroup (s : State) (team lin g : Nat) (d : Desc) (p : Pos) : State :=
  let k := p.key
  let s := s.setGrp k { live := true, team := team, gidx := g, width := d.width, w := launchRegs d, tiles := d.tiles, accB := d.accB, accC := d.accC }
  (upto 0 d.width).foldl (fun s i =>
    let (u, s) := s.newId
    let tid := g * d.width + i
    let off := (freeRun (s.laneRuns p.core p.slot (p.lane + i)) d.lane).getD 0
    s.setThr (k + i)
      { live := true, uid := u, grp := k, team := team, idx := i, tid := tid, lid := BitVec.ofNat 32 (lin * d.threads + tid)
        alloc := d.regs, laneSz := d.lane, laneOff := off, pc := d.pc, csp := d.lane, wait := .stopped }) s

/-- The free route tags of a die, lowest first. -/
def State.freeTags (s : State) (d : Nat) : List Nat := (upto 0 8).filter fun i => (s.die d).tags.get 0 i == 0

/-- A multi-core team takes a route tag in the clk it becomes resident (R39). -/
def State.takeTag (s : State) (team : Nat) : State :=
  let t := s.team team
  let d := dieOfCore (t.cores.headD 0)
  match s.freeTags d with
  | i :: _ =>
    if t.cores.length < 2 || t.tag.isSome then s
    else (s.updDie d fun x => { x with tags := x.tags.put 0 i (team + 1) }).updTeam team fun t => { t with tag := some i }
  | [] => s

/-- A resident team's threads are Ready; they begin as after PHASE.acq at .sys (R110). -/
def State.makeResident (s : State) (team : Nat) : State :=
  let s := (s.takeTag team).updTeam team fun t => { t with phase := .resident }
  let cs := (s.team team).cores
  let s := cs.foldl (fun s c => s.updCore c fun k => { k with l1 := [], fills := [], records := [] }) s
  let s := cs.foldl (fun s c => (upto 0 4).foldl (fun s i => s.updSlot (4 * c + i) fun sl => { sl with l0 := [], fills := [] }) s) s
  let ks := (s.threads.filter fun e => e.2.live && e.2.team == team && e.2.wait == .stopped).map (·.1)
  ks.foldl (fun s k => s.updThr k fun x => { x with wait := .ready, acqAt := s.clk }) s

/-- A core takes up a context; the activation tables of another context are not seen by it (R173). -/
def Core.own (k : Core) (ctx : Nat) : Core :=
  if k.tabCtx = ctx then { k with ctx := ctx } else { k with ctx := ctx, tabCtx := ctx, tables := [], loads := [] }

/-- A core takes up a context: results that awaited a load of another context's tables land. -/
def State.ownCore (s : State) (ctx c : Nat) : State :=
  let k := s.core c
  let ids := if k.tabCtx = ctx then [] else k.loads.flatMap (·.pend)
  ids.foldl (fun s id => s.poll s.clk (.resultLands id)) (s.setCore c (k.own ctx))

/-- Claims granules of a core for a team (R85): handover begins, and the clean lines that the granules left cannot hold are dropped. -/
def State.claimGranules (s : State) (team c n : Nat) : List Nat × State :=
  let gs := (s.core c).freeGranules.take n
  let s := s.updCore c fun k => Core.fitL1 { k with gran := gs.foldl (fun t g => t.put .l1 g (.handover team)) k.gran } (s.free * 2 ^ 60 + 5)
  let s := if gs.isEmpty then s else s.beginPublication c
  (gs.map (16 * c + ·), gs.foldl (fun s g => s.later (.handoverComplete c g)) s)

/-- Makes a team at its block: all its resources in one go (R25); resident once its granules are held. -/
def State.makeTeam (s : State) (grid : Nat) (at_ : Place) (block : List Nat) (ps : List Pos) : State :=
  let g := s.grid grid
  let d := g.desc
  let (team, s) := s.newId
  let s := block.foldl (fun s c => s.ownCore g.ctx c) s
  let (lg, s) := block.foldl (fun (a : List Nat × State) c => let (l, s) := a.2.claimGranules team c d.localPer; (a.1 ++ l, s)) ([], s)
  let (tg, s) := block.foldl (fun (a : List Nat × State) c => let (l, s) := a.2.claimGranules team c d.tape; (a.1 ++ l, s)) ([], s)
  let s := s.setTeam team
    { live := true, grid := grid, ctx := g.ctx, x := at_.x, y := at_.y, z := at_.z, lin := at_.lin, task := at_.task
      cores := block, nthreads := d.threads, localSz := d.localSize, localGran := lg, tapeGran := tg }
  let s := (ps.zip (upto 0 ps.length)).foldl (fun s e => s.makeGroup team at_.lin e.2 d e.1) s
  if lg.isEmpty && tg.isEmpty then s.makeResident team else s

/-- The multi-core teams of a die whose granules are still in handover: each takes a route tag when it becomes resident. -/
def State.tagsDue (s : State) (d : Nat) : Nat :=
  (s.teams.filter fun e => e.2.live && e.2.phase == .handover && e.2.tag.isNone && decide (1 < e.2.cores.length)
    && dieOfCore (e.2.cores.headD 0) == d).length

/-- Whether a route tag is free where the shape needs one, beside those that teams in handover will take (R25, R39). -/
def State.tagOpen (s : State) (d shape : Nat) : Bool := shape == 0 || decide (s.tagsDue d < (s.freeTags d).length)

-- The order of placement.

/-- The dies of a mask, lowest first. -/
def maskDies (m : Nat) : List Nat := (upto 0 4).filter fun d => bit m d

/-- The position of a die in a list. -/
def indexIn (d : Nat) : List Nat → Nat
  | [] => 0
  | x :: r => if x = d then 0 else 1 + indexIn d r

/-- Hilbert index of a cell (R305): from scale s = 2^(n-1) down. -/
def hilbert : Nat → Nat → Nat → Nat
  | 0, _, _ => 0
  | n + 1, x, y =>
    let s := 2 ^ n
    let rx := b2n (decide (s ≤ x))
    let ry := b2n (decide (s ≤ y))
    let x := x - rx * s
    let d := s * s * (Nat.xor (3 * rx) ry)
    let y := y - ry * s
    let (x, y) := if ry = 0 then (if rx = 1 then (s - 1 - y, s - 1 - x) else (y, x)) else (x, y)
    d + hilbert n x y

/-- The least k with 2^k at least n. -/
def log2Up (n : Nat) : Nat := if n ≤ 1 then 0 else Nat.log2 (n - 1) + 1

/-- The cluster at position p of the curve: (cx, y, z) (R305). -/
def clusterAt (cx y p : Nat) : Nat × Nat × Nat :=
  let k := log2Up (Nat.max cx y)
  let cells := (upto 0 y).flatMap fun j => (upto 0 cx).map fun i => (i, j)
  let rank := fun (c : Nat × Nat) => (cells.filter fun e => decide (hilbert k e.1 e.2 < hilbert k c.1 c.2)).length
  let r := p % (cx * y)
  match firstThat (fun c => rank c == r) cells with
  | some c => (c.1, c.2, p / (cx * y))
  | none => (0, 0, 0)

/-- Clusters of a deterministic grid (R305). -/
def Desc.clusters (d : Desc) : Nat := d.ex / d.det * d.ey * d.ez

/-- The next team of a grid on a die (R26), by its linear index. -/
def Grid.nextTeam (g : Grid) (d : Nat) : Option Place :=
  let n := indexIn d g.dies + g.dies.length * g.placed.get 0 d
  if n < g.desc.ex * g.desc.ey * g.desc.ez
  then some { x := n % g.desc.ex, y := n / g.desc.ex % g.desc.ey, z := n / (g.desc.ex * g.desc.ey), lin := n }
  else none

/-- The clusters a die receives (R306): the first and one past the last. -/
def Grid.share (g : Grid) (d : Nat) : Nat × Nat :=
  let j := indexIn d g.dies
  let m := g.dies.length
  (j * g.desc.clusters / m, (j + 1) * g.desc.clusters / m)

/-- The teams of cluster p in ascending x. -/
def Desc.clusterTeams (d : Desc) (p : Nat) : List Place :=
  let (cx, y, z) := clusterAt (d.ex / d.det) d.ey p
  (upto (d.det * cx) d.det).map fun x => { x := x, y := y, z := z, lin := x + d.ex * (y + d.ey * z), task := some p }

/-- The windows of a die that hold unretired tasks of a grid (R309). -/
def State.windowsUsed (s : State) (grid d : Nat) : List Nat :=
  match (s.grid grid).det with
  | none => []
  | some t => (t.tasks.filter fun x => x.window / 64 == d).map (·.window % 64)

/-- Places the teams of a cluster one after the other, or none of them. -/
def State.placeCluster (s : State) (grid d : Nat) : List Place → Option State
  | [] => some s
  | a :: r =>
    let g := s.grid grid
    match s.firstBlock d g.ctx g.desc none (upto 0 96) with
    | none => none
    | some (block, ps) => if s.tagOpen d g.desc.shape then (s.makeTeam grid a block ps).placeCluster grid d r else none

/-- Places the next cluster of a deterministic grid on a die (R306, R313). -/
def State.placeDet (s : State) (grid d : Nat) (t : Det) : Option State :=
  let g := s.grid grid
  let (lo, hi) := g.share d
  let again := firstThat (fun x => x.again && decide (lo ≤ x.p) && decide (x.p < hi)) t.tasks
  let p := match again with | some x => x.p | none => lo + g.placed.get 0 d
  let used := s.windowsUsed grid d
  let w := match again with
    | some x => some (x.window % 64)
    | none => firstThat (fun i => !(used.contains i)) (upto 0 t.windows)
  -- a RECORD run executes one task at a time, package-wide, in ascending p
  let turn := t.replay || p == t.committed
  if t.failed || hi ≤ p || !turn || !(s.ctxOpen d g.ctx) then none
  else
    match w with
    | none => none
    | some w =>
      match s.placeCluster grid d (g.desc.clusterTeams p) with
      | none => none
      | some s =>
        let task : DetTask := { p := p, window := 64 * d + w, retry := again.isSome }
        some (s.updGrid grid fun g =>
          { g with placed := if again.isSome then g.placed else g.placed.put 0 d (g.placed.get 0 d + 1)
                   det := g.det.map fun t => { t with tasks := t.tasks.filter (fun x => x.p != p) ++ [task] } })

/-- A pipeline on a die, by its launch. -/
def Die.pipe (x : Die) (launch : Nat) : Option Pipe := firstThat (fun p => p.launch == launch) x.pipes

/-- A strand of a pipeline on a die. -/
def Pipe.strand (p : Pipe) (k : Nat) : Option Strand := p.strands[k]?

/-- The producers of a strand (R275). -/
def Pipe.producers (p : Pipe) (k : Nat) : List Nat :=
  (upto 0 p.stages.length).filter fun i => match p.stages[i]? with | some t => t.out0 == k || t.out1 == k | none => false

/-- Whether every producer has closed a strand. -/
def Pipe.allClosed (p : Pipe) (k : Nat) : Bool :=
  match p.strand k with
  | none => true
  | some st => (p.producers k).all fun i => st.closed.contains i

/-- Whether a strand has ended: empty, and closed by every producer (R279). -/
def Pipe.ended (p : Pipe) (k : Nat) : Bool :=
  p.allClosed k && match p.strand k with | some st => st.beads.isEmpty | none => true

/-- Places one team of a stage that is no source (R276). -/
def State.placeStage (s : State) (grid d launch i : Nat) : Option State :=
  match (s.die d).pipe launch with
  | none => none
  | some p =>
    match p.stages[i]? with
    | none => none
    | some st =>
      let g := s.grid grid
      if p.ended st.input || !(s.ctxOpen d g.ctx) then none
      else
        match s.firstBlock d g.ctx g.desc (some (launch, i)) (upto 0 96) with
        | none => none
        | some (block, ps) =>
          let at_ : Place := { x := st.placed % 65536, y := i, z := 0, lin := st.placed % 65536 + 65535 * i }
          let s := s.makeTeam grid at_ block ps
          some (s.updDie d fun x =>
            { x with pipes := x.pipes.map fun q => if q.launch == launch
                then { q with stages := q.stages.mapIdx fun j y => if j == i then { y with placed := y.placed + 1 } else y } else q })

/-- Places the next team of one grid on a die, if it can become resident. A team whose granules are in Handover counts as placed
and holds back no later team of its grid: R26 does not say (DESIGN CHOICE, log entry 120). -/
def State.placeOne (s : State) (d grid : Nat) : Option State :=
  let g := s.grid grid
  match g.det with
  | some t => s.placeDet grid d t
  | none =>
    let isStage := match g.stage with
      | none => false
      | some (l, i) => match (s.die d).pipe l with
        | some p => (match p.stages[i]? with | some st => st.input != 0xFF | none => false)
        | none => false
    match g.stage, isStage with
    | some (l, i), true => s.placeStage grid d l i
    | _, _ =>
      match g.nextTeam d with
      | none => none
      | some a =>
        if !(s.ctxOpen d g.ctx) || !(s.tagOpen d g.desc.shape) then none
        else
          match s.firstBlock d g.ctx g.desc g.stage (upto 0 96) with
          | none => none
          | some (block, ps) =>
            some ((s.makeTeam grid a block ps).updGrid grid fun g => { g with placed := g.placed.put 0 d (g.placed.get 0 d + 1) })

/-- The first grid, in the order the die accepted them, whose next team can be placed (R26, R288). -/
def State.placeFirst (s : State) (d : Nat) : List Nat → Option State
  | [] => none
  | g :: r =>
    match s.placeOne d g with
    | some s => some s
    | none => s.placeFirst d r

/-- Asks the work distributor of a die to look for teams to place. -/
def State.pokePlace (s : State) (d : Nat) : State := s.poll (s.clk + 1) (.teamPlace d)

/-- A grid is accepted by its dies. -/
def State.acceptGrid (s : State) (g : Grid) : Nat × State :=
  let (id, s) := s.newId
  let s := s.setGrid id { g with live := true }
  (id, g.dies.foldl (fun s d => (s.updDie d fun x => { x with grids := x.grids ++ [id] }).pokePlace d) s)

end Sys2Proof.Machine
end

