-- ==== Sys2Proof/Machine/Finish.lean ====
section
/-! DEFINITION. The end of threads, teams, grids and pipelines (R24, R110, R276, R280) and the strands (R277 to R279). -/

namespace Sys2Proof.Machine

-- Strands.

/-- Changes a pipeline on a die. -/
def State.updPipe (s : State) (d launch : Nat) (f : Pipe → Pipe) : State :=
  s.updDie d fun x => { x with pipes := x.pipes.map fun p => if p.launch == launch then f p else p }

/-- Changes a strand. -/
def Pipe.updStrand (p : Pipe) (k : Nat) (f : Strand → Strand) : Pipe :=
  { p with strands := p.strands.mapIdx fun i x => if i == k then f x else x }

/-- Changes a stage. -/
def Pipe.updStage (p : Pipe) (k : Nat) (f : Stage → Stage) : Pipe :=
  { p with stages := p.stages.mapIdx fun i x => if i == k then f x else x }

/-- Beads a strand holds on chip (R277). -/
def Strand.chip (t : Strand) : Nat := (t.size - 128) / t.bead

/-- Beads a strand holds in all (R277). -/
def Strand.cap (t : Strand) : Nat := t.chip + t.extS / t.bead

/-- Whether a strand is full. -/
def Strand.full (t : Strand) : Bool := decide (t.cap ≤ t.beads.length)

/-- The pipeline and stage of a thread's grid, with its die. -/
def State.stageOf (s : State) (k : Nat) : Option (Nat × Nat × Nat) :=
  match (s.grid (s.team (s.thr k).team).grid).stage with
  | some (l, i) => some (dieOfThread k, l, i)
  | none => none

/-- The stage record of a thread, if its pipeline is resident. -/
def State.stageRec (s : State) (k : Nat) : Option (Nat × Pipe × Nat × Stage) :=
  match s.stageOf k with
  | none => none
  | some (d, l, i) =>
    match (s.die d).pipe l with
    | none => none
    | some p => if p.resident then (p.stages[i]?).map fun st => (d, p, i, st) else none

/-- The strand of a stage's output. -/
def Stage.out (t : Stage) (o : Nat) : Nat := if o = 0 then t.out0 else t.out1

/-- The place of a strand's next bead (R277): the on-chip part behind its latest bead, or the extension. Which place of either part a
bead takes is not stated (DESIGN CHOICE, log entry 134). -/
def Strand.nextPlace (t : Strand) : BeadPlace :=
  let chip := t.beads.filterMap fun b => match b.place with | .chip i => some i | .ext _ => none
  let ext := t.beads.filterMap fun b => match b.place with | .ext i => some i | .chip _ => none
  let next := fun (l : List Nat) (n : Nat) => match l.getLast? with | some i => (i + 1) % n | none => 0
  if ext.isEmpty && decide (chip.length < t.chip) then .chip (next chip t.chip) else .ext (next ext (t.extS / t.bead))

/-- The distributor, which moves the beads of a pipeline's extensions, as an engine. -/
def State.pipeAgent (s : State) (d l : Nat) : Agent :=
  distributorOf d (match (s.die d).pipe l with | some p => p.ctx | none => 0)

/-- The homes of a bead in its place; none where an extension does not translate. -/
def State.beadHomes (s : State) (d l : Nat) (t : Strand) (p : BeadPlace) : List Nat :=
  match p with
  | .chip i => upto (homeShared d (t.off + 128 + t.bead * i)) t.bead
  | .ext i => match s.engineHomes (s.pipeAgent d l) { w := true } (parts (t.extB.toNat + t.bead * i) t.bead) with
    | .ok hs => hs
    | .error _ => []

/-- Writes a bead to its place. -/
def State.storeBead (s : State) (d l : Nat) (t : Strand) (b : Bead) : State :=
  let hs := s.beadHomes d l t b.place
  b.bad.foldl (fun s o => match hs[o]? with | some h => s.markPoison h 1 | none => s) (s.engineWrites (hs.zip b.bytes))

/-- A bead as its place holds it now; one in an extension that no longer translates is as it was pushed (DESIGN CHOICE, log entry 134). -/
def State.loadBead (s : State) (d l : Nat) (t : Strand) (b : Bead) : Bead :=
  match s.beadHomes d l t b.place with
  | [] => b
  | hs => { b with bytes := hs.map s.readHome, bad := (upto 0 hs.length).filter fun o => s.isPoisoned (hs.getD o 0) 1 }

/-- The bank ALUs maintain a strand's control block, whose contents only SCTL.stat shows (R277): its bytes are free values. -/
def State.moveBlock (s : State) (d l k : Nat) : State :=
  match (s.die d).pipe l |>.bind (·.strand k) with
  | none => s
  | some t =>
    let (f, s) := s.takeFree
    (s.storeHomes (homeShared d t.off) ((upto 0 128).map fun i => Config.freeByte (f * 2 ^ 40 + i))).updPipe d l fun p =>
      p.updStrand k fun t => { t with moved := true }

/-- Puts a bead into a strand (R277). -/
def State.putBead (s : State) (d l k : Nat) (b : Bead) : State :=
  match (s.die d).pipe l |>.bind (·.strand k) with
  | none => s
  | some t =>
    let b := { b with place := t.nextPlace }
    ((s.storeBead d l t b).updPipe d l fun p => p.updStrand k fun t => { t with beads := t.beads ++ [b] }).moveBlock d l k

/-- The oldest bead of the extension comes on chip as space frees (R277). -/
def State.beadBack (s : State) (d l k : Nat) : State :=
  match (s.die d).pipe l |>.bind (·.strand k) with
  | none => s
  | some t =>
    match t.beads[t.chip - 1]? with
    | none => s
    | some b =>
      match b.place with
      | .chip _ => s
      | .ext _ =>
        let b := { s.loadBead d l t b with place := Strand.nextPlace { t with beads := t.beads.take (t.chip - 1) } }
        (s.storeBead d l t b).updPipe d l fun p => p.updStrand k fun t => { t with beads := t.beads.set (t.chip - 1) b }

/-- Takes the head bead off a strand. -/
def State.dropBead (s : State) (d l k : Nat) : State :=
  ((s.updPipe d l fun p => p.updStrand k fun t => { t with beads := t.beads.drop 1 }).beadBack d l k).moveBlock d l k

/-- Wakes a thread that waits, with the registers its wait writes. -/
def State.wake (s : State) (k : Nat) (ws : List RegWrite) : State :=
  ({ s.writeRegs ws with waiters := s.waiters.filter (· != k) }).updThr k fun t => { t with wait := .ready }

/-- A waiting thread leaves its wait with a fault, precise at its blocking word (R278, R279, R380). -/
def State.waitFault (s : State) (k : Nat) (f : Flt) : State :=
  let t := s.thr k
  let s := { s with waiters := s.waiters.filter (· != k) }
  s.boundaryFault f t.blkPc t.blkPos t.blkPc t.blkPos [k]

/-- A pop that can be decided now: YIELD, a bead, or END (R279), with `put` to write its registers; `none` leaves the
thread waiting. -/
def State.tryPop (s : State) (k : Nat) (va : DWord) (dreg : Nat) (put : State → List RegWrite → State) : Except AccFault (Option State) :=
  match s.stageRec k with
  | none => .ok none
  | some (d, p, _, st) =>
    let give := fun (s : State) (a b : Word) => put s [s.toV k dreg a, s.toV k (dreg + 1) b]
    if (s.core (coreOfThread k)).revoked then .ok (some (give s 2 0))
    else
      match p.strand st.input with
      | none => .ok none
      | some t =>
        match t.beads with
        | b :: _ =>
          let b := s.loadBead d p.launch t b
          match s.engineHomes (s.agentOf k) { w := true } (parts va.toNat b.bytes.length) with
          | .error f => .error f
          | .ok hs =>
            let s := ((s.keepWay (s.agentOf k) { w := true } va.toNat b.bytes.length).dropBead d p.launch st.input).engineWrites (hs.zip b.bytes)
            let s := b.bad.foldl (fun s o => s.markPoison (hs.getD o 0) 1) s
            .ok (some ((give s 0 b.seq).refresh k 2))
        | [] => if p.allClosed st.input then .ok (some (give s 1 0)) else .ok none

/-- A push that can be performed now (R278), with `put` to follow it; one whose source a Torc step owns waits (R107). -/
def State.tryPush (s : State) (k out : Nat) (va : DWord) (seq : Word) (put : State → State) : Except AccFault (Option State) :=
  match s.stageRec k with
  | none => .ok none
  | some (d, p, _, st) =>
    match p.strand (st.out out) with
    | none => .ok none
    | some t =>
      if t.full then .ok none
      else
        match s.engineHomes (s.agentOf k) {} (parts va.toNat t.bead) with
        | .error f => .error f
        | .ok hs =>
          if s.torcOwns hs then .ok none
          else
          let bad := (upto 0 hs.length).filter fun o => s.isPoisoned (hs.getD o 0) 1
          let s := s.keepWay (s.agentOf k) {} va.toNat t.bead
          let s := if bad.isEmpty then s else s.logEvent 0x1C 2 (s.ctxOf k) (stopOfThread k) 7 0 0
          .ok (some (put (s.putBead d p.launch (st.out out) { seq := seq, bytes := hs.map (s.engineByte k), bad := bad })))

/-- One waiting thread tries again: the state, and whether anything changed. -/
def State.retryStrand (s : State) (k : Nat) : State × Bool :=
  if (s.team (s.thr k).team).phase != .resident then (s, false)
  else
    let r := match (s.thr k).wait with
      | .pop va d => (s.tryPop k va d (fun s ws => s.wake k ws), false)
      | .push o va seq => (s.tryPush k o va seq (fun s => s.wake k []), true)
      | _ => (.ok none, false)
    match r with
    | (.ok (some s), _) => (s, true)
    | (.ok none, _) => (s, false)
    | (.error f, wr) =>
      let va := match (s.thr k).wait with | .pop va _ => va | .push _ va _ => va | _ => 0
      (s.waitFault k { code := f.code, cls := f.cls, info := f.infoWord (!wr), addr := va, lanes := some [k] }, true)

/-- The threads that wait at strands, in arrival order. -/
def State.strandWaiters (s : State) : List Nat :=
  s.waiters.filter fun k => match (s.thr k).wait with | .pop _ _ => true | .push _ _ _ => true | _ => false

/-- Serves waiting pushers and poppers in arrival order until none of them can go on. -/
def State.serveStrands (s : State) : Nat → State
  | 0 => s
  | n + 1 =>
    let (s, any) := s.strandWaiters.foldl (fun (a : State × Bool) k => let (t, b) := a.1.retryStrand k; (t, a.2 || b)) (s, false)
    if any then s.serveStrands n else s

/-- Serves the strands. -/
def State.runStrands (s : State) : State := s.serveStrands (2 * s.waiters.length + 1)

-- Grids, pipelines.

/-- Looks again at the reserved cores of a die (R323, R325). -/
def State.pokeRestores (s : State) (d : Nat) : State :=
  ((upto (96 * d) 96).filter fun c => (s.core c).reserved.isSome).foldl (fun s c => s.poll (s.clk + 1) (.coreRestore c)) s

/-- A core whose last team is gone holds no context; a revoked one goes to its receiver (R281). -/
def State.coreIdle (s : State) (c : Nat) : State :=
  let busy := s.teams.any fun e => e.2.live && e.2.cores.contains c && !(e.2.away.contains c) && (e.2.phase == .resident || e.2.phase == .handover || e.2.phase == .finishing)
  if busy then s
  else
    let s := s.pokeRestores (dieOfCore c)
    -- a revoked core goes once its stage's saved teams are gone too
    let goes := (s.core c).revoked && !(s.teams.any fun e => e.2.live && e.2.away.contains c)
    let l := ((s.core c).stage.getD (0, 0)).1
    let dest := (s.core c).goingTo
    let s := s.updCore c fun k =>
      { k with ctx := if k.saving then k.ctx else 0
               stage := if goes then k.goingTo.map (fun r => (l, r)) else k.stage
               goingTo := if goes then none else k.goingTo, revoked := k.revoked && !goes }
    if goes && dest == some 8 then s.updPipe (dieOfCore c) l fun p => { p with pool := sortNat (p.pool ++ [c]) } else s

/-- A pipeline has completed on a die: its cores are free, and the whole may be complete (R280). -/
def State.pipeDone (s : State) (d l : Nat) : State :=
  let s := (upto (96 * d) 96).foldl (fun s c =>
    match (s.core c).stage with
    | some (l', _) => if l' = l then s.updCore c fun k => { k with stage := none, revoked := false, goingTo := none } else s
    | none => s) s
  let s := s.updDie d fun x => { x with pipes := x.pipes.filter fun p => p.launch != l }
  match firstThat (fun e => e.1 == l) s.launches with
  | none => s.pokePlace d
  | some (_, pl) =>
    let rest := pl.dies.filter (· != d)
    if rest.isEmpty then
      ((State.signal { s with launches := s.launches.filter fun (e : Nat × PipeLaunch) => e.1 != l } pl.signal).cmdDone pl.cmd).pokePlace d
    else ({ s with launches := s.launches.map fun (e : Nat × PipeLaunch) => if e.1 == l then (l, { pl with dies := rest }) else e }).pokePlace d

/-- A stage finishes: it closes its outputs and its cores join the free pool, those on their way to it too (R280); stage 8 is the
pool. -/
def State.stageDone (s : State) (d l i : Nat) : State :=
  let s := s.updPipe d l fun p =>
    let p := p.updStage i fun t => { t with finished := true }
    { p with strands := p.strands.mapIdx fun k t =>
        if (p.producers k).contains i && !(t.closed.contains i) then { t with closed := t.closed ++ [i], moved := true } else t }
  let mine := (upto (96 * d) 96).filter fun c => (s.core c).stage == some (l, i)
  let coming := (upto (96 * d) 96).filter fun c => (s.core c).goingTo == some i && ((s.core c).stage.map (·.1)) == some l
  let s := mine.foldl (fun s c => s.updCore c fun k => { k with stage := some (l, 8), revoked := false, goingTo := none }) s
  let s := coming.foldl (fun s c => s.updCore c fun k => { k with goingTo := some 8 }) s
  let s := s.updPipe d l fun p => { p with pool := sortNat (p.pool ++ mine) }
  s.runStrands

/-- Whether a stage that is no source may finish: its input has ended and no team of it is left (R280). -/
def State.stageOver (s : State) (d : Nat) (p : Pipe) (i : Nat) : Bool :=
  match p.stages[i]? with
  | none => false
  | some t =>
    !t.finished && t.input != 0xFF && p.ended t.input
      && !(s.teams.any fun e => e.2.live && e.2.grid == t.grid && dieOfCore (e.2.cores.headD 0) == d && e.2.phase != .finished)

/-- Finishes every stage of a resident pipeline that may finish, and the pipeline with the last of them. -/
def State.checkStages (s : State) (d l : Nat) : Nat → State
  | 0 => s
  | n + 1 =>
    match (s.die d).pipe l with
    | none => s
    | some p =>
      if !p.resident then s
      else
        match firstThat (fun i => s.stageOver d p i) (upto 0 p.stages.length) with
        | some i => (s.stageDone d l i).checkStages d l n
        | none => if p.stages.all (·.finished) then s.pipeDone d l else s

/-- Looks at every pipeline of a die. -/
def State.checkPipes (s : State) (d : Nat) : State :=
  ((s.die d).pipes.map (·.launch)).foldl (fun s l => s.checkStages d l 9) s

/-- A grid leaves its dies. -/
def State.dropGrid (s : State) (g : Nat) : State :=
  let dies := (s.grid g).dies
  let s := dies.foldl (fun s d => s.updDie d fun x => { x with grids := x.grids.filter (· != g) }) s
  { s with grids := s.grids.del g }

/-- A team retires when it has finished and every grid it spawned has completed (R24); a grid completes with its last
team, which may retire the parent. The fuel bounds the nesting depth. -/
def State.retire (s : State) : Nat → Nat → State
  | 0, _ => s
  | n + 1, team =>
    let t := s.team team
    if !(t.live && t.phase == .finished && t.children == 0) then s
    else
      let g := s.grid t.grid
      let s := { s with teams := s.teams.del team }
      let s := s.updGrid t.grid fun x => { x with retired := x.retired + 1 }
      let total := g.desc.ex * g.desc.ey * g.desc.ez
      let source := match g.stage with
        | none => true
        | some (l, i) => match (s.die (g.dies.headD 0)).pipe l with
          | some p => (match p.stages[i]? with | some st => st.input == 0xFF | none => true)
          | none => true
      if g.det.isSome || !source || g.retired + 1 < total then s
      else
        let s := (s.signal g.signal).cmdDone g.cmd
        let s := s.dropGrid t.grid
        let s := match g.stage with
          | some (l, i) => (s.stageDone (g.dies.headD 0) l i).checkPipes (g.dies.headD 0)
          | none => s
        match g.parent with
        | none => s
        | some p => (s.updTeam p fun x => { x with children := x.children - 1 }).retire n p

/-- Releases a team's granules, tag and cores: what the first finish step gives back (R24, R85). -/
def State.releaseTeam (s : State) (team : Nat) : State :=
  let t := s.team team
  let s := (t.localGran ++ t.tapeGran).foldl (fun s g => s.updCore (g / 16) fun k => { k with gran := k.gran.del (g % 16) }) s
  t.cores.foldl State.coreIdle s

/-- Frees a team's route tag (R39). -/
def State.freeTag (s : State) (team : Nat) : State :=
  let t := s.team team
  match t.tag with
  | none => s
  | some i => s.updDie (dieOfCore (t.cores.headD 0)) fun x => { x with tags := x.tags.del i }

/-- The first finish step of a team completes: its publication on every core, then its resources (R24, R110). -/
def State.finishTeam (s : State) (team : Nat) : State :=
  let t := s.team team
  let d := dieOfCore (t.cores.headD 0)
  let s := t.cores.foldl State.publish (s.flushBins fun u => t.cores.contains (coreOfThread u.th))
  let s := s.updTeam team fun x => { x with phase := .finished }
  let s := s.releaseTeam team
  let s := match t.task, (s.grid t.grid).det with
    | some p, some dt =>
      let open_ := s.teams.any fun e => e.2.live && e.2.grid == t.grid && e.2.task == some p && e.2.phase != TeamPhase.finished
      if open_ then s
      else
        let s := s.updDetTask t.grid p fun x => { x with finished := true }
        if dt.committed ≤ p then s.poll (s.clk + 1) (.detCommit t.grid) else s
    | _, _ => s
  ((s.retire 14 team).checkPipes d).pokePlace d

end Sys2Proof.Machine
end

