-- ==== Sys2Proof/WellFormed.lean ====
section
/-! DEFINITION. Which field values the spec reserves (R112 to R115, R119 and the instruction chapters): an instruction
that is not well formed raises RESERVED_FIELD. Register ranges and operand values are no matter of this file. -/

namespace Sys2Proof

/-- U and BU are not both set (R129). -/
def fnOk (f : BitVec 4) : Bool := !(f.getLsbD 3 && f.getLsbD 2)

/-- The scope code is one of .grp, .team, .die, .pkg and .sys (R113). -/
def scopeOk (s : BitVec 3) : Bool := s.toNat < 5

/-- The predicate fields in bits [3:0] of a 7-bit register field leave bits [6:4] zero. -/
def predField (a : BitVec 7) : Bool := a.toNat < 16

/-- The listed status selectors (R63). -/
def selectorListed (n : Nat) : Bool :=
  n ≤ 0x13 || (0x20 ≤ n && n ≤ 0x25) || (0x30 ≤ n && n ≤ 0x3F) || (0x40 ≤ n && n ≤ 0x43)
    || n == 0x50 || n == 0x60 || n == 0x70 || (0x80 ≤ n && n ≤ 0x87)

/-- A selector field: listed, and for the 64-bit form even with its successor listed (R62). -/
def selectorOk (w : BitVec 1) (s : BitVec 11) : Bool :=
  selectorListed s.toNat && (w == 0 || (s.toNat % 2 == 0 && selectorListed (s.toNat + 1)))

/-- Type codes of a scalar float: .f32, .f64, .f16, .b16 (R113). -/
def isScalarFloat (t : BitVec 4) : Bool := 4 ≤ t.toNat && t.toNat ≤ 7

/-- Type codes of an integer: .s32, .n32, .s64, .n64 (R113). -/
def isIntType (t : BitVec 4) : Bool := t.toNat ≤ 3

/-- The type pairs of FCVT, destination first (R167). -/
def fcvtPair (dt st : BitVec 4) : Bool :=
  (isScalarFloat dt && isScalarFloat st)
    || ((dt == 8 || dt == 9) && st == 4)
    || (dt == 8 && st == 9) || (dt == 9 && st == 8)
    || (dt == 4 && (st == 8 || st == 9))
    || (isScalarFloat dt && isIntType st) || (isIntType dt && isScalarFloat st)

/-- FCVT's rounding: codes 0 to 3 leave B and SEED reserved; .rsr needs a 16-bit destination (R166, R167). -/
def fcvtRnd (dt : BitVec 4) (rnd : BitVec 3) (b : BitVec 7) (seed : BitVec 6) : Bool :=
  if rnd == 4 then dt == 6 || dt == 7 || dt == 8 || dt == 9
  else decide (rnd.toNat < 4) && b == 0 && seed == 0

/-- Forms 0 to 2 of LSHUF and LROT take any B; form 3 takes W divided by 2, 4, up to 64 (R146). -/
def laneForm (f : BitVec 2) (b : BitVec 7) : Bool := f != 3 || (1 ≤ b.toNat && b.toNat ≤ 6)

/-- The sizes a weak store takes (R179). -/
def storeSize (z : BitVec 3) : Bool := z != 1 && z != 3 && z != 7

/-- Whether the spec allows every field value of an instruction. Events have no encoded fields. -/
def Instr.wf : Instr → Bool
  | .add f _ _ _ => fnOk f
  | .sub f _ _ _ => fnOk f
  | .mul f _ _ _ => fnOk f
  | .mulh f _ _ _ => fnOk f
  | .mad f _ _ _ => fnOk f
  | .and f _ _ _ => fnOk f
  | .or f _ _ _ => fnOk f
  | .xor f _ _ _ => fnOk f
  | .shl f _ _ _ => fnOk f
  | .shr f _ _ _ => fnOk f
  | .sar f _ _ _ => fnOk f
  | .rot f _ _ _ => fnOk f
  | .bfx f _ _ _ => fnOk f
  | .bfi f _ _ _ => !(f.getLsbD 2 && f.getLsbD 1)
  | .div f _ _ _ => fnOk f
  | .rem f _ _ _ => fnOk f
  | .cmp c _ _ _ _ _ => c.toNat < 10
  | .cmpi c _ _ _ _ => c.toNat < 10
  | .mov f d a => decide (f.toNat < 8) && (f != 4 || predField a) && (f != 5 || predField d)
  | .lshuf f _ _ _ _ b => laneForm f b
  | .lrot f _ _ _ b => laneForm f b
  | .lred f _ _ => f.toNat < 13
  | .vote w f d a =>
    (f == 3 || (w == 0 && predField a)) && (f == 2 || predField d)
  | .sysr _ _ w s => selectorOk w s
  | .sysw _ w _ s => selectorOk w s
  | .sleep v a _ => v == 1 || a == 0
  | .ffmat c _ _ _ _ => c != 7
  | .fcmp c _ _ _ _ => c.toNat < 12
  | .fcvt _ _ b dt sty rnd seed => fcvtPair dt sty && fcvtRnd dt rnd b seed
  | .fsfu f _ _ => f != 7
  | .fsgn o _ _ _ b => o != 3 || b == 0
  | .ld z _ _ _ => z != 7
  | .st z _ _ _ => storeSize z
  | .ldx z _ _ _ _ => z != 7
  | .stx z _ _ _ _ => storeSize z
  | .lds o _ _ _ sc => decide (o.toNat < 2) && scopeOk sc
  | .sts o _ _ _ sc => (o == 0 || o == 2) && scopeOk sc
  | .atom f _ _ _ _ sc _ => decide (f.toNat < 7) && scopeOk sc
  | .acas _ _ _ _ _ sc _ _ => scopeOk sc
  | .fatom f _ _ _ _ sc _ => decide (f.toNat < 3) && scopeOk sc
  | .gadd _ _ o sc _ => (o == 0 || o == 2) && scopeOk sc
  | .phase sc => scopeOk sc
  | .phasePub sc => scopeOk sc
  | .phaseAcq sc => scopeOk sc
  | .mmq k _ _ _ _ _ _ => k.toNat < 4
  | .accdr f _ td a rg res rnd _ _ _ =>
    decide (f.toNat < 6) && decide (rnd.toNat < 5) && (td == 0 || decide (a.toNat < 8)) && (res == 1 || rg == 0)
  | .rqcand f _ _ a => decide (f.toNat < 6) && ((decide (1 ≤ f.toNat) && decide (f.toNat ≤ 4)) || a == 0)
  | .rqres f _ _ a => (f == 0 || f == 1 || f == 2 || f == 6) && (f == 1 || a == 0)
  | .rsvget _ _ b => b.toNat < 5
  | .rsvset _ _ b => b.toNat < 5
  | .spawn _ _ ctr sig => sig == 1 || ctr == 0
  | .tqadd _ _ xd die => xd == 1 || die == 0
  | .sctlClose o => o.toNat < 2
  | .sctlStat _ o => o.toNat < 3
  | .cpxLaunch _ b sem dm sig ad => dm != 0 && (sig == 1 || (b == 0 && sem == 0 && ad == 0))
  | .cpxCcopy _ _ _ sem sig ad v => sig == 1 || (sem == 0 && ad == 0 && v == 0)
  | _ => true

/-- The first vector-context names of an instruction's variable-latency destinations; one that names a temporary raises
RESERVED_FIELD with the name (R46, R373). A .quad destination that names one raises REG_RANGE instead (R179). -/
def Instr.lateDst : Instr → List (BitVec 7)
  | .div f d _ _ => if f.getLsbD 3 then [] else [d]
  | .rem f d _ _ => if f.getLsbD 3 then [] else [d]
  | .fdiv _ _ d _ _ => [d]
  | .fsqrt _ _ d _ => [d]
  | .fsfu _ d _ => [d]
  | .lut _ d _ => [d]
  | .lutld _ d _ => [d]
  | .ld z d _ _ => if z = 6 then [] else [d]
  | .ldx z d _ _ _ => if z = 6 then [] else [d]
  | .lds _ _ d _ _ => [d]
  | .atom _ d _ _ _ _ _ => [d]
  | .acas d _ _ _ _ _ _ _ => [d]
  | .fatom _ d _ _ _ _ _ => [d]
  | .slwait d _ => [d]
  | .slfree d _ => [d]
  | .accrd _ d _ _ => [d]
  | .rast _ d _ _ _ sam => [d, sam]
  | .edgs d _ _ _ _ => [d]
  | .tex _ d _ _ => [d]
  | .texg _ _ d _ _ => [d]
  | .texl d _ _ => [d]
  | .texb _ d _ _ _ => [d]
  | .rrecDim d _ _ => [d]
  | .rrecFmt d _ => [d]
  | .rqproc _ d _ => [d]
  | .rqcand _ _ d _ => [d]
  | .rqres _ _ d _ => [d]
  | .rqtri d _ _ _ _ _ => [d]
  | .rqgrad d _ _ _ _ _ _ => [d]
  | .tpop d a => [d, a]
  | .tctlStat d => [d]
  | .rsvget d _ _ => [d]
  | .rsvfin d _ => [d]
  | .clove _ _ d _ _ => [d]
  | .depopSet d _ _ => [d]
  | .depopAdd d _ _ => [d]
  | .depopGet d _ => [d]
  | .spop d _ => [d]
  | .sctlStat d _ => [d]
  | .cpxSemwait d _ _ _ => [d]
  | .cpxSemadd d _ _ => [d]
  | _ => []

end Sys2Proof
end

