-- ==== Sys2Proof/Decode.lean ====
section
/-! DEFINITION. The decoder (R111 to R119) and the encoder, both written from the encoding tables of the spec. The
decoder is total: a list of words answers an instruction and how many words it takes, or the reason the first word is
no instruction. -/

namespace Sys2Proof

/-- Field of `len` bits of a word, from bit `lo` up. -/
def bits (w lo len : Nat) : BitVec len := BitVec.ofNat len (w / 2 ^ lo)

/-- Whether a field of `len` bits holds `v`. -/
def fix (w lo len v : Nat) : Bool := w / 2 ^ lo % 2 ^ len == v

/-- Why a word is no instruction (R119). -/
inductive DecodeError where
  /-- OPC 0x00, 0x01, 0x77 or 0x7F; also a LIT or a double word cut short, which the fetch check refuses before. -/
  | illegalOpcode
  /-- A reserved FN, form, operation or code, or a reserved bit that is 1. -/
  | reservedField
  deriving DecidableEq, Repr

/-- The opcode of a word: bits [31:25] (R111). -/
def opcOf (w : Nat) : Nat := w / 2 ^ 25 % 2 ^ 7

/-- Whether an opcode is a double-word instruction's (format X, R117). -/
def isDouble (opc : Nat) : Bool :=
  [55, 63, 70, 71, 72, 73, 76, 80, 81, 82, 83, 84, 85, 87, 88, 89, 90, 91, 92, 93, 94, 96, 102, 103, 112, 113, 125].contains opc

/-- Whether an opcode stands only at the end of a run: the branches and the single-word blocking instructions (R57).
BAR and opcode 0x4F block in some forms only. -/
def endsRun (w : Nat) : Bool :=
  let o := opcOf w
  (33 ≤ o && o ≤ 39) || [116, 117, 114, 124].contains o
    || (o == 78 && (fix w 21 2 0 || fix w 21 2 2)) || (o == 79 && (fix w 21 2 0 || fix w 21 2 2))

/-- Whether a double word ends its run: CPX SEMWAIT and CHALT (R285). -/
def endsRunDouble (w : Nat) : Bool := opcOf w == 125 && (fix w 21 3 1 || fix w 21 3 6)

/-- The single-word instructions, by opcode: `none` when a reserved bit is set. -/
def decodeOne (w : Nat) : Option Instr :=
  match opcOf w with
  | 3 => if fix w 0 25 0 then some (.nop) else none
  | 4 => some (.add (bits w 21 4) (bits w 14 7) (bits w 7 7) (bits w 0 7))
  | 5 => some (.sub (bits w 21 4) (bits w 14 7) (bits w 7 7) (bits w 0 7))
  | 6 => some (.addi (bits w 18 7) (bits w 11 7) (bits w 0 11) none)
  | 7 => some (.mul (bits w 21 4) (bits w 14 7) (bits w 7 7) (bits w 0 7))
  | 8 => some (.mulh (bits w 21 4) (bits w 14 7) (bits w 7 7) (bits w 0 7))
  | 9 => some (.mad (bits w 21 4) (bits w 14 7) (bits w 7 7) (bits w 0 7))
  | 10 => some (.and (bits w 21 4) (bits w 14 7) (bits w 7 7) (bits w 0 7))
  | 11 => some (.or (bits w 21 4) (bits w 14 7) (bits w 7 7) (bits w 0 7))
  | 12 => some (.xor (bits w 21 4) (bits w 14 7) (bits w 7 7) (bits w 0 7))
  | 13 => some (.andi (bits w 18 7) (bits w 11 7) (bits w 0 11) none)
  | 14 => some (.ori (bits w 18 7) (bits w 11 7) (bits w 0 11) none)
  | 15 => some (.xori (bits w 18 7) (bits w 11 7) (bits w 0 11) none)
  | 16 => some (.shl (bits w 21 4) (bits w 14 7) (bits w 7 7) (bits w 0 7))
  | 17 => some (.shr (bits w 21 4) (bits w 14 7) (bits w 7 7) (bits w 0 7))
  | 18 => some (.sar (bits w 21 4) (bits w 14 7) (bits w 7 7) (bits w 0 7))
  | 19 => some (.rot (bits w 21 4) (bits w 14 7) (bits w 7 7) (bits w 0 7))
  | 20 => some (.bfx (bits w 21 4) (bits w 14 7) (bits w 7 7) (bits w 0 7))
  | 21 => if fix w 21 1 0 then some (.bfi (bits w 22 3) (bits w 14 7) (bits w 7 7) (bits w 0 7)) else none
  | 22 => if fix w 0 7 0 && fix w 21 1 0 then some (.bitc (bits w 23 2) (bits w 22 1) (bits w 14 7) (bits w 7 7)) else none
  | 23 => if fix w 23 1 0 then some (.min (bits w 24 1) (bits w 22 1) (bits w 21 1) (bits w 14 7) (bits w 7 7) (bits w 0 7)) else if fix w 23 1 1 then some (.max (bits w 24 1) (bits w 22 1) (bits w 21 1) (bits w 14 7) (bits w 7 7) (bits w 0 7)) else none
  | 24 => if fix w 20 1 0 then some (.cmp (bits w 21 4) (bits w 19 1) (bits w 18 1) (bits w 14 4) (bits w 7 7) (bits w 0 7)) else none
  | 25 => some (.cmpi (bits w 21 4) (bits w 17 4) (bits w 10 7) (bits w 0 10) none)
  | 26 => some (.sel (bits w 21 4) (bits w 14 7) (bits w 7 7) (bits w 0 7))
  | 27 => if fix w 0 7 0 then some (.mov (bits w 21 4) (bits w 14 7) (bits w 7 7)) else none
  | 28 => if fix w 13 5 0 then some (.movi (bits w 18 7) (bits w 12 1) (bits w 11 1) (bits w 0 11) none) else none
  | 29 => some (.div (bits w 21 4) (bits w 14 7) (bits w 7 7) (bits w 0 7))
  | 30 => some (.rem (bits w 21 4) (bits w 14 7) (bits w 7 7) (bits w 0 7))
  | 31 => if fix w 5 2 0 && fix w 24 1 0 then some (.lea (bits w 23 1) (bits w 21 2) (bits w 14 7) (bits w 7 7) (bits w 0 5)) else if fix w 0 7 0 && fix w 23 2 2 then some (.leaLs (bits w 21 2) (bits w 14 7) (bits w 7 7)) else none
  | 32 => if fix w 4 3 0 && fix w 11 3 0 && fix w 18 3 0 then some (.plog (bits w 21 4) (bits w 14 4) (bits w 7 4) (bits w 0 4)) else none
  | 33 => some (.br (bits w 24 1) (bits w 20 4) (bits w 0 20))
  | 34 => if fix w 0 7 0 && fix w 18 3 0 && fix w 22 3 0 then some (.bri (bits w 21 1) (bits w 14 4) (bits w 7 7)) else none
  | 35 => some (.call (bits w 24 1) (bits w 20 4) (bits w 0 20))
  | 36 => if fix w 0 7 0 && fix w 18 3 0 && fix w 22 3 0 then some (.calli (bits w 21 1) (bits w 14 4) (bits w 7 7)) else none
  | 37 => if fix w 0 14 0 && fix w 18 3 0 && fix w 22 3 0 then some (.ret (bits w 21 1) (bits w 14 4)) else none
  | 38 => if fix w 0 14 0 && fix w 18 3 0 && fix w 22 3 0 then some (.exit (bits w 21 1) (bits w 14 4)) else none
  | 39 => if fix w 0 14 0 && fix w 18 3 0 && fix w 22 3 0 then some (.yield (bits w 21 1) (bits w 14 4)) else none
  | 40 => if fix w 12 13 0 then some (.winb (bits w 11 1) (bits w 0 11)) else none
  | 41 => some (.lshuf (bits w 23 2) (bits w 22 1) (bits w 21 1) (bits w 14 7) (bits w 7 7) (bits w 0 7))
  | 42 => some (.lpush (bits w 21 4) (bits w 14 7) (bits w 7 7) (bits w 0 7))
  | 43 => if fix w 21 1 0 then some (.lrot (bits w 23 2) (bits w 22 1) (bits w 14 7) (bits w 7 7) (bits w 0 7)) else none
  | 44 => if fix w 0 7 0 then some (.lred (bits w 21 4) (bits w 14 7) (bits w 7 7)) else none
  | 45 => if fix w 0 7 0 then some (.lscan (bits w 24 1) (bits w 21 3) (bits w 14 7) (bits w 7 7)) else none
  | 46 => if fix w 0 7 0 && fix w 23 1 0 then some (.vote (bits w 24 1) (bits w 21 2) (bits w 14 7) (bits w 7 7)) else none
  | 47 => if fix w 0 7 0 && fix w 21 1 0 && fix w 23 2 0 then some (.lmatch (bits w 22 1) (bits w 14 7) (bits w 7 7)) else none
  | 48 => some (.fadd (bits w 23 2) (bits w 21 2) (bits w 14 7) (bits w 7 7) (bits w 0 7))
  | 49 => some (.fsub (bits w 23 2) (bits w 21 2) (bits w 14 7) (bits w 7 7) (bits w 0 7))
  | 50 => some (.fmul (bits w 23 2) (bits w 21 2) (bits w 14 7) (bits w 7 7) (bits w 0 7))
  | 51 => some (.ffma (bits w 23 2) (bits w 21 2) (bits w 14 7) (bits w 7 7) (bits w 0 7))
  | 52 => some (.ffmat (bits w 22 3) (bits w 21 1) (bits w 14 7) (bits w 7 7) (bits w 0 7))
  | 53 => if fix w 23 2 0 then some (.fmin (bits w 21 2) (bits w 14 7) (bits w 7 7) (bits w 0 7)) else if fix w 23 2 1 then some (.fmax (bits w 21 2) (bits w 14 7) (bits w 7 7) (bits w 0 7)) else none
  | 54 => if fix w 20 1 0 then some (.fcmp (bits w 21 4) (bits w 18 2) (bits w 14 4) (bits w 7 7) (bits w 0 7)) else none
  | 56 => if fix w 0 7 0 then some (.frnd (bits w 23 2) (bits w 21 2) (bits w 14 7) (bits w 7 7)) else none
  | 57 => some (.fdiv (bits w 23 2) (bits w 21 2) (bits w 14 7) (bits w 7 7) (bits w 0 7))
  | 58 => if fix w 0 7 0 then some (.fsqrt (bits w 23 2) (bits w 21 2) (bits w 14 7) (bits w 7 7)) else none
  | 59 => if fix w 0 7 0 && fix w 24 1 0 then some (.fsfu (bits w 21 3) (bits w 14 7) (bits w 7 7)) else none
  | 60 => some (.fsgn (bits w 23 2) (bits w 21 2) (bits w 14 7) (bits w 7 7) (bits w 0 7))
  | 61 => if fix w 0 7 0 && fix w 23 2 0 then some (.fclass (bits w 21 2) (bits w 14 7) (bits w 7 7)) else none
  | 62 => if fix w 0 7 0 && fix w 23 2 0 then some (.lut (bits w 21 2) (bits w 14 7) (bits w 7 7)) else none
  | 64 => if fix w 24 1 0 then some (.ld (bits w 21 3) (bits w 14 7) (bits w 9 5) (bits w 0 9)) else none
  | 65 => if fix w 24 1 0 then some (.st (bits w 21 3) (bits w 14 7) (bits w 9 5) (bits w 0 9)) else none
  | 66 => if fix w 0 6 0 then some (.lds (bits w 23 2) (bits w 21 2) (bits w 14 7) (bits w 9 5) (bits w 6 3)) else none
  | 67 => if fix w 0 6 0 then some (.sts (bits w 23 2) (bits w 21 2) (bits w 14 7) (bits w 9 5) (bits w 6 3)) else none
  | 68 => if fix w 24 1 0 then some (.ldx (bits w 21 3) (bits w 14 7) (bits w 9 5) (bits w 2 7) (bits w 0 2)) else none
  | 69 => if fix w 24 1 0 then some (.stx (bits w 21 3) (bits w 14 7) (bits w 9 5) (bits w 2 7) (bits w 0 2)) else none
  | 74 => if fix w 0 14 0 && fix w 17 8 0 then some (.phase (bits w 14 3)) else if fix w 0 14 0 && fix w 17 8 16 then some (.phasePub (bits w 14 3)) else if fix w 0 14 0 && fix w 17 8 32 then some (.phaseAcq (bits w 14 3)) else none
  | 75 => if fix w 0 25 0 then some (.fencesc) else none
  | 77 => if fix w 3 4 0 && fix w 19 6 0 then some (.gadv (bits w 14 5) (bits w 7 7) (bits w 2 1) (bits w 0 2)) else if fix w 2 5 0 && fix w 12 2 0 && fix w 21 4 1 then some (.gget (bits w 14 7) (bits w 7 5) (bits w 0 2)) else if fix w 0 7 0 && fix w 19 6 8 then some (.gptr (bits w 14 5) (bits w 7 7)) else none
  | 78 => if fix w 0 14 0 && fix w 18 5 0 && fix w 24 1 0 then some (.barSync (bits w 23 1) (bits w 14 4)) else if fix w 0 14 0 && fix w 18 5 8 && fix w 24 1 0 then some (.barArrive (bits w 23 1) (bits w 14 4)) else if fix w 0 14 0 && fix w 18 5 16 && fix w 24 1 0 then some (.barWait (bits w 23 1) (bits w 14 4)) else none
  | 79 => if fix w 0 7 0 && fix w 12 2 0 && fix w 21 4 0 then some (.slwait (bits w 14 7) (bits w 7 5)) else if fix w 12 13 512 then some (.slrel (bits w 7 5) (bits w 0 7)) else if fix w 0 7 0 && fix w 12 2 0 && fix w 21 4 2 then some (.slfree (bits w 14 7) (bits w 7 5)) else if fix w 12 13 1536 then some (.slcommit (bits w 7 5) (bits w 0 7)) else none
  | 86 => if fix w 4 3 0 && fix w 23 2 0 then some (.accrd (bits w 21 2) (bits w 14 7) (bits w 7 7) (bits w 0 4)) else none
  | 95 => if fix w 21 4 0 then some (.rrecDim (bits w 14 7) (bits w 7 7) (bits w 0 7)) else if fix w 7 7 0 && fix w 21 4 1 then some (.rrecFmt (bits w 14 7) (bits w 0 7)) else if fix w 0 25 4194304 then some (.rrecInv) else none
  | 97 => if fix w 0 7 0 && fix w 22 3 0 then some (.rqproc (bits w 21 1) (bits w 14 7) (bits w 7 7)) else none
  | 98 => if fix w 0 7 0 then some (.rqcand (bits w 22 3) (bits w 21 1) (bits w 14 7) (bits w 7 7)) else none
  | 99 => if fix w 14 7 0 && fix w 22 3 0 then some (.rqcommit (bits w 21 1) (bits w 7 7) (bits w 0 7)) else none
  | 100 => if fix w 0 21 0 && fix w 22 3 0 then some (.rqabort (bits w 21 1)) else none
  | 101 => if fix w 0 7 0 then some (.rqres (bits w 22 3) (bits w 21 1) (bits w 14 7) (bits w 7 7)) else none
  | 104 => if fix w 0 7 0 && fix w 23 2 0 then some (.trec (bits w 21 2) (bits w 14 7) (bits w 7 7)) else none
  | 105 => if fix w 0 7 0 && fix w 21 4 0 then some (.tpop (bits w 14 7) (bits w 7 7)) else none
  | 106 => if fix w 14 11 0 then some (.tmarkOpen (bits w 7 7) (bits w 0 7)) else if fix w 0 25 2097152 then some (.tmarkClose) else none
  | 107 => if fix w 0 7 0 && fix w 12 13 0 then some (.tctlBind (bits w 7 5)) else if fix w 0 14 0 && fix w 21 4 1 then some (.tctlStat (bits w 14 7)) else if fix w 0 7 0 && fix w 14 11 256 then some (.tctlSeek (bits w 7 7)) else if fix w 0 25 6291456 then some (.tctlSync) else none
  | 108 => if fix w 17 8 0 then some (.rsvupd (bits w 14 3) (bits w 7 7) (bits w 0 7)) else none
  | 109 => if fix w 20 5 0 then some (.rsvmrg (bits w 17 3) (bits w 14 3) (bits w 7 7) (bits w 0 7)) else none
  | 110 => if fix w 0 14 0 && fix w 17 8 0 then some (.rsvinit (bits w 14 3)) else if fix w 0 7 0 && fix w 10 4 0 && fix w 21 4 1 then some (.rsvfin (bits w 14 7) (bits w 7 3)) else if fix w 10 4 0 && fix w 21 4 2 then some (.rsvget (bits w 14 7) (bits w 7 3) (bits w 0 7)) else if fix w 17 8 48 then some (.rsvset (bits w 14 3) (bits w 7 7) (bits w 0 7)) else none
  | 111 => if fix w 23 2 0 then some (.clove (bits w 22 1) (bits w 21 1) (bits w 14 7) (bits w 7 7) (bits w 0 7)) else none
  | 114 => if fix w 0 7 0 && fix w 13 1 0 && fix w 21 4 0 then some (.tqget (bits w 14 7) (bits w 7 6)) else none
  | 115 => if fix w 21 4 0 then some (.depopSet (bits w 14 7) (bits w 7 7) (bits w 0 7)) else if fix w 21 4 1 then some (.depopAdd (bits w 14 7) (bits w 7 7) (bits w 0 7)) else if fix w 0 7 0 && fix w 21 4 2 then some (.depopGet (bits w 14 7) (bits w 7 7)) else none
  | 116 => if fix w 1 6 0 && fix w 12 2 0 && fix w 21 4 0 then some (.spush (bits w 14 7) (bits w 7 5) (bits w 0 1)) else none
  | 117 => if fix w 0 7 0 && fix w 12 2 0 && fix w 21 4 0 then some (.spop (bits w 14 7) (bits w 7 5)) else none
  | 118 => if fix w 2 23 0 then some (.sctlClose (bits w 0 2)) else if fix w 2 12 0 && fix w 21 4 1 then some (.sctlStat (bits w 14 7) (bits w 0 2)) else none
  | 120 => if fix w 13 5 0 then some (.sysr (bits w 18 7) (bits w 12 1) (bits w 11 1) (bits w 0 11)) else none
  | 121 => if fix w 20 5 0 then some (.sysw (bits w 19 1) (bits w 18 1) (bits w 11 7) (bits w 0 11)) else none
  | 122 => if fix w 11 14 0 then some (.trap (bits w 0 11)) else none
  | 123 => if fix w 0 25 0 then some (.icinv) else none
  | 124 => if fix w 19 6 0 then some (.sleep (bits w 18 1) (bits w 11 7) (bits w 0 11)) else none
  | 126 => if fix w 0 25 0 then some (.fwret) else none
  | _ => none

/-- The double-word instructions (word 0 and its extension word), by opcode. -/
def decodeTwo (w x : Nat) : Option Instr :=
  match opcOf w with
  | 55 => if fix w 21 4 0 && fix x 0 15 0 then some (.fcvt (bits w 14 7) (bits w 7 7) (bits w 0 7) (bits x 28 4) (bits x 24 4) (bits x 21 3) (bits x 15 6)) else none
  | 63 => if fix w 0 14 0 && fix w 23 2 0 && fix x 0 27 0 then some (.lutld (bits w 21 2) (bits w 14 7) (bits x 27 5)) else none
  | 70 => if fix w 0 7 0 && fix x 0 20 0 then some (.atom (bits w 21 4) (bits w 14 7) (bits w 7 7) (bits x 27 5) (bits x 25 2) (bits x 22 3) (bits x 20 2)) else none
  | 71 => if fix w 21 4 0 && fix x 0 15 0 && fix x 19 1 0 then some (.acas (bits w 14 7) (bits w 7 7) (bits w 0 7) (bits x 27 5) (bits x 25 2) (bits x 22 3) (bits x 20 2) (bits x 15 4)) else none
  | 72 => if fix w 0 7 0 && fix x 0 20 0 then some (.fatom (bits w 21 4) (bits w 14 7) (bits w 7 7) (bits x 27 5) (bits x 25 2) (bits x 22 3) (bits x 20 2)) else none
  | 73 => if fix w 0 7 0 && fix w 14 11 0 && fix x 0 21 0 then some (.gadd (bits w 7 7) (bits x 27 5) (bits x 25 2) (bits x 22 3) (bits x 21 1)) else none
  | 76 => if fix w 19 5 0 && fix x 0 26 0 then some (.gset (bits w 24 1) (bits w 14 5) (bits w 7 7) (bits w 0 7) (bits x 28 4) (bits x 26 2)) else none
  | 80 => if fix w 5 2 0 && fix w 12 2 0 && fix w 20 1 0 && fix x 0 20 0 then some (.mmq (bits w 21 4) (bits w 14 4) (bits w 18 2) (bits w 7 5) (bits w 0 5) (bits x 26 6) (bits x 20 6)) else none
  | 81 => if fix w 0 14 0 && fix w 18 3 0 && fix w 22 3 0 && fix x 0 16 0 then some (.accz (bits w 21 1) (bits w 14 4) (bits x 16 16)) else none
  | 82 => if fix w 6 1 0 && fix w 12 2 0 && fix w 19 2 0 && fix x 0 21 0 then some (.accdr (bits w 21 4) (bits w 14 4) (bits w 18 1) (bits w 7 5) (bits w 0 5) (bits w 5 1) (bits x 29 3) (bits x 28 1) (bits x 27 1) (bits x 21 6)) else none
  | 83 => if fix w 21 1 0 && fix w 0 14 0 && fix w 18 3 0 && fix w 22 3 0 && fix x 0 27 0 then some (.accsvSave (bits w 14 4) (bits x 27 5)) else if fix w 21 1 1 && fix w 0 14 0 && fix w 18 3 0 && fix w 22 3 0 && fix x 0 27 0 then some (.accsvLoad (bits w 14 4) (bits x 27 5)) else none
  | 84 => if fix w 0 14 0 && fix w 17 8 0 && fix x 0 21 0 then some (.tld (bits w 14 3) (bits x 27 5) (bits x 21 6)) else none
  | 85 => if fix w 0 14 0 && fix w 17 8 0 && fix x 0 21 0 then some (.tst (bits w 14 3) (bits x 27 5) (bits x 21 6)) else none
  | 87 => if fix w 21 2 0 && fix w 0 21 0 && fix w 23 2 0 && fix x 0 21 0 then some (.binctlDecl (bits x 21 6) (bits x 27 5)) else if fix w 21 2 1 && fix w 14 7 0 && fix w 23 2 0 && fix x 0 21 0 && fix x 27 5 0 then some (.binctlFin (bits x 21 6) (bits w 7 7) (bits w 0 7)) else if fix w 21 2 2 && fix w 14 7 0 && fix w 23 2 0 && fix x 0 21 0 && fix x 27 5 0 then some (.binctlFinclr (bits x 21 6) (bits w 7 7) (bits w 0 7)) else if fix w 21 2 3 && fix w 0 21 0 && fix w 23 2 0 && fix x 0 21 0 && fix x 27 5 0 then some (.binctlFree (bits x 21 6)) else none
  | 88 => if fix w 0 14 0 && fix w 23 2 0 && fix x 0 9 0 then some (.rast (bits w 21 2) (bits w 14 7) (bits x 26 6) (bits x 20 6) (bits x 16 4) (bits x 9 7)) else none
  | 89 => if fix w 19 2 0 && fix w 23 2 0 && fix x 0 9 0 && fix x 20 6 0 then some (.rastg (bits w 21 2) (bits w 14 5) (bits w 7 7) (bits w 0 7) (bits x 26 6) (bits x 16 4) (bits x 9 7)) else none
  | 90 => if fix w 0 14 0 && fix w 21 4 0 && fix x 0 10 0 then some (.edgs (bits w 14 7) (bits x 26 6) (bits x 20 6) (bits x 16 4) (bits x 10 6)) else none
  | 91 => if fix w 22 3 0 && fix x 0 32 0 then some (.tex (bits w 21 1) (bits w 14 7) (bits w 7 7) (bits w 0 7)) else none
  | 92 => if fix w 24 1 0 && fix x 0 32 0 then some (.texg (bits w 21 1) (bits w 22 2) (bits w 14 7) (bits w 7 7) (bits w 0 7)) else none
  | 93 => if fix w 21 4 0 && fix x 0 32 0 then some (.texl (bits w 14 7) (bits w 7 7) (bits w 0 7)) else none
  | 94 => if fix w 22 3 0 && fix x 0 25 0 then some (.texb (bits w 21 1) (bits w 14 7) (bits w 7 7) (bits w 0 7) (bits x 25 7)) else none
  | 96 => if fix w 0 7 0 && fix w 22 3 0 && fix x 0 28 0 then some (.rqinit (bits w 21 1) (bits w 14 7) (bits w 7 7) (bits x 31 1) (bits x 30 1) (bits x 29 1) (bits x 28 1)) else none
  | 102 => if fix w 21 4 0 && fix x 0 12 0 then some (.rqgrad (bits w 14 7) (bits w 7 7) (bits w 0 7) (bits x 25 7) (bits x 18 7) (bits x 13 5) (bits x 12 1)) else none
  | 103 => if fix w 21 4 0 && fix x 0 20 0 then some (.rqtri (bits w 14 7) (bits w 7 7) (bits w 0 7) (bits x 25 7) (bits x 21 4) (bits x 20 1)) else none
  | 112 => if fix w 0 25 0 && fix x 0 10 0 then some (.spawn (bits x 27 5) (bits x 23 4) (bits x 11 12) (bits x 10 1)) else none
  | 113 => if fix w 0 25 0 && fix x 0 18 0 then some (.tqadd (bits x 27 5) (bits x 21 6) (bits x 20 1) (bits x 18 2)) else none
  | 125 => if fix w 21 3 0 && fix w 14 7 0 && fix w 24 1 0 && fix x 0 14 0 then some (.cpxLaunch (bits w 7 7) (bits w 0 7) (bits x 20 12) (bits x 16 4) (bits x 15 1) (bits x 14 1)) else if fix w 21 3 1 && fix w 0 7 0 && fix w 24 1 0 && fix x 0 19 0 then some (.cpxSemwait (bits w 14 7) (bits w 7 7) (bits x 20 12) (bits x 19 1)) else if fix w 21 3 2 && fix w 0 7 0 && fix w 14 7 0 && fix w 24 1 0 && fix x 0 20 0 then some (.cpxSemsig (bits w 7 7) (bits x 20 12)) else if fix w 21 3 3 && fix w 0 7 0 && fix w 24 1 0 && fix x 0 20 0 then some (.cpxSemadd (bits w 14 7) (bits w 7 7) (bits x 20 12)) else if fix w 21 3 4 && fix w 24 1 0 && fix x 0 11 0 then some (.cpxCcopy (bits w 14 7) (bits w 7 7) (bits w 0 7) (bits x 20 12) (bits x 19 1) (bits x 18 1) (bits x 11 7)) else if fix w 21 3 5 && fix w 0 21 0 && fix w 24 1 0 && fix x 0 21 0 then some (.cpxIrq (bits x 21 11)) else if fix w 21 3 6 && fix w 0 21 0 && fix w 24 1 0 && fix x 0 32 0 then some (.cpxChalt) else none
  | _ => none

/-- A LIT with high part `h` and the word that follows it (R116). -/
def decodeLit (h : BitVec 25) (w : Nat) : Option Instr :=
  match opcOf w with
  | 6 => some (.addi (bits w 18 7) (bits w 11 7) (bits w 0 11) (some h))
  | 13 => some (.andi (bits w 18 7) (bits w 11 7) (bits w 0 11) (some h))
  | 14 => some (.ori (bits w 18 7) (bits w 11 7) (bits w 0 11) (some h))
  | 15 => some (.xori (bits w 18 7) (bits w 11 7) (bits w 0 11) (some h))
  | 25 => some (.cmpi (bits w 21 4) (bits w 17 4) (bits w 10 7) (bits w 0 10) (some h))
  | 28 => if fix w 13 5 0 then some (.movi (bits w 18 7) (bits w 12 1) (bits w 11 1) (bits w 0 11) (some h)) else none
  | _ => none

/-- Keeps an instruction whose field values the spec does not reserve. -/
def keepWf (n : Nat) : Option Instr → Except DecodeError (Instr × Nat)
  | none => .error .reservedField
  | some i => if i.wf then .ok (i, n) else .error .reservedField

/-- The instruction at the head of a list of words, and the number of words it takes (R111 to R119). -/
def decode : List Word → Except DecodeError (Instr × Nat)
  | [] => .error .illegalOpcode
  | w :: rest =>
    let o := opcOf w.toNat
    if o == 0 || o == 1 || o == 119 || o == 127 then .error .illegalOpcode
    else if o == 2 then
      match rest with
      | [] => .error .illegalOpcode
      | x :: _ => keepWf 2 (decodeLit (bits w.toNat 0 25) x.toNat)
    else if isDouble o then
      match rest with
      | [] => .error .illegalOpcode
      | x :: _ => keepWf 2 (decodeTwo w.toNat x.toNat)
    else keepWf 1 (decodeOne w.toNat)

/-- The little-endian words of a byte string (R5); a tail of fewer than four bytes is dropped. -/
def wordsOfBytes : List Byte → List Word
  | a :: b :: c :: d :: rest => (d ++ c ++ b ++ a : BitVec 32) :: wordsOfBytes rest
  | _ => []

/-- The bytes of a word, least significant first (R5). -/
def bytesOfWord (w : Word) : List Byte :=
  [w.extractLsb' 0 8, w.extractLsb' 8 8, w.extractLsb' 16 8, w.extractLsb' 24 8]

/-- The instruction at the head of a byte string, as memory holds it. -/
def decodeBytes (b : List Byte) : Except DecodeError (Instr × Nat) := decode (wordsOfBytes b)

/-- A field's contribution to a word, from bit `lo` up. -/
def at_ {n : Nat} (f : BitVec n) (lo : Nat) : Nat := f.toNat * 2 ^ lo

/-- The sum of the contributions to a word. -/
def total : List Nat → Nat
  | [] => 0
  | x :: r => x + total r

/-- A word with opcode `opc` and the listed fields. -/
def encWord (opc : Nat) (r : List Nat) : Word := BitVec.ofNat 32 (opc * 2 ^ 25 + total r)

/-- An extension word with the listed fields. -/
def encExt (r : List Nat) : Word := BitVec.ofNat 32 (total r)

/-- The LIT word that precedes a long immediate (R116). -/
def encLit : Option (BitVec 25) → List Word
  | none => []
  | some h => [encWord 2 [at_ h 0]]

/-- The words of an instruction, from the encoding tables of R111 to R117; an event has none. -/
def encode : Instr → List Word
  | .nop => [encWord 3 []]
  | .add f d a b => [encWord 4 [at_ f 21, at_ d 14, at_ a 7, at_ b 0]]
  | .sub f d a b => [encWord 5 [at_ f 21, at_ d 14, at_ a 7, at_ b 0]]
  | .addi d a i hi => encLit hi ++ [encWord 6 [at_ d 18, at_ a 11, at_ i 0]]
  | .mul f d a b => [encWord 7 [at_ f 21, at_ d 14, at_ a 7, at_ b 0]]
  | .mulh f d a b => [encWord 8 [at_ f 21, at_ d 14, at_ a 7, at_ b 0]]
  | .mad f d a b => [encWord 9 [at_ f 21, at_ d 14, at_ a 7, at_ b 0]]
  | .and f d a b => [encWord 10 [at_ f 21, at_ d 14, at_ a 7, at_ b 0]]
  | .or f d a b => [encWord 11 [at_ f 21, at_ d 14, at_ a 7, at_ b 0]]
  | .xor f d a b => [encWord 12 [at_ f 21, at_ d 14, at_ a 7, at_ b 0]]
  | .andi d a i hi => encLit hi ++ [encWord 13 [at_ d 18, at_ a 11, at_ i 0]]
  | .ori d a i hi => encLit hi ++ [encWord 14 [at_ d 18, at_ a 11, at_ i 0]]
  | .xori d a i hi => encLit hi ++ [encWord 15 [at_ d 18, at_ a 11, at_ i 0]]
  | .shl f d a b => [encWord 16 [at_ f 21, at_ d 14, at_ a 7, at_ b 0]]
  | .shr f d a b => [encWord 17 [at_ f 21, at_ d 14, at_ a 7, at_ b 0]]
  | .sar f d a b => [encWord 18 [at_ f 21, at_ d 14, at_ a 7, at_ b 0]]
  | .rot f d a b => [encWord 19 [at_ f 21, at_ d 14, at_ a 7, at_ b 0]]
  | .bfx f d a b => [encWord 20 [at_ f 21, at_ d 14, at_ a 7, at_ b 0]]
  | .bfi f d a b => [encWord 21 [at_ f 22, at_ d 14, at_ a 7, at_ b 0]]
  | .bitc f w d a => [encWord 22 [at_ f 23, at_ w 22, at_ d 14, at_ a 7]]
  | .min u w s d a b => [encWord 23 [at_ u 24, at_ w 22, at_ s 21, at_ d 14, at_ a 7, at_ b 0]]
  | .max u w s d a b => [encWord 23 [at_ u 24, at_ w 22, at_ s 21, at_ d 14, at_ a 7, at_ b 0, 8388608]]
  | .cmp c v w p a b => [encWord 24 [at_ c 21, at_ v 19, at_ w 18, at_ p 14, at_ a 7, at_ b 0]]
  | .cmpi c p a i hi => encLit hi ++ [encWord 25 [at_ c 21, at_ p 17, at_ a 10, at_ i 0]]
  | .sel p d a b => [encWord 26 [at_ p 21, at_ d 14, at_ a 7, at_ b 0]]
  | .mov f d a => [encWord 27 [at_ f 21, at_ d 14, at_ a 7]]
  | .movi d u w i hi => encLit hi ++ [encWord 28 [at_ d 18, at_ u 12, at_ w 11, at_ i 0]]
  | .div f d a b => [encWord 29 [at_ f 21, at_ d 14, at_ a 7, at_ b 0]]
  | .rem f d a b => [encWord 30 [at_ f 21, at_ d 14, at_ a 7, at_ b 0]]
  | .lea n s d a g => [encWord 31 [at_ n 23, at_ s 21, at_ d 14, at_ a 7, at_ g 0]]
  | .leaLs s d a => [encWord 31 [at_ s 21, at_ d 14, at_ a 7, 16777216]]
  | .plog t d a b => [encWord 32 [at_ t 21, at_ d 14, at_ a 7, at_ b 0]]
  | .br n p o => [encWord 33 [at_ n 24, at_ p 20, at_ o 0]]
  | .bri n p a => [encWord 34 [at_ n 21, at_ p 14, at_ a 7]]
  | .call n p o => [encWord 35 [at_ n 24, at_ p 20, at_ o 0]]
  | .calli n p a => [encWord 36 [at_ n 21, at_ p 14, at_ a 7]]
  | .ret n p => [encWord 37 [at_ n 21, at_ p 14]]
  | .exit n p => [encWord 38 [at_ n 21, at_ p 14]]
  | .yield n p => [encWord 39 [at_ n 21, at_ p 14]]
  | .winb r i => [encWord 40 [at_ r 11, at_ i 0]]
  | .lshuf f w x d a b => [encWord 41 [at_ f 23, at_ w 22, at_ x 21, at_ d 14, at_ a 7, at_ b 0]]
  | .lpush p d a b => [encWord 42 [at_ p 21, at_ d 14, at_ a 7, at_ b 0]]
  | .lrot f w d a b => [encWord 43 [at_ f 23, at_ w 22, at_ d 14, at_ a 7, at_ b 0]]
  | .lred f d a => [encWord 44 [at_ f 21, at_ d 14, at_ a 7]]
  | .lscan e f d a => [encWord 45 [at_ e 24, at_ f 21, at_ d 14, at_ a 7]]
  | .vote w f d a => [encWord 46 [at_ w 24, at_ f 21, at_ d 14, at_ a 7]]
  | .lmatch w d a => [encWord 47 [at_ w 22, at_ d 14, at_ a 7]]
  | .fadd r t d a b => [encWord 48 [at_ r 23, at_ t 21, at_ d 14, at_ a 7, at_ b 0]]
  | .fsub r t d a b => [encWord 49 [at_ r 23, at_ t 21, at_ d 14, at_ a 7, at_ b 0]]
  | .fmul r t d a b => [encWord 50 [at_ r 23, at_ t 21, at_ d 14, at_ a 7, at_ b 0]]
  | .ffma r t d a b => [encWord 51 [at_ r 23, at_ t 21, at_ d 14, at_ a 7, at_ b 0]]
  | .ffmat c y d a b => [encWord 52 [at_ c 22, at_ y 21, at_ d 14, at_ a 7, at_ b 0]]
  | .fmin t d a b => [encWord 53 [at_ t 21, at_ d 14, at_ a 7, at_ b 0]]
  | .fmax t d a b => [encWord 53 [at_ t 21, at_ d 14, at_ a 7, at_ b 0, 8388608]]
  | .fcmp c t p a b => [encWord 54 [at_ c 21, at_ t 18, at_ p 14, at_ a 7, at_ b 0]]
  | .fcvt d a b dt st rnd seed => [encWord 55 [at_ d 14, at_ a 7, at_ b 0], encExt [at_ dt 28, at_ st 24, at_ rnd 21, at_ seed 15]]
  | .frnd r t d a => [encWord 56 [at_ r 23, at_ t 21, at_ d 14, at_ a 7]]
  | .fdiv r t d a b => [encWord 57 [at_ r 23, at_ t 21, at_ d 14, at_ a 7, at_ b 0]]
  | .fsqrt r t d a => [encWord 58 [at_ r 23, at_ t 21, at_ d 14, at_ a 7]]
  | .fsfu f d a => [encWord 59 [at_ f 21, at_ d 14, at_ a 7]]
  | .fsgn o t d a b => [encWord 60 [at_ o 23, at_ t 21, at_ d 14, at_ a 7, at_ b 0]]
  | .fclass t d a => [encWord 61 [at_ t 21, at_ d 14, at_ a 7]]
  | .lut t d a => [encWord 62 [at_ t 21, at_ d 14, at_ a 7]]
  | .lutld t d g => [encWord 63 [at_ t 21, at_ d 14], encExt [at_ g 27]]
  | .ld s d g o => [encWord 64 [at_ s 21, at_ d 14, at_ g 9, at_ o 0]]
  | .st s d g o => [encWord 65 [at_ s 21, at_ d 14, at_ g 9, at_ o 0]]
  | .lds o z d g s => [encWord 66 [at_ o 23, at_ z 21, at_ d 14, at_ g 9, at_ s 6]]
  | .sts o z d g s => [encWord 67 [at_ o 23, at_ z 21, at_ d 14, at_ g 9, at_ s 6]]
  | .ldx s d g i c => [encWord 68 [at_ s 21, at_ d 14, at_ g 9, at_ i 2, at_ c 0]]
  | .stx s d g i c => [encWord 69 [at_ s 21, at_ d 14, at_ g 9, at_ i 2, at_ c 0]]
  | .atom f d a g o sc ty => [encWord 70 [at_ f 21, at_ d 14, at_ a 7], encExt [at_ g 27, at_ o 25, at_ sc 22, at_ ty 20]]
  | .acas d a b g o sc ty p => [encWord 71 [at_ d 14, at_ a 7, at_ b 0], encExt [at_ g 27, at_ o 25, at_ sc 22, at_ ty 20, at_ p 15]]
  | .fatom f d a g o sc ty => [encWord 72 [at_ f 21, at_ d 14, at_ a 7], encExt [at_ g 27, at_ o 25, at_ sc 22, at_ ty 20]]
  | .gadd a g o sc ty => [encWord 73 [at_ a 7], encExt [at_ g 27, at_ o 25, at_ sc 22, at_ ty 21]]
  | .phase s => [encWord 74 [at_ s 14]]
  | .phasePub s => [encWord 74 [at_ s 14, 2097152]]
  | .phaseAcq s => [encWord 74 [at_ s 14, 4194304]]
  | .fencesc => [encWord 75 []]
  | .gset u g a b perm kind => [encWord 76 [at_ u 24, at_ g 14, at_ a 7, at_ b 0], encExt [at_ perm 28, at_ kind 26]]
  | .gadv g a w s => [encWord 77 [at_ g 14, at_ a 7, at_ w 2, at_ s 0]]
  | .gget d g f => [encWord 77 [at_ d 14, at_ g 7, at_ f 0, 2097152]]
  | .gptr g a => [encWord 77 [at_ g 14, at_ a 7, 4194304]]
  | .barSync s i => [encWord 78 [at_ s 23, at_ i 14]]
  | .barArrive s i => [encWord 78 [at_ s 23, at_ i 14, 2097152]]
  | .barWait s i => [encWord 78 [at_ s 23, at_ i 14, 4194304]]
  | .slwait d g => [encWord 79 [at_ d 14, at_ g 7]]
  | .slrel g b => [encWord 79 [at_ g 7, at_ b 0, 2097152]]
  | .slfree d g => [encWord 79 [at_ d 14, at_ g 7, 4194304]]
  | .slcommit g b => [encWord 79 [at_ g 7, at_ b 0, 6291456]]
  | .mmq k acc s ga gb wsa wsb => [encWord 80 [at_ k 21, at_ acc 14, at_ s 18, at_ ga 7, at_ gb 0], encExt [at_ wsa 26, at_ wsb 20]]
  | .accz m acc anchor => [encWord 81 [at_ m 21, at_ acc 14], encExt [at_ anchor 16]]
  | .accdr f acc td a rg res rnd scl drop wu => [encWord 82 [at_ f 21, at_ acc 14, at_ td 18, at_ a 7, at_ rg 0, at_ res 5], encExt [at_ rnd 29, at_ scl 28, at_ drop 27, at_ wu 21]]
  | .accsvSave acc g => [encWord 83 [at_ acc 14], encExt [at_ g 27]]
  | .accsvLoad acc g => [encWord 83 [at_ acc 14, 2097152], encExt [at_ g 27]]
  | .tld t g ws => [encWord 84 [at_ t 14], encExt [at_ g 27, at_ ws 21]]
  | .tst t g ws => [encWord 85 [at_ t 14], encExt [at_ g 27, at_ ws 21]]
  | .accrd f d a c => [encWord 86 [at_ f 21, at_ d 14, at_ a 7, at_ c 0]]
  | .binctlDecl id g => [encWord 87 [], encExt [at_ id 21, at_ g 27]]
  | .binctlFin id a b => [encWord 87 [at_ a 7, at_ b 0, 2097152], encExt [at_ id 21]]
  | .binctlFinclr id a b => [encWord 87 [at_ a 7, at_ b 0, 4194304], encExt [at_ id 21]]
  | .binctlFree id => [encWord 87 [6291456], encExt [at_ id 21]]
  | .rast sc d wv wt p si => [encWord 88 [at_ sc 21, at_ d 14], encExt [at_ wv 26, at_ wt 20, at_ p 16, at_ si 9]]
  | .rastg sc g a b wv p si => [encWord 89 [at_ sc 21, at_ g 14, at_ a 7, at_ b 0], encExt [at_ wv 26, at_ p 16, at_ si 9]]
  | .edgs d wv wt p wk => [encWord 90 [at_ d 14], encExt [at_ wv 26, at_ wt 20, at_ p 16, at_ wk 10]]
  | .tex lz d a b => [encWord 91 [at_ lz 21, at_ d 14, at_ a 7, at_ b 0], encExt []]
  | .texg lz ch d a b => [encWord 92 [at_ lz 21, at_ ch 22, at_ d 14, at_ a 7, at_ b 0], encExt []]
  | .texl d a b => [encWord 93 [at_ d 14, at_ a 7, at_ b 0], encExt []]
  | .texb lz d a b gr => [encWord 94 [at_ lz 21, at_ d 14, at_ a 7, at_ b 0], encExt [at_ gr 25]]
  | .rrecDim d a b => [encWord 95 [at_ d 14, at_ a 7, at_ b 0]]
  | .rrecFmt d b => [encWord 95 [at_ d 14, at_ b 0, 2097152]]
  | .rrecInv => [encWord 95 [4194304]]
  | .rqinit q d a log fp opq fht => [encWord 96 [at_ q 21, at_ d 14, at_ a 7], encExt [at_ log 31, at_ fp 30, at_ opq 29, at_ fht 28]]
  | .rqproc q d a => [encWord 97 [at_ q 21, at_ d 14, at_ a 7]]
  | .rqcand f q d a => [encWord 98 [at_ f 22, at_ q 21, at_ d 14, at_ a 7]]
  | .rqcommit q a b => [encWord 99 [at_ q 21, at_ a 7, at_ b 0]]
  | .rqabort q => [encWord 100 [at_ q 21]]
  | .rqres f q d a => [encWord 101 [at_ f 22, at_ q 21, at_ d 14, at_ a 7]]
  | .rqgrad d a b ir gu g k => [encWord 102 [at_ d 14, at_ a 7, at_ b 0], encExt [at_ ir 25, at_ gu 18, at_ g 13, at_ k 12]]
  | .rqtri d a b ir p k => [encWord 103 [at_ d 14, at_ a 7, at_ b 0], encExt [at_ ir 25, at_ p 21, at_ k 20]]
  | .trec n k a => [encWord 104 [at_ n 21, at_ k 14, at_ a 7]]
  | .tpop d a => [encWord 105 [at_ d 14, at_ a 7]]
  | .tmarkOpen a b => [encWord 106 [at_ a 7, at_ b 0]]
  | .tmarkClose => [encWord 106 [2097152]]
  | .tctlBind g => [encWord 107 [at_ g 7]]
  | .tctlStat d => [encWord 107 [at_ d 14, 2097152]]
  | .tctlSeek a => [encWord 107 [at_ a 7, 4194304]]
  | .tctlSync => [encWord 107 [6291456]]
  | .rsvupd q a b => [encWord 108 [at_ q 14, at_ a 7, at_ b 0]]
  | .rsvmrg s d a b => [encWord 109 [at_ s 17, at_ d 14, at_ a 7, at_ b 0]]
  | .rsvinit q => [encWord 110 [at_ q 14]]
  | .rsvfin d q => [encWord 110 [at_ d 14, at_ q 7, 2097152]]
  | .rsvget d q b => [encWord 110 [at_ d 14, at_ q 7, at_ b 0, 4194304]]
  | .rsvset q a b => [encWord 110 [at_ q 14, at_ a 7, at_ b 0, 6291456]]
  | .clove u k d a b => [encWord 111 [at_ u 22, at_ k 21, at_ d 14, at_ a 7, at_ b 0]]
  | .spawn g dm ctr sig => [encWord 112 [], encExt [at_ g 27, at_ dm 23, at_ ctr 11, at_ sig 10]]
  | .tqadd g q xd die => [encWord 113 [], encExt [at_ g 27, at_ q 21, at_ xd 20, at_ die 18]]
  | .tqget d q => [encWord 114 [at_ d 14, at_ q 7]]
  | .depopSet d a b => [encWord 115 [at_ d 14, at_ a 7, at_ b 0]]
  | .depopAdd d a b => [encWord 115 [at_ d 14, at_ a 7, at_ b 0, 2097152]]
  | .depopGet d a => [encWord 115 [at_ d 14, at_ a 7, 4194304]]
  | .spush d g o => [encWord 116 [at_ d 14, at_ g 7, at_ o 0]]
  | .spop d g => [encWord 117 [at_ d 14, at_ g 7]]
  | .sctlClose o => [encWord 118 [at_ o 0]]
  | .sctlStat d o => [encWord 118 [at_ d 14, at_ o 0, 2097152]]
  | .sysr d c w s => [encWord 120 [at_ d 18, at_ c 12, at_ w 11, at_ s 0]]
  | .sysw c w a s => [encWord 121 [at_ c 19, at_ w 18, at_ a 11, at_ s 0]]
  | .trap i => [encWord 122 [at_ i 0]]
  | .icinv => [encWord 123 []]
  | .sleep v a i => [encWord 124 [at_ v 18, at_ a 11, at_ i 0]]
  | .fwret => [encWord 126 []]
  | .cpxLaunch a b sem dm sig add => [encWord 125 [at_ a 7, at_ b 0], encExt [at_ sem 20, at_ dm 16, at_ sig 15, at_ add 14]]
  | .cpxSemwait d a sem ne => [encWord 125 [at_ d 14, at_ a 7, 2097152], encExt [at_ sem 20, at_ ne 19]]
  | .cpxSemsig a sem => [encWord 125 [at_ a 7, 4194304], encExt [at_ sem 20]]
  | .cpxSemadd d a sem => [encWord 125 [at_ d 14, at_ a 7, 6291456], encExt [at_ sem 20]]
  | .cpxCcopy d a b sem sig add v => [encWord 125 [at_ d 14, at_ a 7, at_ b 0, 8388608], encExt [at_ sem 20, at_ sig 19, at_ add 18, at_ v 11]]
  | .cpxIrq vec => [encWord 125 [10485760], encExt [at_ vec 21]]
  | .cpxChalt => [encWord 125 [12582912], encExt []]
  | .powerOn _ => []
  | .bootStepWatchdog => []
  | .heartbeatTick => []
  | .sleepWake _ => []
  | .balancerInterval _ => []
  | .i3cRefresh _ _ _ _ _ _ => []
  | .pickerDecision _ => []
  | .runIssue _ => []
  | .resultLands _ => []
  | .teamPlace _ => []
  | .handoverComplete _ _ => []
  | .teamFinishComplete _ => []
  | .barrierRelease _ _ _ => []
  | .publicationComplete _ => []
  | .fencescComplete _ => []
  | .bankAluBinUpdate _ => []
  | .lutldLoadBegin _ _ => []
  | .lutldLoadComplete _ _ => []
  | .copyCmdIssue _ _ => []
  | .copyCmdComplete _ _ => []
  | .ccopyComplete _ => []
  | .tapeSyncComplete _ => []
  | .pipelineResident _ _ => []
  | .coreSave _ => []
  | .coreRestore _ => []
  | .torcStep _ _ => []
  | .torcChunkArrival _ _ _ _ _ _ => []
  | .torcAbortReceive _ _ _ _ => []
  | .collTimeout _ _ => []
  | .poolTimeout _ _ => []
  | .detCommit _ => []
  | .hostCxlMemAccess _ _ _ => []
  | .hostSnoop _ => []
  | .eccUncorrectable _ _ _ => []
  | .meshLinkError _ _ => []
  | .hostPortDown => []
  | .hostPortRetrained => []
  | .hostRetrainTimeout => []
  | .ualinkPortDown _ _ => []
  | .poolPortDown => []
  | .mailboxWatchdog => []
  | .overrunClear => []
  | .mailboxWrite _ _ => []
  | .ident => []
  | .resync => []
  | .ctxnew => []
  | .ctxdel => []
  | .resume => []
  | .ctxmapDieShared => []
  | .ctxmapQueueBind => []
  | .ctxmapCounters => []
  | .ctxmapSemGrant => []
  | .ctxmapInvalidate => []
  | .cmdstart => []
  | .cmdstop => []
  | .preempt => []
  | .poolcfg => []
  | .attest => []
  | .measureRead => []
  | .measureExtend => []
  | .fwlog => []
  | .degrade => []
  | .reset => []
  | .submit _ => []
  | .msixVectorUnmask _ => []

/-- The host's question about a table row: the instruction whose words hold `w`, first word in the low bits; the bits
above `nbits` are zero. -/
def decodeTableWord (nbits w : Nat) : Option Instr :=
  let v := w % 2 ^ nbits
  match decode [BitVec.ofNat 32 v, BitVec.ofNat 32 (v / 2 ^ 32)] with
  | .ok (i, _) => some i
  | .error _ => none

end Sys2Proof
end

