-- ==== Sys2Proof/Machine/Uses.lean ====
section
/-! DEFINITION. The hardware-tracked registers that a run uses (R59): for each instruction its uniform, predicate, address, tile
and reservoir operands, and whether a run may begin while writes to such registers are pending. -/

namespace Sys2Proof.Machine

/-- A uniform operand of `n` registers. -/
def Opd.uni (r n : Nat) : Opd := { cls := .uni, n := r, cnt := n }

/-- A tile operand. -/
def Opd.tileN (n : Nat) : Opd := { cls := .tile, n := n }

/-- A reservoir operand. -/
def Opd.resv (n : BitVec 3) : Opd := { cls := .rsv, n := n.toNat }

/-- The three operands of an RRR integer instruction, where they are uniform; `m` tells whether B is a pair with W (R131, R133). -/
def rrrUni (f : BitVec 4) (d a b : BitVec 7) (m : Bool := true) : List Opd :=
  let n := if f.getLsbD 1 then 2 else 1
  let nb := if m then n else 1
  if f.getLsbD 3 then [.uni d.toNat n, .uni a.toNat n, .uni b.toNat nb] else if f.getLsbD 2 then [.uni b.toNat nb] else []

/-- The vertex words that EDGS reads: x and y of each vertex (R217). -/
def edgeVerts (wv : Nat) : List Opd := [.usrc wv false 2, .usrc (wv + 4) false 2, .usrc (wv + 8) false 2]

/-- The tracked operands of MOV (R137). -/
def movUni (f d a : Nat) : List Opd :=
  if f = 1 then [.uni a 1] else if f = 2 then [.uni d 1] else if f = 3 then [.uni d 1, .uni a 1] else if f = 4 then [.psrc a]
  else if f = 5 then [.psrc d] else if f = 7 then [.uni d 2, .uni a 2] else []

/-- The hardware-tracked registers that an instruction reads or writes (R59); none for an instruction with vector operands
alone, and for the events. -/
def trackedOf : Instr → List Opd
  | .add f d a b | .sub f d a b | .mul f d a b | .mulh f d a b | .mad f d a b | .and f d a b | .or f d a b | .xor f d a b
  | .div f d a b | .rem f d a b => rrrUni f d a b
  | .shl f d a b | .shr f d a b | .sar f d a b | .rot f d a b | .bfx f d a b => rrrUni f d a b false
  | .bfi f d a b => rrrUni (f ++ (0 : BitVec 1)) d a b false
  | .min u w _ d a b | .max u w _ d a b => rrrUni (u ++ (0 : BitVec 1) ++ w ++ (0 : BitVec 1)) d a b
  | .movi d u w _ _ => if u = 1 then [.uni d.toNat (1 + w.toNat)] else []
  | .cmp _ v w p _ b => .psrc p.toNat :: (if v = 1 then [.uni b.toNat (1 + w.toNat)] else [])
  | .cmpi _ p _ _ _ => [.psrc p.toNat]
  | .sel p _ _ _ => [.psrc p.toNat]
  | .mov f d a => movUni f.toNat d.toNat a.toNat
  | .plog _ d a b => [.psrc d.toNat, .psrc a.toNat, .psrc b.toNat]
  | .lea _ _ _ _ g => [.g g]
  | .br _ p _ | .bri _ p _ | .call _ p _ | .calli _ p _ | .ret _ p | .exit _ p | .yield _ p => [.psrc p.toNat]
  | .lshuf f _ _ _ _ b => if f = 1 then [.uni b.toNat 1] else []
  | .lrot f _ _ _ b => if f = 1 then [.uni b.toNat 1] else []
  | .lpush p _ _ _ => [.psrc p.toNat]
  | .vote _ f d a => if f = 2 then [.psrc a.toNat] else if f = 3 then [.psrc d.toNat] else [.psrc d.toNat, .psrc a.toNat]
  | .fcmp _ _ p _ _ => [.psrc p.toNat]
  | .lutld _ _ g | .ld _ _ g _ | .st _ _ g _ | .lds _ _ _ g _ | .sts _ _ _ g _ | .ldx _ _ g _ _ | .stx _ _ g _ _
  | .atom _ _ _ g _ _ _ | .fatom _ _ _ g _ _ _ | .gadd _ g _ _ _ | .gadv g _ _ _ | .gget _ g _ | .gptr g _ | .slwait _ g
  | .slrel g _ | .slfree _ g | .slcommit g _ | .accsvSave _ g | .accsvLoad _ g | .binctlDecl _ g | .tctlBind g | .spawn g _ _ _
  | .tqadd g _ _ _ | .spush _ g _ | .spop _ g | .rqgrad _ _ _ _ _ g _ => [.g g]
  | .acas _ _ _ g _ _ _ p => [.g g, .psrc p.toNat]
  | .gset u g a b _ _ => .g g :: (if u = 1 then [.uni a.toNat 2, .uni b.toNat 2] else [])
  | .mmq _ _ _ ga gb wsa wsb => [.g ga, .g gb, .uni wsa.toNat 1, .uni wsb.toNat 1]
  | .accdr _ _ td a rg res _ _ _ wu =>
    [if td = 1 then .tileN a.toNat else .g a, .uni wu.toNat 9] ++ (if res = 1 then [.g rg] else [])
  | .tld t g ws | .tst t g ws => [.tileN t.toNat, .g g, .uni ws.toNat 1]
  | .rast _ _ wv wt p _ => [.uni wv.toNat 12, .uni wt.toNat 1, .psrc p.toNat]
  | .rastg _ g _ _ wv p _ => [.g g, .uni wv.toNat 12, .psrc p.toNat]
  | .edgs _ wv wt p wk => edgeVerts wv.toNat ++ [.uni wt.toNat 1, .psrc p.toNat, .uni wk.toNat 6]
  | .fcvt _ _ _ _ _ rnd seed => if rnd = 4 then [.uni seed.toNat 3] else []
  | .rqtri _ _ _ _ p _ => [.psrc p.toNat]
  | .rsvupd q _ b => [.resv q, .uni b.toNat 3]
  | .rsvmrg qs qd _ b => [.resv qs, .resv qd, .uni b.toNat 4]
  | .rsvinit q | .rsvfin _ q | .rsvget _ q _ | .rsvset q _ _ => [.resv q]
  | .clove _ vk _ _ b => if vk = 1 then [] else [.uni b.toNat 2]
  | .tqget d _ => [.uni d.toNat 8]
  | .sysr d c w _ => if c = 1 then [.uni d.toNat (1 + w.toNat)] else []
  | .sysw c w a _ => if c = 1 then [.uni a.toNat (1 + w.toNat)] else []
  | _ => []

/-- The instructions of a run's words, from a word on; a word that is none is passed over. -/
def instrsOf : Nat → List Word → List Instr
  | 0, _ => []
  | _, [] => []
  | n + 1, w :: r =>
    match decode (w :: r) with
    | .ok (i, k) => i :: instrsOf n ((w :: r).drop k)
    | .error _ => instrsOf n r

/-- Whether threads wait to begin a run: a hardware-tracked register that one of its instructions uses has a write pending
(R59). -/
def State.usesPending (s : State) (ks : List Nat) (ws : List Word) : Bool :=
  !s.pend.isEmpty && ((instrsOf 24 ws).flatMap trackedOf).any fun o =>
    ks.any fun k => (s.regsOf k o).any fun id => (s.pendingTo id).isSome

end Sys2Proof.Machine
end

