-- ==== Sys2Proof/Machine/Issue.lean ====
section
/-! DEFINITION. How words issue: barriers (R37 to R39), exits (R24), the picker (R32 to R34), the fetch and its checks
(R119, R372), the issue checks (R371), and the end of a run (R59, R141). -/

namespace Sys2Proof.Machine

-- Barriers. A barrier of a thread is named 16 * scope + id, scope 0 the group's and 1 the team's.

/-- Phases of a barrier released so far. -/
def State.released (s : State) (k b : Nat) : Nat :=
  if b < 16 then ((s.grp (s.thr k).grp).bars.get {} b).released else ((s.team (s.thr k).team).bars.get {} (b - 16)).released

/-- Whether a thread has arrived in the current phase. -/
def State.hasArrived (s : State) (k b : Nat) : Bool :=
  if b < 16 then ((s.grp (s.thr k).grp).bars.get {} b).arrived.getLsbD (s.thr k).idx else decide (s.released k b < (s.thr k).phases.get 0 b)

/-- Whose barrier is meant: a group, or a team. -/
structure BarOf where
  grp : Nat
  team : Nat
  deriving DecidableEq, Repr

/-- The group and team of a thread. -/
def State.barOwner (s : State) (k : Nat) : BarOf := { grp := (s.thr k).grp, team := (s.thr k).team }

/-- The threads of a barrier that have not exited; those of saved cores are not among them. -/
def State.members (s : State) (o : BarOf) (b : Nat) : List Nat :=
  let same := fun (t : Thread) => if b < 16 then t.grp == o.grp else t.team == o.team
  (s.threads.filter fun e => e.2.live && !isCmd e.1 && e.2.wait != .exited && same e.2).map (·.1)

/-- Whether every remaining thread has arrived in the current phase (R37). -/
def State.barFull (s : State) (o : BarOf) (b : Nat) : Bool :=
  if b < 16 then let ms := s.members o b; !ms.isEmpty && ms.all fun m => s.hasArrived m b
  else
    let t := s.team o.team
    let n := (t.bars.get {} (b - 16)).count
    decide (0 < n) && n + t.exited == t.nthreads

/-- Counts an arrival toward the current phase; it is a release at the barrier's scope (R38). -/
def State.arriveNow (s : State) (k b : Nat) : State :=
  let s := s.release k (b / 16)
  let s := s.updThr k fun t => { t with phases := t.phases.put 0 b (s.released k b + 1) }
  if b < 16 then
    s.updGrp (s.thr k).grp fun g => { g with bars := g.bars.upd {} b fun x => { x with arrived := x.arrived ||| (1#64 <<< (s.thr k).idx) } }
  else s.updTeam (s.thr k).team fun t => { t with bars := t.bars.upd {} (b - 16) fun x => { x with count := x.count + 1 } }

/-- Takes the first held arrival at a barrier off a thread's list. -/
def dropFirst (b : Nat) : List Nat → List Nat
  | [] => []
  | x :: r => if x = b then r else x :: dropFirst b r

/-- Barrier-wait is over when nothing is held any more and the phase of a wait has released (R38); the completion of a
wait is an acquire. -/
def State.tryWait (s : State) (k : Nat) : State :=
  if !(s.thr k).held.isEmpty then s
  else
    match (s.thr k).barWait with
    | none => if (s.thr k).atBar then s.updThr k fun t => { t with atBar := false } else s
    | some b =>
      if (s.thr k).phases.get 0 b ≤ s.released k b
      then (s.updThr k fun t => { t with barWait := none, atBar := false }).refresh k (b / 16) else s

/-- Ends the current phase of a barrier: nobody has arrived in the next one. -/
def State.nextPhase (s : State) (o : BarOf) (b : Nat) : State :=
  if b < 16 then s.updGrp o.grp fun g => { g with bars := g.bars.upd {} b fun x => { x with arrived := 0, released := x.released + 1 } }
  else
    s.updTeam o.team fun t =>
      { t with bars := t.bars.upd {} (b - 16) fun x => { x with count := 0, released := x.released + 1, releasing := false } }

/-- A held arrival of a thread counts once its phase is the current one. -/
def State.countHeld (s : State) (k b : Nat) : State :=
  if (s.thr k).held.contains b && !s.hasArrived k b then (s.arriveNow k b).updThr k fun t => { t with held := dropFirst b t.held } else s

/-- Whether a barrier's release takes 24 clk: a team on several cores (R39). -/
def State.slowBar (s : State) (o : BarOf) (b : Nat) : Bool := decide (16 ≤ b) && decide (1 < (s.team o.team).cores.length)

/-- Schedules the release of a multi-core team's phase. -/
def State.releaseLater (s : State) (o : BarOf) (b : Nat) : State :=
  (s.updTeam o.team fun t => { t with bars := t.bars.upd {} (b - 16) fun x => { x with releasing := true } }).scheduleAt
    (s.clk + 24) (.barrierRelease true o.team (b - 16))

/-- Releases a phase: held arrivals count toward the next one, which may release in turn, and waits end. -/
def State.releasePhase (s : State) (o : BarOf) (b : Nat) : Nat → State
  | 0 => s
  | n + 1 =>
    let s := s.nextPhase o b
    let ms := s.members o b
    let s := ms.foldl (fun s m => s.countHeld m b) s
    let s := ms.foldl State.tryWait s
    if !s.barFull o b then s else if s.slowBar o b then s.releaseLater o b else s.releasePhase o b n

/-- Held arrivals of a barrier's threads, and one more. -/
def State.heldFuel (s : State) (o : BarOf) (b : Nat) : Nat := 1 + ((s.members o b).map fun m => (s.thr m).held.length).sum

/-- Releases the phase when every remaining thread has arrived: at once, or 24 clk later for a team on several cores
(R37, R39). -/
def State.checkBarrier (s : State) (o : BarOf) (b : Nat) : State :=
  if !s.barFull o b then s
  else if s.slowBar o b then (if ((s.team o.team).bars.get {} (b - 16)).releasing then s else s.releaseLater o b)
  else s.releasePhase o b (s.heldFuel o b)

/-- A thread arrives at a barrier; a second arrival in a phase not yet released is held (R38). -/
def State.arrive (s : State) (k b : Nat) : State :=
  if s.hasArrived k b || (s.thr k).held.contains b then s.updThr k fun t => { t with held := t.held ++ [b] }
  else (s.arriveNow k b).checkBarrier (s.barOwner k) b

-- Exits.

/-- Takes an exiting thread out of the counts of its barriers (R37). -/
def State.leaveBarriers (s : State) (k : Nat) : State :=
  let t := s.thr k
  let here := fun (b : Nat) => s.hasArrived k (16 + b)
  let s := s.updGrp t.grp fun g =>
    { g with bars := (upto 0 16).foldl (fun bs b => bs.upd {} b fun x => { x with arrived := x.arrived &&& ~~~(1#64 <<< t.idx) }) g.bars }
  let s := s.updTeam t.team fun x =>
    { x with exited := x.exited + 1
             bars := (upto 0 16).foldl (fun bs b => if here b then bs.upd {} b fun y => { y with count := y.count - 1 } else bs) x.bars }
  s.updThr k fun t => { t with phases := [], held := [], barWait := none, atBar := false }

/-- Whether a result is still to land in a granule of 16 vector registers of a thread (R54). -/
def State.granulePending (s : State) (uid granule : Nat) : Bool :=
  s.pend.any fun p => p.uid == uid && p.writes.any fun w => match w with | .vreg _ n _ => n / 16 == granule | _ => false

/-- Whether a result is still to land in a tile register of a group, whose results bear the name of its first thread. -/
def State.tilePending (s : State) (uid tile : Nat) : Bool :=
  s.pend.any fun p => p.uid == uid && p.writes.any fun w => match w with | .tile _ row _ _ => row / 32 == tile | _ => false

/-- Granules and tile registers whose last pending write has landed are free from the next clk on (R54, R55). -/
def State.freeDrains (s : State) (core : Nat) : State :=
  let c := s.core core
  let ended := fun (d : Drain) => d.landed.isNone && !s.granulePending d.uid d.granule
  let endedT := fun (d : TileDrain) => d.landed.isNone && !s.tilePending d.uid d.tile
  if !(c.drains.any ended || c.tileDrains.any endedT) then s
  else
    State.pokePlace
      (s.setCore core
        { c with drains := (c.drains.filter fun d => s.draining d.landed).map fun d => if ended d then { d with landed := some s.clk } else d
                 tileDrains := (c.tileDrains.filter fun d => s.draining d.landed).map fun d =>
                   if endedT d then { d with landed := some s.clk } else d })
      (dieOfCore core)

/-- The granules of an exiting thread that drain: those with a pending write (R54). -/
def State.drainThread (s : State) (k : Nat) : State :=
  let t := s.thr k
  let gs := (upto 0 (t.alloc / 16)).filter (s.granulePending t.uid)
  if gs.isEmpty then s
  else s.updCore (coreOfThread k) fun c =>
    { c with drains := c.drains ++ gs.map fun g => { slot := slotOfThread k, lane := k % 64, uid := t.uid, granule := g } }

/-- The tile registers of a group that drain. -/
def State.drainTiles (s : State) (g : Nat) : State :=
  let uid := (s.thr g).uid
  let ts := (upto 0 (s.grp g).tiles).filter (s.tilePending uid)
  if ts.isEmpty then s
  else s.updCore (coreOfThread g) fun c => { c with tileDrains := c.tileDrains ++ ts.map fun t => { uid := uid, tile := t } }

/-- The kinds of storage that belong to a thread or a group. -/
def regKinds : List EccPlace := [.temp, .vreg, .pred, .rsv, .ptr, .ureg, .gfield, .tile]

/-- A group whose threads have all exited: its chunks finish, and its positions are free (R55, R270). -/
def State.dropGroup (s : State) (g : Nat) : State :=
  let w := (s.grp g).width
  let s := (s.finishAllChunks g).drainTiles g
  let s := (s.core (coreOfThread g)).loads.foldl (fun s l => s.poll (s.clk + 1) (.lutldLoadBegin (coreOfThread g) l.t)) s
  let mine := fun (k : Nat) => decide (g ≤ k) && decide (k < g + w)
  { s with groups := s.groups.del g, threads := s.threads.keep fun k => !(mine k)
           poisonReg := s.poisonReg.filter fun p => !(regKinds.contains p.1 && mine p.2.1) }

/-- Whether a thread's deterministic grid has failed already. -/
def State.gridFailed (s : State) (k : Nat) : Bool := match (s.grid (s.team (s.thr k).team).grid).det with | some d => d.failed | none => false

/-- A thread executes EXIT (R24, R37, R54, R259, R270). EXIT has found room for its tape's sync in its task's window; where another issue
set has taken that room since, the sync exceeds it, with one record for the grid (R310, R420). -/
def State.exitThread (s : State) (k : Nat) : State :=
  let t := s.thr k
  let s := s.tapeSync k
  let s := if s.overCharge k && !s.gridFailed k then (s.logRecord (s.recordOf { code := 0x22 } t.pc 0 [k])).failGrid (s.team t.team).grid else s
  let s := (s.leaveBarriers k).updThr k fun x => { x with wait := .exited }
  let s := (upto 0 32).foldl (fun s b => s.checkBarrier (s.barOwner k) b) s
  let s := t.fids.foldl State.rejoin (s.drainThread k)
  let w := (s.grp t.grp).width
  let s := if (upto t.grp w).all fun m => (s.thr m).wait == .exited || !(s.thr m).live then s.dropGroup t.grp else s
  let x := s.team t.team
  if x.exited = x.nthreads then
    let s := x.cores.foldl State.beginPublication ((s.freeTag t.team).updTeam t.team fun x => { x with phase := .finishing, tag := none })
    s.later (.teamFinishComplete t.team)
  else s.pokePlace (dieOfThread k)

/-- A command context ends in a state (R284, R294). -/
def State.endCommand (s : State) (k : Nat) (st : CmdState) : State :=
  (((s.updCmd (k - cmdBase) fun c => { c with st := st, faultDue := false }).updThr k fun t => { t with wait := .stopped })).stopDone k

-- The picker.

/-- Whether a thread is a candidate in the sense of R29, apart from turns and yields. -/
def State.isReady (s : State) (k : Nat) : Bool :=
  let t := s.thr k
  t.live && t.wait == .ready && !t.atBar
    && (isCmd k || ((s.team t.team).phase == .resident && !(s.core (coreOfThread k)).saving && !(s.core (coreOfThread k)).restoring))

/-- A group's place in the turns of its task (R313). -/
def State.turnRank (s : State) (c g : Nat) : Nat := ((s.team (s.grp g).team).x % c) * 1024 + (s.grp g).gidx

/-- The groups of the task that executes by turns, in the order of their turns from a rank on (R313): in a RECORD run, and
in a task executed again (R421). It is the first task not yet committed. -/
def State.turnOrder (s : State) (g start : Nat) : List Nat :=
  let p := (s.grid g).det.map (·.committed)
  let gs := (s.groups.filter fun e => e.2.live && (s.team e.2.team).grid == g && (s.team e.2.team).task == p).map (·.1)
  let rank := s.turnRank (s.grid g).desc.det
  let sorted := sortNat (gs.map fun k => rank k * 2 ^ 32 + k)
  ((sorted.filter fun e => decide (start ≤ e / 2 ^ 32)) ++ sorted.filter fun e => decide (e / 2 ^ 32 < start)).map (· % 2 ^ 32)

/-- The group that holds the turn of a RECORD run (R313). -/
def State.turnOf (s : State) (g : Nat) : Option Nat :=
  match (s.grid g).det with
  | none => none
  | some d => firstThat (fun k => some (s.turnRank (s.grid g).desc.det k) == d.turn) (s.turnOrder g 0)

/-- Whether a thread's task executes by turns. -/
def State.byTurns (s : State) (k : Nat) : Bool :=
  if isCmd k then false
  else
    let t := s.team (s.thr k).team
    match (s.grid t.grid).det, t.task with
    | some d, some p => !d.replay || (match s.detTask t.grid p with | some x => x.retry | none => false)
    | _, _ => false

/-- Whether the turn of R313 lets a thread be a candidate. -/
def State.hasTurn (s : State) (k : Nat) : Bool :=
  !s.byTurns k || s.turnOf (s.team (s.thr k).team).grid == some (s.thr k).grp

/-- Whether YIELD excludes a Ready thread from the next decision of its slot (R31): another Ready thread there has not
yielded (one of another grid that waits for its own turn does not count). Of two or more Ready threads that have all yielded R31
does not say which are candidates: all are (DESIGN CHOICE, log entry 116). -/
def State.yieldsTo (s : State) (k : Nat) : Bool :=
  (s.thr k).yielded && s.threads.any fun e => issuerOfThread e.1 == issuerOfThread k && !e.2.yielded && s.isReady e.1
    && (s.hasTurn e.1 || (s.team e.2.team).grid == (s.team (s.thr k).team).grid)

/-- Whether a group holds a candidate (R313). -/
def State.holdsCandidate (s : State) (g : Nat) : Bool := (upto g (s.grp g).width).any fun m => s.isReady m && !s.yieldsTo m

/-- Whether a thread is in an issue set that its slot has chosen and not begun. -/
def State.isChosen (s : State) (k : Nat) : Bool :=
  match (s.slot (issuerOfThread k)).phase with
  | .chosen _ _ ks _ => ks.contains k
  | _ => false

/-- Whether a thread of a group is issued, or chosen to be. -/
def State.groupIssued (s : State) (g : Nat) : Bool :=
  (upto g (s.grp g).width).any fun m => (s.thr m).live && ((s.thr m).wait == .issued || (s.isReady m && s.isChosen m))

/-- Whether part of the task that executes by turns is saved, being saved or being restored: its turn is kept (R315). -/
def State.turnKept (s : State) (g : Nat) : Bool :=
  let p := (s.grid g).det.map (·.committed)
  s.teams.any fun e => e.2.live && e.2.grid == g && e.2.task == p
    && (!e.2.away.isEmpty || e.2.cores.any fun c => (s.core c).saving || (s.core c).restoring)

/-- The turn of a grid's task passes when no thread of the group that holds it is a candidate or issued (R313): to the next group
in cyclic order that holds a candidate, and else it stays until a thread becomes Ready. -/
def State.passTurn (s : State) (g : Nat) : State :=
  match (s.grid g).det with
  | none => s
  | some d =>
    let order := s.turnOrder g (d.turn.getD 0)
    let rank := fun (k : Nat) => s.turnRank (s.grid g).desc.det k
    let holds := match order with | k :: _ => some (rank k) == d.turn && (s.groupIssued k || s.holdsCandidate k) | [] => false
    if holds || s.turnKept g then s
    else
      match firstThat s.holdsCandidate order with
      | some k => s.updGrid g fun x => { x with det := x.det.map fun d => { d with turn := some (rank k) } }
      | none => s

/-- The turns of every grid whose task executes by turns pass where they must; done after each step. -/
def State.passTurns (s : State) : State :=
  (s.grids.filter fun e => match e.2.det with
    | some d => !d.replay || d.tasks.any fun t => t.p == d.committed && t.retry
    | none => false).foldl (fun s e => s.passTurn e.1) s

/-- The Ready threads of an issuer, in ascending key order. -/
def State.readyOf (s : State) (iss : Nat) : List Nat :=
  (s.threads.filter fun e => issuerOfThread e.1 == iss && s.isReady e.1 && s.hasTurn e.1).map (·.1)

/-- The candidates of a decision: Ready threads, less those excluded by YIELD (R31, R32). -/
def State.candidates (s : State) (iss : Nat) : List Nat := (s.readyOf iss).filter fun k => !s.yieldsTo k

/-- A word of code as its home holds it: the peek of the picker at a run header. R32 does not say whether the rejoin flag is read
there or in a copy that the core holds (DESIGN CHOICE, log entry 117). -/
def State.peekCode (s : State) (k : Nat) (pc : DWord) : Word :=
  match s.translateFor k (s.ctxOf k) pc.toNat { x := true } with
  | .ok e => BitVec.ofNat 32 (leNat ((upto (e.pa + (pc.toNat - e.va)) 4).map s.realHome))
  | .error _ => 0

/-- The candidates at a PC in a quarter (eight lanes, R9) and layer. -/
def inCell (s : State) (cand : List Nat) (pc : DWord) (quarter layer : Nat) : List Nat :=
  cand.filter fun k => (s.thr k).pc == pc && k % 64 / 8 == quarter && layerOfThread k == layer

/-- The layer with the most threads; the lowest on a tie. -/
def fullestLayer (s : State) (cand : List Nat) (pc : DWord) (quarter : Nat) : Nat :=
  (upto 0 8).foldl (fun b l => if (inCell s cand pc quarter b).length < (inCell s cand pc quarter l).length then l else b) 0

/-- pop(x) of R32. -/
def population (s : State) (cand : List Nat) (pc : DWord) : Nat :=
  ((upto 0 8).map fun q => (inCell s cand pc q (fullestLayer s cand pc q)).length).sum

/-- The PCs of candidates, each once. -/
def pcsOf (s : State) (cand : List Nat) : List Nat := dedup (cand.map fun k => (s.thr k).pc.toNat)

/-- The choice of a PC, and whether it is forced (R33). -/
def State.choosePc (s : State) (cand : List Nat) : DWord × Bool :=
  let aged := cand.filter fun k => decide (64 ≤ (s.thr k).age)
  let low := fun (l : List Nat) => l.foldl Nat.min (l.headD 0)
  if aged.isEmpty then
    let pcs := pcsOf s cand
    let lowest := low pcs
    let isRejoin := fun (p : Nat) => match firstThat (fun k => (s.thr k).pc.toNat == p) cand with
      | some k => bit (s.peekCode k (BitVec.ofNat 64 p)).toNat 19
      | none => false
    let elig := pcs.filter fun p => p == lowest || !isRejoin p
    let best := elig.foldl (fun b p =>
      let pb := population s cand (BitVec.ofNat 64 b)
      let pp := population s cand (BitVec.ofNat 64 p)
      if pb < pp ∨ (pb = pp ∧ p < b) then p else b) (elig.headD 0)
    (BitVec.ofNat 64 best, false)
  else
    let e := aged.foldl (fun m k => Nat.max m (s.thr k).age) 0
    (BitVec.ofNat 64 (low ((aged.filter fun k => (s.thr k).age == e).map fun k => (s.thr k).pc.toNat)), true)

/-- The issue set of a decision (R33). -/
def State.issueSet (s : State) (cand : List Nat) (pc : DWord) (forced : Bool) : List Nat :=
  (upto 0 8).flatMap fun q =>
    let old := (cand.filter fun k => (s.thr k).pc == pc && k % 64 / 8 == q && decide (64 ≤ (s.thr k).age))
    let ly :=
      if forced && !old.isEmpty then
        let e := old.foldl (fun m k => Nat.max m (s.thr k).age) 0
        let ls := (old.filter fun k => (s.thr k).age == e).map layerOfThread
        ls.foldl Nat.min (ls.headD 0)
      else fullestLayer s cand pc q
    inCell s cand pc q ly

/-- The context a command core takes next (R284). -/
def nextContext (last : Nat) (cand : List Nat) : List Nat :=
  let above := cand.filter fun k => decide (cmdBase + last ≤ k)
  match above, cand with
  | k :: _, _ => [k]
  | [], k :: _ => [k]
  | [], [] => []

/-- A picker decides (R33): an issue set that resumes after a fault goes first (R42). -/
def State.pick (s : State) (iss : Nat) : State :=
  let sl := s.slot iss
  match sl.phase with
  | .idle =>
    match sl.resume with
    | (pc, pos, ks) :: r => s.setSlot iss { sl with resume := r, phase := .chosen pc pos ks [] }
    | [] =>
      let cand := s.candidates iss
      if cand.isEmpty then s
      else if cmdIssuer ≤ iss then
        let ks := nextContext (if sl.last = 0 then 16 * (iss - cmdIssuer) + 16 else sl.last) cand
        s.setSlot iss { sl with phase := .chosen (s.thr (ks.headD 0)).pc 0 ks cand }
      else
        let (pc, forced) := s.choosePc cand
        s.setSlot iss { sl with phase := .chosen pc 0 (s.issueSet cand pc forced) cand }
  | _ => s

/-- Threads leave whatever their slot is doing, and their waits. -/
def State.detach (s : State) (ks : List Nat) : State :=
  let stay := fun (l : List Nat) => l.filter fun k => !(ks.contains k)
  let s := { s with waiters := stay s.waiters }
  (dedup (ks.map issuerOfThread)).foldl (fun s i =>
    s.updSlot i fun sl =>
      let sl := { sl with resume := (sl.resume.map fun (r : DWord × Nat × List Nat) => (r.1, r.2.1, stay r.2.2)).filter fun r => !r.2.2.isEmpty }
      match sl.phase with
      | .idle => sl
      | .chosen pc pos th cand => if (stay th).isEmpty then { sl with phase := .idle } else { sl with phase := .chosen pc pos (stay th) (stay cand) }
      | .running r => if (stay r.threads).isEmpty then { sl with phase := .idle } else { sl with phase := .running { r with threads := stay r.threads } }) s

-- Fetch.

/-- A word of code through a translation, or why it cannot be fetched (R372). -/
def State.fetchWord (s : State) (va : Nat) (tr : Except AccFault TlbEntry) : Except Flt Word :=
  let at_ : DWord := BitVec.ofNat 64 va
  if winOf va != .paged then .error { code := 0x07, info := 4, addr := at_ }
  else
    match tr with
    | .error f => .error { code := f.code, cls := f.cls, info := f.infoWord false, addr := at_ }
    | .ok e =>
      let h := e.pa + (va - e.va)
      if s.isPoisoned h 4 then .error { code := 0x1C, cls := 2, addr := at_ }
      else .ok (BitVec.ofNat 32 (leNat ((upto h 4).map s.realHome)))

/-- A word of a run fetched from its home. -/
def State.fetchHome (s : State) (k va : Nat) : Except Flt Word := s.fetchWord va (s.translateFor k (s.ctxOf k) va { x := true })

/-- `n` words from an address, through one way of translating. -/
def State.fetchWords (s : State) (tr : Nat → Except AccFault TlbEntry) (va : Nat) : Nat → Except Flt (List Word)
  | 0 => .ok []
  | n + 1 =>
    match s.fetchWord va (tr va) with
    | .error f => .error f
    | .ok w => (s.fetchWords tr (va + 4) n).map (w :: ·)

/-- LEN of a header word 0. -/
def runLen (w : Nat) : Nat := field w 20 5

/-- The words that follow from a header word 0: the whole run, or the header alone where it is none. -/
def runWords (w : Nat) : Nat := if opcOf w != 0 || runLen w == 0 || decide (24 < runLen w) then 1 else runLen w + 3

/-- The words of a run through one way of translating: header, instruction words and trailer, as memory holds them. -/
def State.fetchRun (s : State) (tr : Nat → Except AccFault TlbEntry) (va : Nat) : Except Flt (List Word) :=
  match s.fetchWord va (tr va) with
  | .error f => .error f
  | .ok w => s.fetchWords tr va (runWords w.toNat)

/-- The translation of code by a fresh walk. -/
def State.walkCode (s : State) (k va : Nat) : Except AccFault TlbEntry :=
  match s.walk (s.ctxOf k) va with
  | .ok e => ({ x := true } : Need).check e
  | .error f => .error f

/-- The translation of code through one entry. -/
def throughEntry (e : TlbEntry) : Nat → Except AccFault TlbEntry := fun _ => ({ x := true } : Need).check e

/-- What a fetch brings: the words of the run, the translations it went through, and whether it read memory. -/
structure Fetched where
  words : List Word
  via : List TlbEntry
  read : Bool
  deriving DecidableEq, Repr

/-- The translations of `n` words from an address. -/
def viaOf (tr : Nat → Except AccFault TlbEntry) (va n : Nat) : List TlbEntry :=
  ((dedup ((upto 0 n).map fun i => (va + 4 * i) / 2 ^ 12)).filterMap fun p => (tr (p * 2 ^ 12)).toOption).foldl
    (fun l e => if l.contains e then l else l ++ [e]) []

/-- How a fetch from memory translates: through one held entry that covers the whole run, or by fresh walks; which is free. So
no run mixes words of an old translation with words of a new one (R331). -/
def State.codeWay (s : State) (k va : Nat) : Nat → Except AccFault TlbEntry :=
  let held := (s.tlb k).filter fun e => e.covers (s.ctxOf k) va
  if held.isEmpty then s.walkCode k
  else
    match held[Config.pick (s.free * 2 ^ 48 + va / 2 ^ 12) % (held.length + 1)]? with
    | none => s.walkCode k
    | some e =>
      match s.fetchRun (throughEntry e) va with
      | .ok ws => if e.covers (s.ctxOf k) (va + 4 * ws.length - 1) then throughEntry e else s.walkCode k
      | .error _ => if e.x then s.walkCode k else throughEntry e

/-- A fetch from memory. -/
def State.fetchMemory (s : State) (k va : Nat) : Except Flt Fetched :=
  let tr := s.codeWay k va
  match s.fetchRun tr va with
  | .error f => .error f
  | .ok ws => .ok { words := ws, via := viaOf tr va ws.length, read := true }

/-- The words of a run as a held copy has them, if it covers the whole run (R330). -/
def CodeCopy.run (c : CodeCopy) (va : Nat) : Option (List Word) :=
  if va < c.pc.toNat || va % 4 != 0 then none
  else
    match c.words.drop ((va - c.pc.toNat) / 4) with
    | [] => none
    | w :: r => if (w :: r).length < runWords w.toNat then none else some ((w :: r).take (runWords w.toNat))

/-- A fetch: the slot's loop buffer serves a run that it holds; else a copy of the core's instruction lines, or memory; which is free
where both exist (R153, R330, R331). -/
def State.fetch (s : State) (k va : Nat) : Except Flt Fetched :=
  let mine := fun (c : CodeCopy) => c.ctx == s.ctxOf k
  match firstThat (fun c => mine c && c.pc.toNat == va) (s.slot (issuerOfThread k)).loop with
  | some c => .ok { words := c.words, via := c.via, read := false }
  | none =>
    let held := (s.core (coreOfThread k)).code.filterMap fun c =>
      if mine c then (c.run va).map fun ws => ({ words := ws, via := c.via, read := false } : Fetched) else none
    if held.isEmpty then s.fetchMemory k va
    else
      match held[Config.pick (s.free * 2 ^ 64 + va) % (held.length + 1)]? with
      | some f => .ok f
      | none => s.fetchMemory k va

/-- A run enters a loop buffer of 8 runs; a full one loses a run, which is free (R330; log entry 127). -/
def loopIn (i : Nat) (l : List CodeCopy) (c : CodeCopy) : List CodeCopy :=
  if l.length < 8 then l ++ [c] else l.set (Config.pick i % 8) c

/-- What a fetch leaves: its translations, the run in the slot's loop buffer, and the words of the lines it read; a line part that
does not translate is left out. -/
def State.keepCode (s : State) (k va : Nat) (f : Fetched) : State :=
  let tr := s.codeWay k va
  let ctx := s.ctxOf k
  let pc : DWord := BitVec.ofNat 64 va
  let lo := va / 128 * 128
  let n := (va + 4 * f.words.length + 127) / 128 * 32 - lo / 4
  let lines := if f.read then (s.fetchWords tr lo n).toOption else none
  let s := if f.read then f.via.foldl (fun s e => s.addTlb k e) s else s
  let s := if isCmd k then s else s.updSlot (issuerOfThread k) fun sl =>
    if sl.loop.any fun c => c.ctx == ctx && c.pc == pc then sl
    else { sl with loop := loopIn (s.free * 2 ^ 70) sl.loop { ctx := ctx, pc := pc, words := f.words, via := f.via } }
  match lines with
  | none => s
  | some ws =>
    let c : CodeCopy := { ctx := ctx, pc := BitVec.ofNat 64 lo, words := ws, via := viaOf tr lo n }
    s.updCore (coreOfThread k) fun x => if x.code.contains c then x else { x with code := x.code ++ [c] }

/-- Whether a chosen issue set may begin its run: everything it awaits has landed, its fences and syncs are complete, and no
hardware-tracked register that the run uses has a write pending (R34, R59, R106, R259). -/
def State.mayBegin (s : State) (pc : DWord) (pos : Nat) (ks : List Nat) : Bool :=
  let ks := ks.filter s.isReady
  let ids := s.pend.map (·.id)
  (ks.all fun k => let t := s.thr k; t.fence.isNone && !t.syncing && !(t.awaits.any fun i => ids.contains i))
    && !(!s.pend.isEmpty && match s.fetch (ks.headD 0) pc.toNat with
        | .ok f => s.usesPending ks ((f.words.take (runLen (f.words.headD 0).toNat + 2)).drop (1 + Nat.max pos 1))
        | .error _ => false)

/-- The stall code of a position (R56). -/
def stallOf (w0 w1 pos : Nat) : Nat := if pos ≤ 9 then field w0 (2 * pos - 2) 2 else field w1 (2 * pos - 20) 2

/-- The header word that holds a position's stall code. For a stall code that must be zero it is the failing word whose address R372
reports: the code stands in the header, not in the word at the position (DEDUCED, log entry 145). -/
def stallWord (pos : Nat) : Nat := if pos ≤ 9 then 0 else 1

/-- Opcodes whose immediate a LIT may extend (R116). -/
def litOk (o : Nat) : Bool := [6, 13, 14, 15, 28, 25].contains o

/-- The failing words of the positions of a run, as word numbers of the run (R119): the word at position p is number
p + 1. -/
def badPositions (w0 w1 len : Nat) : List Word → Nat → List Nat
  | [], _ => []
  | [w], p =>
    if opcOf w.toNat == 2 || isDouble (opcOf w.toNat) then [p + 1] else []
  | w :: x :: r, p =>
    if opcOf w.toNat == 2 then
      (if litOk (opcOf x.toNat) then [] else [p + 1]) ++ (if stallOf w0 w1 p != 0 then [stallWord p] else []) ++ badPositions w0 w1 len (x :: r) (p + 1)
    else if isDouble (opcOf w.toNat) then
      (if stallOf w0 w1 (p + 1) != 0 then [stallWord (p + 1)] else [])
        ++ (if endsRunDouble w.toNat && p + 1 != len then [p + 1] else []) ++ badPositions w0 w1 len r (p + 2)
    else (if endsRun w.toNat then [p + 1] else []) ++ badPositions w0 w1 len (x :: r) (p + 1)

/-- Every failing word of a run under the fetch check (R56, R119). A branch or blocking word counts as one by its opcode and form bits,
whatever its reserved bits hold (DEDUCED, log entry 146). -/
def badWords (ws : List Word) : List Nat :=
  let w0 := (ws.getD 0 0).toNat
  let len := runLen w0
  if len = 0 ∨ 24 < len then [0]
  else
    let w1 := (ws.getD 1 0).toNat
    let t := (ws.getD (len + 2) 0).toNat
    let await := fun (v : Nat) => decide (122 ≤ v) && decide (v ≤ 126)
    (if bit w0 18 then [0] else []) ++ (if field w1 30 2 != 0 then [1] else [])
      ++ ((upto (len + 1) (24 - len)).flatMap fun p => if stallOf w0 w1 p != 0 then [stallWord p] else [])
      ++ badPositions w0 w1 len ((ws.drop 2).take len) 1
      ++ (if opcOf t != 1 || field t 21 4 != 0 || await (field t 14 7) || await (field t 7 7) || await (field t 0 7) then [len + 2] else [])

/-- The fetch check: why a run may not begin (R119, R372). -/
def checkRun (ws : List Word) (va : Nat) : Option Flt :=
  let at_ := fun (i : Nat) => (BitVec.ofNat 64 (va + 4 * i) : DWord)
  if opcOf (ws.getD 0 0).toNat != 0 then some { code := 0x01, addr := at_ 0 }
  else
    match badWords ws with
    | [] => none
    | b :: r => some { code := 0x02, addr := at_ (r.foldl Nat.min b) }

/-- The run of checked words. -/
def makeRun (id : Nat) (ws : List Word) (pc : DWord) (pos clk : Nat) (ks : List Nat) : Run :=
  let w0 := (ws.getD 0 0).toNat
  let w1 := (ws.getD 1 0).toNat
  let len := runLen w0
  let t := (ws.getD (len + 2) 0).toNat
  { id := id, pc := pc, words := (ws.drop 2).take len, stalls := (upto 1 len).map (stallOf w0 w1)
    aw := [field t 14 7, field t 7 7, field t 0 7].filter (· != 127), pos := pos, clk := clk, threads := ks }

-- Traps due at a run boundary.

/-- A further fault due at the boundary where a thread has just been stopped or sent to its handler: it goes to the supervisor, with
NESTED where the handler's slot is ACTIVE, and the thread stays where the first one left it (R367, R369; DEDUCED, log entry 147). -/
def State.alsoDue (s : State) (e : DueTrap) (stopped : List Nat) : State :=
  let k := stopped.headD 0
  let nested := match s.trapTable k with | some t => stopped.any (s.slotActive t) | none => false
  let r := s.recordOf { code := e.code, cls := e.cls, info := e.info, addr := e.addr, rows := e.rows, src := e.src } e.pc e.pos stopped
  (s.logRecord { r with flags := r.flags + (if nested then 4 else 0) }).stopOnDie (s.ctxOf k) (dieOfThread k)

/-- Every other fault due in threads that a first one has stopped at a boundary. -/
def State.restDue (s : State) (stopped : List Nat) : Nat → State
  | 0 => s
  | n + 1 =>
    match stopped.findSome? fun k => (s.thr k).traps.head? with
    | none => s
    | some e =>
      let hit := stopped.filter fun k => (s.thr k).traps.head? == some e
      ((hit.foldl (fun s k => s.updThr k fun x => { x with traps := x.traps.drop 1 }) s).alsoDue e hit).restDue stopped n

/-- The number of faults due in some threads. -/
def State.dueCount (s : State) (ks : List Nat) : Nat := (ks.map fun k => (s.thr k).traps.length).sum

/-- Takes the other faults due at a boundary of the threads of an issue set, in order (R381, R397): one fault for the
threads that an instruction concerns; the threads left. -/
def State.dueTraps (s : State) (pc : DWord) (pos : Nat) (ks : List Nat) : Nat → List Nat × State
  | 0 => (ks, s)
  | n + 1 =>
    match ks.findSome? fun k => (s.thr k).traps.head? with
    | none => (ks, s)
    | some e =>
      let hit := ks.filter fun k => (s.thr k).traps.head? == some e
      let s := hit.foldl (fun s k => s.updThr k fun x => { x with traps := x.traps.drop 1 }) s
      let s := s.boundaryFault { code := e.code, cls := e.cls, info := e.info, addr := e.addr, rows := e.rows, src := e.src } e.pc e.pos pc pos hit
      (s.restDue hit (s.dueCount hit)).dueTraps pc pos (ks.filter fun k => !(hit.contains k)) n

/-- Takes the traps of landed results at the run boundary where an issue set would begin (R158, R382, R397): the threads
left. The middle of a run is no boundary. -/
def State.boundaryTraps (s : State) (pc : DWord) (pos : Nat) (ks : List Nat) : List Nat × State :=
  let due := ks.filter fun k => (s.thr k).trapFlags != 0
  let fl := due.foldl (fun f k => f ||| (s.thr k).trapFlags) (0 : Flags)
  let first := due.foldl (fun b k => if (s.thr k).trapId < (s.thr b).trapId then k else b) (due.headD 0)
  let t := s.thr first
  let clear := fun (s : State) => due.foldl (fun s k => s.updThr k fun x => { x with trapFlags := 0 }) s
  let s' := if due.isEmpty then s
    else
      let s := (clear s).boundaryFault { code := 0x11, info := fl.toNat } t.trapPc t.trapPos pc pos due
      s.restDue due (s.dueCount due)
  if pos = 0 then s'.dueTraps pc pos (ks.filter fun k => !(due.contains k)) ks.length else (ks, s)

/-- The ages change as the run of a decision begins, and exclusions by YIELD end (R31, R33, R40). The age of a yielded thread that is
a candidate all the same follows R33, where R31 says that it does not change at that decision (DESIGN CHOICE, log entry 116). -/
def State.applyAges (s : State) (iss : Nat) (chosen cand : List Nat) : State :=
  if cand.isEmpty then s
  else
    let s := cand.foldl (fun s k => s.updThr k fun t =>
      { t with age := if chosen.contains k then 0 else Nat.min (t.age + 1) 1023 }) s
    ((s.threads.filter fun e => issuerOfThread e.1 == iss && e.2.yielded).map (·.1)).foldl
      (fun s k => s.updThr k fun t => { t with yielded := false }) s

/-- The chosen issue set begins its run: traps due, fetch, fetch check (R34, R119); a thread that is no longer Ready, as a command
context that was stopped or failed meanwhile, is left out (R284, R294). A saved run position above LEN of the run as it is fetched
now raises ILLEGAL_OPCODE, as R367 gives for a handler's return (DESIGN CHOICE, log entry 125). A run of which a word cannot be fetched
fails as R372 says before its other words are checked, but for OPC and LEN of its header, which say which words there are (DEDUCED, log
entry 148). -/
def State.beginRun (s : State) (iss : Nat) : State :=
  match (s.slot iss).phase with
  | .chosen pc pos ks cand =>
    let s := s.updSlot iss fun sl => { sl with phase := .idle, last := if cmdIssuer ≤ iss then ks.headD 0 - cmdBase + 1 else sl.last }
    let ks := ks.filter s.isReady
    let s := s.applyAges iss ks (if ks.isEmpty then [] else cand)
    let (ks, s) := s.boundaryTraps pc pos ks
    let k := ks.headD 0
    if ks.isEmpty then s
    else
      match s.fetch k pc.toNat with
      | .error f => s.boundaryFault f pc 0 pc pos ks
      | .ok fe =>
        let ws := fe.words
        match checkRun ws pc.toNat with
        | some f => s.boundaryFault f pc 0 pc pos ks
        | none =>
          if runLen (ws.getD 0 0).toNat < pos then s.boundaryFault { code := 0x01, addr := pc } pc 0 pc pos ks
          else
            let s := s.keepCode k pc.toNat fe
            let (id, s) := s.newId
            let late := if pos = 0 then [] else ks.flatMap fun k => (s.thr k).lateRun
            let s := ks.foldl (fun s k => s.updThr k fun t =>
              if pos = 0 then { t.settle with wait := .issued, awaits := [], tm := [], tmMask := 0, pos := 0, lateRun := [] }
              else { t with wait := .issued, awaits := [], pos := 0, lateRun := [] }) s
            s.updSlot iss fun sl => { sl with phase := .running { makeRun id ws pc (Nat.max pos 1) s.clk ks with late := late } }
  | _ => s

-- The issue checks of a word.

/-- Where an instruction executes (R118, R119). -/
inductive Where where
  | compute | both | command | firmware
  deriving DecidableEq, Repr

/-- Where an instruction word executes, by its opcode and, for LEA, its form (R118). -/
def whereOf (w : Nat) : Where :=
  let o := opcOf w
  if o == 125 then .command else if o == 126 then .firmware
  else if o == 31 && field w 23 2 == 2 then .compute
  else if (2 ≤ o && o ≤ 39) || [66, 67, 70, 71, 75, 76, 77, 120, 121, 122, 124].contains o then .both
  else .compute

/-- ILLEGAL_OPCODE or PRIV for an instruction where it does not execute (R119). -/
def State.classFault (s : State) (w : Where) : Option Flt :=
  match w, s.onCommand with
  | .both, _ => none
  | .compute, false => none
  | .command, true => none
  | .compute, true => some { code := 0x01 }
  | .firmware, true => some { code := 0x01 }
  | .command, false => some { code := 0x20 }
  | .firmware, false => some { code := 0x20 }

/-- What the issue checks need to know of an instruction. -/
structure Req where
  instr : Instr
  place : Where := .compute
  ops : List Opd := []
  /-- The major opcode of an instruction that no deterministic grid may use (R385). -/
  det : Option Nat := none
  deriving DecidableEq, Repr

/-- The checks before a word issues, in the order of R371. -/
def State.issueFault (s : State) (r : Req) : Option Flt :=
  match s.classFault r.place with
  | some f => some f
  | none =>
    if !r.instr.wf then some { code := 0x02 }
    else if let some d := firstThat (fun (n : BitVec 7) => decide (122 ≤ n.toNat)) r.instr.lateDst then
      some { code := 0x02, info := d.toNat + 2 ^ 8 * 7 }
    else
      match s.rangeFault r.ops with
      | some (c, cl, i) => some { code := c, cls := cl, info := i }
      | none =>
        match r.det with
        | some o => if s.issue.any s.isDet then some { code := 0x0D, info := o }
          else (s.hazardFault r.ops).map fun (c, cl, i) => { code := c, cls := cl, info := i }
        | none => (s.hazardFault r.ops).map fun (c, cl, i) => { code := c, cls := cl, info := i }

/-- Performs a word: its checks, then its effect; a fault is taken (R371). An effect may leave faults of some threads
behind it, taken in order. -/
def State.issueMany (s : State) (r : Req) (body : State → Except Flt (State × List Flt)) : Host.Outcome State Fault Refusal :=
  match s.issueFault r with
  | some f => .next (s.takeFault f)
  | none =>
    match body s with
    | .error f => .next (s.takeFault f)
    | .ok (t, fs) => .next (fs.foldl State.takeFault t)

/-- The one fault of the groups of an issue set that fail (R370): the lowest failing lane's group decides it (R176), and it stops the
issued threads of every failing group (R381, R394, R398, R399; DEDUCED, log entry 132). -/
def State.groupFault (s : State) (bad : List (Nat × Flt)) : List Flt :=
  match mergeLanes (bad.map (·.2)) with
  | none => []
  | some x => [{ x with stops := some (dedup (x.stops.getD [] ++ bad.flatMap fun e => s.issuedOf e.1)) }]

/-- Performs an instruction once for each group of the issue set (R199): a group that fails has no effect, the others go on, and the
failing ones make one fault; a word that has to wait has no effect. -/
def State.perGroup (s : State) (f : State → Nat → Nat → Except Flt State) : Except Flt (State × List Flt) :=
  let r := s.issueGroups.foldl (fun (a : State × List (Nat × Flt)) e =>
    match f a.1 e.1 e.2 with
    | .ok t => (t, a.2)
    | .error x => (a.1, a.2 ++ [(e.1, x)])) (s, [])
  .ok (if r.2.any fun e => e.2.code == 0 then (s, [{ code := 0 }]) else (r.1, s.groupFault r.2))

/-- Performs a word whose effect either happens or faults. -/
def State.issueWord (s : State) (r : Req) (body : State → Except Flt State) : Host.Outcome State Fault Refusal :=
  match s.issueFault r with
  | some f => .next (s.takeFault f)
  | none =>
    match body s with
    | .error f => .next (s.takeFault f)
    | .ok t => .next t

/-- Performs a word whose effect cannot fail. -/
def State.issuePlain (s : State) (r : Req) (body : State → State) : Host.Outcome State Fault Refusal :=
  match s.issueFault r with
  | some f => .next (s.takeFault f)
  | none => .next (body s)

/-- The FP_TRAP of a fixed-latency instruction of `n` words (R158, R382); at the run's end the traps of landed results
join it. -/
def State.fpTrap (s : State) (n : Nat) (raised : List (Nat × Flags)) : State :=
  let hit := s.trapping raised
  if hit.isEmpty then s
  else
    let last := decide (s.run.words.length < s.run.pos + n)
    let more := if last then s.issue.filter fun k => (s.thr k).trapFlags != 0 && !(hit.any fun e => e.1 == k) else []
    let landed := if last then s.issue.foldl (fun f k => f ||| (s.thr k).trapFlags) (0 : Flags) else 0
    let fl := hit.foldl (fun f e => f ||| e.2) landed
    let ks := s.issue.filter fun k => hit.any (fun e => e.1 == k) || more.contains k
    let s := if last then s.issue.foldl (fun s k => s.updThr k fun t => { t with trapFlags := 0 }) s else s
    s.takeFault { code := 0x11, info := fl.toNat, stops := some ks, skip := n }

/-- Performs a floating-point word of `n` words: its results, the flags it raises, and the trap (R69, R158). -/
def State.issueFp (s : State) (r : Req) (n : Nat) (body : State → State × List (Nat × Flags)) : Host.Outcome State Fault Refusal :=
  match s.issueFault r with
  | some f => .next (s.takeFault f)
  | none =>
    let (t, raised) := body s
    .next ((t.raiseAll raised).fpTrap n raised)

/-- A word that is no instruction raises ILLEGAL_OPCODE or RESERVED_FIELD, after the check of where its opcode executes
(R119). -/
def State.undecoded (s : State) (w : Word) (e : DecodeError) : State :=
  match s.classFault (whereOf w.toNat), e with
  | some f, .reservedField => s.takeFault f
  | _, .illegalOpcode => s.takeFault { code := 0x01 }
  | none, .reservedField => s.takeFault { code := 0x02 }

-- The end of a run.

/-- The end of the run for one thread: awaits with the base the run used, then its next PC, window base and state (R59, R141). The
temporaries stay until the next run begins: a wait that fails resumes at its word with them (R42, R46). A row-progress mask stays
while its fault is being handled (R202). A thread whose run holds an arrival and ends in a wait of another kind is in both waits until
both are over: R29 gives a thread one state (DESIGN CHOICE, log entry 119). -/
def State.endThread (s : State) (pc : DWord) (len : Nat) (aw : List Nat) (k : Nat) : State :=
  let aws := s.awaited k aw
  s.updThr k fun t =>
    { t.settle with
      awaits := aws, pc := t.nextPc.getD (pc + BitVec.ofNat 64 (4 * (len + 3))), pos := 0
      winb := t.nextWinb.getD t.winb, wait := if t.nextWait == some .exited then .issued else t.nextWait.getD .ready
      nextPc := none, nextWinb := none, nextWait := if t.nextWait == some .exited then t.nextWait else none
      mmq := t.mmq.filter fun m => t.fids.contains m.fid
      atBar := !t.held.isEmpty || t.barWait.isSome }

/-- The heap bases that a command context wrote take effect for its context (R62, R63). -/
def State.settleHeaps (s : State) (k : Nat) : State :=
  let w := (s.thr k).nextHeap
  if w.isEmpty then s
  else
    let pick := fun (sel : Nat) (old : Word) => (Tab.get none (w.map fun e => (e.1, some e.2)) sel).getD old
    (s.updCx (s.ctxOf k) fun c =>
      { c with rheap := pairOf (pick 0x40 (loWord c.rheap)) (pick 0x41 (hiWord c.rheap))
               sheap := pairOf (pick 0x42 (loWord c.sheap)) (pick 0x43 (hiWord c.sheap)) }).updThr k fun t => { t with nextHeap := [] }

/-- Exits, stops and waits that take effect once the whole issue set has reached the trailer. -/
def State.settleThread (s : State) (k : Nat) : State :=
  let t := s.thr k
  if isCmd k then
    let s := s.settleHeaps k
    let c := s.cmd (k - cmdBase)
    if t.nextWait == some .exited then (s.updThr k fun t => { t with nextWait := none }).endCommand k .halted
    else if c.faultDue then
      ((s.updCmd (k - cmdBase) fun c => { c with st := .faulted, faultDue := false }).updThr k fun t => { t with wait := .faulted }).stopDone k
    else if c.stopping then s.endCommand k .stopped
    else s
  else if t.nextWait == some .exited then (s.updThr k fun t => { t with nextWait := none }).exitThread k
  else s.tryWait k

/-- Clocks of a stall code (R58). -/
def stallClk (c : Nat) : Nat := 2 ^ c

/-- The run of an issuer goes on past the `n` words just performed, or ends at its trailer (R57, R58). The picker decides when the
stall of the last word has passed, so a thread that becomes Ready within it is a candidate (DESIGN CHOICE, log entry 118). -/
def State.advance (s : State) (iss n : Nat) : State :=
  match (s.slot iss).phase with
  | .running r =>
    let lit := opcOf (r.words.getD (r.pos - 1) 0).toNat == 2
    let at_ := if lit then r.pos + 1 else r.pos
    let clk := Nat.max r.clk (s.clk + stallClk (r.stalls.getD (at_ - 1) 0))
    if r.held then s.updSlot iss fun sl => { sl with phase := .running { r with held := false, clk := s.clk + 1 } }
    else if r.pos + n ≤ r.words.length then
      s.updSlot iss fun sl => { sl with phase := .running { r with pos := r.pos + n, clk := clk } }
    else
      let s := s.landAll
      let s := s.updSlot iss fun sl => { sl with phase := .idle, nextAt := clk }
      let s := r.threads.foldl (fun s k => s.endThread r.pc r.words.length r.aw k) s
      r.threads.foldl State.settleThread s
  | _ => s

-- Who moves next.

/-- Whether an opcode may make, order or wait for a memory access: LUTLD and those of the chapters from memory on, and EXIT. -/
def ordersMemory (o : Nat) : Bool := decide (63 ≤ o) || o == 38

/-- Whether the word of a run has to wait at issue: a LAUNCH or CCOPY beyond 32 outstanding ones (R288), or a word of a thread whose
own addition still waits for a line that a Torc step owns (R101, R102, R107). -/
def State.mustWait (s : State) (r : Run) : Bool :=
  let w := (r.words.getD (r.pos - 1) 0).toNat
  let k := r.threads.headD 0
  (!s.torcHeld.isEmpty && ordersMemory (opcOf w) && s.bins.any fun u => r.threads.contains u.th && s.binWaits u) || isCmd k && opcOf w == 125 && (fix w 21 3 0 || fix w 21 3 4) && decide (32 ≤ (s.cmd (k - cmdBase)).out)

/-- The issuers with a thread that its picker could choose. -/
def State.pickable (s : State) : List Nat :=
  dedup ((s.threads.filter fun e => s.isReady e.1 && s.hasTurn e.1 && !s.yieldsTo e.1).map fun e => issuerOfThread e.1)

/-- When an issuer can next move, if it can; `ready` are the issuers with a thread to choose. -/
def State.moveAt (s : State) (ready : List Nat) (iss : Nat) : Option Nat :=
  let sl := s.slot iss
  let held := decide (iss < cmdIssuer) && (s.core (coreOfIssuer iss)).saving
  match sl.phase with
  | .running r => if s.mustWait r then none else some r.clk
  | .chosen pc pos ks _ => if !held && s.mayBegin pc pos ks then some (Nat.max s.clk sl.nextAt) else none
  | .idle => if !held && (!sl.resume.isEmpty || ready.contains iss) then some (Nat.max s.clk sl.nextAt) else none

/-- The order that the spec gives words of one clk: a kind of words, the unit they are ordered at, and their place. Words on a core's
accumulator tiles go by slot (R199); a DEPOP goes before the TQADDs, and those go by stop index and slot (R269); TQGETs go by stop
index (R271). -/
def State.placeInClk (s : State) (iss : Nat) : Option (Nat × Nat × Nat) :=
  match (s.slot iss).phase with
  | .running r =>
    let o := opcOf (r.words.getD (r.pos - 1) 0).toNat
    let core := coreOfIssuer iss
    if [0x50, 0x51, 0x52, 0x53, 0x56].contains o then some (0, core, iss % 4)
    else if o == 0x73 then some (1, 0, 0)
    else if o == 0x71 then some (1, 0, 1 + 4 * stopIndex (stopOfCore core) + iss % 4)
    else if o == 0x72 then some (2, 0, stopIndex (stopOfCore core))
    else none
  | _ => none

/-- Whether a word has to let others of its clk go first: those of a lower place, and issuers that may come to such a word in this
clk. -/
def State.mustFollow (s : State) (tied : List Nat) (iss : Nat) : Bool :=
  match s.placeInClk iss with
  | none => false
  | some (kind, unit, place) =>
    tied.any fun i => match (s.slot i).phase, s.placeInClk i with
      | .running _, some (kd, u, p) => kd == kind && u == unit && decide (p < place)
      | .running _, none => false
      | _, _ => kind != 0 || coreOfIssuer i == unit

/-- The issuer that moves first: the earliest. Accesses of one clk from different stops arrive at a home in an order that the
mesh's arbitration decides (R14): which issuer of one clk is first is free, but where the spec orders the words (DESIGN CHOICE, log
entry 115). -/
def State.firstMove (s : State) : Option (Nat × Nat) :=
  let ready := s.pickable
  let all := (sortNat (dedup (s.slots.map (·.1) ++ ready))).filterMap fun i => (s.moveAt ready i).map fun t => (t, i)
  match all with
  | [] => none
  | e :: r =>
    let t := r.foldl (fun m x => Nat.min m x.1) e.1
    let tied := (all.filter fun x => x.1 == t).map (·.2)
    let first := tied.filter fun i => !s.mustFollow tied i
    some (t, pickFrom (s.free * 2 ^ 128 + s.nextId * 2 ^ 64 + t) (if first.isEmpty then tied else first))

/-- Whether something is still to happen in this clk. -/
def State.moreNow (s : State) : Bool :=
  (match s.agenda with | (t, _) :: _ => decide (t ≤ s.clk) | [] => false)
    || match s.firstMove with | some (t, _) => decide (t ≤ s.clk) | none => false

/-- As a clk ends, the waiting requests of dies whose queues have changed are served (R269, R271). -/
def State.endClk (s : State) : State := if s.serving.isEmpty || s.moreNow then s else s.serveDue

end Sys2Proof.Machine
end

