-- ==== Sys2Proof/Machine/Rings.lean ====
section
/-! DEFINITION. Slot rings (R190, R191, R380) and the copy engine with its rings (R192 to R197, R391 to R393). -/

namespace Sys2Proof.Machine

-- Slot rings. A block is named by the home address of its first byte.

/-- The least address of a team-local window access at a home. -/
def localVa (h : Nat) : DWord := BitVec.ofNat 64 (teamBase + h % 2 ^ 21)

/-- A little-endian field of a block. -/
def State.blockNat (s : State) (h off n : Nat) : Nat := leNat (s.readHomes (h + off) n)

/-- N of a slot ring. -/
def State.ringSlots (s : State) (h : Nat) : Nat := s.blockNat h 0x0C 4 % 256 + 1

/-- The state of a slot: 0 Free, 1 Filling, 2 Filled, 3 Reading. -/
def State.slotState (s : State) (h k : Nat) : Nat := field (s.readHome (h + 0x10 + k / 4)).toNat (2 * (k % 4)) 2

/-- Sets the state of a slot. -/
def State.setSlotState (s : State) (h k v : Nat) : State :=
  let a := h + 0x10 + k / 4
  let b := (s.readHome a).toNat
  s.writeHome a (BitVec.ofNat 8 (b - field b (2 * (k % 4)) 2 * 4 ^ (k % 4) + v * 4 ^ (k % 4)))

/-- Whether a block is malformed (R380). -/
def State.ringBad (s : State) (h : Nat) : Bool :=
  let n := s.ringSlots h
  let p := s.blockNat h 0 4
  let c := s.blockNat h 4 4
  s.blockNat h 0x0C 4 / 256 != 0 || p / 512 != 0 || c / 512 != 0 || decide (n ≤ p % 256) || decide (n ≤ c % 256)
    || (upto n (256 - n)).any fun k => s.slotState h k != 0

/-- Adds 1 to NFREE or NFILL, or takes 1 off (R190); each is a 9-bit field. -/
def State.ringCount (s : State) (h : Nat) (filled up : Bool) : State :=
  let w := s.blockNat h 8 4
  let lo := if filled then 16 else 0
  let v := field w lo 9
  s.writeHomes (h + 8) (leBytes 4 (w - v * 2 ^ lo + (v + (if up then 1 else 511)) % 512 * 2 ^ lo))

/-- The index word after one advance (R190). -/
def advanceIdx (n w : Nat) : Nat := if w % 256 + 1 = n then (1 - w / 256 % 2) * 256 else w % 512 + 1

/-- Whether the next slot of a side can be claimed: the fill side of SLFREE, or the read side of SLWAIT. -/
def State.claimable (s : State) (h : Nat) (fill : Bool) : Bool :=
  if fill then s.slotState h (s.blockNat h 0 4 % 256) == 0 else s.slotState h (s.blockNat h 4 4 % 256) == 2

/-- Claims the next slot of a side (R191): what D receives, and the block after it. -/
def State.ringClaim (s : State) (h : Nat) (fill : Bool) : Nat × State :=
  let off := if fill then 0 else 4
  let w := s.blockNat h off 4
  let s := (s.setSlotState h (w % 256) (if fill then 1 else 3)).ringCount h (!fill) false
  (w % 512, s.writeHomes (h + off) (leBytes 4 (advanceIdx (s.ringSlots h) w)))

/-- SLREL or SLCOMMIT of a slot (R191). -/
def State.ringPut (s : State) (h k : Nat) (fill : Bool) : State :=
  if fill then (s.setSlotState h k 2).ringCount h true true else (s.setSlotState h k 0).ringCount h false true

/-- One waiting thread's turn at its block. -/
def State.serveRing (s : State) (k : Nat) : State :=
  match (s.thr k).wait with
  | .ring fill h d =>
    if (s.team (s.thr k).team).phase != .resident then s
    else if s.ringBad h then s.waitFault k { code := 0x02, info := 3, addr := localVa h, lanes := some [k] }
    else if s.claimable h fill then
      let (v, s) := s.ringClaim h fill
      (s.wake k [s.toV k d (BitVec.ofNat 32 v)]).refresh k (if fill then 1 else 2)
    else s
  | _ => s

-- Copy rings. A ring is named by its team and the team-local offset of its control block.

/-- The event's name of a ring. -/
def CopyRing.key (r : CopyRing) : Nat := r.team * 2 ^ 21 + r.off

/-- The home of a ring's control block. -/
def CopyRing.home (r : CopyRing) : Nat := homeTeam r.team r.off

/-- The name among the waiters of the command of a core's ring that waits for a slot (R196). -/
def engineWaiter (core key : Nat) : Nat := (core + 1) * 2 ^ 128 + key

/-- The core whose SRAM holds a team-local offset (R86). -/
def Team.coreAt (t : Team) (off : Nat) : Nat := t.cores.getD (off / 2 ^ 15 % t.cores.length) 0

/-- The agent of a copy engine for a team. -/
def State.copyAgent (s : State) (core team : Nat) : Agent :=
  { unit := threadKey core 0 0 0, ctx := (s.team team).ctx, team := some team, view := s.view team }

/-- Changes the engine's record of a ring. -/
def State.updRing (s : State) (core key : Nat) (f : CopyRing → CopyRing) : State :=
  s.updCore core fun c => { c with rings := c.rings.map fun r => if r.key = key then f r else r }

/-- A ring stops with a fault (R391, R393). -/
def State.copyFault (s : State) (core : Nat) (r : CopyRing) (code info cmd : Nat) (addr : DWord) (cls : Nat := 1) : State :=
  let s := s.writeHomes (r.home + 0x14) (leBytes 4 code)
  s.logEvent code cls (s.team r.team).ctx (stopOfCore core) 1 info cmd addr

/-- Whether a ring has entries that a notify announced and that are not accepted, or a command that waits. -/
def State.ringBusy (s : State) (r : CopyRing) : Bool := (r.cmds.any fun c => !c.issued) || s.blockNat r.home 4 4 != r.limit

/-- The rings of an engine in the order of their notifies (R193): a ring notified anew goes behind the others, unless entries of an
earlier notify still wait there. -/
def orderRing (s : State) (l : List CopyRing) (r : CopyRing) : List CopyRing :=
  match firstThat (fun x => x.key == r.key) l with
  | none => l ++ [r]
  | some x => if s.ringBusy x then l else l.filter (fun y => y.key != r.key) ++ [x]

/-- A notify (R193): the ring's checks, and the entries it announces. -/
def State.notify (s : State) (team off : Nat) : State :=
  let h := homeTeam team off
  let m := s.team team
  let core := m.coreAt off
  let r : CopyRing := { team := team, off := off }
  let prod := s.blockNat h 0 4
  let cons := s.blockNat h 4 4
  let cfg := s.blockNat h 0x0C 4
  let base := s.blockNat h 0x10 4
  let logn := field cfg 20 4
  if s.blockNat h 0x14 4 % 256 != 0 then s
  else if 2 ^ logn < (prod + 2 ^ 32 - cons) % 2 ^ 32 then s.copyFault core r 0x02 1 cons (localVa h)
  else if logn < 3 ∨ 8 < logn ∨ field cfg 14 6 ≠ 0 ∨ base / 2 ^ 21 ≠ 0 ∨ m.localSz < base + 32 * 2 ^ logn
  then s.copyFault core r 0x02 2 cons (localVa h)
  else
    let s := s.updCore core fun c => { c with rings := orderRing s c.rings r }
    (s.updRing core r.key fun x => { x with limit := prod }).poll (s.clk + 1) (.copyCmdIssue core r.key)

/-- A write to a team-local word that may be a notify word (R193). -/
def State.mayNotify (s : State) (p : Spot) : State :=
  let off := p.home % 2 ^ 21
  if p.win == .teamLocal && off % 64 == 0 && s.blockNat p.home 0x0F 1 == 0xC9
  then s.notify ((p.home - 2 ^ 60) / 2 ^ 21) off else s

-- Starts of Torc instances (R298). A block is named by its offset in its die's window.

/-- Changes the Torc engine of a die. -/
def State.updTorc (s : State) (d : Nat) (f : Torc → Torc) : State := s.updDie d fun x => { x with torc := f x.torc }

/-- Changes a block of a die's engine. -/
def State.updBlock (s : State) (d off : Nat) (f : TorcBlock → TorcBlock) : State :=
  s.updTorc d fun t => { t with blocks := t.blocks.map fun b => if b.off = off then f b else b }

/-- Ticks without a chunk after which a member is lost (R417). -/
def collTicks : Nat := 2 ^ 24

/-- The next instance of a block begins (R301). -/
def State.beginInstance (s : State) (d off : Nat) : State :=
  let s := s.updBlock d off fun b => { b with active := true, step := 0, loops := [], opens := [], since := s.beats, binOvf := false, begun := false, cmd := none }
  s.later (.torcStep d off)

/-- The blocks that wait to become active, in order of start (R416); `n` bounds their number. -/
def State.activate (s : State) (d : Nat) : Nat → State
  | 0 => s
  | n + 1 =>
    let bs := (s.die d).torc.blocks
    let wait := bs.filter fun b => !b.active
    let first := wait.foldl (fun (m : Option TorcBlock) b => match m with
      | none => some b
      | some x => if b.order < x.order then some b else some x) none
    match first with
    | none => s
    | some b => if 64 ≤ (bs.filter (·.active)).length then s else (s.beginInstance d b.off).activate d n

/-- START moves: instances are queued (R298), those past 255 as late ones (R416). -/
def State.torcStart (s : State) (d off ctx old new : Nat) : State :=
  let add := (new + 2 ^ 32 - old) % 2 ^ 32
  if add = 0 then s
  else
    let behind := (old + 2 ^ 32 - s.blockNat (homeShared d off) 4 4) % 2 ^ 32
    let (id, s) := s.newId
    let s := s.updTorc d fun t => { t with ctxs := t.ctxs.put 0 off (ctx + 1) }
    let known := (s.die d).torc.blocks.any fun b => b.off == off
    let fresh : TorcBlock := { off := off, ctx := ctx, started := old, done := old, late := [], order := id }
    let s := if known then s else s.updTorc d fun t => { t with blocks := t.blocks ++ [fresh] }
    let s := s.updBlock d off fun b =>
      { b with started := b.started + add
               late := if 255 - behind < add then b.late ++ [(b.started + 1 + (255 - behind), b.started + add)] else b.late }
    -- chunks held back for the block look for room in its spill area
    (s.activate d 64).poll (s.clk + 1) (.torcStep d off)

/-- A release write at .die or wider may start instances: the START of a block that is enabled (R298). -/
def State.mayStart (s : State) (k : Nat) (p : Spot) (old : Nat) : State :=
  if p.win == .shared && p.home % 128 == 0 && s.blockNat p.home 0x0F 1 == 0xA7
  then s.torcStart (dieOfThread k) (p.home - homeShared (dieOfThread k) 0) (s.ctxOf k) old (s.blockNat p.home 0 4) else s

-- Command entries (R194).

/-- A range an engine command touches. -/
structure Seg where
  wr : Bool
  va : Nat
  len : Nat
  deriving DecidableEq, Repr

/-- An address plus a signed offset, modulo 2^64. -/
def addrAdd (a : Nat) (d : Int) : Nat := wrap 64 ((a : Int) + d)

def copyKind (e : List Byte) : Nat := entryNat e 0 1 % 16
def copySrc (e : List Byte) : Nat := entryNat e 8 8
def copyDst (e : List Byte) : Nat := entryNat e 16 8

/-- The count of rows or elements, and the bytes of each. -/
def copyShape (e : List Byte) : Nat × Nat := (entryNat e 6 2, entryNat e 4 2)

/-- Fields of an entry that break R194, in the order of R392: the INFO. -/
def copyBad (e : List Byte) : Option Nat :=
  let k := copyKind e
  let len := entryNat e 4 4
  let noF := k == 0 || k == 5
  if 6 ≤ k then some 4
  else if entryNat e 0 1 / 16 ≠ 0 ∨ entryNat e 1 1 / 4 ≠ 0 ∨ entryNat e 2 2 / 2 ^ 12 ≠ 0 ∨ (noF ∧ entryNat e 24 8 ≠ 0)
      ∨ (k = 4 ∧ (copyDst e / 2 ^ 21 ≠ 0 ∨ entryNat e 30 2 ≠ 0)) then some 5
  else if k = 0 ∨ k = 4 ∨ k = 5 then (if len = 0 ∨ 2 ^ 24 < len then some 6 else none)
  else if (copyShape e).1 = 0 ∨ (copyShape e).2 = 0 then some 6 else none

/-- The index list of a GATHER or SCATTER. -/
def copyIndexSeg (e : List Byte) : List Seg :=
  if copyKind e = 2 ∨ copyKind e = 3 then [{ wr := false, va := entryNat e 24 8, len := 4 * (copyShape e).1 }] else []

/-- The source ranges of an entry, in the order of the destination bytes. -/
def copySources (e : List Byte) (idx : List Nat) : List Seg :=
  let k := copyKind e
  let (n, b) := copyShape e
  if k = 0 ∨ k = 4 then [{ wr := false, va := copySrc e, len := entryNat e 4 4 }]
  else if k = 1 then (upto 0 n).map fun (r : Nat) => { wr := false, va := addrAdd (copySrc e) ((r : Int) * sgn 32 (entryNat e 24 4)), len := b }
  else if k = 2 then idx.map fun i => { wr := false, va := addrAdd (copySrc e) (i * b : Nat), len := b }
  else if k = 3 then [{ wr := false, va := copySrc e, len := n * b }]
  else []

/-- The destination ranges of an entry, but for a multicast. -/
def copyDests (e : List Byte) (idx : List Nat) : List Seg :=
  let k := copyKind e
  let (n, b) := copyShape e
  if k = 0 ∨ k = 5 then [{ wr := true, va := copyDst e, len := entryNat e 4 4 }]
  else if k = 1 then (upto 0 n).map fun (r : Nat) => { wr := true, va := addrAdd (copyDst e) ((r : Int) * sgn 32 (entryNat e 28 4)), len := b }
  else if k = 2 then [{ wr := true, va := copyDst e, len := n * b }]
  else if k = 3 then idx.map fun i => { wr := true, va := addrAdd (copyDst e) (i * b : Nat), len := b }
  else []

/-- A failing part of a command: its code, INFO and address. -/
structure CopyErr where
  code : Nat
  cls : Nat := 1
  info : Nat
  addr : DWord := 0
  deriving DecidableEq, Repr

/-- The rank of an address failure among the rows of R392. -/
def addrRank (f : AccFault) : Nat := if f.code = 0x08 then (if f.chk = 4 then 0 else 1) else if f.code = 0x0D then 1 else if f.code = 0x07 then 2 else 3

/-- The parts of ranges, each within a page. -/
def segParts (l : List Seg) : List (Bool × Nat × Nat) := l.flatMap fun g => (parts g.va g.len).map fun p => (g.wr, p.1 % 2 ^ 64, p.2)

/-- The failure that decides among the parts of some ranges. -/
def State.segError (s : State) (a : Agent) (l : List Seg) : Option CopyErr :=
  let bad := (segParts l).filterMap fun p =>
    match s.engineSpot a { w := p.1 } p.2.1 p.2.2 with
    | .error f => some (f, p)
    | .ok _ => none
  match (upto 0 4).filterMap fun r => firstThat (fun (e : AccFault × Bool × Nat × Nat) => addrRank e.1 == r) bad with
  | [] => none
  | (f, p) :: _ => some { code := f.code, cls := f.unitCls, info := f.infoWord p.1, addr := BitVec.ofNat 64 p.2.1 }

/-- The homes of ranges that translate. -/
def State.segHomes (s : State) (a : Agent) (l : List Seg) : List Nat :=
  (segParts l).flatMap fun p =>
    match s.engineSpot a { w := p.1 } p.2.1 p.2.2 with
    | .ok t => upto t.home p.2.2
    | .error _ => []

/-- The recipients of an MCAST (R195): resident teams of the grid with a selected core. -/
def State.recipients (s : State) (team : Nat) (e : List Byte) : List Nat :=
  let sel := fun (c : Nat) => let st := stopOfCore c; bit (entryNat e 24 4) (st % 256) && bit (entryNat e 28 2) (st / 256)
  (s.teams.filter fun t => t.2.live && t.2.grid == (s.team team).grid && t.2.phase == .resident && t.2.away.isEmpty && t.2.cores.any sel).map (·.1)

/-- The target slot rings of a command with RC: the teams' rings at offset SRING * 128. -/
def State.targetRings (s : State) (r : CopyRing) (e : List Byte) : List (Nat × Nat) :=
  if !bit (entryNat e 1 1) 0 then []
  else
    let off := 128 * (s.blockNat r.home 0x0C 4 % 2 ^ 14)
    (if copyKind e = 4 then s.recipients r.team e else [r.team]).map fun t => (t, off)

/-- Whether a target ring lies beyond .local or is malformed. -/
def State.targetBad (s : State) (t : Nat × Nat) : Bool := decide ((s.team t.1).localSz < t.2 + 128) || s.ringBad (homeTeam t.1 t.2)

/-- Whether a command waits for a slot (R196). -/
def State.mustWaitSlot (s : State) (r : CopyRing) (e : List Byte) : Bool :=
  (s.targetRings r e).any fun t => !s.targetBad t && !s.claimable (homeTeam t.1 t.2) true

/-- An MCAST range beyond a recipient's .local. -/
def State.mcastError (s : State) (r : CopyRing) (e : List Byte) : Option CopyErr :=
  if copyKind e = 4 ∧ (s.recipients r.team e).any fun t => decide ((s.team t).localSz < copyDst e % 2 ^ 21 + entryNat e 4 4)
  then some { code := 0x07, info := 0xC, addr := BitVec.ofNat 64 (teamBase + copyDst e % 2 ^ 21) } else none

/-- The indices of a GATHER or SCATTER. -/
def State.copyIndices (s : State) (a : Agent) (e : List Byte) : List Nat :=
  let b := (s.segHomes a (copyIndexSeg e)).map (s.engineByte a.unit)
  (upto 0 (copyShape e).1).map fun i => leNat ((b.drop (4 * i)).take 4)

/-- The first error an `Option` list holds. -/
def firstErr : List (Option CopyErr) → Option CopyErr
  | [] => none
  | some e :: _ => some e
  | none :: r => firstErr r

/-- The checks of an entry's command when it issues, in the order of R392. -/
def State.copyError (s : State) (a : Agent) (core : Nat) (r : CopyRing) (e : List Byte) : Option CopyErr :=
  let flags := entryNat e 1 1
  match copyBad e with
  | some i => some { code := 0x02, info := i }
  | none =>
    if bit flags 1 && (s.die (dieOfCore core)).ctrCtx.get 0 (entryNat e 2 2 % 4096) != a.ctx then some { code := 0x02, info := 8 }
    else if (copyIndexSeg e).any fun g => g.va % 4 != 0 then some { code := 0x06, info := 1, addr := BitVec.ofNat 64 (entryNat e 24 8) }
    else
      match s.segError a (copyIndexSeg e) with
      -- the rows of a PERM or a BOUNDS come before that of a translation, the index list's too
      | some _ => s.segError a (copyIndexSeg e ++ copySources e [] ++ copyDests e [])
      | none =>
        let idx := s.copyIndices a e
        let addr := s.segError a (copySources e idx ++ copyDests e idx)
        -- an MCAST range beyond .local comes after the PERM rows and before translation
        let addr := match addr, s.mcastError r e with
          | some x, some m => if x.code = 0x08 ∨ x.code = 0x07 then some x else some m
          | none, m => m
          | x, none => x
        let tgt := if (s.targetRings r e).any s.targetBad then some ({ code := 0x02, info := 3 } : CopyErr) else none
        firstErr [addr, tgt]

/-- Whether the index of an element of a GATHER or SCATTER was poisoned (R388). -/
def State.indexBad (s : State) (a : Agent) (e : List Byte) (i : Nat) : Bool :=
  (((s.segHomes a (copyIndexSeg e)).drop (4 * i)).take 4).any fun h => s.isPoisoned h 1

/-- The bytes a command writes, in writing order: home, value, and whether its source, or the index of its element, was poisoned. -/
def State.copyBytes (s : State) (a : Agent) (r : CopyRing) (e : List Byte) : List (Nat × Byte × Bool) :=
  let idx := s.copyIndices a e
  let src : List (Byte × Bool) :=
    if copyKind e = 5 then (upto 0 (entryNat e 4 4)).map fun b => (e.getD (8 + b % 8) 0, false)
    else (s.segHomes a (copySources e idx)).mapIdx fun j h =>
      (s.engineByte a.unit h, s.isPoisoned h 1 || (!idx.isEmpty && s.indexBad a e (j / (copyShape e).2)))
  let dst :=
    if copyKind e = 4 then (s.recipients r.team e).map fun t => upto (homeTeam t (copyDst e % 2 ^ 21)) (entryNat e 4 4)
    else [s.segHomes a (copyDests e idx)]
  dst.flatMap fun hs => hs.zip src

/-- Notes the held writes of a command in a deterministic task, each destination range with the bytes that are written to it, one that
a later range overwrites too (R310, R312). What one write of a copy is R312 does not say: here each range (DESIGN CHOICE, log entry
150). -/
def State.noteSegs (s : State) (a : Agent) (l : List Seg) (bs : List Byte) : State :=
  ((segParts l).foldl (fun (x : State × List Byte) p =>
    match x.1.engineSpot a { w := p.1 } p.2.1 p.2.2 with
    | .ok t => (x.1.noteWrite a.view p.2.1 (upto t.home p.2.2) (x.2.take p.2.2), x.2.drop p.2.2)
    | .error _ => x) (s, bs)).1

/-- The translations of an engine's ranges stay in the TLBs of its unit (R320). -/
def State.keepSegs (s : State) (a : Agent) (l : List Seg) : State := l.foldl (fun s g => s.keepWay a { w := g.wr } g.va g.len) s

/-- Writes held bytes in order, with the poison of the last write to each (R387, R388). -/
def State.engineWritesBad (s : State) (ws : List (Nat × Byte × Bool)) : State :=
  let bad := ws.foldl (fun (t : Tab Bool) w => Tab.put false t w.1 w.2.2) []
  bad.foldl (fun s e => s.markPoison e.1 1) (s.engineWrites (ws.map fun w => (w.1, w.2.1)))

/-- A command issues (R196, R107): it reads its sources, takes its destination bytes and claims its slots. -/
def State.copyBegin (s : State) (a : Agent) (core : Nat) (r : CopyRing) (c : CopyCmd) : State :=
  let ws := s.copyBytes a r c.entry
  let held := ws.filter fun w => decide (2 ^ 110 ≤ w.1)
  let real := ws.filter fun w => decide (w.1 < 2 ^ 110)
  let idx := s.copyIndices a c.entry
  let s := if ws.any (·.2.2) then s.logEvent 0x1C 2 a.ctx (stopOfCore core) 1 0 c.e.toNat 0 else s
  let s := (s.keepSegs a (copyIndexSeg c.entry ++ copySources c.entry idx ++ copyDests c.entry idx)).engineWritesBad held
  let s := if held.isEmpty then s else s.noteSegs a (copyDests c.entry idx) (ws.map (·.2.1))
  let s := real.foldl (fun s w => { s with owned := s.owned.put none w.1 (some w.2.1), ownedBad := s.ownedBad.put false w.1 w.2.2 }) s
  let (claims, s) := (s.targetRings r c.entry).foldl (fun (x : List (Nat × Nat) × State) t =>
    let h := homeTeam t.1 t.2
    let (v, s) := x.2.ringClaim h true
    (x.1 ++ [(h, v % 256)], s)) ([], s)
  let done : CopyCmd := { c with issued := true, claims := claims, dests := dedup (real.map (·.1)), bad := (ws.filter (·.2.2)).map (·.1) }
  (s.updRing core r.key fun x => { x with cmds := x.cmds.map fun y => if y.issued then y else done }).later (.copyCmdComplete core r.key)

/-- Tries to issue the command that waits in a ring; a command that fails is gone (R393), and one that finds no slot takes its place
behind those that wait already (R191, R196). It waits for lines that a Torc step owns, and keeps its place meanwhile (R107, R301). -/
def State.copyTry (s : State) (core : Nat) (r : CopyRing) (c : CopyCmd) : State :=
  let a := { s.copyAgent core r.team with opc := 0x100 + copyKind c.entry }
  let me := engineWaiter core r.key
  let gone := fun (s : State) => { s with waiters := s.waiters.filter (· != me) }
  let drop := fun (s : State) => s.updRing core r.key fun x => { x with cmds := x.cmds.filter (·.issued) }
  if s.mustWaitSlot r c.entry then (if s.waiters.contains me then s else { s with waiters := s.waiters ++ [me] })
  else
    match s.copyError a core r c.entry with
    | some e => (drop (gone s)).copyFault core r e.code e.info c.e.toNat e.addr e.cls
    | none =>
      let idx := s.copyIndices a c.entry
      if s.torcOwns (s.segHomes a (copyIndexSeg c.entry ++ copySources c.entry idx ++ copyDests c.entry idx)) then s.poll (s.clk + 1) (.copyCmdIssue core r.key)
      else
      let s := gone s
      if s.overWindow a.view (s.segHomes a (copyDests c.entry idx)) 0 then
        ((drop s).copyFault core r 0x22 0 c.e.toNat 0 0).failGrid (s.team r.team).grid
      else s.copyBegin a core r c

/-- The next entry of a ring is accepted (R193), with the deterministic check of R385. -/
def State.copyAccept (s : State) (core : Nat) (r : CopyRing) : State :=
  let a := s.copyAgent core r.team
  let cons := s.blockNat r.home 4 4
  let n := 2 ^ field (s.blockNat r.home 0x0C 4) 20 4
  let h := homeTeam r.team (s.blockNat r.home 0x10 4 % 2 ^ 21 + 32 * (cons % n))
  let e := (upto h 32).map (s.engineByte a.unit)
  let s := s.writeHomes (r.home + 4) (leBytes 4 (cons + 1))
  let c : CopyCmd := { e := BitVec.ofNat 32 cons, entry := e, issued := false, claims := [], dests := [] }
  if (s.team r.team).task.isSome ∧ (copyKind e = 4 ∨ bit (entryNat e 1 1) 1) then
    s.copyFault core r 0x0D (0x100 + copyKind e) cons 0
  else (s.updRing core r.key fun x => { x with cmds := x.cmds ++ [c] }).copyTry core r c

/-- A core's ring by its key. -/
def State.ringOf (s : State) (core key : Nat) : Option CopyRing := firstThat (fun r => r.key == key) (s.core core).rings

/-- The entries that a notify announced are accepted one after the other (R193), until a command has to wait or the ring stops. -/
def State.acceptAll (s : State) (core key : Nat) : Nat → State
  | 0 => s
  | n + 1 =>
    match s.ringOf core key with
    | none => s
    | some r =>
      if (r.cmds.any fun c => !c.issued) || s.blockNat r.home 0x14 4 % 256 != 0 || s.blockNat r.home 4 4 == r.limit then s
      else (s.copyAccept core r).acceptAll core key n

/-- The engine of a core goes on with a ring: its waiting command, then every entry announced. -/
def State.copyStep (s : State) (core : Nat) (r : CopyRing) : State :=
  if (s.team r.team).away.contains core then s
  else if (s.team r.team).phase != .resident then
    s.updRing core r.key fun x => { x with cmds := x.cmds.filter (·.issued) }
  else
    let s := match firstThat (fun c => !c.issued) r.cmds with
      | some c => s.copyTry core r c
      | none => s
    s.acceptAll core r.key 256

/-- One waiter's turn at its block: a thread, or the command of a copy engine. -/
def State.serveWaiter (s : State) (w : Nat) : State :=
  if w < 2 ^ 128 then s.serveRing w
  else
    match s.ringOf (w / 2 ^ 128 - 1) (w % 2 ^ 128) with
    | none => { s with waiters := s.waiters.filter (· != w) }
    | some r =>
      match firstThat (fun c => !c.issued) r.cmds with
      | none => { s with waiters := s.waiters.filter (· != w) }
      | some c =>
        let core := w / 2 ^ 128 - 1
        if (s.team r.team).phase != .resident || (s.team r.team).away.contains core || s.mustWaitSlot r c.entry then s
        else (s.copyTry core r c).poll (s.clk + 1) (.copyCmdIssue core r.key)

/-- The waiting claims are served in the order in which they came, those of threads and of copy engines alike (R191, R196). One that
needs slots of several rings and cannot have them all holds back no later one. -/
def State.runRings (s : State) : State := s.waiters.foldl State.serveWaiter s

/-- After a change to team-local memory at its home: the claims that wait for a slot. -/
def State.ringsMoved (s : State) : State := s.runRings

/-- Whether a team-local home belongs to a team that still takes writes (R195). -/
def State.takesLocal (s : State) (h : Nat) : Bool :=
  if 2 ^ 60 ≤ h ∧ h < 2 ^ 100 then let t := s.team ((h - 2 ^ 60) / 2 ^ 21); t.live && t.phase == .resident else true

/-- The commit of a claimed slot; one no longer in Filling is logged (R197). -/
def State.copyCommit (s : State) (core : Nat) (r : CopyRing) (e : Nat) (claim : Nat × Nat) : State :=
  if !s.takesLocal claim.1 then s
  else if s.slotState claim.1 claim.2 = 1 then s.ringPut claim.1 claim.2 true
  else s.logEvent 0x02 1 (s.team r.team).ctx (stopOfCore core) 1 9 e (localVa claim.1)

/-- An engine writes the bytes that it still owns, with the poison of their sources, and releases them (R107, R388); what was recalled
meanwhile has its bytes already. -/
def State.writeOwned (s : State) (dests : List Nat) : State :=
  let mine := dests.filter fun h => (s.owned.get none h).isSome
  let ws := (mine.filterMap fun h => (s.owned.get none h).map fun b => (h, b)).filter fun w => s.takesLocal w.1
  let bad := mine.filter fun h => s.ownedBad.get false h && s.takesLocal h
  let s := { s with owned := mine.foldl Tab.del s.owned, ownedBad := mine.foldl Tab.del s.ownedBad }
  bad.foldl (fun s h => s.markPoison h 1) (s.engineWrites ws)

/-- The oldest command of a ring completes (R197): its lines, its slots, its counter, DONE. -/
def State.copyFinish (s : State) (core : Nat) (r : CopyRing) (c : CopyCmd) : State :=
  let s := s.writeOwned c.dests
  let s := c.claims.foldl (fun s x => s.copyCommit core r c.e.toNat x) s
  let d := dieOfCore core
  let s := if bit (entryNat c.entry 1 1) 1 then (s.ctrDec d (entryNat c.entry 2 2 % 4096)).serveLater d else s
  let s := if s.takesLocal r.home then s.writeHomes (r.home + 8) (leBytes 4 (c.e.toNat + 1)) else s
  let s := s.updRing core r.key fun x => { x with cmds := x.cmds.drop 1 }
  (s.updCore core fun k => { k with rings := k.rings.filter fun x => !x.cmds.isEmpty || (s.team x.team).live }).ringsMoved

/-- COPY_CMD_ISSUE (R193, R196). -/
def execCopyCmdIssue (core ring : Nat) (s : State) : Host.Outcome State Fault Refusal :=
  match s.ringOf core ring with
  | some r => .next (s.copyStep core r)
  | none => .next s

/-- COPY_CMD_COMPLETE (R197). -/
def execCopyCmdComplete (core ring : Nat) (s : State) : Host.Outcome State Fault Refusal :=
  match s.ringOf core ring with
  | some r =>
    match r.cmds with
    | c :: _ => if c.issued then .next (s.copyFinish core r c) else .next s
    | [] => .next s
  | none => .next s

end Sys2Proof.Machine
end

