-- ==== Sys2Proof/Machine/LoadStore.lean ====
section
/-! DEFINITION. The meanings of the weak and strong loads and stores (R176, R179 to R181) and of the address-register
instructions (R177, R178). -/

namespace Sys2Proof.Machine

-- Weak loads and stores.

/-- Bytes of a weak access by its size code (R179). -/
def memSize (z : Nat) : Nat := if z < 2 then 1 else if z < 4 then 2 else if z = 4 then 4 else if z = 5 then 8 else 16

/-- The data registers of an access of a number of bytes. -/
def dataOpd (size : Nat) (d : BitVec 7) (wr : Bool) : Opd :=
  { cls := .vec, n := d.toNat, cnt := if size = 16 then 4 else if size = 8 then 2 else 1, wide := size == 8, quad := size == 16
    rd := !wr, wr := wr }

/-- The words that loaded bytes give their registers: sign-extended for .s8 and .s16 (R179). -/
def loadWords (signed : Bool) (b : List Byte) : List Word :=
  if b.length < 4 then [BitVec.ofNat 32 (if signed then wrap 32 (sgn (8 * b.length) (leNat b)) else leNat b)]
  else (upto 0 (b.length / 4)).map fun i => BitVec.ofNat 32 (leNat ((b.drop (4 * i)).take 4))

/-- The low bytes of the data registers. -/
def State.dataBytes (s : State) (k size : Nat) (d : BitVec 7) : List Byte :=
  ((upto 0 ((size + 3) / 4)).flatMap fun i => leBytes 4 (s.v k (d.toNat + i)).toNat).take size

/-- ptr(g) plus a signed offset (R176). -/
def State.eaOf (s : State) (k g : Nat) (off : Int) : DWord := BitVec.ofNat 64 (wrap 64 (((s.ptrOf k g).toNat : Int) + off))

/-- The addresses of LD and ST. -/
def State.eaOffset (s : State) (g : BitVec 5) (o : BitVec 9) (size : Nat) : List (Nat × DWord) :=
  s.issue.map fun k => (k, s.eaOf k g.toNat (sgn 9 o.toNat * size))

/-- The addresses of LDX and STX. -/
def State.eaIndexed (s : State) (g : BitVec 5) (i : BitVec 7) (c : BitVec 2) : List (Nat × DWord) :=
  s.issue.map fun k => (k, s.eaOf k g.toNat (sgn 32 (s.v k i.toNat).toNat * 2 ^ c.toNat))

/-- The addresses of every other access: the pointer. -/
def State.eaPtr (s : State) (g : Nat) : List (Nat × DWord) := s.issue.map fun k => (k, s.ptrOf k g)

/-- What a weak access asks for. -/
def weakAsk (size g : Nat) (wr : Bool) : Ask :=
  { size := size, align := size, g := g, perm := if wr then 2 else 1, wr := wr, need := { w := wr }, weak := true }

/-- A weak load of one lane (R97 to R100): the fills that land before it, its own additions under way, its bytes, and the lines that
it asks for. -/
def State.loadLane (s : State) (k : Nat) (p : Spot) (size : Nat) : List Byte × State :=
  let s := ((s.landFills (issuerOfThread k) (coreOfThread k)).ownBins k p.home size).takeFree.2
  (s.weakBytes k p p.home size, s.afterLoad k p)

/-- A weak load of the issue set (R180): the lanes read in ascending order, and their results land in that order (R92). -/
def State.weakLoad (s : State) (z : Nat) (d : BitVec 7) (g : BitVec 5) (eas : List (Nat × DWord)) : Except Flt State := do
  let spots ← s.checkLanes (weakAsk (memSize z) g.toNat false) true eas
  let (out, t) := spots.foldl (fun (a : List (Nat × List RegWrite) × State) e =>
    let (b, t) := a.2.loadLane e.1 e.2 (memSize z)
    (a.1 ++ [(e.1, s.toBlock e.1 d.toNat (loadWords (z == 1 || z == 3) b))], t)) ([], s)
  .ok (t.variableInOrder out)

/-- The homes a store's bytes go to. -/
def Spot.homes (p : Spot) (size : Nat) : List Nat := upto p.home size

/-- A weak store of the issue set, in ascending lane order (R109, R180). -/
def State.weakStore (s : State) (z : Nat) (d : BitVec 7) (g : BitVec 5) (eas : List (Nat × DWord)) : Except Flt State := do
  let size := memSize z
  let spots ← s.checkLanes (weakAsk size g.toNat true) false eas
  s.checkWindow (spots.map fun e => (e.1, e.2.homes size))
  .ok (((spots.zip eas).foldl (fun t e =>
    let k := e.1.1
    let b := s.dataBytes k size d
    ((t.ownBins k e.1.2.home size).weakWrite k e.1.2 e.1.2.home b e.2.2.toNat).noteWrite (t.viewOfThread k) e.2.2.toNat (e.1.2.homes size) b) s))

/-- LD (R179). -/
def execLd (z : BitVec 3) (d : BitVec 7) (g : BitVec 5) (o : BitVec 9) (s : State) : Host.Outcome State Fault Refusal :=
  s.issueWord { instr := .ld z d g o, ops := [dataOpd (memSize z.toNat) d true, .g g] } fun s =>
    s.weakLoad z.toNat d g (s.eaOffset g o (memSize z.toNat))

/-- ST (R179). -/
def execSt (z : BitVec 3) (d : BitVec 7) (g : BitVec 5) (o : BitVec 9) (s : State) : Host.Outcome State Fault Refusal :=
  s.issueWord { instr := .st z d g o, ops := [dataOpd (memSize z.toNat) d false, .g g] } fun s =>
    s.weakStore z.toNat d g (s.eaOffset g o (memSize z.toNat))

/-- LDX (R179). -/
def execLdx (z : BitVec 3) (d : BitVec 7) (g : BitVec 5) (i : BitVec 7) (c : BitVec 2) (s : State) : Host.Outcome State Fault Refusal :=
  s.issueWord { instr := .ldx z d g i c, ops := [dataOpd (memSize z.toNat) d true, .g g, .src i] } fun s =>
    s.weakLoad z.toNat d g (s.eaIndexed g i c)

/-- STX (R179). -/
def execStx (z : BitVec 3) (d : BitVec 7) (g : BitVec 5) (i : BitVec 7) (c : BitVec 2) (s : State) : Host.Outcome State Fault Refusal :=
  s.issueWord { instr := .stx z d g i c, ops := [dataOpd (memSize z.toNat) d false, .g g, .src i] } fun s =>
    s.weakStore z.toNat d g (s.eaIndexed g i c)

-- Strong loads and stores.

/-- Bytes of a strong access (R181). -/
def strongSize (z : BitVec 2) : Nat := 2 ^ z.toNat

/-- An order code that releases, and one that acquires (R113). -/
def isRel (o : BitVec 2) : Bool := o.toNat / 2 == 1
def isAcq (o : BitVec 2) : Bool := o.toNat % 2 == 1

/-- The releases an order makes for every issued thread before its accesses (R102). -/
def State.orderBefore (s : State) (o : BitVec 2) (scope : Nat) : State :=
  if isRel o then s.issue.foldl (fun s k => s.release k scope) s else s

/-- The snapshot refreshes an order makes after the accesses (R102, R103). -/
def State.orderAfter (s : State) (o : BitVec 2) (scope : Nat) : State :=
  if isAcq o then s.issue.foldl (fun s k => s.refresh k scope) s else s

/-- What follows a write at a home: semaphores and slot rings. -/
def State.wrote (s : State) (p : Spot) : State :=
  let s := s.devStored p
  if p.win == .teamLocal then s.ringsMoved else s

/-- Before a strong access of `n` bytes: the core's pending bytes of the line, and the thread's own additions under way, are performed
(R98, R101). -/
def State.beforeAccess (s : State) (k : Nat) (p : Spot) (n : Nat) : State := (s.beforeStrong k p).ownBins k p.home n

/-- A strong store of one lane, with what its bytes mean to a task digest and to the rings. -/
def State.homeStore (s : State) (k : Nat) (p : Spot) (va : DWord) (b : List Byte) : State :=
  (((s.beforeAccess k p b.length).strongWrite k p b).noteWrite (s.viewOfThread k) va.toNat (p.homes b.length) b).wrote p

/-- LDS (R181). Strong accesses of one thread are performed as they issue, so those with .rlx to different locations keep program order,
which R102 leaves open (DESIGN CHOICE, log entry 123). -/
def execLds (o z : BitVec 2) (d : BitVec 7) (g : BitVec 5) (sc : BitVec 3) (s : State) : Host.Outcome State Fault Refusal :=
  s.issueWord { instr := .lds o z d g sc, place := .both, ops := [dataOpd (strongSize z) d true, .g g] } fun s => do
    let n := strongSize z
    let spots ← s.checkLanes { size := n, align := n, g := g.toNat, perm := 1, opc := 0x42 } true (s.eaPtr g.toNat)
    .ok ((spots.foldl (fun s e =>
      let s := s.beforeAccess e.1 e.2 n
      s.variable e.1 (s.toBlock e.1 d.toNat (loadWords false (s.readDev e.2 n)))) s).orderAfter o sc.toNat)

/-- STS (R181); a 4-byte release at .team or wider to a notify word is a notify (R193), and one at .die
or wider to a START word starts Torc instances (R298). -/
def execSts (o z : BitVec 2) (d : BitVec 7) (g : BitVec 5) (sc : BitVec 3) (s : State) : Host.Outcome State Fault Refusal :=
  s.issueWord { instr := .sts o z d g sc, place := .both, ops := [dataOpd (strongSize z) d false, .g g] } fun s => do
    let n := strongSize z
    let eas := s.eaPtr g.toNat
    let spots ← s.checkLanes { size := n, align := n, g := g.toNat, perm := 2, wr := true, need := { w := true }, opc := 0x43 } false eas
    s.checkWindow (spots.map fun e => (e.1, e.2.homes n))
    let rel := isRel o && n == 4 && decide (1 ≤ sc.toNat)
    let start := isRel o && n == 4 && decide (2 ≤ sc.toNat)
    .ok ((spots.zip eas).foldl (fun t e =>
      let old := leNat (t.readHomes e.1.2.home 4)
      let t := t.homeStore e.1.1 e.1.2 e.2.2 (s.dataBytes e.1.1 n d)
      let t := if rel then t.mayNotify e.1.2 else t
      if start then t.mayStart e.1.1 e.1.2 old else t) (s.orderBefore o sc.toNat))

-- Address registers.

/-- GSET (R177). -/
def execGset (u : BitVec 1) (g : BitVec 5) (a b : BitVec 7) (perm : BitVec 4) (kind : BitVec 2) (s : State) :
    Host.Outcome State Fault Refusal :=
  let opd := fun (n : BitVec 7) => if u = 1 then Opd.usrc n.toNat true else Opd.src n true
  s.issuePlain { instr := .gset u g a b perm kind, place := .both, ops := [opd a, opd b, { cls := .addr, n := g.toNat, rd := false, wr := true }] } fun s =>
    let pair := fun (e : Nat × Nat) (n : BitVec 7) => if u = 1 then s.w64 e.1 n.toNat else s.v64 e.2 n.toNat
    s.fixed 4 (s.issueGroups.flatMap fun e =>
      let f : GField := { base := pair e a, limit := (pair e b).setWidth 40, perm := perm, kind := kind }
      .gfield e.1 g.toNat f :: (s.issuedOf e.1).map fun k => .ptr k g.toNat (pair e a))

/-- BOUNDS for new pointers outside base to base + limit (R178). -/
def State.checkPointers (s : State) (g : Nat) (l : List (Nat × Int)) : Except Flt Unit :=
  let bad := l.filter fun e =>
    let f := s.gf e.1 g
    decide (e.2 < (f.base.toNat : Int)) || decide ((f.base.toNat + f.limit.toNat : Int) < e.2)
  match bad with
  | [] => .ok ()
  | e :: _ => .error { code := 0x07, info := 2, addr := BitVec.ofNat 64 (wrap 64 e.2), lanes := some (bad.map (·.1)) }

/-- The operands of the instructions that move a pointer: `rd` when they read it. -/
def ptrOpds (g : BitVec 5) (a : BitVec 7) (wide rd : Bool) : List Opd :=
  [.src a wide, { cls := .point, n := g.toNat, rd := rd, wr := true }, { cls := .fields, n := g.toNat }]

/-- GADV (R178). -/
def execGadv (g : BitVec 5) (a : BitVec 7) (w : BitVec 1) (sc : BitVec 2) (s : State) : Host.Outcome State Fault Refusal :=
  s.issueWord { instr := .gadv g a w sc, place := .both, ops := ptrOpds g a (w == 1) true } fun s => do
    let l := s.issue.map fun k =>
      let x : Int := if w = 1 then sgn 64 (s.v64 k a.toNat).toNat else sgn 32 (s.v k a.toNat).toNat
      (k, ((s.ptrOf k g.toNat).toNat : Int) + x * 2 ^ sc.toNat)
    s.checkPointers g.toNat l
    .ok (s.fixed 4 (l.map fun e => .ptr e.1 g.toNat (BitVec.ofNat 64 (wrap 64 e.2))))

/-- GPTR (R178). -/
def execGptr (g : BitVec 5) (a : BitVec 7) (s : State) : Host.Outcome State Fault Refusal :=
  s.issueWord { instr := .gptr g a, place := .both, ops := ptrOpds g a true false } fun s => do
    let l := s.issue.map fun k => (k, ((s.v64 k a.toNat).toNat : Int))
    s.checkPointers g.toNat l
    .ok (s.fixed 4 (l.map fun e => .ptr e.1 g.toNat (BitVec.ofNat 64 (wrap 64 e.2))))

/-- GGET (R178). -/
def execGget (d : BitVec 7) (g : BitVec 5) (f : BitVec 2) (s : State) : Host.Outcome State Fault Refusal :=
  s.issuePlain { instr := .gget d g f, place := .both, ops := [.dst d (f != 3), { cls := if f == 0 then .point else .fields, n := g.toNat }] } fun s =>
    s.fixed 4 (s.issue.flatMap fun k =>
      let x := s.gf k g.toNat
      if f = 3 then [s.toV k d.toNat (BitVec.ofNat 32 (x.perm.toNat + 16 * x.kind.toNat))]
      else s.toV64 k d.toNat (if f = 0 then s.ptrOf k g.toNat else if f = 1 then x.base else x.limit.setWidth 64))

end Sys2Proof.Machine
end

