-- ==== Sys2Proof/Machine/Atomics.lean ====
section
/-! DEFINITION. The meanings of the atomics and of the binned additions (R182 to R186, R383 to R385), and the bank ALU's
event. -/

namespace Sys2Proof.Machine

/-- Bytes of an atomic's access. -/
def atomSize (wide : Bool) : Nat := if wide then 8 else 4

/-- A register operand of an atomic as a number. -/
def State.atomVal (s : State) (k : Nat) (wide : Bool) (n : BitVec 7) : Nat :=
  if wide then (s.v64 k n.toNat).toNat else (s.v k n.toNat).toNat

/-- What an atomic asks for. -/
def atomAsk (wide : Bool) (g op : Nat) : Ask :=
  { size := atomSize wide, align := atomSize wide, g := g, perm := 4, wr := true, need := { w := true, at_ := true }, opc := op, nonBinned := true }

/-- The operation of ATOM on N-bit numbers (R183). -/
def atomOp (f : Nat) (signed : Bool) (len m a : Nat) : Nat :=
  let less := if signed then decide (sgn len a < sgn len m) else decide (a < m)
  let more := if signed then decide (sgn len m < sgn len a) else decide (m < a)
  if f = 0 then (m + a) % 2 ^ len
  else if f = 1 then Nat.land m a
  else if f = 2 then Nat.lor m a
  else if f = 3 then Nat.xor m a
  else if f = 4 then (if less then a else m)
  else if f = 5 then (if more then a else m)
  else a

/-- A read-modify-write of one lane at the home (R101): the old value, and the state after. A step that answers nothing
writes nothing. -/
def State.rmw (s : State) (k : Nat) (p : Spot) (va : DWord) (n : Nat) (f : Nat → Option Nat) : Nat × State :=
  let s := s.beforeAccess k p n
  let m := leNat (s.readHomes p.home n)
  match f m with
  | some x => (m, s.homeStore k p va (leBytes n x))
  | none => (m, s)

/-- The writes of an old value to D. -/
def State.oldTo (s : State) (k : Nat) (wide : Bool) (d : BitVec 7) (m : Nat) : List RegWrite :=
  if wide then s.toV64 k d.toNat (BitVec.ofNat 64 m) else [s.toV k d.toNat (BitVec.ofNat 32 m)]

/-- ATOM (R183). The lanes of an issue set are performed in one act in ascending order, so no other core's operation falls between two
of them at one location, which R94 allows (DESIGN CHOICE, log entry 122). -/
def execAtom (f : BitVec 4) (d a : BitVec 7) (g : BitVec 5) (o : BitVec 2) (sc : BitVec 3) (ty : BitVec 2) (s : State) :
    Host.Outcome State Fault Refusal :=
  let wide := decide (2 ≤ ty.toNat)
  s.issueWord { instr := .atom f d a g o sc ty, place := .both, ops := [.dst d wide, .src a wide, .g g] } fun s => do
    let n := atomSize wide
    let eas := s.eaPtr g.toNat
    let spots ← s.checkLanes (atomAsk wide g.toNat 0x46) true eas
    let notify := isRel o && decide (1 ≤ sc.toNat)
    let start := isRel o && decide (2 ≤ sc.toNat)
    .ok (((spots.zip eas).foldl (fun t e =>
      let k := e.1.1
      let (m, t) := t.rmw k e.1.2 e.2.2 n fun m => some (atomOp f.toNat (ty.toNat % 2 == 0) (8 * n) m (s.atomVal k wide a))
      let t := if notify then t.mayNotify e.1.2 else t
      let t := if start then t.mayStart k e.1.2 (m % 2 ^ 32) else t
      t.variable k (s.oldTo k wide d m)) (s.orderBefore o sc.toNat)).orderAfter o sc.toNat)

/-- ACAS (R184). With .rel or .ar the release comes before the comparison, so its publication is made whether the comparison holds or
not: R99 lists ACAS with these orders, and R184 gives a failing one the order of a read (DESIGN CHOICE, log entry 153). -/
def execAcas (d a b : BitVec 7) (g : BitVec 5) (o : BitVec 2) (sc : BitVec 3) (ty : BitVec 2) (p : BitVec 4) (s : State) :
    Host.Outcome State Fault Refusal :=
  let wide := decide (2 ≤ ty.toNat)
  s.issueWord { instr := .acas d a b g o sc ty p, place := .both
                ops := [.dst d wide, .src a wide, .src b wide, .g g, .pdst p.toNat] } fun s => do
    let n := atomSize wide
    let eas := s.eaPtr g.toNat
    let spots ← s.checkLanes (atomAsk wide g.toNat 0x47) true eas
    .ok (((spots.zip eas).foldl (fun t e =>
      let k := e.1.1
      let (m, t) := t.rmw k e.1.2 e.2.2 n fun m => if m = s.atomVal k wide a then some (s.atomVal k wide b) else none
      t.variable k (s.oldTo k wide d m ++ [.pred k p.toNat (decide (m = s.atomVal k wide a))])) (s.orderBefore o sc.toNat)).orderAfter o sc.toNat)

-- FATOM.

/-- The operation of FATOM on one element (R185). -/
def fatomElem (fmt : Fmt) (f m a : Nat) : Nat :=
  if f = 0 then (fAdd fmt .rne (fmt.decode m) (fmt.decode a)).1 else (fMinMax fmt (f == 2) m a).1

/-- The operation of FATOM by type: packed types act on each element separately. -/
def fatomOp (ty f m a : Nat) : Nat :=
  if ty = 0 then fatomElem f32 f m a
  else if ty = 1 then fatomElem f64 f m a
  else
    let fmt := if ty = 2 then f16 else b16
    fatomElem fmt f (m % 2 ^ 16) (a % 2 ^ 16) + fatomElem fmt f (m / 2 ^ 16) (a / 2 ^ 16) * 2 ^ 16

-- Binned additions.

/-- An addend as a value: .f32, .f64, or the low half of a packed register where such a type names a binned region. -/
def addendOf (ty : Nat) (x : Nat) : FVal := if ty = 0 then f32.decode x else f64.decode x

/-- One lane's GADD, checked. -/
structure GaddLane where
  k : Nat
  ea : DWord
  shadow : Spot
  r : Region
  neg : Bool
  mant : Nat
  exp : Int
  bits : Nat
  deriving DecidableEq, Repr

/-- Checks 1 to 4 of R176 for a binned addition, with the device-page check of a deterministic grid (R385); and check 5 of
its primary's page, made later. FATOM asks for atomic permission also where it is performed as a GADD (R176). The addition goes to the
shadow alone, so a Torc step that owns the primary's line does not hold it. -/
def State.checkGaddPtr (s : State) (k g : Nat) (ea : DWord) (size op : Nat) : Except AccFault (Option AccFault) :=
  match s.checkAccess k { size := size, align := size, g := g, perm := if op = 0x48 then 4 else 8, wr := true, opc := op } ea with
  | .ok _ => .ok none
  | .error f => if f.code = 0 then .ok none else if 5 ≤ f.chk then .ok (some f) else .error f

/-- The checks of one lane's binned addition, in the order of R383. -/
def State.checkGadd (s : State) (k g ty op : Nat) (ea : DWord) (bits : Nat) : Except AccFault GaddLane :=
  match s.regionAt (s.ctxOf k) ea.toNat with
  | none =>
    match s.checkGaddPtr k g ea 4 op with
    | .error f => .error f
    | .ok _ => .error { code := 0x0E, info := some 4 }
  | some r =>
    match s.checkGaddPtr k g ea r.elem op, binAddend r.e (addendOf ty bits) with
    | .error f, _ => .error f
    | .ok _, .error i => .error { code := 0x0E, info := some i }
    | .ok late, .ok (neg, m, x) =>
      let sh := r.shadowOf ea.toNat
      match s.translateFor k (s.ctxOf k) sh { w := true, bs := true }, late with
      | .error f, _ => .error f
      | .ok _, some f => .error f
      | .ok t, none =>
        .ok { k := k, ea := ea, shadow := { home := t.pa + (sh - t.va), win := .paged, entry := some t }, r := r
              neg := neg, mant := m, exp := x, bits := bits }

/-- Checks the binned additions of the lanes: each before any lane acts. -/
def State.checkGadds (s : State) (g ty op : Nat) (l : List (Nat × DWord × Nat)) : Except Flt (List GaddLane) :=
  let all := l.map fun e => (e.1, e.2.1, s.checkGadd e.1 g ty op e.2.1 e.2.2)
  let bad := all.filterMap fun e => match e.2.2 with | .error f => some (e.1, e.2.1, f) | .ok _ => none
  match laneFault bad true with
  | some f => .error f
  | none => .ok (all.filterMap fun e => match e.2.2 with | .ok x => some x | .error _ => none)

/-- One lane's GADD on its way to the bank ALU, not before a clk, or into the task's window (R310, R312, R384); the clk it is due in. -/
def State.sendGaddFrom (s : State) (t0 : Nat) (x : GaddLane) : Nat × State :=
  let (id, s) := s.newId
  let u : BinUpd := { id := id, word := s.run.id * 32 + s.run.pos, th := x.k, ctx := s.ctxOf x.k, shadow := x.shadow.home, primary := x.ea, e := x.r.e, f64 := x.r.f64
                      neg := x.neg, mant := x.mant, exp := x.exp }
  let v := s.viewOfThread x.k
  if v = 0 then
    let s := s.beforeStrong x.k x.shadow
    State.laterFrom { s with bins := s.bins ++ [u] } t0 (.bankAluBinUpdate id)
  else
    let (g, p) := viewTask v
    (t0, s.updDetTask g p fun t =>
      { t with gadds := t.gadds ++ [u], digest := t.digest + digestTerm (x.ea + BitVec.ofNat 64 (2 ^ 61)) (BitVec.ofNat 64 x.bits) })

/-- The GADDs of a word, in ascending lane order (R94, R109). -/
def State.sendGadds (s : State) (xs : List GaddLane) : State :=
  (xs.foldl (fun (a : Nat × State) x => a.2.sendGaddFrom a.1 x) (0, s)).2

/-- The charge of GADD lanes against a task's window (R310). -/
def State.checkGaddWindow (s : State) (l : List GaddLane) : Except Flt Unit := s.checkWindow (l.map fun x => (x.k, [])) 1

/-- The one fault of two sets of failing lanes: that of the lowest lane, with the lanes of both. -/
def Flt.merge (a b : Flt) : Flt :=
  if a.code = 0 then b
  else if b.code = 0 then a
  else
    let l := laneOrder (a.lanes.getD [] ++ b.lanes.getD [])
    { (if (a.lanes.getD []).contains (l.headD 0) then a else b) with lanes := some l }

/-- Both results, or the fault of the lanes of both. -/
def bothLanes {α β : Type} : Except Flt α → Except Flt β → Except Flt (α × β)
  | .ok x, .ok y => .ok (x, y)
  | .error f, .ok _ => .error f
  | .ok _, .error f => .error f
  | .error f, .error g => .error (f.merge g)

/-- FATOM (R185); in a deterministic grid .add of .f32 and .f64 on a declared region is a GADD, and every other form
raises DET_NONBINNED at a global address (R385). -/
def execFatom (f : BitVec 4) (d a : BitVec 7) (g : BitVec 5) (o : BitVec 2) (sc : BitVec 3) (ty : BitVec 2) (s : State) :
    Host.Outcome State Fault Refusal :=
  let wide := ty == 1
  s.issueWord { instr := .fatom f d a g o sc ty, ops := [.dst d wide, .src a wide, .g g] } fun s => do
    let n := atomSize wide
    let eas := s.eaPtr g.toNat
    let bin := fun (e : Nat × DWord) => s.isDet e.1 && f == 0 && decide (ty.toNat < 2) && (s.regionAt (s.ctxOf e.1) e.2.toNat).isSome
    let rest := eas.filter fun e => !bin e
    let (xs, spots) ← bothLanes (s.checkGadds g.toNat ty.toNat 0x48 ((eas.filter bin).map fun e => (e.1, e.2, s.atomVal e.1 wide a)))
      (s.checkLanes (atomAsk wide g.toNat 0x48) true rest)
    s.checkGaddWindow xs
    let t := s.orderBefore o sc.toNat
    let t := xs.foldl (fun t x => t.variable x.k (s.oldTo x.k wide d 0)) (t.sendGadds xs)
    .ok (((spots.zip rest).foldl (fun t e =>
      let k := e.1.1
      let (m, t) := t.rmw k e.1.2 e.2.2 n fun m => some (fatomOp ty.toNat f.toNat m (s.atomVal k wide a))
      t.variable k (s.oldTo k wide d m)) t).orderAfter o sc.toNat)

/-- GADD (R186). -/
def execGadd (a : BitVec 7) (g : BitVec 5) (o : BitVec 2) (sc : BitVec 3) (ty : BitVec 1) (s : State) : Host.Outcome State Fault Refusal :=
  let wide := ty == 1
  s.issueWord { instr := .gadd a g o sc ty, ops := [.src a wide, .g g] } fun s => do
    let xs ← s.checkGadds g.toNat ty.toNat 0x49 ((s.eaPtr g.toNat).map fun e => (e.1, e.2, s.atomVal e.1 wide a))
    s.checkGaddWindow xs
    .ok ((s.orderBefore o sc.toNat).sendGadds xs)

/-- BANK_ALU_BIN_UPDATE (R384); an update of a line that a Torc step owns waits for the step's write (R107). -/
def execBankAluBinUpdate (id : Nat) (s : State) : Host.Outcome State Fault Refusal :=
  -- the thread's earlier updates of the shadow come first
  match firstThat (fun u => u.id == id) s.bins with
  | some u =>
    let t := s.flushBins fun x => x.th == u.th && decide (x.id ≤ id)
    .next (if t.bins.any (fun x => x.id == id) then t.scheduleAt (s.clk + 1) (.bankAluBinUpdate id) else t)
  | none => .next s

end Sys2Proof.Machine
end

