-- ==== Sys2Proof/Machine/Tiles.lean ====
section
/-! DEFINITION. The matrix engine's parts (R71 to R75, R198 to R205, R328, R329, R394 to R398): number formats of matrix
operands, the update of an accumulator element, tile images, the takeover of a tile, and checked engine accesses of an
instruction. -/

namespace Sys2Proof.Machine

-- Checked engine accesses of an instruction.

/-- Checks 1 to 5 of R176 for an access that an engine makes through an address register: the lane store and the device
page are closed to it (R194, R376). -/
def State.engineCheck (s : State) (k : Nat) (a : Ask) (va : Nat) : Except AccFault Spot :=
  match s.checkAccess k { a with noDevice := true } (BitVec.ofNat 64 va) with
  | .error f => .error f
  | .ok p => if p.win = .laneStore then .error { code := 0x08, chk := 4 } else .ok p

/-- Whether a failure belongs to checks 1 to 4, or to the device-page rule. -/
def AccFault.early (f : AccFault) : Bool := f.chk != 5 && f.chk != 7

/-- The first failing one of some accesses of an instruction, as its fault. -/
def State.engineChecks (s : State) (k : Nat) (a : Ask) (early : Bool) : List Nat → Except Flt Unit
  | [] => .ok ()
  | va :: r =>
    match s.engineCheck k a va with
    | .error f => if early && !f.early then s.engineChecks k a early r else .error (f.engineFlt a.wr va 0)
    | .ok _ => s.engineChecks k a early r

/-- What an instruction asks of one row of an engine access of an instruction. -/
def rowAsk (bytes elem : Nat) (g : BitVec 5) (wr : Bool) : Ask :=
  { size := bytes, align := elem, g := g.toNat, perm := if wr then 2 else 1, wr := wr, need := { w := wr } }

/-- The bytes of a checked read, and whether any was poisoned. -/
def State.engineBytes (s : State) (k va n : Nat) : List Byte × Bool :=
  match s.engineRead (s.agentOf k) va n with
  | .ok r => r
  | .error _ => ([], false)

/-- The homes of a checked write. -/
def State.storeHomesOf (s : State) (k va n : Nat) : List Nat :=
  match s.engineHomes (s.agentOf k) { w := true } (parts va n) with
  | .ok hs => hs
  | .error _ => []

/-- A checked write of an instruction's engine. -/
def State.engineStore (s : State) (k va : Nat) (bs : List Byte) : State :=
  let hs := s.storeHomesOf k va bs.length
  (s.noteWrite (s.viewOfThread k) va hs bs).engineWrites (hs.zip bs)

/-- Logs a poisoned source of an engine (R388). -/
def State.poisonedSource (s : State) (k src cmd : Nat) : State := s.logEvent 0x1C 2 (s.ctxOf k) (stopOfThread k) src 0 cmd

-- Matrix operand formats.

/-- A small binary float without infinities or NaNs (R72). -/
def miniFloat (ebits mbits bias n : Nat) : FVal :=
  let neg := bit n (ebits + mbits)
  let e := field n mbits ebits
  let m := field n 0 mbits
  if e = 0 then .fin neg m (1 - (bias : Int) - mbits) else .fin neg (2 ^ mbits + m) ((e : Int) - bias - mbits)

/-- FP8 E4M3 (R72). -/
def e4m3Decode (n : Nat) : FVal := if n % 128 = 127 then .nan (bit n 7) true 0 else miniFloat 4 3 7 n

/-- FP8 E5M2 (R72). -/
def e5m2 : Fmt := ⟨8, 3, 15⟩

/-- An MX element of a selector (R72). -/
def mxElem (sel n : Nat) : FVal :=
  if sel = 1 then e4m3Decode n
  else if sel = 2 then e5m2.decode n
  else if sel = 3 then miniFloat 2 3 1 n
  else if sel = 4 then miniFloat 3 2 3 n
  else if sel = 5 then miniFloat 2 1 1 n
  else let i := sgn 8 n; .fin (decide (i < 0)) i.natAbs (-6)

/-- Bytes of an MX block (R71). -/
def mxLen (sel : Nat) : Nat := if sel = 3 ∨ sel = 4 then 26 else if sel = 5 then 18 else 34

/-- Element code j of an MX block (R71). -/
def mxCode (sel : Nat) (b : List Byte) (j : Nat) : Nat :=
  if sel = 3 ∨ sel = 4 then field (leNat ((b.drop (2 + 3 * (j / 4))).take 3)) (6 * (j % 4)) 6
  else if sel = 5 then field (b.getD (2 + j / 2) 0).toNat (4 * (j % 2)) 4
  else (b.getD (2 + j) 0).toNat

/-- A value times a power of two. -/
def FVal.scale (x : FVal) (k : Int) : FVal :=
  match x with
  | .fin n m e => .fin n m (e + k)
  | y => y

/-- The 32 values of an MX block (R71, R72). -/
def mxBlock (b : List Byte) : List FVal :=
  let sel := (b.getD 0 0).toNat
  let sc := (b.getD 1 0).toNat
  (upto 0 32).map fun j => if sc = 255 then .nan false true 0 else (mxElem sel (mxCode sel b j)).scale ((sc : Int) - 127)

/-- Elements of a K-contiguous row of floats. -/
def floatRow (f : Fmt) (b : List Byte) : List FVal :=
  let n := f.width / 8
  (upto 0 (b.length / n)).map fun j => f.decode (leNat ((b.drop (n * j)).take n))

-- Product-blocks and the update of an element (R75).

/-- The sum of a product-block. -/
inductive BlockSum where
  | nan
  | inf (neg : Bool)
  | fin (n e : Int)
  deriving DecidableEq, Repr

/-- Adds one product to a sum. -/
def BlockSum.add (s : BlockSum) (p : Option FVal) : BlockSum :=
  match s, p with
  | .nan, _ => .nan
  | _, none => .nan
  | _, some (.nan _ _ _) => .nan
  | .inf x, some (.inf y) => if x == y then .inf x else .nan
  | .inf x, _ => .inf x
  | .fin _ _, some (.inf y) => .inf y
  | .fin n e, some (.fin g m k) => let (a, b) := addExact n e (smant g m) k; .fin a b

/-- The exact sum of a product-block. -/
def blockSum (a b : List FVal) : BlockSum :=
  (a.zip b).foldl (fun s x => s.add (if x.1.isNan || x.2.isNan then none else mulExact x.1 x.2)) (.fin 0 0)

/-- The new element and whether it saturated, for a tile in EXT mode. -/
def updateExt (el : Nat) (s : BlockSum) : Nat :=
  match e80Decode el, s with
  | .nan _ _ _, _ => e80Nan
  | _, .nan => e80Nan
  | .inf x, .inf y => if x == y then e80Inf x else e80Nan
  | .inf x, .fin _ _ => e80Inf x
  | .fin _ _ _, .inf y => e80Inf y
  | .fin g m k, .fin n e => let (a, b) := addExact (smant g m) k n e; roundE80 (decide (a < 0)) a.natAbs b

/-- The same in FIX mode. -/
def updateFix (el : Nat) (anchor : Int) (s : BlockSum) : Nat × Bool :=
  let hi : Int := 2 ^ 79 - 1
  let lo : Int := -(2 ^ 79)
  match s with
  | .nan => (el, true)
  | .inf neg => (wrap 80 (if neg then lo else hi), true)
  | .fin n e =>
    let r := sgn 80 el + floorScale n (e - anchor)
    if r < lo then (wrap 80 lo, true) else if hi < r then (wrap 80 hi, true) else (wrap 80 r, false)

/-- The anchor of a tile. -/
def Acc.anchorInt (a : Acc) : Int := sgn 16 a.anchor.toNat

/-- An update of one element by one product-block. -/
def Acc.update (a : Acc) (i : Nat) (s : BlockSum) : Acc :=
  let old := (a.el.get 0 i).toNat
  if a.fix then
    let (x, sat) := updateFix old a.anchorInt s
    { a with el := a.el.put 0 i (BitVec.ofNat 80 x), sat := a.sat || sat }
  else { a with el := a.el.put 0 i (BitVec.ofNat 80 (updateExt old s)) }

/-- The exact value of an element: NaN and infinities in EXT mode, n * 2^a in FIX mode (R204). -/
def Acc.value (a : Acc) (i : Nat) : FVal :=
  let n := (a.el.get 0 i).toNat
  if a.fix then let v := sgn 80 n; .fin (decide (v < 0)) v.natAbs a.anchorInt else e80Decode n

-- Tiles and their images.

/-- The core's number of the tile that a thread names aN (R49). -/
def State.tileNo (s : State) (k n : Nat) : Nat := (s.grp (s.thr k).grp).accB + n

/-- An accumulator tile of a core. -/
def State.accOf (s : State) (core n : Nat) : Acc := (s.core core).acc.get {} n

/-- Replaces an accumulator tile. -/
def State.setAcc (s : State) (core n : Nat) (a : Acc) : State := s.updCore core fun c => { c with acc := c.acc.put {} n a }

/-- Marks elements as poisoned (R388). -/
def State.markElems (s : State) (p : EccPlace) (unit : Nat) (l : List Nat) : State :=
  { s with poisonReg := s.poisonReg ++ (l.map fun i => (p, unit, i)).filter fun e => !s.poisonReg.contains e }

/-- Whether any element of a place, of `n` from `lo` on, is poisoned. -/
def State.elemsPoisoned (s : State) (p : EccPlace) (unit lo n : Nat) : Bool :=
  !s.poisonReg.isEmpty && s.poisonReg.any fun x => x.1 == p && x.2.1 == unit && decide (lo ≤ x.2.2) && decide (x.2.2 < lo + n)

/-- Removes the poison marks of written elements (R387). -/
def State.cleanElems (s : State) (p : EccPlace) (unit lo n : Nat) : State :=
  if s.poisonReg.isEmpty then s
  else { s with poisonReg := s.poisonReg.filter fun x => !(x.1 == p && x.2.1 == unit && decide (lo ≤ x.2.2) && decide (x.2.2 < lo + n)) }

/-- ECC_UNCORR of a read of poisoned elements (R388). -/
def State.checkElems (s : State) (p : EccPlace) (unit lo n info : Nat) : Except Flt Unit :=
  if s.elemsPoisoned p unit lo n then .error { code := 0x1C, cls := 2, info := info } else .ok ()

/-- Writes a whole accumulator tile: its old marks go, and the elements in `bad` are poisoned (R387, R388). -/
def State.replaceAcc (s : State) (core n : Nat) (a : Acc) (bad : List Nat := []) : State :=
  ((s.setAcc core n a).cleanElems .acc core (1024 * n) 1024).markElems .acc core (bad.map (1024 * n + ·))

/-- The header of a saved tile, with SAVED (R205, R328). -/
def Acc.header (a : Acc) (saved : Nat) : List Byte :=
  [BitVec.ofNat 8 (b2n a.fix), BitVec.ofNat 8 (b2n a.sat)] ++ leBytes 2 a.anchor.toNat ++ leBytes 1 saved ++ leBytes 11 0

/-- The image of a tile with its header: 10,256 bytes (R53, R205). -/
def Acc.image (a : Acc) (saved : Nat) : List Byte :=
  ((upto 0 1024).flatMap fun i => leBytes 10 (a.el.get 0 i).toNat) ++ a.header saved

/-- An element as a restore leaves it: in EXT mode a non-canonical encoding is the e80 default NaN (R73). -/
def restored (fix : Bool) (n : Nat) : Nat := if fix || e80Canonical n then n else e80Nan

/-- The tile that an image holds. -/
def accOfImage (b : List Byte) (owner : Option Nat) : Acc :=
  let h := b.drop 10240
  let fix := h.getD 0 0 == 1
  { fix := fix, sat := h.getD 1 0 != 0, anchor := BitVec.ofNat 16 (leNat ((h.drop 2).take 2)), owner := owner
    el := (upto 0 1024).foldl (fun t i => t.put 0 i (BitVec.ofNat 80 (restored fix (leNat ((b.drop (10 * i)).take 10))))) [] }

/-- The bytes of a tile register (R53): with rows still to land, the old or the new ones. -/
def State.tileBytes (s : State) (g t : Nat) : List Byte :=
  let tile := s.tileReg g t
  (upto 0 1024).flatMap fun i => leBytes 2 (tile.get 0 (1024 * t + i)).toNat

/-- Whether a read of a tile register finds poison: on what has landed, or on the rows still to land, as `tileBytes` reads (R388). -/
def State.tileBad (s : State) (g t : Nat) : Bool :=
  let rows := s.pend.flatMap fun p => p.writes.filterMap fun w => match w with
    | .tile h row _ bad => if h == g && row / 32 == t then some (row, bad) else none
    | _ => none
  if !rows.isEmpty && s.coinFor (1024 + t)
  then rows.any (·.2) || (upto (32 * t) 32).any fun row => s.elemsPoisoned .tile g (32 * row) 32 && !(rows.any fun r => r.1 == row)
  else s.elemsPoisoned .tile g (1024 * t) 1024

/-- Writes of whole rows of a tile register, in flight until they land (R59, R198); their results bear the name of the group's first
thread. `bad` marks rows whose source was poisoned. -/
def State.tileRows (s : State) (g t : Nat) (rows : List (Nat × List Nat × Bool)) : State :=
  s.variable g (rows.map fun r => .tile g (32 * t + r.1) (r.2.1.map (BitVec.ofNat 16)) r.2.2)

-- The takeover of a tile (R328, R329, R398).

/-- The slot of a tile in a context's accumulator area. -/
def State.accSlot (s : State) (ctx core n : Nat) : Nat := ((s.cx ctx).accb.toNat + 10256 * (16 * core + n)) % 2 ^ 64

/-- Whether a slot cannot serve: it lies in a window, does not translate, or lacks W. -/
def State.slotBad (s : State) (k ctx va : Nat) : Bool :=
  decide (teamBase ≤ va + 10255) || (s.engineFault { unit := k, ctx := ctx } { w := true } va 10256).isSome

/-- The elements of a tile image at an address whose bytes are poisoned; a poisoned header spoils them all (R387; DESIGN CHOICE, log entry
135). -/
def State.imageBad (s : State) (me : Agent) (va : Nat) : List Nat :=
  let bad := fun (a n : Nat) => match s.engineRead me a n with | .ok r => r.2 | .error _ => false
  if !bad va 10256 then [] else if bad (va + 10240) 16 then upto 0 1024 else (upto 0 1024).filter fun i => bad (va + 10 * i) 10

/-- Writes a tile to its owner's slot with SAVED 1; poisoned elements are written poisoned (R329, R387). -/
def State.spillTile (s : State) (core n : Nat) (owner : Agent) (va : Nat) : State :=
  let bad := (upto 0 1024).filter fun i => s.elemsPoisoned .acc core (1024 * n + i) 1
  let t := s.engineWrite owner va ((s.accOf core n).image 1)
  bad.foldl (fun t i => match t.engineHomes owner { w := true } (parts (va + 10 * i) 10) with
    | .ok hs => hs.foldl (fun t h => t.markPoison h 1) t
    | .error _ => t) t

/-- Ownership of a tile before an instruction acts on it (R329): `k` is a thread of the taking context. The header is read before
the old owner is spilled, the elements after it, and only when SAVED is 1. A poisoned header raises no ACC_OWNER (R398): it is a poisoned
source, which spoils every element of the tile (R388; DESIGN CHOICE, log entry 135). -/
def State.takeover (s : State) (k n : Nat) : Except Flt State :=
  let core := coreOfThread k
  let c := s.ctxOf k
  let a := s.accOf core n
  let va := s.accSlot c core n
  let me : Agent := { unit := k, ctx := c }
  let owner : Flt := { code := 0x10, info := n, sup := true }
  if a.owner = some c then .ok s
  else if (s.cx c).accb = 0 then .error owner
  else if s.slotBad k c va then .error { owner with addr := BitVec.ofNat 64 va }
  else
    let get : State → Nat → Nat → List Byte := fun s a n => match s.engineRead me a n with | .ok r => r.1 | .error _ => []
    let h := get s (va + 10240) 16
    let spoiled := match s.engineRead me (va + 10240) 16 with | .ok r => r.2 | .error _ => false
    let saved := h.getD 4 0 == 1
    if saved && !spoiled && (decide (1 < (h.getD 0 0).toNat) || (h.drop 5).any (· != 0)) then .error { owner with addr := BitVec.ofNat 64 va }
    else
      let spill : Except Flt State := match a.owner with
        | none => .ok s
        | some o =>
          let ov := s.accSlot o core n
          if s.slotBad k o ov then .error { owner with addr := BitVec.ofNat 64 ov }
          else .ok (s.spillTile core n { unit := k, ctx := o } ov)
      match spill with
      | .error f => .error f
      | .ok s =>
        let s := s.keepWay me { w := true } va 10256
        let bad := if saved then s.imageBad me va else if spoiled then upto 0 1024 else []
        let t := if saved then (s.replaceAcc core n (accOfImage (get s va 10256) (some c)) bad).engineWrite me (va + 10244) [0]
          else s.replaceAcc core n { owner := some c } bad
        .ok (if bad.isEmpty then t else t.poisonedSource k 2 0)

end Sys2Proof.Machine
end

