-- ==== Sys2Proof/Machine/Binned.lean ====
section
/-! DEFINITION. The meanings of BINCTL (R206, R207, R399): declaring, finalising and freeing binned regions. -/

namespace Sys2Proof.Machine

/-- Whether the 32 bytes of a region descriptor break R206. -/
def regionBad (b : List Byte) : Bool :=
  let n := entryNat b 0x10 4
  let e := sgn 16 (entryNat b 0x14 2)
  let ty := entryNat b 0x16 1
  let prim := entryNat b 0 8
  let sh := entryNat b 8 8
  let sz := if ty = 1 then 8 else 4
  n == 0 || decide (e < -2048) || decide (2047 < e) || decide (1 < ty) || prim % sz != 0 || sh % 32 != 0
    || decide (teamBase < prim + n * sz) || decide (teamBase < sh + 32 * n) || (b.drop 0x17).any (· != 0)

/-- The region of a descriptor. -/
def regionOf (b : List Byte) : Region :=
  { primary := BitVec.ofNat 64 (entryNat b 0 8), shadow := BitVec.ofNat 64 (entryNat b 8 8), count := entryNat b 0x10 4
    e := sgn 16 (entryNat b 0x14 2), f64 := entryNat b 0x16 1 == 1 }

/-- The primary and shadow ranges of a region. -/
def Region.ranges (r : Region) : List (Nat × Nat) :=
  [(r.primary.toNat, r.primary.toNat + r.count * r.elem), (r.shadow.toNat, r.shadow.toNat + 32 * r.count)]

/-- Whether two ranges overlap. -/
def rangesMeet (a b : Nat × Nat) : Bool := decide (a.1 < b.2) && decide (b.1 < a.2)

/-- Whether a region overlaps itself or another declared entry of its context (R399). -/
def State.regionMeets (s : State) (ctx id : Nat) (r : Region) : Bool :=
  let others := ((s.cx ctx).regions.filterMap fun e => if e.1 = id then none else e.2).flatMap Region.ranges
  (match r.ranges with | [a, b] => rangesMeet a b | _ => false) || r.ranges.any fun a => others.any (rangesMeet a)

/-- Writes an entry of a context's region table, as a release at .pkg: of the group's lowest issued thread, whose pointer names the
descriptor; R207 does not say of which threads (DESIGN CHOICE, log entry 154). -/
def State.putRegion (s : State) (k id : Nat) (r : Option Region) : State :=
  (s.release k 3).updCx (s.ctxOf k) fun c => { c with regions := c.regions.put none id r }

/-- BINCTL.decl (R207). -/
def execBinctlDecl (id : BitVec 6) (g : BitVec 5) (s : State) : Host.Outcome State Fault Refusal :=
  s.issueMany { instr := .binctlDecl id g, ops := [.g g], det := some 0x57 } fun s =>
    s.perGroup (fun s _ k => do
      let va := (s.ptrOf k g.toNat).toNat
      s.engineChecks k (rowAsk 32 1 g false) false [va]
      let (b, p) := s.engineBytes k va 32
      if p then .error { code := 0x1C, cls := 2, addr := BitVec.ofNat 64 va }
      else if regionBad b then .error { code := 0x02, info := 0x20 }
      else if s.regionMeets (s.ctxOf k) id.toNat (regionOf b) then .error { code := 0x0E, info := 7 }
      else .ok (s.putRegion k id.toNat (some (regionOf b))))

/-- BINCTL.free (R207, R399): an entry that is not declared stays so, with no effect. -/
def execBinctlFree (id : BitVec 6) (s : State) : Host.Outcome State Fault Refusal :=
  s.issuePlain { instr := .binctlFree id, det := some 0x57 } fun s => s.issueGroups.foldl (fun s e =>
    if ((s.cx (s.ctxOf e.2)).regions.get none id.toNat).isSome then s.putRegion e.2 id.toNat none else s) s

/-- One element to finalise: the shadow's and the primary's places. -/
structure FinElem where
  k : Nat
  shadow : Spot
  primary : Spot
  va : DWord
  deriving DecidableEq, Repr

/-- The place of a translated address, with what an access needs. -/
def State.pagedSpot (s : State) (k va : Nat) (n : Need) : Except AccFault Spot :=
  match s.translateFor k (s.ctxOf k) va n with
  | .error f => .error f
  | .ok t => .ok { home := t.pa + (va - t.va), win := .paged, uncached := t.uncached, entry := some t }

/-- The places of some elements of one lane. -/
def State.finElems (s : State) (k : Nat) (r : Region) : List Nat → Except (DWord × AccFault) (List FinElem)
  | [] => .ok []
  | i :: l =>
    let sh := r.shadow.toNat + 32 * i
    let pr := r.primary.toNat + r.elem * i
    match s.pagedSpot k sh { w := true, bs := true }, s.pagedSpot k pr { w := true } with
    | .error f, _ => .error (BitVec.ofNat 64 sh, f)
    | _, .error f => .error (BitVec.ofNat 64 pr, f)
    | .ok a, .ok b =>
      match s.finElems k r l with
      | .error f => .error f
      | .ok es => .ok ({ k := k, shadow := a, primary := b, va := BitVec.ofNat 64 pr } :: es)

/-- One lane's elements, or why they fail (R399). -/
def State.finLane (s : State) (r : Region) (a b : BitVec 7) (k : Nat) : Except (DWord × AccFault) (List FinElem) :=
  let lo := (s.v k a.toNat).toNat
  let n := (s.v k b.toNat).toNat
  if r.count < lo + n then .error (BitVec.ofNat 64 (r.primary.toNat + r.count * r.elem), { code := 0x07, chk := 2 })
  else s.finElems k r (upto lo n)

/-- Finalises one element at its shadow's home (R78, R207, R388). -/
def State.finalise (s : State) (r : Region) (clear : Bool) (x : FinElem) : State :=
  if s.isPoisoned x.shadow.home 32 then
    s.logRecord { code := 0x1C, cls := 2, ctx := s.ctxOf x.k, stop := stopOfThread x.k, slot := slotOfThread x.k
                  layer := layerOfThread x.k, lanes := laneMask [x.k], src := 9, addr := x.va, hbt := s.hbt }
  else
    let s := s.beforeStrong x.k x.shadow
    let n := binCount r.f64
    let v := binRound r.e r.f64 (binsOf n (s.readHomes x.shadow.home (8 * n)))
    let s := if clear then s.strongWrite x.k x.shadow (leBytes (8 * n) 0) else s
    s.strongWrite x.k x.primary (leBytes r.elem v)

/-- What one group of a BINCTL.fin has to finalise, with the region, or why it fails; a group that meets a line that a Torc step owns waits,
which code 0 stands for (R107, R399). -/
def State.finGroup (s : State) (id : Nat) (a b : BitVec 7) (g k : Nat) : Except Flt (List (Region × FinElem)) :=
  match (s.cx (s.ctxOf k)).regions.get none id with
  | none => .error { code := 0x0E, info := 6 }
  | some r =>
    let all := (s.issuedOf g).map fun m => (m, s.finLane r a b m)
    let bad := all.filterMap fun e => match e.2 with | .error (va, f) => some (e.1, va, f) | .ok _ => none
    match laneFault bad true with
    | some f => .error f
    | none =>
      let xs := all.flatMap fun e => match e.2 with | .ok l => l | .error _ => []
      if s.torcOwns (xs.flatMap fun x => upto x.shadow.home 32 ++ upto x.primary.home r.elem) then .error { code := 0 }
      else .ok (xs.map fun x => (r, x))

/-- BINCTL.fin and BINCTL.finclr (R207): every group is checked, a failing one finalises nothing, and the others' elements are
finalised in ascending lane order, whatever their groups (R109). -/
def State.finAll (s : State) (id : Nat) (a b : BitVec 7) (clear : Bool) : State × List Flt :=
  let gs := s.issueGroups.map fun e => (e.1, s.finGroup id a b e.1 e.2)
  let bad := gs.filterMap fun e => match e.2 with | .error f => some (e.1, f) | .ok _ => none
  if bad.any fun e => e.2.code == 0 then (s, [{ code := 0 }])
  else
    let xs := gs.flatMap fun e => match e.2 with | .ok l => l | .error _ => []
    let ks := laneOrder (dedup (xs.map fun x => x.2.k))
    let t := s.flushBins fun u => ks.contains u.th
    let inOrder := ks.flatMap fun k => xs.filter fun x => x.2.k == k
    (inOrder.foldl (fun t x => t.finalise x.1 clear x.2) t, s.groupFault bad)

/-- BINCTL.fin (R207). -/
def execBinctlFin (id : BitVec 6) (a b : BitVec 7) (s : State) : Host.Outcome State Fault Refusal :=
  s.issueMany { instr := .binctlFin id a b, ops := [.src a, .src b], det := some 0x57 } fun s => .ok (s.finAll id.toNat a b false)

/-- BINCTL.finclr (R207). -/
def execBinctlFinclr (id : BitVec 6) (a b : BitVec 7) (s : State) : Host.Outcome State Fault Refusal :=
  s.issueMany { instr := .binctlFinclr id a b, ops := [.src a, .src b], det := some 0x57 } fun s => .ok (s.finAll id.toNat a b true)

end Sys2Proof.Machine
end

