-- ==== Sys2Proof/Machine/Sync.lean ====
section
/-! DEFINITION. The meanings of the fences, barriers and slot-ring instructions (R106, R187 to R191, R380), and the events
that end a fence, a barrier phase, a publication or a sleep. -/

namespace Sys2Proof.Machine

-- Fences.

/-- A release fence of every issued thread (R102). -/
def State.releaseAll (s : State) (scope : Nat) : State := s.issue.foldl (fun s k => s.release k scope) s

/-- An acquire fence of every issued thread (R102, R103). -/
def State.acquireAll (s : State) (scope : Nat) : State := s.issue.foldl (fun s k => s.refresh k scope) s

/-- PHASE (R187). -/
def execPhase (sc : BitVec 3) (s : State) : Host.Outcome State Fault Refusal :=
  s.issuePlain { instr := .phase sc } fun s => (s.releaseAll sc.toNat).acquireAll sc.toNat

/-- PHASE.pub (R187). -/
def execPhasePub (sc : BitVec 3) (s : State) : Host.Outcome State Fault Refusal :=
  s.issuePlain { instr := .phasePub sc } fun s => s.releaseAll sc.toNat

/-- PHASE.acq (R187). -/
def execPhaseAcq (sc : BitVec 3) (s : State) : Host.Outcome State Fault Refusal :=
  s.issuePlain { instr := .phaseAcq sc } fun s => s.acquireAll sc.toNat

/-- FENCESC (R106, R188): the drain, then the wait for heartbeat h + 2; later words of the run wait with it. -/
def execFencesc (s : State) : Host.Outcome State Fault Refusal :=
  s.issuePlain { instr := .fencesc, place := .both } fun s =>
    let h := s.beats + 2
    let s := s.releaseAll 4
    let s := s.issue.foldl (fun s k => (s.updThr k fun t => { t with fence := some h }).scheduleAt (64 * h) (.fencescComplete k)) s
    let r := s.run
    s.setRun { r with clk := Nat.max r.clk (64 * h) }

/-- FENCESC_COMPLETE (R106). -/
def execFencescComplete (th : Nat) (s : State) : Host.Outcome State Fault Refusal :=
  match (s.thr th).fence with
  | some h => if h ≤ s.beats then .next ((s.updThr th fun t => { t with fence := none }).refresh th 4) else .next s
  | none => .next s

/-- PUBLICATION_COMPLETE (R99). -/
def execPublicationComplete (core : Nat) (s : State) : Host.Outcome State Fault Refusal := .next (s.finishPublications core).ringsMoved

-- Barriers.

/-- The number of a barrier in a thread's own records. -/
def barOf (sc : BitVec 1) (i : BitVec 4) : Nat := 16 * sc.toNat + i.toNat

/-- BAR.arrive (R38, R189). -/
def execBarArrive (sc : BitVec 1) (i : BitVec 4) (s : State) : Host.Outcome State Fault Refusal :=
  s.issuePlain { instr := .barArrive sc i } fun s => s.issue.foldl (fun s k => s.arrive k (barOf sc i)) s

/-- The issued threads wait at a barrier. -/
def State.waitAtBar (s : State) (b : Nat) : State := s.issue.foldl (fun s k => s.updThr k fun t => { t with barWait := some b }) s

/-- BAR.wait (R38, R189). -/
def execBarWait (sc : BitVec 1) (i : BitVec 4) (s : State) : Host.Outcome State Fault Refusal :=
  s.issuePlain { instr := .barWait sc i } fun s => s.waitAtBar (barOf sc i)

/-- BAR.sync (R38, R189). -/
def execBarSync (sc : BitVec 1) (i : BitVec 4) (s : State) : Host.Outcome State Fault Refusal :=
  s.issuePlain { instr := .barSync sc i } fun s => (s.issue.foldl (fun s k => s.arrive k (barOf sc i)) s).waitAtBar (barOf sc i)

/-- BARRIER_RELEASE (R39). -/
def execBarrierRelease (isTeam : Bool) (owner bar : Nat) (s : State) : Host.Outcome State Fault Refusal :=
  let o : BarOf := { grp := owner, team := owner }
  if isTeam && !((s.team owner).bars.get {} bar).releasing then .next s
  else
    let b := if isTeam then 16 + bar else bar
    .next (s.releasePhase o b (s.heldFuel o b))

-- Slot rings.

/-- The block of one lane: checks 1 to 4 of R176 with the rule that it lies in team-local memory (R191). -/
def State.blockSpot (s : State) (k g : Nat) (ea : DWord) : Except AccFault Spot :=
  let notLocal : AccFault := { code := 0x08, chk := 4 }
  match s.checkAccess k { size := 128, align := 128, g := g, perm := 3, wr := true, need := { w := true }, weak := true } ea with
  | .error f => if f.chk ≤ 3 ∨ winOf ea.toNat = .teamLocal then .error f else .error notLocal
  | .ok p => if p.win = .teamLocal then (if s.isPoisoned p.home 128 then .error { code := 0x1C, cls := 2 } else .ok p) else .error notLocal

/-- Why one lane's operation on a block fails (R380); `slot` is the slot that SLREL (false) and SLCOMMIT (true) name. -/
def State.blockBad (s : State) (p : Spot) (slot : Option (Nat × Bool)) : Option Nat :=
  if s.ringBad p.home then some 3
  else
    match slot with
    | none => none
    | some (n, fill) =>
      if s.ringSlots p.home ≤ n then some 2
      else if s.slotState p.home n ≠ (if fill then 1 else 3) then some 1 else none

/-- The checks of a slot-ring instruction for every lane. -/
def State.checkBlocks (s : State) (g : Nat) (slot : Nat → Option (Nat × Bool)) : Except Flt (List (Nat × Spot)) :=
  let all := (s.eaPtr g).map fun e =>
    (e.1, e.2, match s.blockSpot e.1 g e.2 with
      | .error f => Except.error f
      | .ok p =>
        match (s.beforeStrong e.1 p).blockBad p (slot e.1) with
        | some i => .error ({ code := 0x02, info := some i } : AccFault)
        | none => .ok p)
  let bad := all.filterMap fun e => match e.2.2 with | .error f => some (e.1, e.2.1, f) | .ok _ => none
  match laneFault bad true with
  | some f => .error f
  | none => .ok (all.filterMap fun e => match e.2.2 with | .ok p => some (e.1, p) | .error _ => none)

/-- A thread waits at the word just performed, from the trailer on. -/
def State.blockAt (s : State) (k : Nat) (w : Wait) : State :=
  let r := s.run
  let (id, s) := s.newId
  { s with waiters := s.waiters ++ [k] }.updThr k fun t => { t with nextWait := some w, blkPc := r.pc, blkPos := r.pos, arr := id }

/-- One lane's claim, or its wait (R191). Every lane claims a slot of its own, as R191 says; the listing of R350 is written as if an
issue set claimed one (DEDUCED, log entry 129). -/
def State.claimOrWait (s : State) (fill : Bool) (d : BitVec 7) (k : Nat) (p : Spot) : State :=
  let s := s.beforeStrong k p
  if s.claimable p.home fill then
    let (v, s) := (s.dropLine k p.home 128).ringClaim p.home fill
    (s.variable k [s.toV k d.toNat (BitVec.ofNat 32 v)]).refresh k (if fill then 1 else 2)
  else s.blockAt k (.ring fill p.home d.toNat)

/-- SLWAIT (R191). -/
def execSlwait (d : BitVec 7) (g : BitVec 5) (s : State) : Host.Outcome State Fault Refusal :=
  s.issueWord { instr := .slwait d g, ops := [.dst d, .g g] } fun s => do
    let spots ← s.checkBlocks g.toNat fun _ => none
    .ok (spots.foldl (fun s e => s.claimOrWait false d e.1 e.2) s).ringsMoved

/-- SLFREE (R191). -/
def execSlfree (d : BitVec 7) (g : BitVec 5) (s : State) : Host.Outcome State Fault Refusal :=
  s.issueWord { instr := .slfree d g, ops := [.dst d, .g g] } fun s => do
    let spots ← s.checkBlocks g.toNat fun _ => none
    .ok (spots.foldl (fun s e => s.claimOrWait true d e.1 e.2) s).ringsMoved

/-- One lane's SLREL or SLCOMMIT, a release at .team. -/
def State.putSlot (s : State) (fill : Bool) (k : Nat) (p : Spot) (n : Nat) : State :=
  let s := ((s.release k 1).beforeStrong k p).dropLine k p.home 128
  (s.ringPut p.home n fill).runRings

/-- The slot a lane names in B [7:0]. -/
def State.slotOf (s : State) (b : BitVec 7) (k : Nat) : Nat := (s.v k b.toNat).toNat % 256

/-- SLREL (R191). -/
def execSlrel (g : BitVec 5) (b : BitVec 7) (s : State) : Host.Outcome State Fault Refusal :=
  s.issueWord { instr := .slrel g b, ops := [.g g, .src b] } fun s => do
    let spots ← s.checkBlocks g.toNat fun k => some (s.slotOf b k, false)
    .ok (spots.foldl (fun t e => t.putSlot false e.1 e.2 (s.slotOf b e.1)) s).ringsMoved

/-- SLCOMMIT (R191). -/
def execSlcommit (g : BitVec 5) (b : BitVec 7) (s : State) : Host.Outcome State Fault Refusal :=
  s.issueWord { instr := .slcommit g b, ops := [.g g, .src b] } fun s => do
    let spots ← s.checkBlocks g.toNat fun k => some (s.slotOf b k, true)
    .ok (spots.foldl (fun t e => t.putSlot true e.1 e.2 (s.slotOf b e.1)) s).ringsMoved

/-- SLEEP_WAKE (R154). -/
def execSleepWake (th : Nat) (s : State) : Host.Outcome State Fault Refusal :=
  match (s.thr th).wait with
  | .asleep 0 => .next (s.updThr th fun t => { t with wait := .ready })
  | _ => .next s

end Sys2Proof.Machine
end

