-- ==== Sys2Proof/Machine/Control.lean ====
section
/-! DEFINITION. The meanings of the branches, calls, window, status-register and system instructions (R62, R63, R140 to
R144, R152 to R155). -/

namespace Sys2Proof.Machine

/-- NOP (R152). -/
def execNop (s : State) : Host.Outcome State Fault Refusal := s.issuePlain { instr := .nop, place := .both } fun s => s

/-- The issued threads that take a control instruction (R140). -/
def State.takers (s : State) (n : BitVec 1) (p : BitVec 4) : List Nat :=
  s.issue.filter fun k => s.p k p.toNat != (n == 1)

/-- The address of the word being performed. -/
def State.wordAddr (s : State) : Nat := s.run.pc.toNat + 4 * (s.run.pos + 1)

/-- The fall-through address of the run. -/
def State.fallThrough (s : State) : Nat := s.run.pc.toNat + 4 * (s.run.words.length + 3)

/-- A branch-format target: the branch word plus 4 * OFF20 (R140). -/
def State.relTarget (s : State) (o : BitVec 20) : DWord :=
  BitVec.ofNat 64 (wrap 64 ((s.wordAddr : Int) + 4 * sgn 20 o.toNat))

/-- Whether an address may be branched to (R143): word-aligned, with bits [63:57] zero. -/
def targetOk (t : DWord) : Bool := t.toNat % 4 == 0 && decide (t.toNat < 2 ^ 57)

/-- ALIGN of one thread's target (R143). -/
def targetFault (t : DWord) : Option Flt := if targetOk t then none else some { code := 0x06, addr := t }

/-- A check made lane by lane: the lowest failing lane decides (R371). -/
def byLane {α : Type} (f : α → Option Flt) (l : List α) : Except Flt Unit :=
  match l.findSome? f with
  | some x => .error x
  | none => .ok ()

/-- ALIGN at the branch, with the lowest failing lane's target (R143). -/
def checkTargets (l : List (Nat × DWord)) : Except Flt Unit := byLane (fun e => targetFault e.2) l

/-- Sends threads to their targets at the end of the run. -/
def State.goTo (s : State) (l : List (Nat × DWord)) : State := l.foldl (fun s e => s.updThr e.1 fun t => { t with nextPc := some e.2 }) s

/-- CALL_STACK_OVF of a thread's push (R142, R378). -/
def State.pushFault (s : State) (k : Nat) : Option Flt :=
  if (s.thr k).csp < 8 then some { code := 0x0C, addr := BitVec.ofNat 64 (wrap 64 ((laneBase : Int) + (s.thr k).csp - 8)) } else none

/-- The checks of a call: the lowest failing lane decides, and within a lane ALIGN comes before CALL_STACK_OVF, of which R143 gives
no order (DESIGN CHOICE, log entry 126). -/
def State.checkCalls (s : State) (l : List (Nat × DWord)) : Except Flt Unit :=
  byLane (fun e => (targetFault e.2).or (s.pushFault e.1)) l

/-- A call frame (R142). -/
def State.frameOf (s : State) (k : Nat) : Nat := s.fallThrough % 2 ^ 57 + (s.thr k).winb / 16 % 16 * 2 ^ 57

/-- Pushes the frames of calling threads (R142). -/
def State.pushFrames (s : State) (ks : List Nat) : State :=
  ks.foldl (fun s k =>
    let c := (s.thr k).csp - 8
    (s.storeHomes (s.laneHome k c) (leBytes 8 (s.frameOf k))).updThr k fun t => { t with csp := c }) s

/-- The frame a RET pops. -/
def State.topFrame (s : State) (k : Nat) : Nat := leNat (s.readHomes (s.laneHome k (s.thr k).csp) 8)

/-- The return address of a frame. -/
def frameAddr (f : Nat) : DWord := BitVec.ofNat 64 (f % 2 ^ 57)

/-- BR (R141). -/
def execBr (n : BitVec 1) (p : BitVec 4) (o : BitVec 20) (s : State) : Host.Outcome State Fault Refusal :=
  s.issueWord { instr := .br n p o, place := .both, ops := [.psrc p.toNat] } fun s => do
    let l := (s.takers n p).map fun k => (k, s.relTarget o)
    checkTargets l
    .ok (s.goTo l)

/-- BRI (R141). -/
def execBri (n : BitVec 1) (p : BitVec 4) (a : BitVec 7) (s : State) : Host.Outcome State Fault Refusal :=
  s.issueWord { instr := .bri n p a, place := .both, ops := [.psrc p.toNat, .src a true] } fun s => do
    let l := (s.takers n p).map fun k => (k, s.v64 k a.toNat)
    checkTargets l
    .ok (s.goTo l)

/-- CALL (R141, R142). -/
def execCall (n : BitVec 1) (p : BitVec 4) (o : BitVec 20) (s : State) : Host.Outcome State Fault Refusal :=
  s.issueWord { instr := .call n p o, place := .both, ops := [.psrc p.toNat] } fun s => do
    let l := (s.takers n p).map fun k => (k, s.relTarget o)
    s.checkCalls l
    .ok ((s.pushFrames (s.takers n p)).goTo l)

/-- CALLI (R141, R142). -/
def execCalli (n : BitVec 1) (p : BitVec 4) (a : BitVec 7) (s : State) : Host.Outcome State Fault Refusal :=
  s.issueWord { instr := .calli n p a, place := .both, ops := [.psrc p.toNat, .src a true] } fun s => do
    let l := (s.takers n p).map fun k => (k, s.v64 k a.toNat)
    s.checkCalls l
    .ok ((s.pushFrames (s.takers n p)).goTo l)

/-- Why a thread's RET fails: CALL_STACK_OVF, a poisoned frame, or ALIGN, in this order within a lane (R142, R143, R388; the order is
log entry 126). -/
def State.retFault (s : State) (k : Nat) : Option Flt :=
  let at_ : DWord := BitVec.ofNat 64 (laneBase + (s.thr k).csp)
  if (s.thr k).laneSz < (s.thr k).csp + 8 then some { code := 0x0C, addr := at_ }
  else if s.isPoisoned (s.laneHome k (s.thr k).csp) 8 then some { code := 0x1C, cls := 2, addr := at_ }
  else targetFault (frameAddr (s.topFrame k))

/-- RET (R141, R142): the window base of the frame comes back after the trailer. -/
def execRet (n : BitVec 1) (p : BitVec 4) (s : State) : Host.Outcome State Fault Refusal :=
  s.issueWord { instr := .ret n p, place := .both, ops := [.psrc p.toNat] } fun s => do
    let ks := s.takers n p
    byLane s.retFault ks
    .ok (ks.foldl (fun s k =>
      let f := s.topFrame k
      s.updThr k fun t => { t with csp := t.csp + 8, nextPc := some (frameAddr f), nextWinb := some (16 * field f 57 4) }) s)

/-- EXIT (R24, R141): the thread exits at the trailer; its tape's header must find room in its task's window (R259, R310, R420). -/
def execExit (n : BitVec 1) (p : BitVec 4) (s : State) : Host.Outcome State Fault Refusal :=
  s.issueWord { instr := .exit n p, place := .both, ops := [.psrc p.toNat] } fun s => do
    s.checkWindow ((s.takers n p).map fun k => (k, s.headerHomes k))
    .ok ((s.takers n p).foldl (fun s k => s.updThr k fun t => { t with nextWait := some .exited }) s)

/-- YIELD (R31, R141). -/
def execYield (n : BitVec 1) (p : BitVec 4) (s : State) : Host.Outcome State Fault Refusal :=
  s.issuePlain { instr := .yield n p, place := .both, ops := [.psrc p.toNat] } fun s =>
    (s.takers n p).foldl (fun s k => s.updThr k fun t => { t with yielded := true }) s

/-- The window base WINB gives a thread (R144). -/
def State.newBase (s : State) (k : Nat) (rel : BitVec 1) (i : BitVec 11) : Int :=
  sgn 11 i.toNat + (if rel = 1 then ((s.thr k).winb : Int) else 0)

/-- WINB (R144): from the next word on. The value that breaks its rule is the immediate, which is no register name: INFO has its low 7
bits and class 0 (DEDUCED, log entry 149). -/
def execWinb (rel : BitVec 1) (i : BitVec 11) (s : State) : Host.Outcome State Fault Refusal :=
  s.issueWord { instr := .winb rel i } fun s =>
    if s.issue.any fun k => let b := s.newBase k rel i; decide (b < 0) || decide (240 < b) || b % 16 != 0
    then .error { code := 0x03, info := i.toNat % 128 }
    else .ok (s.issue.foldl (fun s k => s.updThr k fun t => { t with winb := (s.newBase k rel i).toNat }) s)

-- Status registers (R62, R63).

/-- sr.detctl (R307). -/
def State.detctl (s : State) (k : Nat) : Nat :=
  let g := s.grid (s.team (s.thr k).team).grid
  match g.det with
  | none => 0
  | some d => g.desc.det - 1 + 2 ^ 8 + b2n d.replay * 2 ^ 9

/-- sr.accownN: the owner of a tile, or bit [31]. -/
def State.accown (s : State) (core n : Nat) : Nat :=
  match ((s.core core).acc.get {} n).owner with
  | some c => c
  | none => 2 ^ 31 + ((s.core core).acc.get {} n).was

/-- The two words of sr.lutv for a table (R174). -/
def State.lutv (s : State) (k t : Nat) (hi : Bool) : Nat :=
  let l := (s.grp (s.thr k).grp).latch.get {} t
  if !l.latched then 0 else if hi then l.version.toNat else 2 + b2n l.bank

/-- A word of a context's heap bases. -/
def State.heapWord (s : State) (k sel : Nat) : Nat :=
  let c := s.cx (s.ctxOf k)
  (if sel = 0x40 then loWord c.rheap else if sel = 0x41 then hiWord c.rheap else if sel = 0x42 then loWord c.sheap else hiWord c.sheap).toNat

/-- The status registers that read alike on compute and command cores. -/
def State.commonStatus (s : State) (k sel : Nat) : Nat :=
  let t := s.thr k
  if sel = 0x10 then s.clk % 2 ^ 32
  else if sel = 0x11 then s.clk / 2 ^ 32 % 2 ^ 32
  else if sel = 0x12 then s.hbt % 2 ^ 32
  else if sel = 0x13 then s.hbt / 2 ^ 32 % 2 ^ 32
  else if sel = 0x20 then t.fpcsr.toNat
  else if sel = 0x21 then t.chk.toNat
  else if sel = 0x24 then t.csp
  else if 0x40 ≤ sel ∧ sel ≤ 0x43 then s.heapWord k sel
  else if sel = 0x60 then s.ctxOf k
  else 0

/-- A status register as a command context reads it (R63). -/
def State.cmdStatus (s : State) (k sel : Nat) : Nat :=
  if sel = 0x00 then 1
  else if sel = 0x05 then 4
  else if sel = 0x07 then (k - cmdBase) / 16
  else if 0x0C ≤ sel ∧ sel ≤ 0x0E then 1
  else if sel = 0x23 then 128
  else if sel = 0x70 then 2 ^ 32 - 1
  else s.commonStatus k sel

/-- A status register as a thread reads it (R63). -/
def State.status (s : State) (k sel : Nat) : Nat :=
  if isCmd k then s.cmdStatus k sel
  else
    let t := s.thr k
    let g := s.grp t.grp
    let m := s.team t.team
    let gr := s.grid m.grid
    let c := coreOfThread k
    if sel = 0x00 then 64
    else if sel = 0x01 then k % 64
    else if sel = 0x02 then layerOfThread k
    else if sel = 0x03 then slotOfThread k
    else if sel = 0x04 then stopOfCore c
    else if sel = 0x05 then dieOfCore c
    else if sel = 0x06 then g.width
    else if sel = 0x07 then c % 96
    else if sel = 0x08 then t.tid
    else if sel = 0x09 then m.x
    else if sel = 0x0A then m.y
    else if sel = 0x0B then m.z
    else if sel = 0x0C then gr.desc.ex
    else if sel = 0x0D then gr.desc.ey
    else if sel = 0x0E then gr.desc.ez
    else if sel = 0x0F then gr.depth
    else if sel = 0x22 then t.winb
    else if sel = 0x23 then t.alloc
    else if sel = 0x25 then g.accB + 16 * g.accC
    else if 0x30 ≤ sel ∧ sel ≤ 0x3F then s.accown c (sel - 0x30)
    else if sel = 0x50 then s.detctl k
    else if sel = 0x70 then (if t.tape.bound then t.tape.top else 2 ^ 32 - 1)
    else if 0x80 ≤ sel ∧ sel ≤ 0x87 then s.lutv k ((sel - 0x80) / 2) (sel % 2 == 1)
    else s.commonStatus k sel

/-- SYSR (R62). -/
def execSysr (d : BitVec 7) (c w : BitVec 1) (sel : BitVec 11) (s : State) : Host.Outcome State Fault Refusal :=
  s.issuePlain { instr := .sysr d c w sel, place := .both
                 ops := [{ cls := if c == 1 then .uni else .vec, n := d.toNat, cnt := if w == 1 then 2 else 1, wide := w == 1, rd := false, wr := true }] } fun s =>
    let val := fun (k : Nat) => s.status k sel.toNat + (if w = 1 then s.status k (sel.toNat + 1) * 2 ^ 32 else 0)
    let ks := if c = 1 then s.issueGroups.map (·.2) else s.issue
    s.fixed 4 (ks.flatMap fun k =>
      let x : DWord := BitVec.ofNat 64 (val k)
      if c = 1 then (if w = 1 then toW64 (s.thr k).grp d.toNat x else [.ureg (s.thr k).grp d.toNat (loWord x)])
      else if w = 1 then s.toV64 k d.toNat x else [s.toV k d.toNat (loWord x)])

/-- Whether a writer may write a status register (R63). -/
def State.mayWrite (s : State) (sel : Nat) : Bool := sel == 0x20 || sel == 0x21 || (decide (0x40 ≤ sel) && decide (sel ≤ 0x43) && s.onCommand)

/-- The writable bits of sr.fpcsr and sr.chk; the others read zero. -/
def fpcsrMask : Word := 0x1F1F
def chkMask : Word := 3

/-- A status-register write that takes effect from the thread's next run (R62). -/
def Thread.sysw (t : Thread) (sel : Nat) (v : Word) : Thread :=
  if sel = 0x20 then { t with nextFpcsr := some (v &&& fpcsrMask) }
  else if sel = 0x21 then { t with nextChk := some (v &&& chkMask) }
  else { t with nextHeap := t.nextHeap.filter (fun e => e.1 != sel) ++ [(sel, v)] }

/-- SYSW (R62); PRIV comes before the register checks (R119). -/
def execSysw (c w : BitVec 1) (a : BitVec 7) (sel : BitVec 11) (s : State) : Host.Outcome State Fault Refusal :=
  let n := sel.toNat
  let may := s.mayWrite n && (w == 0 || s.mayWrite (n + 1))
  let opd : Opd := { cls := if c == 1 then .uni else .vec, n := a.toNat, cnt := if w == 1 then 2 else 1, wide := w == 1 }
  s.issueWord { instr := .sysw c w a sel, place := .both, ops := if may then [opd] else [] } fun s =>
    if !may then .error { code := 0x20 }
    else
      .ok (s.issue.foldl (fun t k =>
        let lo := if c = 1 then s.wOf k a.toNat else s.v k a.toNat
        let hi := if c = 1 then s.wOf k (a.toNat + 1) else s.v k (a.toNat + 1)
        t.updThr k fun x => let x := x.sysw n lo; if w = 1 then x.sysw (n + 1) hi else x) s)

-- System instructions.

/-- Whether a resumption point is a word of a run: a RUNH, with a position within LEN (R367). -/
def State.pointOk (s : State) (k : Nat) (pc : DWord) (pos : Nat) : Bool :=
  match s.fetchHome k pc.toNat with
  | .ok w => opcOf w.toNat == 0 && decide (pos ≤ runLen w.toNat) && pc.toNat % 4 == 0
  | .error _ => false

/-- The resumption point in a thread's handler slot. -/
def State.slotPoint (s : State) (t : TrapTable) (k : Nat) : DWord × Nat :=
  match s.engineRead { unit := k, ctx := s.ctxOf k } (t.slotOf (s.thr k).lid + 0x40) 9 with
  | .ok (b, _) => (BitVec.ofNat 64 (leNat (b.take 8)), (b.getD 8 0).toNat)
  | .error _ => (0, 0)

/-- trap 2047: threads whose slot is ACTIVE return to their resumption points (R367). The rest share one fault, which the lowest of
them decides (R370): ILLEGAL_OPCODE for a resumption point that is no word of a run, else TRAP_INSN outside a handler. -/
def State.trapReturn (s : State) : State × List Flt :=
  match s.trapTable (s.issue.headD 0) with
  | none => (s, [{ code := 0x1F, info := 2047, skip := 1, sup := true }])
  | some t =>
    let good := s.issue.filter fun k => s.slotActive t k && s.pointOk k (s.slotPoint t k).1 (s.slotPoint t k).2
    let bad := s.issue.filter fun k => !(good.contains k)
    let (fresh, s) := s.newId
    -- a thread of no fault that is being handled returns with the others of this word
    let free := good.filter fun k => (s.thr k).fids.isEmpty
    let s := free.foldl (fun s k => s.updThr k fun t => { t with fids := [fresh] }) s
    let ids := dedup (good.map fun k => (s.thr k).fids.headD 0)
    let s' := if good.isEmpty then s else s.leaveRun good
    let s' := good.foldl (fun s k => s.handlerReturn t k) s'
    let s' := ids.foldl State.rejoin s'
    let low := bad.headD 0
    let f : Flt := if s.slotActive t low then { code := 0x01, addr := (s.slotPoint t low).1, stops := some bad }
      else { code := 0x1F, info := 2047, stops := some bad, skip := 1, sup := true }
    (s', if bad.isEmpty then [] else [f])

/-- TRAP (R152); trap 2047 is the return from a handler (R367). -/
def execTrap (i : BitVec 11) (s : State) : Host.Outcome State Fault Refusal :=
  s.issueMany { instr := .trap i, place := .both } fun s =>
    if i.toNat = 2047 ∧ !s.onCommand then .ok s.trapReturn else .error { code := 0x1F, info := i.toNat, skip := 1 }

/-- ICINV (R153): the core's instruction lines and loop buffers are gone. -/
def execIcinv (s : State) : Host.Outcome State Fault Refusal :=
  s.issuePlain { instr := .icinv } fun s =>
    let c := coreOfIssuer s.cur
    (upto (4 * c) 4).foldl (fun s i => s.updSlot i fun sl => { sl with loop := [] }) (s.updCore c fun c => { c with code := [] })

/-- SLEEP (R154). -/
def execSleep (v : BitVec 1) (a : BitVec 7) (i : BitVec 11) (s : State) : Host.Outcome State Fault Refusal :=
  s.issuePlain { instr := .sleep v a i, place := .both, ops := if v == 1 then [.src a] else [] } fun s =>
    s.issue.foldl (fun t k =>
      let n := Nat.min (i.toNat + (if v = 1 then (s.v k a.toNat).toNat else 0)) 65535
      if n = 0 then t else t.updThr k fun x => { x with nextWait := some (.asleep n) }) s

/-- FWRET (R155): no firmware handler runs as instructions here, so it raises PRIV, or ILLEGAL_OPCODE on a command core
(R119); the return of a handler is that of trap 2047 (R367). -/
def execFwret (s : State) : Host.Outcome State Fault Refusal :=
  s.issueWord { instr := .fwret, place := .firmware } fun _ => .error { code := 0x20 }

end Sys2Proof.Machine
end

