-- ==== Sys2Proof/Machine/Exact.lean ====
section
/-! DEFINITION. Exact rational numbers and their one rounding, for the units that round exact results once (R214, R216,
R218, R223, R224, R239 to R245). -/

namespace Sys2Proof.Machine

/-- A power of two. -/
def pow2 (e : Int) : Rat := if 0 ≤ e then ((2 ^ e.toNat : Nat) : Rat) else 1 / ((2 ^ (-e).toNat : Nat) : Rat)

/-- The exact value of a finite number. -/
def FVal.rat : FVal → Option Rat
  | .fin neg m e => some ((smant neg m : Int) * pow2 e)
  | _ => none

/-- The exact value of an FP32 word. -/
def ratOf (w : Word) : Option Rat := (f32.decode w.toNat).rat

/-- A rational rounded to nearest even; zero gives +0. -/
def roundRat (f : Fmt) (q : Rat) : Nat :=
  if q = 0 then 0
  else
    let (m, s) := divJam q.num.natAbs q.den (f.prec + 3)
    (roundTo f .rne (decide (q < 0)) m s).1

/-- A rational rounded to FP32. -/
def roundF32 (q : Rat) : Word := BitVec.ofNat 32 (roundRat f32 q)

/-- An exact number, or what stands in its place in an exact computation: an infinity, or a NaN with its sign and payload (R67, R68). -/
inductive Xnum where
  | nan (neg : Bool) (pay : Nat)
  | inf (neg : Bool)
  | num (q : Rat)
  deriving DecidableEq, Repr

/-- An FP32 value in an exact computation. -/
def FVal.xnum : FVal → Xnum
  | .nan neg _ pay => .nan neg pay
  | .inf neg => .inf neg
  | .fin neg m e => .num ((smant neg m : Int) * pow2 e)

/-- The result of an invalid operation (R68). -/
def Xnum.invalid : Xnum := .nan false 0

/-- A product: the first NaN operand, or the default NaN of an infinity times zero (R68). -/
def Xnum.mul : Xnum → Xnum → Xnum
  | .nan n p, _ => .nan n p
  | _, .nan n p => .nan n p
  | .inf x, .inf y => .inf (x != y)
  | .inf x, .num q => if q = 0 then .invalid else .inf (x != decide (q < 0))
  | .num q, .inf x => if q = 0 then .invalid else .inf (x != decide (q < 0))
  | .num p, .num q => .num (p * q)

/-- A sum: the first NaN operand, or the default NaN of opposite infinities (R68). -/
def Xnum.add : Xnum → Xnum → Xnum
  | .nan n p, _ => .nan n p
  | _, .nan n p => .nan n p
  | .inf x, .inf y => if x = y then .inf x else .invalid
  | .inf x, .num _ => .inf x
  | .num _, .inf y => .inf y
  | .num p, .num q => .num (p + q)

/-- A difference; a NaN keeps its sign. -/
def Xnum.sub (a b : Xnum) : Xnum :=
  a.add (match b with | .nan n p => .nan n p | .inf n => .inf (!n) | .num q => .num (-q))

/-- The FP32 word of an exact computation, rounded once (R67). -/
def Xnum.word : Xnum → Word
  | .nan neg pay => BitVec.ofNat 32 (f32.quietBits neg pay)
  | .inf neg => BitVec.ofNat 32 (f32.infBits neg)
  | .num q => roundF32 q

/-- The square root of a non-negative rational: a significand with a jammed bit, and its exponent. -/
def sqrtJam (q : Rat) : Nat × Int :=
  let k := 64 + bitlen q.den
  let n := q.num.natAbs * 4 ^ k
  let r := isqrt (n / q.den)
  (2 * r + b2n (r * r * q.den != n), -(k : Int) - 1)

/-- The square root of a rational rounded to FP32, with a sign. -/
def roundSqrt (neg : Bool) (q : Rat) : Word :=
  if q = 0 then 0 else let (m, s) := sqrtJam q; BitVec.ofNat 32 (roundTo f32 .rne neg m s).1

/-- a + b * sqrt(d) rounded to FP32, where the denominator of a is a power of two up to 2^64 and d is positive: computed
256 bits below the point with a jammed bit. -/
def roundSumSqrt (a : Rat) (neg : Bool) (d : Rat) : Word :=
  let k : Nat := 256
  let n := d.num.natAbs * 4 ^ k
  let r := isqrt (n / d.den)
  let exact := decide (r * r * d.den = n)
  let a' : Int := (a * ((2 ^ k : Nat) : Rat)).floor
  -- the floor of the sum
  let t : Int := a' + (if neg then -(r : Int) - (if exact then 0 else 1) else (r : Int))
  let mag := if 0 ≤ t then t.toNat else (-t - (if exact then 0 else 1)).toNat
  let m := 2 * mag + b2n (!exact)
  if m = 0 then 0 else BitVec.ofNat 32 (roundTo f32 .rne (decide (t < 0)) m (-(k : Int) - 1)).1

end Sys2Proof.Machine
end

