-- ==== Sys2Proof/Machine/Hash.lean ====
section
/-! DEFINITION. The Clove generator (R81) and SHA3-256 (R314, R343, R344, R390; the permutation is PRESUMED to be that
of FIPS 202, which the spec names and does not print). -/

namespace Sys2Proof.Machine

/-- One round of Clove on (k0, k1, s0, s1, s2, s3), the swap of s0 and s2 included. -/
def cloveRound (k0 k1 s0 s1 s2 s3 : Word) : Word × Word × Word × Word × Word × Word :=
  let a0 := s0 + s1 + k0
  let a1 := s1.rotateLeft 7 ^^^ a0
  let a2 := s2 * 0xA4D93B67 + s3
  let a3 := s3.rotateLeft 13 ^^^ a2 ^^^ k1
  (k0 + 0x3F1B52C9, k1 + 0x8D4A07E3, a2, a1, a0, a3)

/-- `n` rounds and the output word. -/
def cloveRounds : Nat → Word → Word → Word → Word → Word → Word → Word
  | 0, _, _, s0, _, s2, _ => s0 ^^^ s2
  | n + 1, k0, k1, s0, s1, s2, s3 =>
    match cloveRound k0 k1 s0 s1 s2 s3 with
    | (k0, k1, s0, s1, s2, s3) => cloveRounds n k0 k1 s0 s1 s2 s3

/-- clove(key, counter). -/
def clove (k0 k1 s0 s1 s2 s3 : Word) : Word := cloveRounds 6 k0 k1 s0 s1 s2 s3

/-- The draw integer u = output >> 8. -/
def cloveDraw (k0 k1 s0 s1 s2 s3 : Word) : Nat := (clove k0 k1 s0 s1 s2 s3).toNat / 256

/-- A lane of the Keccak state, by its index x + 5 y. -/
def kLane (a : List DWord) (i : Nat) : DWord := a.getD i 0

/-- Rotation offsets of Keccak, by x + 5 y. -/
def kRot : List Nat :=
  [0, 1, 62, 28, 27, 36, 44, 6, 55, 20, 3, 10, 43, 25, 39, 41, 45, 15, 21, 8, 18, 2, 61, 56, 14]

/-- The round constants of Keccak-f[1600]. -/
def kRc : List DWord :=
  [0x0000000000000001, 0x0000000000008082, 0x800000000000808A, 0x8000000080008000, 0x000000000000808B,
    0x0000000080000001, 0x8000000080008081, 0x8000000000008009, 0x000000000000008A, 0x0000000000000088,
    0x0000000080008009, 0x000000008000000A] ++
  [0x000000008000808B, 0x800000000000008B, 0x8000000000008089, 0x8000000000008003, 0x8000000000008002,
    0x8000000000000080, 0x000000000000800A, 0x800000008000000A, 0x8000000080008081, 0x8000000000008080,
    0x0000000080000001, 0x8000000080008008]

/-- One round of Keccak-f[1600]: theta, rho and pi, chi, iota. -/
def kRound (a : List DWord) (rc : DWord) : List DWord :=
  let c := (upto 0 5).map fun x =>
    kLane a x ^^^ kLane a (x + 5) ^^^ kLane a (x + 10) ^^^ kLane a (x + 15) ^^^ kLane a (x + 20)
  let d := (upto 0 5).map fun x => kLane c ((x + 4) % 5) ^^^ (kLane c ((x + 1) % 5)).rotateLeft 1
  let t := (upto 0 25).map fun i => kLane a i ^^^ kLane d (i % 5)
  -- b at (X, Y) is t at (x, y) rotated, where X = y and Y = 2x + 3y mod 5, so x = (X + 3Y) mod 5
  let b := (upto 0 25).map fun i =>
    let src := (i % 5 + 3 * (i / 5)) % 5 + 5 * (i % 5)
    (kLane t src).rotateLeft (kRot.getD src 0)
  (upto 0 25).map fun i =>
    let y := i / 5 * 5
    let v := kLane b i ^^^ (~~~(kLane b (y + (i + 1 - y) % 5)) &&& kLane b (y + (i + 2 - y) % 5))
    if i = 0 then v ^^^ rc else v

/-- Keccak-f[1600]. -/
def keccak (a : List DWord) : List DWord := kRc.foldl kRound a

/-- Absorbs `k` blocks of 136 bytes. -/
def absorb : Nat → List DWord → List Byte → List DWord
  | 0, a, _ => a
  | k + 1, a, m =>
    let blk := m.take 136
    let a' := (upto 0 25).map fun i =>
      kLane a i ^^^ (if i < 17 then BitVec.ofNat 64 (leNat ((blk.drop (8 * i)).take 8)) else 0)
    absorb k (keccak a') (m.drop 136)

/-- Pads with 0x06, zeros and 0x80 to a multiple of 136 bytes. -/
def sha3Pad (m : List Byte) : List Byte :=
  let z := 136 - 1 - m.length % 136
  if z = 0 then m ++ [0x86] else m ++ [0x06] ++ List.replicate (z - 1) 0 ++ [0x80]

/-- SHA3-256 as 32 bytes. -/
def sha3 (m : List Byte) : List Byte :=
  let p := sha3Pad m
  let a := absorb (p.length / 136) (List.replicate 25 0) p
  (a.take 4).flatMap fun l => leBytes 8 l.toNat

/-- SHA3-256 as a number, little-endian. -/
def sha3Nat (m : List Byte) : BitVec 256 := BitVec.ofNat 256 (leNat (sha3 m))

end Sys2Proof.Machine
end

