-- ==== Sys2Proof/Machine/Raster.lean ====
section
/-! DEFINITION. The meanings of RAST, RASTG and EDGS (R209 to R218, R400). -/

namespace Sys2Proof.Machine

/-- The token that ends a walk. -/
def tokenDone : Word := 0xFFFFFFFF

/-- A vertex as snapped integers and exact depth and 1/w. -/
structure Vert where
  x : Int
  y : Int
  z : Rat
  q : Rat
  deriving DecidableEq, Repr

/-- A triangle ready to be walked (R210). -/
structure Tri where
  v0 : Vert
  v1 : Vert
  v2 : Vert
  deriving DecidableEq, Repr

/-- Vertex number k modulo 3. -/
def Tri.v (t : Tri) (k : Nat) : Vert := if k % 3 = 0 then t.v0 else if k % 3 = 1 then t.v1 else t.v2

/-- A2 (R210). -/
def Tri.a2 (t : Tri) : Int := (t.v1.x - t.v0.x) * (t.v2.y - t.v0.y) - (t.v2.x - t.v0.x) * (t.v1.y - t.v0.y)

/-- e_k at a 16.8 point (R210). -/
def Tri.edge (t : Tri) (k : Nat) (px py : Int) : Int :=
  let i := t.v (k + 1)
  let j := t.v (k + 2)
  t.a2.sign * ((j.x - i.x) * (py - i.y) - (j.y - i.y) * (px - i.x))

/-- Whether edge k owns its boundary: the top-left rule (R210). -/
def Tri.owns (t : Tri) (k : Nat) : Bool :=
  let i := t.v (k + 1)
  let j := t.v (k + 2)
  decide (t.a2.sign * (j.y - i.y) < 0) || (t.a2.sign * (j.y - i.y) == 0 && decide (0 < t.a2.sign * (j.x - i.x)))

/-- Whether a 16.8 point is covered (R210). -/
def Tri.covers (t : Tri) (px py : Int) : Bool :=
  t.a2 != 0 && (upto 0 3).all fun k => decide (0 < t.edge k px py) || (t.edge k px py == 0 && t.owns k)

/-- Samples per pixel of a code. -/
def sampleCount (sc : BitVec 2) : Nat := 2 ^ sc.toNat

/-- Offsets of the samples in a pixel (R211). -/
def sampleOffset (sc : BitVec 2) (s : Nat) : Int × Int :=
  let l : List (Int × Int) :=
    if sc = 0 then [(128, 128)]
    else if sc = 1 then [(64, 64), (192, 192)]
    else if sc = 2 then [(96, 32), (224, 96), (32, 160), (160, 224)]
    else [(16, 80), (48, 208), (80, 144), (112, 16), (144, 240), (176, 112), (208, 48), (240, 176)]
  l.getD s (0, 0)

/-- The bounding box in pixels: px0, px1, py0, py1 (R212). -/
def Tri.box (t : Tri) : Int × Int × Int × Int :=
  let lo := fun (a b c : Int) => min a (min b c) / 256
  let hi := fun (a b c : Int) => max a (max b c) / 256
  (lo t.v0.x t.v1.x t.v2.x, hi t.v0.x t.v1.x t.v2.x, lo t.v0.y t.v1.y t.v2.y, hi t.v0.y t.v1.y t.v2.y)

/-- Blocks across and down. -/
def Tri.blocks (t : Tri) : Nat × Nat :=
  let (x0, x1, y0, y1) := t.box
  (((x1 - x0 + 8) / 8).toNat, ((y1 - y0 + 8) / 8).toNat)

/-- A covered sample. -/
structure Sample where
  px : Int
  py : Int
  s : Nat
  deriving DecidableEq, Repr

/-- The covered candidate at a walk position, if there is one (R212). -/
def Tri.candidate (t : Tri) (sc : BitVec 2) (w : Nat) : Option Sample :=
  let n := sampleCount sc
  let (x0, x1, y0, y1) := t.box
  let (nx, ny) := t.blocks
  let b := w / (64 * n)
  let r := w / n % 64
  let px := x0 + 8 * (b % nx : Nat) + (r % 8 : Nat)
  let py := y0 + 8 * (b / nx : Nat) + (r / 8 : Nat)
  let o := sampleOffset sc (w % n)
  if b < nx * ny ∧ px ≤ x1 ∧ py ≤ y1 ∧ t.covers (256 * px + o.1) (256 * py + o.2) then some { px := px, py := py, s := w % n } else none

/-- Walk positions of a triangle. -/
def Tri.positions (t : Tri) (sc : BitVec 2) : Nat := t.blocks.1 * t.blocks.2 * 64 * sampleCount sc

/-- The first covered candidate from a position on, with its position. -/
def Tri.firstFrom (t : Tri) (sc : BitVec 2) : Nat → Nat → Option (Nat × Sample)
  | 0, _ => none
  | fuel + 1, w =>
    match t.candidate sc w with
    | some c => some (w, c)
    | none => t.firstFrom sc fuel (w + 1)

/-- The first covered candidate at or after a position. -/
def Tri.next (t : Tri) (sc : BitVec 2) (w : Nat) : Option (Nat × Sample) := t.firstFrom sc (t.positions sc - w) w

-- Uniform inputs (R400).

/-- A snapped coordinate (R80), or none where R400 refuses it. -/
def snap (w : Word) : Option Int :=
  match f32.decode w.toNat with
  | .fin neg m e =>
    let x := (toInteger .rne neg m (e + 8)).1
    if -(2 ^ 23 : Int) ≤ x ∧ x < 2 ^ 23 then some x else none
  | _ => none

/-- A vertex block of a group: x, y, z, q of three vertices. -/
def State.vertWord (s : State) (g : Nat) (wv : BitVec 6) (v i : Nat) : Word := s.w g (wv.toNat + 4 * v + i)

/-- A vertex whose x and y snap. -/
def State.vertOf (s : State) (g : Nat) (wv : BitVec 6) (v : Nat) : Option Vert :=
  match snap (s.vertWord g wv v 0), snap (s.vertWord g wv v 1) with
  | some x, some y => some { x := x, y := y, z := (ratOf (s.vertWord g wv v 2)).getD 0, q := (ratOf (s.vertWord g wv v 3)).getD 0 }
  | _, _ => none

/-- The triangle of a group's uniforms. -/
def State.triOf (s : State) (g : Nat) (wv : BitVec 6) : Option Tri :=
  match s.vertOf g wv 0, s.vertOf g wv 1, s.vertOf g wv 2 with
  | some a, some b, some c => some ⟨a, b, c⟩
  | _, _, _ => none

/-- Whether a q or z breaks R400. -/
def State.vertBad (s : State) (g : Nat) (wv : BitVec 6) : Bool :=
  (upto 0 3).any fun v =>
    (ratOf (s.vertWord g wv v 2)).isNone || (match ratOf (s.vertWord g wv v 3) with | some q => decide (q ≤ 0) | none => true)

/-- The causes of R400 for a triangle that is to be walked. -/
def State.triCheck (s : State) (g : Nat) (wv : BitVec 6) : Except Nat Tri :=
  match s.triOf g wv with
  | none => .error 0x21
  | some t =>
    let (x0, x1, y0, y1) := t.box
    if 4096 < x1 - x0 + 1 ∨ 4096 < y1 - y0 + 1 then .error 0x22
    else if s.vertBad g wv then .error 0x23 else .ok t

/-- The checked triangles of every group, or RESERVED_FIELD for the whole issue set (R400). -/
def checkGroups {α : Type} (f : Nat → Except Nat α) : List (Nat × Nat) → Except Flt (List (Nat × α))
  | [] => .ok []
  | e :: r =>
    match f e.1 with
    | .error i => .error { code := 0x02, info := i }
    | .ok x =>
      match checkGroups f r with
      | .error g => .error g
      | .ok l => .ok ((e.1, x) :: l)

-- RAST.

/-- The registers of a covered sample (R214). -/
def Tri.outputs (t : Tri) (sc : BitVec 2) (c : Sample) : List Word :=
  let o := sampleOffset sc c.s
  let e := fun (k : Nat) => ((t.edge k (256 * c.px + o.1) (256 * c.py + o.2) : Int) : Rat)
  let sum := (upto 0 3).foldl (fun a k => a + e k * (t.v k).q) 0
  let z := (upto 0 3).foldl (fun a k => a + e k * (t.v k).z) 0 / ((t.a2.natAbs : Int) : Rat)
  [BitVec.ofNat 32 (wrap 16 c.px + 2 ^ 16 * wrap 16 c.py), roundF32 (e 1 * t.v1.q / sum), roundF32 (e 2 * t.v2.q / sum), roundF32 z]

/-- RAST for one group: the writes of its lanes, and the token (R213). -/
def State.rastLanes (s : State) (t : Tri) (sc : BitVec 2) (d : BitVec 7) (p : BitVec 4) (si : BitVec 7) :
    List Nat → Nat → List (Nat × List RegWrite) × Nat
  | [], tok => ([], tok)
  | k :: r, tok =>
    match t.next sc tok with
    | none => let (l, u) := s.rastLanes t sc d p si r tok; ((k, [.pred k p.toNat false]) :: l, u)
    | some (w, c) =>
      let (l, u) := s.rastLanes t sc d p si r (w + 1)
      ((k, s.toBlock k d.toNat (t.outputs sc c) ++ [s.toV k si.toNat (BitVec.ofNat 32 c.s), .pred k p.toNat true]) :: l, u)

/-- The token check of RAST (R400). -/
def rastToken (t : Tri) (sc : BitVec 2) (tok : Word) : Bool :=
  tok == 0 || tok == tokenDone || (t.candidate sc (tok.toNat - 1)).isSome

/-- RAST (R213). -/
def execRast (sc : BitVec 2) (d : BitVec 7) (wv wt : BitVec 6) (p : BitVec 4) (si : BitVec 7) (s : State) : Host.Outcome State Fault Refusal :=
  s.issueWord { instr := .rast sc d wv wt p si
                ops := [{ cls := .vec, n := d.toNat, cnt := 4, quad := true, rd := false, wr := true }, .usrc wv.toNat false 12,
                        { cls := .uni, n := wt.toNat, wr := true }, .pdst p.toNat, .dst si] } fun s => do
    let gs ← checkGroups (fun g => match s.triCheck g wv with
      | .error i => .error i
      | .ok t => if rastToken t sc (s.w g wt.toNat) then .ok t else .error 0x24) s.issueGroups
    .ok (gs.foldl (fun s e =>
      let tok := s.w e.1 wt.toNat
      let ks := s.issuedOf e.1
      if tok = tokenDone then ks.foldl (fun s k => s.variable k [.pred k p.toNat false]) s
      else
        let (l, u) := s.rastLanes e.2 sc d p si ks tok.toNat
        let tok' := if (e.2.next sc u).isNone then tokenDone else BitVec.ofNat 32 u
        (l.foldl (fun s x => s.variable x.1 x.2) s).variable (ks.headD 0) [.ureg e.1 wt.toNat tok']) s)

-- RASTG.

/-- dl_k/dx_m and dl_k/dy_m in pixels at a point, times the square of A2 (R216): l_k = E_k / A2. -/
def Tri.dl (t : Tri) (k m : Nat) (px py : Rat) (isY : Bool) : Rat :=
  let x := fun (n : Nat) => ((t.v n).x : Rat) / 256
  let y := fun (n : Nat) => ((t.v n).y : Rat) / 256
  let i := k + 1
  let j := k + 2
  let ek := (x j - x i) * (py - y i) - (y j - y i) * (px - x i)
  let a := (x 1 - x 0) * (y 2 - y 0) - (x 2 - x 0) * (y 1 - y 0)
  let de :=
    if m % 3 = i % 3 then (if isY then px - x j else y j - py)
    else if m % 3 = j % 3 then (if isY then x i - px else py - y i) else 0
  let da := if isY then x (m + 2) - x (m + 1) else y (m + 1) - y (m + 2)
  (de * a - ek * da) / (a * a)

/-- The partial derivatives of b1, b2 and z by the twelve parameters in uniform order (R216), exact; none where a division by zero
leaves them without a value. -/
def Tri.partials (t : Tri) (px py : Rat) : Option (List (Rat × Rat × Rat)) :=
  let e := fun (k : Nat) => ((t.edge k (px * 256).floor (py * 256).floor : Int) : Rat)
  let l := fun (k : Nat) => e k / ((t.a2.natAbs : Int) : Rat)
  let q := fun (k : Nat) => (t.v k).q
  let sum := l 0 * q 0 + l 1 * q 1 + l 2 * q 2
  if t.a2 = 0 ∨ sum = 0 then none
  else
    -- d(b_n)/d(l_k) and d(b_n)/d(q_k)
    let dbl := fun (n k : Nat) => ((if n = k then q n * sum else 0) - l n * q n * q k) / (sum * sum)
    let dbq := fun (n k : Nat) => ((if n = k then l n * sum else 0) - l n * q n * l k) / (sum * sum)
    let along := fun (f : Nat → Rat) (m : Nat) (isY : Bool) => (upto 0 3).foldl (fun a k => a + f k * t.dl k m px py isY) 0
    let at_ := fun (m : Nat) (isY : Bool) => (along (dbl 1) m isY, along (dbl 2) m isY, along (fun k => (t.v k).z) m isY)
    some ((upto 0 3).flatMap fun m => [at_ m false, at_ m true, (0, 0, l m), (dbq 1 m, dbq 2 m, 0)])

/-- A sum of FP32 values by exact weights, rounded once (R67, R68). -/
def weightedSum (terms : List (Word × Rat)) : Word :=
  (terms.foldl (fun a e => a.add ((f32.decode e.1.toNat).xnum.mul (.num e.2))) (Xnum.num 0)).word

/-- A free FP32 word where the spec states no value. -/
def State.openWord (s : State) (k i : Nat) : Word := Config.freeWord ((s.free * 2 ^ 24 + k) * 2 ^ 12 + i)

/-- The twelve addends of one lane. The spec gives no position to a sample index at or above the sample count of SC, and no value to a
derivative that divides by zero: the addends are free words there (DESIGN CHOICE, log entry 49). -/
def State.rastgAddends (s : State) (t : Tri) (sc : BitVec 2) (a b si : BitVec 7) (k : Nat) : List Word :=
  let pix := (s.v k b.toNat).toNat
  let n := (s.v k si.toNat).toNat
  let o := sampleOffset sc (n % 8)
  let px := ((256 * sgn 16 pix + o.1 : Int) : Rat) / 256
  let py := ((256 * sgn 16 (pix / 2 ^ 16) + o.2 : Int) : Rat) / 256
  let g := fun (i : Nat) => s.v k (a.toNat + i)
  match if sampleCount sc ≤ n then none else t.partials px py with
  | some l => l.map fun c => weightedSum [(g 0, c.1), (g 1, c.2.1), (g 2, c.2.2)]
  | none => (upto 0 12).map fun i => s.openWord k i

/-- A block of vector registers that may not be temporaries. -/
def Opd.vblock (n : BitVec 7) (cnt last : Nat) : Opd :=
  { cls := .vec, n := n.toNat, cnt := if 121 < n.toNat + last then 200 else cnt }

/-- RASTG (R216): A, the first of three registers, is at most 119. -/
def execRastg (sc : BitVec 2) (g : BitVec 5) (a b : BitVec 7) (wv : BitVec 6) (p : BitVec 4) (si : BitVec 7) (s : State) :
    Host.Outcome State Fault Refusal :=
  s.issueWord { instr := .rastg sc g a b wv p si
                ops := [.g g, .vblock a 3 2, .src b, .usrc wv.toNat false 12, .psrc p.toNat, .src si] } fun s => do
    let gs ← checkGroups (fun gr => s.triCheck gr wv) s.issueGroups
    let lanes := (s.issue.filter fun k => s.p k p.toNat).flatMap fun k =>
      match firstThat (fun (e : Nat × Tri) => e.1 == (s.thr k).grp) gs with
      | some (_, t) => (s.rastgAddends t sc a b si k).zip (upto 0 12) |>.map fun e => (k, s.eaOf k g.toNat (4 * e.2 : Nat), e.1.toNat)
      | none => []
    let xs ← s.checkGadds g.toNat 0 0x59 lanes
    s.checkGaddWindow xs
    .ok (s.takeFree.2.sendGadds xs)

-- EDGS.

/-- dx, dy of edge k. -/
def Tri.edgeVec (t : Tri) (k : Nat) : Int × Int := ((t.v (k + 2)).x - (t.v (k + 1)).x, (t.v (k + 2)).y - (t.v (k + 1)).y)

/-- The eligible edges (R218). -/
def Tri.eligible (t : Tri) (mask : Nat) : List Nat := (upto 0 3).filter fun k => bit mask k && t.edgeVec k != (0, 0)

/-- The uniforms of EDGS. -/
structure EdgePar where
  k0 : Word
  k1 : Word
  prim : Word
  stream : Word
  n : Nat
  mask : Nat
  deriving DecidableEq, Repr

/-- The six uniforms from WK on. -/
def State.edgePar (s : State) (g : Nat) (wk : BitVec 6) : EdgePar :=
  let w := fun (i : Nat) => s.w g (wk.toNat + i)
  { k0 := w 0, k1 := w 1, prim := w 2, stream := w 3, n := (w 4).toNat, mask := (w 5).toNat }

/-- The ten output registers of sample n (R218). -/
def Tri.edgeSample (t : Tri) (par : EdgePar) (n : Nat) : List Word :=
  let el := t.eligible par.mask
  let m := el.length
  let nw : Word := BitVec.ofNat 32 n
  let u0 := cloveDraw par.k0 par.k1 par.prim nw 0 par.stream
  let u1 := cloveDraw par.k0 par.k1 par.prim nw 1 par.stream
  let e := el.getD (u0 * m / 2 ^ 24) 0
  let i := t.v (e + 1)
  let (dx, dy) := t.edgeVec e
  let u : Rat := ((u1 : Nat) : Rat) / 2 ^ 24
  let ptx : Rat := ((i.x : Rat) + u * dx) / 256
  let pty : Rat := ((i.y : Rat) + u * dy) / 256
  let dd : Rat := ((dx * dx + dy * dy : Int) : Rat)
  let nx := t.a2.sign * dy
  let ny := -(t.a2.sign * dx)
  let nrm := fun (c : Int) => roundSqrt (decide (c < 0)) (((c * c : Int) : Rat) / dd)
  -- pt +- 2^-8 * c / sqrt(dd)
  let probe := fun (a : Rat) (c : Int) (out : Bool) =>
    if c = 0 then roundF32 a else roundSumSqrt a (decide (c < 0) == out) (((c * c : Int) : Rat) / dd / 65536)
  [BitVec.ofNat 32 (wrap 16 ptx.floor + 2 ^ 16 * wrap 16 pty.floor), BitVec.ofNat 32 e, roundF32 u,
    roundSqrt false (((m * m : Nat) : Rat) * dd / 65536 / ((par.n * par.n : Nat) : Rat)), nrm nx, nrm ny,
    probe ptx nx false, probe pty ny false, probe ptx nx true, probe pty ny true]

/-- EDGS for the lanes of a group: their writes and the token (R218). -/
def State.edgeLanes (s : State) (t : Tri) (par : EdgePar) (d : BitVec 7) (p : BitVec 4) : List Nat → Nat → List (Nat × List RegWrite) × Nat
  | [], n => ([], n)
  | k :: r, n =>
    if n < par.n then
      let (l, u) := s.edgeLanes t par d p r (n + 1)
      ((k, s.toBlock k d.toNat (t.edgeSample par n) ++ [.pred k p.toNat true]) :: l, u)
    else
      let (l, u) := s.edgeLanes t par d p r n
      ((k, [.pred k p.toNat false]) :: l, u)

/-- The causes of R400 for EDGS. -/
def State.edgeCheck (s : State) (g : Nat) (wv wt wk : BitVec 6) : Except Nat Tri :=
  let par := s.edgePar g wk
  let tok := s.w g wt.toNat
  match s.triOf g wv with
  | none => .error 0x21
  | some t =>
    if tok ≠ tokenDone ∧ par.n ≤ tok.toNat then .error 0x24
    else if par.n = 0 ∨ 2 ^ 24 < par.n ∨ par.mask / 8 ≠ 0 then .error 0x25 else .ok t

/-- EDGS (R218). -/
def execEdgs (d : BitVec 7) (wv wt : BitVec 6) (p : BitVec 4) (wk : BitVec 6) (s : State) : Host.Outcome State Fault Refusal :=
  s.issueWord { instr := .edgs d wv wt p wk
                ops := [.block d 10 true true, { cls := .uni, n := wv.toNat, cnt := 12, rd := false, bound := true }]
                  ++ edgeVerts wv.toNat ++ [{ cls := .uni, n := wt.toNat, wr := true }, .pdst p.toNat, .usrc wk.toNat false 6] } fun s => do
    let gs ← checkGroups (fun g => s.edgeCheck g wv wt wk) s.issueGroups
    .ok (gs.foldl (fun s e =>
      let tok := s.w e.1 wt.toNat
      let par := s.edgePar e.1 wk
      let ks := s.issuedOf e.1
      if tok = tokenDone ∨ (e.2.eligible par.mask).isEmpty then
        (ks.foldl (fun s k => s.variable k [.pred k p.toNat false]) s).variable (ks.headD 0) [.ureg e.1 wt.toNat tokenDone]
      else
        let (l, u) := s.edgeLanes e.2 par d p ks tok.toNat
        (l.foldl (fun s x => s.variable x.1 x.2) s).variable (ks.headD 0)
          [.ureg e.1 wt.toNat (if par.n ≤ u then tokenDone else BitVec.ofNat 32 u)]) s)

end Sys2Proof.Machine
end

