-- ==== Sys2Proof/Machine/Sfu.lean ====
section
/-! DEFINITION. The function unit (R169) and the sRGB curve (R79), correctly rounded: the exact function value is
enclosed between two fixed-point numbers, and a result stands where both ends round alike. Where the enclosure would
be too wide, which no FP32 operand is known to cause, the word is a free value. -/

namespace Sys2Proof.Machine

/-- Fraction bits of the fixed-point enclosure. -/
def sfuP : Nat := 384

/-- One in fixed point. -/
def sfuOne : Nat := 2 ^ sfuP

/-- The slack, in units of the last place, that covers the truncations of one series. -/
def sfuSlack : Nat := 2 ^ 24

/-- The terms of ln 2 = sum of 1 / (k 2^k), truncated. -/
def ln2Series : Nat → Nat → Nat
  | 0, _ => 0
  | n + 1, k => sfuOne / (k * 2 ^ k) + ln2Series n (k + 1)

/-- ln 2 from below. -/
def ln2Fix : Nat := ln2Series 400 1

/-- atan(1/n), truncated alternating series: terms left, sign, power, odd divisor. -/
def atanInvAux (n : Nat) : Nat → Bool → Nat → Nat → Int
  | 0, _, _, _ => 0
  | t + 1, neg, p, d =>
    let q : Int := (p / d : Nat)
    (if neg then -q else q) + atanInvAux n t (!neg) (p / (n * n)) (d + 2)

/-- Pi by 16 atan(1/5) - 4 atan(1/239). -/
def piFix : Nat := (16 * atanInvAux 5 90 false (sfuOne / 5) 1 - 4 * atanInvAux 239 30 false (sfuOne / 239) 1).toNat

/-- exp(x) for fixed-point 0 ≤ x < 2: sum of x^k / k!, truncated. -/
def expSeries (x : Nat) : Nat → Nat → Nat → Nat
  | 0, _, _ => 0
  | n + 1, k, t => t + expSeries x n (k + 1) (t * x / sfuOne / k)

/-- exp(x) from below within the slack. -/
def expFix (x : Nat) : Nat := expSeries x 120 1 sfuOne

/-- sin(x) for fixed-point 0 ≤ x < 2, alternating. -/
def sinSeries (x : Nat) : Nat → Bool → Nat → Nat → Int
  | 0, _, _, _ => 0
  | n + 1, neg, k, t =>
    (if neg then -(t : Int) else (t : Int)) + sinSeries x n (!neg) (k + 2) (t * x / sfuOne * x / sfuOne / ((k + 1) * (k + 2)))

/-- sin(x), about. -/
def sinFix (x : Nat) : Nat := (sinSeries x 70 false 1 x).toNat

/-- ln(x) for x = n/d in [1, 2): twice atanh of (n - d)/(n + d). -/
def atanhSeries (z2 : Nat) : Nat → Nat → Nat → Nat
  | 0, _, _ => 0
  | n + 1, k, p => p / k + atanhSeries z2 n (k + 2) (p * z2 / sfuOne)

/-- ln(n/d), about. -/
def lnFix (n d : Nat) : Nat :=
  let z := (n - d) * sfuOne / (n + d)
  2 * atanhSeries (z * z / sfuOne) 130 1 z

/-- The FP32 word and flags both ends of an enclosure [lo, hi] * 2^-scale round to; free when they differ. The value
is irrational, so it lies strictly between. -/
def encloseTo (neg : Bool) (lo hi : Nat) (e : Int) (free : Nat) : Nat × Flags :=
  let a := roundTo f32 .rne neg (2 * lo + 1) (e - 1)
  let b := roundTo f32 .rne neg (2 * hi + 1) (e - 1)
  if a = b then a else ((Config.freeWord free).toNat, flNX)

/-- An enclosure around a computed fixed-point value. -/
def around (neg : Bool) (v : Nat) (free : Nat) : Nat × Flags :=
  encloseTo neg (v - sfuSlack) (v + sfuSlack) (-(sfuP : Int)) free

/-- 1/sqrt(m * 2^e), jammed. -/
def rsqrtExact (m : Nat) (e : Int) : Nat × Flags :=
  let m1 := if e % 2 != 0 then 2 * m else m
  let e1 := if e % 2 != 0 then e - 1 else e
  let k := 64 + bitlen m1
  let s := isqrt (2 ^ (2 * k) / m1)
  roundTo f32 .rne false (2 * s + b2n (m1 * s * s != 2 ^ (2 * k))) (-(e1 / 2) - (k : Int) - 1)

/-- 2^a for finite a. -/
def exp2Of (neg : Bool) (m : Nat) (e : Int) (free : Nat) : Nat × Flags :=
  let i := floorScale (smant neg m) e
  if m = 0 then roundTo f32 .rne false 1 0
  else if i ≥ 128 then roundTo f32 .rne false 1 200
  else if i < -200 then roundTo f32 .rne false 1 (-400)
  else if e ≥ 0 then roundTo f32 .rne false 1 i
  else
    let den : Nat := 2 ^ (-e).toNat
    let fr := (smant neg m - i * (den : Int)).toNat
    if fr = 0 then roundTo f32 .rne false 1 i
    else
      let v := expFix (fr * ln2Fix / den)
      encloseTo false (v - sfuSlack) (v + sfuSlack) (i - (sfuP : Int)) free

/-- log2(m * 2^e) for m > 0. -/
def log2Of (m : Nat) (e : Int) (free : Nat) : Nat × Flags :=
  let top := bitlen m - 1
  let i : Int := e + (top : Int)
  if m = 2 ^ top then roundTo f32 .rne (decide (i < 0)) i.natAbs 0
  else
    let l : Int := ((lnFix m (2 ^ top) * sfuOne / ln2Fix : Nat) : Int) + i * (sfuOne : Int)
    around (decide (l < 0)) l.natAbs free

/-- sin(pi * num / den) for 0 ≤ num/den ≤ 1/2: zero and one are exact. -/
def sinPart (neg : Bool) (num den : Nat) (free : Nat) : Nat × Flags :=
  if num = 0 then roundTo f32 .rne neg 0 0
  else if 2 * num = den then roundTo f32 .rne neg 1 0
  else around neg (sinFix (num * piFix / den)) free

/-- sin(pi a) for a ≥ 0 as num/den; the flag tells an integer. -/
def sinPiOf (num den : Nat) (free : Nat) : Nat × Flags :=
  let r := num % (2 * den)
  let neg := decide (den < r)
  let h := if den ≤ r then r - den else r
  let q := if den < 2 * h then den - h else h
  if h = 0 then (0, 0) else sinPart neg q den free

/-- tanh(m * 2^e), m > 0. -/
def tanhOf (m : Nat) (e : Int) (free : Nat) : Nat × Flags :=
  let top : Int := e + (bitlen m : Int)
  if top < -60 then roundTo f32 .rne false (m * 2 ^ 65 - 1) (e - 65)
  else if top > 7 then roundTo f32 .rne false (2 ^ 65 - 1) (-65)
  else
    let y := (floorScale (2 * (m : Int) * (sfuOne : Int)) e).toNat
    let n := y / ln2Fix
    let v := expFix (y - n * ln2Fix) * 2 ^ n
    let sl := sfuSlack * 2 ^ (n + 8)
    let lo := v - sl
    let hi := v + sl
    encloseTo false ((lo - sfuOne) * sfuOne / (lo + sfuOne)) ((hi - sfuOne) * sfuOne / (hi + sfuOne) + 1)
      (-(sfuP : Int)) free

/-- FSFU's seven functions of an FP32 operand (R169). -/
def sfu (fn : Nat) (n : Nat) (free : Nat) : Nat × Flags :=
  let a := f32.decode n
  match pickNan f32 [a] with
  | some x => x
  | none =>
    match fn, a with
    | 0, a => fDiv f32 .rne (.fin false 1 0) a
    | 1, .inf neg => if neg then invalidOp f32 else (0, 0)
    | 1, .fin neg m e => if m = 0 then (f32.infBits neg, flDZ) else if neg then invalidOp f32 else rsqrtExact m e
    | 2, .inf neg => (if neg then 0 else f32.infBits false, 0)
    | 2, .fin neg m e => exp2Of neg m e free
    | 3, .inf neg => if neg then invalidOp f32 else (f32.infBits false, 0)
    | 3, .fin neg m e => if m = 0 then (f32.infBits true, flDZ) else if neg then invalidOp f32 else log2Of m e free
    | 4, .fin neg m e =>
      let num : Nat := if 0 ≤ e then m * 2 ^ e.toNat else m
      let den : Nat := if 0 ≤ e then 1 else 2 ^ (-e).toNat
      let (x, fl) := sinPiOf num den free
      -- sin is odd: the sign bit of the operand flips the result's, zeros of integers included
      (if neg then (x + 2 ^ 31) % 2 ^ 32 else x, fl)
    | 5, .fin _ m e =>
      let num : Nat := if 0 ≤ e then m * 2 ^ e.toNat else m
      let den : Nat := if 0 ≤ e then 1 else 2 ^ (-e).toNat
      -- cos(pi a) = sin(pi (a + 1/2))
      sinPiOf (2 * num + den) (2 * den) free
    | 6, .inf neg => (b2n neg * 2 ^ 31 + 127 * 2 ^ 23, 0)
    | 6, .fin neg m e =>
      if m = 0 then (n, 0)
      else let (x, fl) := tanhOf m e free; (x + b2n neg * 2 ^ 31, fl)
    | _, _ => invalidOp f32

/-- floor of the fifth root, by bisection on `k` bits. -/
def root5Aux (n : Nat) : Nat → Nat → Nat
  | 0, r => r
  | k + 1, r => let r' := r + 2 ^ k; root5Aux n k (if r' ^ 5 ≤ n then r' else r)

/-- The sRGB curve at c / 255, rounded once to FP32 (R79): below the knee a quotient, above it x^(12/5). -/
def srgbDecode (c : Nat) : Nat :=
  -- c/255 ≤ 0.04045 iff c * 100000 ≤ 4045 * 255
  if c * 100000 ≤ 4045 * 255 then
    let (q, s) := divJam (c * 100) (255 * 1292) 40
    (roundTo f32 .rne false q s).1
  else
    -- (c/255 + 0.055)/1.055 = (1000 c + 55 * 255)/(255 * 1055)
    let num := (1000 * c + 55 * 255) ^ 12
    let den := (255 * 1055) ^ 12
    let k : Nat := 64
    let y := num * 2 ^ (5 * k) / den
    let r := root5Aux y 70 0
    (roundTo f32 .rne false (2 * r + b2n (r ^ 5 * den != num * 2 ^ (5 * k))) (-(k : Int) - 1)).1

end Sys2Proof.Machine
end

