-- ==== Sys2Proof/Machine/Texture.lean ====
section
/-! DEFINITION. The meanings of the texture instructions and RREC (R79, R219 to R225, R401): records and their caches,
texels, filtering, and the adjoint. -/

namespace Sys2Proof.Machine

-- Records.

/-- A resource record (R219). -/
structure Resource where
  base : Nat
  width : Nat
  height : Nat
  fmt : Nat
  levels : Nat
  grad : Nat
  deriving DecidableEq, Repr

/-- A sampler record (R220). -/
structure Sampler where
  filter : Nat
  au : Nat
  av : Nat
  bias : FVal
  lo : FVal
  hi : FVal
  border : List Word
  deriving DecidableEq, Repr

/-- The resource in 64 bytes. -/
def parseResource (b : List Byte) : Resource :=
  { base := fieldAt b 0 8, width := fieldAt b 8 2 + 1, height := fieldAt b 10 2 + 1, fmt := fieldAt b 12 1, levels := fieldAt b 13 1
    grad := fieldAt b 16 8 }

/-- The sampler in 32 bytes. -/
def parseSampler (b : List Byte) : Sampler :=
  { filter := fieldAt b 0 1, au := fieldAt b 1 1, av := fieldAt b 2 1, bias := f32.decode (fieldAt b 4 4), lo := f32.decode (fieldAt b 8 4)
    hi := f32.decode (fieldAt b 12 4), border := (upto 0 4).map fun i => BitVec.ofNat 32 (fieldAt b (16 + 4 * i) 4) }

/-- Channels of a format (R79). -/
def texChannels (fmt : Nat) : Nat := [1, 2, 4, 1, 2, 4, 4, 4, 4, 1, 2].getD fmt 1

/-- Bytes of a texel (R79). -/
def texelBytes (fmt : Nat) : Nat := [4, 8, 16, 2, 4, 8, 4, 4, 4, 2, 4].getD fmt 1

/-- Width and height of a level (R219). -/
def Resource.dims (r : Resource) (l : Nat) : Nat × Nat := (Nat.max 1 (r.width / 2 ^ l), Nat.max 1 (r.height / 2 ^ l))

/-- Texels before a level (R219). -/
def Resource.before (r : Resource) (l : Nat) : Nat := ((upto 0 l).map fun m => (r.dims m).1 * (r.dims m).2).sum

/-- The number of a texel of a level. -/
def Resource.texel (r : Resource) (l x y : Nat) : Nat := r.before l + y * (r.dims l).1 + x

/-- Whether a gradient base names a declared FP32 region large enough. -/
def State.gradOk (s : State) (ctx : Nat) (r : Resource) : Bool :=
  r.grad != 0 && ((s.cx ctx).regions.any fun e => match e.2 with
    | some g => g.primary.toNat == r.grad && !g.f64 && decide (texChannels r.fmt * r.before r.levels ≤ g.count)
    | none => false)

/-- The causes of R401 for a resource. -/
def State.resourceBad (s : State) (ctx : Nat) (texb : Bool) (b : List Byte) : Option Nat :=
  let r := parseResource b
  if r.base % 16 ≠ 0 then some 1
  else if 10 < r.fmt then some 2
  else if r.levels = 0 ∨ Nat.log2 (Nat.max r.width r.height) + 1 < r.levels ∨ 15 < r.levels then some 3
  else if !zeroAt b 14 2 || !zeroAt b 24 40 then some 4
  else if texb && !s.gradOk ctx r then some 5
  else if 16384 < r.width ∨ 16384 < r.height then some 8 else none

/-- The causes of R401 for a sampler. -/
def samplerBad (b : List Byte) : Option Nat :=
  let p := parseSampler b
  if !zeroAt b 3 1 then some 4
  else if 2 < p.filter ∨ 3 < p.au ∨ 3 < p.av then some 6
  else if p.bias.isNan || p.lo.isNan || p.hi.isNan || fLt p.hi p.lo then some 7 else none

/-- Bytes of a record of a kind: 0 a resource, 1 a sampler. -/
def recordSize (kind : Nat) : Nat := if kind = 0 then 64 else 32

/-- The address of a record. -/
def State.recordVa (s : State) (k kind idx : Nat) : Nat :=
  let c := s.cx (s.ctxOf k)
  ((if kind = 0 then c.rheap else c.sheap).toNat + recordSize kind * idx) % 2 ^ 64

/-- The cached copy of a record of a thread's context in its core (R221). -/
def State.cachedRecord (s : State) (k kind idx : Nat) : Option CachedRecord :=
  firstThat (fun e => e.ctx == s.ctxOf k && e.kind == kind && e.idx == idx) (s.core (coreOfThread k)).records

/-- A record: from the core's cache or from memory; which, where both can serve, is free (R221). -/
def State.recordBytes (s : State) (k kind idx : Nat) : Except Flt (List Byte × Bool) :=
  let va := s.recordVa k kind idx
  let fresh : Except Flt (List Byte × Bool) := match s.sourceRead (s.agentOf k) va (recordSize kind) with
    | .error f => .error (f.engineFlt false va 3)
    | .ok r => .ok r
  match s.cachedRecord k kind idx with
  | none => fresh
  | some c => if s.coinFor (2 ^ 36 + kind * 2 ^ 20 + idx) then .ok (c.bytes, false) else fresh

/-- A record that passes its checks (R401). -/
def State.checkedRecord (s : State) (k kind idx : Nat) (texb : Bool) : Except Flt (List Byte × Bool) :=
  match s.recordBytes k kind idx with
  | .error f => .error f
  | .ok (b, poisoned) =>
    match (if kind = 0 then s.resourceBad (s.ctxOf k) texb b else samplerBad b) with
    | none => .ok (b, poisoned)
    | some c => .error { code := 0x15, info := idx + kind * 2 ^ 20 + c * 2 ^ 24, addr := BitVec.ofNat 64 (s.recordVa k kind idx) }

/-- The records of one index value. -/
structure TexRec where
  idx : Nat
  res : Resource
  smp : Sampler
  raw : List (Nat × Nat × List Byte)
  poisoned : Bool
  deriving DecidableEq, Repr

/-- Reads and checks the records that an index value names; `smp` tells whether the sampler counts. -/
def State.texRecord (s : State) (k v : Nat) (smp texb : Bool) : Except Flt TexRec :=
  let ri := v % 2 ^ 20
  let si := v / 2 ^ 20
  match s.checkedRecord k 0 ri texb with
  | .error f => .error f
  | .ok (b, p) =>
    if !smp then .ok { idx := v, res := parseResource b, smp := parseSampler [], raw := [(0, ri, b)], poisoned := p }
    else
      match s.checkedRecord k 1 si texb with
      | .error f => .error f
      | .ok (c, q) => .ok { idx := v, res := parseResource b, smp := parseSampler c, raw := [(0, ri, b), (1, si, c)], poisoned := p || q }

/-- The records of every unique index value, ascending (R221). -/
def State.texRecords (s : State) (k : Nat) (smp texb : Bool) : List Nat → Except Flt (List TexRec)
  | [] => .ok []
  | v :: r => do
    let x ← s.texRecord k v smp texb
    let xs ← s.texRecords k smp texb r
    .ok (x :: xs)

/-- Records of a kind that a core caches (R221). -/
def recordRoom (kind : Nat) : Nat := if kind = 0 then 256 else 64

/-- Caches one record of a core: with its cache full it replaces another, which is free (R221). -/
def State.keepRecord (s : State) (core : Nat) (x : CachedRecord) : State :=
  let rest := (s.core core).records.filter fun e => !(e.ctx == x.ctx && e.kind == x.kind && e.idx == x.idx)
  let same := (rest.filter fun e => e.kind == x.kind).map fun e => (e.ctx, e.idx)
  let out := same.getD (Config.pick (s.free * 2 ^ 48 + 2 ^ 37 + x.kind * 2 ^ 20 + x.idx) % Nat.max 1 same.length) (0, 0)
  s.updCore core fun c =>
    { c with records := (if same.length < recordRoom x.kind then rest else rest.filter fun e => !(e.kind == x.kind && (e.ctx, e.idx) == out)) ++ [x] }

/-- Caches the records read by a thread, but for poisoned ones, and the translations of the records (R320). -/
def State.keepRecords (s : State) (k : Nat) (l : List TexRec) : State :=
  let own := s.keepWays (s.agentOf k) ((l.flatMap (·.raw)).map fun x => (s.recordVa k x.1 x.2.1, recordSize x.1))
  ((l.filter fun r => !r.poisoned).flatMap (·.raw)).foldl (fun t x =>
    t.keepRecord (coreOfThread k) { ctx := s.ctxOf k, kind := x.1, idx := x.2.1, bytes := x.2.2 }) own

-- Texels.

/-- +1 in FP32. -/
def oneF32 : Word := 0x3F800000

/-- One channel decoded to FP32 (R79). -/
def decodeChannel (fmt ch n : Nat) : Word :=
  if fmt ≤ 2 then BitVec.ofNat 32 n
  else if fmt ≤ 5 then BitVec.ofNat 32 (fConvert f32 .rne (f16.decode n)).1
  else if fmt = 6 ∨ (fmt = 8 ∧ ch = 3) then roundF32 ((n : Rat) / 255)
  else if fmt = 7 then roundF32 (max (((sgn 8 n : Int) : Rat) / 127) (-1))
  else if fmt = 8 then BitVec.ofNat 32 (srgbDecode n)
  else roundF32 ((n : Rat) / 65535)

/-- The four channels of a texel's bytes (R79). -/
def decodeTexel (fmt : Nat) (b : List Byte) : List Word :=
  let c := texChannels fmt
  let n := texelBytes fmt / c
  (upto 0 4).map fun ch =>
    if ch < c then decodeChannel fmt ch (leNat ((b.drop (n * ch)).take n)) else if ch = 3 then oneF32 else 0

/-- A texel that was read: its channels, and whether it was poisoned. -/
abbrev Texel := List Word × Bool

/-- The address of a texel (R79, R219). -/
def Resource.texelVa (r : Resource) (l x y : Nat) : Nat := (r.base + texelBytes r.fmt * r.texel l x y) % 2 ^ 64

/-- Reads a texel as an engine source (R107, R222). -/
def State.readTexel (s : State) (k : Nat) (r : Resource) (l x y : Nat) : Except Flt Texel :=
  let va := r.texelVa l x y
  match s.sourceRead (s.agentOf k) va (texelBytes r.fmt) with
  | .error f => .error (f.engineFlt false va 3)
  | .ok (b, p) => .ok (decodeTexel r.fmt b, p)

/-- The address mode on an index (R223): `none` is the border. -/
def texWrap (mode size : Nat) (i : Int) : Option Nat :=
  let n : Int := size
  if mode = 0 then some (i % n).toNat
  else if mode = 1 then some (max 0 (min i (n - 1))).toNat
  else if mode = 2 then let m := i % (2 * n); some (if m < n then m else 2 * n - 1 - m).toNat
  else if 0 ≤ i ∧ i < n then some i.toNat else none

-- The forward computation (R223).

/-- One rounded product, sum or difference of FP32. -/
def mulF (a b : FVal) : FVal := f32.decode (fMul f32 .rne a b).1
def addF (a b : FVal) : FVal := f32.decode (fAdd f32 .rne a b).1
def subF (a b : FVal) : FVal := f32.decode (fSub f32 .rne a b).1

/-- An integer as an exact value. -/
def intF (i : Int) : FVal := .fin (decide (i < 0)) i.natAbs 0

/-- One half. -/
def halfF : FVal := .fin false 1 (-1)

/-- floor of a finite value and what is left, both exact. -/
def floorF : FVal → Option (Int × FVal)
  | .fin neg m e =>
    let i := floorScale (smant neg m) e
    let (n, x) := addExact (smant neg m) e (-i) 0
    some (i, .fin false n.natAbs x)
  | _ => none

/-- A free choice that the spec does not make, of lane k. -/
def State.openPick (s : State) (k i : Nat) : Nat := Config.pick ((s.free * 2 ^ 24 + k) * 2 ^ 12 + 2048 + i)

/-- A free fraction. -/
def State.openFrac (s : State) (k i : Nat) : FVal := .fin false (s.openPick k i % 2 ^ 24) (-24)

/-- The smaller of two values. -/
def minF (a b : FVal) : FVal := if fLt b a then b else a

/-- The larger of two values. -/
def maxF (a b : FVal) : FVal := if fLt a b then b else a

/-- Levels l0 and the mix weight f; the flag tells whether the spec determines the level (R223). Where the minimum level of detail
lies above the upper bound, the clamp gives the upper bound (DEDUCED, log entry 46). -/
def State.texLod (s : State) (k : Nat) (r : Resource) (p : Sampler) (lam : FVal) : Nat × FVal × Bool :=
  let lam := if lam.isNan then intF 0 else lam
  let x := minF (maxF (addF lam p.bias) p.lo) (minF p.hi (intF (r.levels - 1 : Nat)))
  let y := if p.filter = 2 then floorF x else match x with
    | .fin neg m e => (floorF (.fin (decide ((addExact (smant neg m) e 1 (-1)).1 < 0)) (addExact (smant neg m) e 1 (-1)).1.natAbs (addExact (smant neg m) e 1 (-1)).2))
    | _ => none
  match y with
  | some (i, f) => if 0 ≤ i ∧ i < r.levels then (i.toNat, f, true) else (s.openPick k 0 % r.levels, f, false)
  | none => (s.openPick k 0 % r.levels, s.openFrac k 1, false)

/-- A level as it is sampled: indices and fractions along u and v; `point` for one tap. -/
structure LevelUse where
  l : Nat
  w : Nat
  h : Nat
  mix : FVal
  i : Int
  j : Int
  a : FVal
  b : FVal
  point : Bool
  deriving DecidableEq, Repr

/-- The indices of a level (R223); the flag tells whether the spec determines them. -/
def State.levelUse (s : State) (k key : Nat) (r : Resource) (u v mix : FVal) (l : Nat) (point : Bool) : LevelUse × Bool :=
  let (w, h) := r.dims l
  let at_ := fun (x : FVal) (n : Nat) => floorF (if point then mulF x (intF n) else subF (mulF x (intF n)) halfF)
  let open_ := fun (i : Nat) => (((s.openPick k (key + i) % 2 ^ 16 : Nat) : Int), s.openFrac k (key + i + 1))
  let x := at_ u w
  let y := at_ v h
  let (i, a) := x.getD (open_ 0)
  let (j, b) := y.getD (open_ 2)
  ({ l := l, w := w, h := h, mix := mix, i := i, j := j, a := a, b := b, point := point }, x.isSome && y.isSome)

/-- The levels a sample uses (R223), and whether the spec determines them. -/
def State.texUses (s : State) (k : Nat) (t : TexRec) (u v lam : FVal) (gather : Bool) : List LevelUse × Bool :=
  let (l0, f, ok) := s.texLod k t.res t.smp lam
  let one := intF 1
  if gather then let (x, d) := s.levelUse k 8 t.res u v one l0 false; ([x], ok && d)
  else if t.smp.filter = 2 then
    let l1 := Nat.min (l0 + 1) (t.res.levels - 1)
    let (x, d) := s.levelUse k 8 t.res u v (subF one f) l0 false
    let (y, e) := s.levelUse k 16 t.res u v (f32.decode (fAdd f32 .rne f (intF 0)).1) l1 false
    ([x, y], ok && d && e)
  else let (x, d) := s.levelUse k 8 t.res u v one l0 (t.smp.filter = 0); ([x], ok && d)

/-- The taps of a level as (index along u, index along v, weight before the mix). -/
def LevelUse.taps (x : LevelUse) : List (Int × Int × FVal) :=
  if x.point then [(x.i, x.j, intF 1)]
  else
    let na := subF (intF 1) x.a
    let nb := subF (intF 1) x.b
    [(x.i, x.j, mulF na nb), (x.i + 1, x.j, mulF x.a nb), (x.i, x.j + 1, mulF na x.b), (x.i + 1, x.j + 1, mulF x.a x.b)]

/-- The texel of a tap: `none` for the border. -/
def Sampler.spot (p : Sampler) (x : LevelUse) (i j : Int) : Option (Nat × Nat) :=
  match texWrap p.au x.w i, texWrap p.av x.h j with
  | some a, some b => some (a, b)
  | _, _ => none

/-- The addresses of the texels that the levels used read. -/
def TexRec.ways (t : TexRec) (us : List LevelUse) : List (Nat × Nat) :=
  us.flatMap fun x => x.taps.filterMap fun e => (t.smp.spot x e.1 e.2.1).map fun q => (t.res.texelVa x.l q.1 q.2, texelBytes t.res.fmt)

/-- Reads the texels of every tap of a level, in order. -/
def State.readTaps (s : State) (k : Nat) (t : TexRec) (x : LevelUse) : List (Int × Int × FVal) → Except Flt (List Texel)
  | [] => .ok []
  | (i, j, _) :: r =>
    let c : Except Flt Texel := match t.smp.spot x i j with
      | some (a, b) => s.readTexel k t.res x.l a b
      | none => .ok (t.smp.border, false)
    match c, s.readTaps k t x r with
    | .error f, _ => .error f
    | .ok _, .error f => .error f
    | .ok c, .ok cs => .ok (c :: cs)

/-- Reads the texels of every level used. -/
def State.readUses (s : State) (k : Nat) (t : TexRec) : List LevelUse → Except Flt (List (List Texel))
  | [] => .ok []
  | x :: r =>
    match s.readTaps k t x x.taps, s.readUses k t r with
    | .error f, _ => .error f
    | .ok _, .error f => .error f
    | .ok c, .ok cs => .ok (c :: cs)

/-- A channel of a texel as a value. -/
def Texel.ch (t : Texel) (c : Nat) : FVal := f32.decode (t.1.getD c 0).toNat

/-- One channel of a filtered level (R223). -/
def LevelUse.filtered (x : LevelUse) (ts : List Texel) (c : Nat) : FVal :=
  match x.taps, ts with
  | [(_, _, w00), (_, _, w10), (_, _, w01), (_, _, w11)], [t00, t10, t01, t11] =>
    addF (addF (addF (mulF w00 (t00.ch c)) (mulF w10 (t10.ch c))) (mulF w01 (t01.ch c))) (mulF w11 (t11.ch c))
  | _, t :: _ => t.ch c
  | _, [] => intF 0

/-- The word of an FP32 value. -/
def wordF (x : FVal) : Word := BitVec.ofNat 32 (fConvert f32 .rne x).1

/-- The colour of the levels used (R223): a point sample is the texel's own bits. -/
def texColour (us : List LevelUse) (ts : List (List Texel)) : List Word :=
  match us, ts with
  | [x], [t] => if x.point then (t.headD ([], false)).1 else (upto 0 4).map fun c => wordF (x.filtered t c)
  | [x, y], [t, r] => (upto 0 4).map fun c => wordF (addF (mulF x.mix (x.filtered t c)) (mulF y.mix (y.filtered r c)))
  | _, _ => []

-- The instructions.

/-- Four destination registers with a name divisible by 4. -/
def Opd.quadDst (n : BitVec 7) : Opd := { cls := .vec, n := n.toNat, cnt := 4, quad := true, rd := false, wr := true }

/-- A result of a lane: its writes, whether a source was poisoned, and the texels read. -/
structure TexOut where
  k : Nat
  writes : List RegWrite
  poisoned : Bool
  ways : List (Nat × Nat) := []
  deriving DecidableEq, Repr

/-- The result goes to its registers after a free latency; a poisoned source poisons it (R388). The unit's TLBs hold the
translations of the texels (R320). -/
def State.putTex (s : State) (o : TexOut) : State :=
  let s := s.keepWays (s.agentOf o.k) o.ways
  if o.poisoned then (s.variable o.k o.writes 0 true).poisonedSource o.k 3 0 else s.variable o.k o.writes

/-- The index values of the issued lanes. -/
def State.texIdx (s : State) (b : BitVec 7) (k : Nat) : Nat := (s.v k b.toNat).toNat

/-- The records of the issued lanes. -/
def State.laneRecords (s : State) (b : BitVec 7) (smp texb : Bool) : Except Flt (List TexRec) :=
  s.texRecords (s.issue.headD 0) smp texb (sortNat (dedup (s.issue.map (s.texIdx b))))

/-- Computes a result for each lane; a failing texel read is the fault of its lane, with SRC 3 (R401). -/
def State.texLanes {α : Type} (s : State) (b : BitVec 7) (recs : List TexRec) (f : Nat → TexRec → Except Flt α) : Except Flt (List α) :=
  let all := s.issue.filterMap fun k => (firstThat (fun t => t.idx == s.texIdx b k) recs).map fun t => (k, f k t)
  lanesOf (all.map (·.2))

/-- An FP32 operand. -/
def State.fOpd (s : State) (k n : Nat) : FVal := f32.decode (s.v k n).toNat

/-- Whether a value is finite. -/
def FVal.finite : FVal → Bool
  | .fin _ _ _ => true
  | _ => false

/-- u, v and the level of detail of a lane. -/
def State.texArgs (s : State) (k : Nat) (a : BitVec 7) (lz : BitVec 1) : FVal × FVal × FVal :=
  (s.fOpd k a.toNat, s.fOpd k (a.toNat + 1), if lz = 1 then intF 0 else s.fOpd k (a.toNat + 2))

/-- Four words to the block at D. -/
def State.texWrites (s : State) (k : Nat) (d : BitVec 7) (ws : List Word) (poisoned : Bool) : TexOut :=
  { k := k, writes := s.toBlock k d.toNat ws, poisoned := poisoned }

/-- The result of TEX or TEXG on one lane. -/
def State.texLane (s : State) (d a : BitVec 7) (lz : BitVec 1) (gather : Option Nat) (k : Nat) (t : TexRec) : Except Flt TexOut := do
  let (u, v, lam) := s.texArgs k a lz
  if !u.finite || !v.finite then .ok (s.texWrites k d (List.replicate 4 0x7FC00000) t.poisoned)
  else
    let (us, ok) := s.texUses k t u v lam gather.isSome
    let ts ← s.readUses k t us
    let poisoned := t.poisoned || ts.any fun l => l.any (·.2)
    let colour := match gather with
      | some ch => (ts.headD []).map fun x => x.1.getD ch 0
      | none => texColour us ts
    .ok { s.texWrites k d (if ok then colour else (upto 0 4).map fun i => s.openWord k i) poisoned with ways := t.ways us }

/-- The operands of TEX, TEXG and TEXL. -/
def texOpds (d a b : BitVec 7) (lz : BitVec 1) : List Opd := [.quadDst d, .vblock a (if lz = 1 then 2 else 3) 2, .src b]

/-- TEX (R223). -/
def execTex (lz : BitVec 1) (d a b : BitVec 7) (s : State) : Host.Outcome State Fault Refusal :=
  s.issueWord { instr := .tex lz d a b, ops := texOpds d a b lz } fun s => do
    let recs ← s.laneRecords b true false
    let outs ← s.texLanes b recs fun k t => s.texLane d a lz none k t
    .ok (outs.foldl State.putTex (s.takeFree.2.keepRecords (s.issue.headD 0) recs))

/-- TEXG (R223). -/
def execTexg (lz : BitVec 1) (ch : BitVec 2) (d a b : BitVec 7) (s : State) : Host.Outcome State Fault Refusal :=
  s.issueWord { instr := .texg lz ch d a b, ops := texOpds d a b lz } fun s => do
    let recs ← s.laneRecords b true false
    let outs ← s.texLanes b recs fun k t => s.texLane d a lz (some ch.toNat) k t
    .ok (outs.foldl State.putTex (s.takeFree.2.keepRecords (s.issue.headD 0) recs))

/-- TEXL (R223). -/
def execTexl (d a b : BitVec 7) (s : State) : Host.Outcome State Fault Refusal :=
  s.issueWord { instr := .texl d a b, ops := texOpds d a b 0 } fun s => do
    let recs ← s.laneRecords b false false
    let all := s.issue.map fun k => (k, s.texIdx b k)
    let one := fun (k idx : Nat) =>
      let n := fun (i : Nat) => (s.v k (a.toNat + i)).toNat
      match firstThat (fun t => t.idx == idx) recs with
      | none => Except.ok (s.texWrites k d [0, 0, 0, 0] false)
      | some t =>
        let (w, h) := t.res.dims (n 2)
        if t.res.levels ≤ n 2 ∨ w ≤ n 0 ∨ h ≤ n 1 then .ok (s.texWrites k d [0, 0, 0, 0] t.poisoned)
        else match s.readTexel k t.res (n 2) (n 0) (n 1) with
          | .error f => .error f
          | .ok (c, p) => .ok { s.texWrites k d c (t.poisoned || p) with ways := [(t.res.texelVa (n 2) (n 0) (n 1), texelBytes t.res.fmt)] }
    let outs ← lanesOf (all.map fun e => one e.1 e.2)
    .ok (outs.foldl State.putTex (s.takeFree.2.keepRecords (s.issue.headD 0) recs))

-- TEXB (R224).

/-- The exact derivative terms of one level and channel, along u and along v; a texel or g that is NaN or infinite makes them so
(R67, R68). -/
def LevelUse.slopes (x : LevelUse) (ts : List Texel) (g : FVal) (c : Nat) : Xnum × Xnum :=
  let t := fun (i : Nat) => ((ts.getD i ([], false)).ch c).xnum
  let one := Xnum.num 1
  let a := x.a.xnum
  let b := x.b.xnum
  let term := fun (n : Nat) (w d e : Xnum) => ((x.mix.xnum.mul g.xnum).mul (.num n)).mul (((one.sub w).mul d).add (w.mul e))
  (term x.w b ((t 1).sub (t 0)) ((t 3).sub (t 2)), term x.h a ((t 2).sub (t 0)) ((t 3).sub (t 1)))

/-- du and dv (R224): with the point filter both are +0. -/
def texSlopes (us : List LevelUse) (ts : List (List Texel)) (g : Nat → FVal) (channels : Nat) : Xnum × Xnum :=
  ((us.zip ts).filter fun e => !e.1.point).foldl (fun acc e =>
    (upto 0 channels).foldl (fun (acc : Xnum × Xnum) c => let d := e.1.slopes e.2 (g c) c; (acc.1.add d.1, acc.2.add d.2)) acc) (.num 0, .num 0)

/-- The addends of one lane in their order: the gradient element and the FP32 addend, or nothing (R224). -/
def texAddends (t : TexRec) (us : List LevelUse) (g : Nat → FVal) : List (Option (Nat × FVal)) :=
  us.flatMap fun x => x.taps.flatMap fun tap =>
    let wt := if us.length = 1 then tap.2.2 else mulF x.mix tap.2.2
    (upto 0 (texChannels t.res.fmt)).map fun c =>
      match t.smp.spot x tap.1 tap.2.1, wt with
      | none, _ => none
      | some _, .fin _ 0 _ => none
      | some (a, b), _ => some (texChannels t.res.fmt * t.res.texel x.l a b + c, mulF wt (g c))

/-- The checks of one addition of TEXB: the addend, then the shadow's page and the primary's (R383). -/
def State.checkTexAdd (s : State) (k grad el : Nat) (x : FVal) : Except Flt GaddLane :=
  let va := grad + 4 * el
  let bad := fun (f : AccFault) => f.laneFlt true k (BitVec.ofNat 64 va)
  match s.regionAt (s.ctxOf k) va with
  | none => .error (bad { code := 0x0E, info := some 4 })
  | some r =>
    match binAddend r.e x with
    | .error i => .error (bad { code := 0x0E, info := some i })
    | .ok (neg, m, e) =>
      let sh := r.shadowOf va
      match s.translateFor k (s.ctxOf k) sh { w := true, bs := true }, s.translateFor k (s.ctxOf k) va {} with
      | .error f, _ => .error (bad f)
      | .ok _, .error f => .error (bad f)
      | .ok t, .ok _ =>
        .ok { k := k, ea := BitVec.ofNat 64 va, shadow := { home := t.pa + (sh - t.va), win := .paged, entry := some t }, r := r
              neg := neg, mant := m, exp := e, bits := (wordF x).toNat }

/-- The checked additions of one lane, in order. -/
def State.checkTexAdds (s : State) (k grad : Nat) : List (Option (Nat × FVal)) → Except Flt (List (Option GaddLane))
  | [] => .ok []
  | none :: r => (s.checkTexAdds k grad r).map (none :: ·)
  | some (el, x) :: r => do
    let g ← s.checkTexAdd k grad el x
    let gs ← s.checkTexAdds k grad r
    .ok (some g :: gs)

/-- The results of TEXB on one lane. With u or v NaN or infinite R223 stops before it has a level, so nothing is added; the spec
states no derivatives there, and they are free words (DESIGN CHOICE, log entry 46). -/
def State.texbLane (s : State) (lz : BitVec 1) (d a gr : BitVec 7) (k : Nat) (t : TexRec) : Except Flt (TexOut × List (Option GaddLane)) := do
  let (u, v, lam) := s.texArgs k a lz
  let open_ := [s.openWord k 0, s.openWord k 1]
  if !u.finite || !v.finite then .ok ({ k := k, writes := s.toBlock k d.toNat open_, poisoned := t.poisoned }, [])
  else
    let g := fun (c : Nat) => s.fOpd k (gr.toNat + c)
    let (us, ok) := s.texUses k t u v lam false
    let ts ← s.readUses k t us
    let adds ← s.checkTexAdds k t.res.grad (texAddends t us g)
    let poisoned := t.poisoned || ts.any fun l => l.any (·.2)
    let d' := texSlopes us ts g (texChannels t.res.fmt)
    .ok ({ k := k, writes := s.toBlock k d.toNat (if ok then [d'.1.word, d'.2.word] else open_), poisoned := poisoned, ways := t.ways us }, adds)

/-- The additions of the lanes of one record in the order of R224: levels, taps and channels, and lanes within each. -/
def texOrder (l : List (List (Option GaddLane))) : List GaddLane :=
  let n := l.foldl (fun m x => Nat.max m x.length) 0
  (upto 0 n).flatMap fun i => l.filterMap fun x => (x[i]?).join

/-- TEXB (R224): one value of B at a time, ascending (R221). -/
def execTexb (lz : BitVec 1) (d a b gr : BitVec 7) (s : State) : Host.Outcome State Fault Refusal :=
  s.issueWord { instr := .texb lz d a b gr
                ops := [.dst d true, .vblock a (if lz = 1 then 2 else 3) 2, .src b, .vblock gr 4 3] } fun s => do
    let recs ← s.laneRecords b true true
    let outs ← s.texLanes b recs fun k t => s.texbLane lz d a gr k t
    let adds := recs.flatMap fun r => texOrder ((outs.filter fun o => s.texIdx b o.1.k == r.idx).map (·.2))
    s.checkGaddWindow adds
    let t := (s.takeFree.2.keepRecords (s.issue.headD 0) recs).sendGadds adds
    .ok ((outs.map (·.1)).foldl State.putTex t)

-- RREC (R225).

/-- The resource records that the lanes of an RREC name, for a field of each. -/
def State.rrec (s : State) (d b : BitVec 7) (f : Nat → Resource → Word) : Except Flt State := do
  let recs ← s.laneRecords b false false
  .ok (s.issue.foldl (fun t k =>
    match firstThat (fun r => r.idx == s.texIdx b k) recs with
    | some r => t.putTex { k := k, writes := [s.toV k d.toNat (f k r.res)], poisoned := r.poisoned }
    | none => t) (s.keepRecords (s.issue.headD 0) recs))

/-- RREC.dim (R225). -/
def execRrecDim (d a b : BitVec 7) (s : State) : Host.Outcome State Fault Refusal :=
  s.issueWord { instr := .rrecDim d a b, ops := [.dst d, .src a, .src b] } fun s =>
    s.rrec d b fun k r =>
      let l := (s.v k a.toNat).toNat
      if r.levels ≤ l then 0 else BitVec.ofNat 32 ((r.dims l).1 + (r.dims l).2 * 2 ^ 16)

/-- RREC.fmt (R225). -/
def execRrecFmt (d b : BitVec 7) (s : State) : Host.Outcome State Fault Refusal :=
  s.issueWord { instr := .rrecFmt d b, ops := [.dst d, .src b] } fun s =>
    s.rrec d b fun _ r => BitVec.ofNat 32 (r.fmt + r.levels * 2 ^ 8)

/-- RREC.inv (R225). -/
def execRrecInv (s : State) : Host.Outcome State Fault Refusal :=
  s.issuePlain { instr := .rrecInv } fun s => s.issue.foldl (fun s k => s.updCore (coreOfThread k) fun c => { c with records := [] }) s

end Sys2Proof.Machine
end

