-- ==== Sys2Proof/Machine/Ray.lean ====
section
/-! DEFINITION. The meanings of the ray-query instructions (R226 to R246, R402 to R404): the state of a query, the
traversal order, the watertight test, candidates, commits and the adjoint. -/

namespace Sys2Proof.Machine

-- The state of a query (R231).

/-- The 64 bytes of a query as numbers. -/
structure Query where
  ctrl : Nat
  iid : Nat
  trail : Nat
  leaf : Nat
  inst : Nat
  t : Nat
  geom : Nat
  prim : Nat
  b1 : Nat
  b2 : Nat
  root : Nat
  deriving DecidableEq, Repr

/-- The query in 64 bytes. -/
def parseQuery (b : List Byte) : Query :=
  { ctrl := fieldAt b 0 4, iid := fieldAt b 4 4, trail := fieldAt b 8 8, leaf := fieldAt b 16 8, inst := fieldAt b 24 8
    t := fieldAt b 32 8, geom := fieldAt b 40 4, prim := fieldAt b 44 4, b1 := fieldAt b 48 4, b2 := fieldAt b 52 4, root := fieldAt b 56 8 }

/-- The bytes of a query. -/
def Query.bytes (q : Query) : List Byte :=
  leBytes 4 q.ctrl ++ leBytes 4 q.iid ++ leBytes 8 q.trail ++ leBytes 8 q.leaf ++ leBytes 8 q.inst ++ leBytes 8 q.t
    ++ leBytes 4 q.geom ++ leBytes 4 q.prim ++ leBytes 4 q.b1 ++ leBytes 4 q.b2 ++ leBytes 8 q.root

def Query.phase (q : Query) : Nat := q.ctrl % 8
def Query.log (q : Query) : Bool := bit q.ctrl 3
def Query.fp64 (q : Query) : Bool := bit q.ctrl 4
def Query.opq (q : Query) : Bool := bit q.ctrl 5
def Query.fht (q : Query) : Bool := bit q.ctrl 6
def Query.hit (q : Query) : Bool := bit q.ctrl 7
def Query.inInst (q : Query) : Bool := bit q.ctrl 8
def Query.depth (q : Query) : Nat := field q.ctrl 9 5
def Query.leafType (q : Query) : Nat := field q.leaf 57 3

/-- The query's precision. -/
def Query.fmt (q : Query) : Fmt := if q.fp64 then f64 else f32

/-- The committed t. -/
def Query.tval (q : Query) : FVal := if q.fp64 then f64.decode q.t else f32.decode (q.t % 2 ^ 32)

/-- The committed key (R239). -/
def Query.key (q : Query) : Nat := (q.iid * 2 ^ 32 + q.geom) * 2 ^ 32 + q.prim

/-- Replaces the phase. -/
def Query.setPhase (q : Query) (p : Nat) : Query := { q with ctrl := q.ctrl / 8 * 8 + p }

/-- The query in Done: DEPTH 0 and INST 0, no position (R358). -/
def Query.done (q : Query) : Query := { q with ctrl := q.ctrl % 2 ^ 8 / 8 * 8 + 4, trail := 0, leaf := 0, inst := 0 }

/-- The lane-store window address of a query's state. -/
def rqVa (q : Nat) : DWord := BitVec.ofNat 64 (laneBase + 64 * q)

/-- Reads a query's state (R231). -/
def State.loadQuery (s : State) (k q : Nat) : Except Flt Query :=
  if (s.thr k).laneSz < 64 * q + 64 then .error { code := 0x0B, addr := rqVa q }
  else if s.isPoisoned (s.laneHome k (64 * q)) 64 then .error { code := 0x1C, cls := 2, addr := rqVa q }
  else .ok (parseQuery (s.readHomes (s.laneHome k (64 * q)) 64))

/-- The malformed states of R404: the INFO. -/
def Query.malformed (q : Query) : Option Nat :=
  let lt := q.leafType
  if q.ctrl / 2 ^ 14 ≠ 0 ∨ 4 < q.phase then some 2
  else if 20 < q.depth ∨ !([0, 2, 3, 4].contains lt) ∨ (q.phase = 2 ∧ lt ≠ 2 ∧ lt ≠ 3) ∨ (q.phase = 3 ∧ lt ≠ 4)
      ∨ field q.leaf 60 4 < q.leaf % 16 ∨ (q.inst ≠ 0 ∧ !q.inInst) then some 3
  else if q.trail / 8 ^ q.depth ≠ 0 then some 4 else none

/-- A query that an instruction may use in its phase (R232, R404). -/
def State.useQuery (s : State) (k q : Nat) (phases : List Nat) : Except Flt Query :=
  match s.loadQuery k q with
  | .error f => .error f
  | .ok x =>
    match x.malformed with
    | some i => .error { code := 0x14, info := i, addr := rqVa q }
    | none => if phases.contains x.phase then .ok x else .error { code := 0x14, info := 1, addr := rqVa q }

-- Rays (R233, R242).

/-- The eight words of a ray block as values. -/
def State.rayVals (s : State) (k : Nat) (a : BitVec 7) (fp64 : Bool) : List FVal :=
  (upto 0 8).map fun i => if fp64 then f64.decode (s.v64 k (a.toNat + 2 * i)).toNat else f32.decode (s.v k (a.toNat + i)).toNat

/-- A ray of numbers: origin and direction. -/
structure Ray where
  o : List Rat
  d : List Rat
  tmin : Rat
  tmax : Rat
  deriving DecidableEq, Repr

/-- The numbers of values that are all finite. -/
def ratsOf : List FVal → Option (List Rat)
  | [] => some []
  | x :: r =>
    match x.rat, ratsOf r with
    | some a, some l => some (a :: l)
    | _, _ => none

/-- The ray of a block that is not void (R402). -/
def rayOfVals (v : List FVal) : Option Ray :=
  match ratsOf v with
  | none => none
  | some l =>
    let r : Ray := { o := l.take 3, d := (l.drop 3).take 3, tmin := l.getD 6 0, tmax := l.getD 7 0 }
    if r.d.all (· == 0) || decide (r.tmax < r.tmin) then none else some r

/-- One component of a transformed point or direction, rounded once (R242). -/
def xfBits (f : Fmt) (row x : List FVal) : Nat :=
  match blockSum row x with
  | .nan => f.nanBits
  | .inf n => f.infBits n
  | .fin n e => if n = 0 then 0 else (roundTo f .rne (decide (n < 0)) n.natAbs e).1

/-- An instance leaf (R229). -/
structure Inst where
  va : Nat
  root : Nat
  id : Nat
  flags : Nat
  m : List FVal
  level : Nat
  deriving DecidableEq, Repr

/-- A row of the matrix. -/
def Inst.row (i : Inst) (r : Nat) : List FVal := (i.m.drop (4 * r)).take 4

/-- o' and d' in a format, as bits (R242). -/
def Inst.xform (i : Inst) (f : Fmt) (v : List FVal) : List Nat × List Nat :=
  ((upto 0 3).map fun r => xfBits f (i.row r) (v.take 3 ++ [intF 1]), (upto 0 3).map fun r => xfBits f ((i.row r).take 3) ((v.drop 3).take 3))

/-- The object ray inside an instance, or the ray itself (R242, R402). -/
def objectRay (f : Fmt) (inst : Option Inst) (v : List FVal) : Option Ray :=
  match rayOfVals v with
  | none => none
  | some r =>
    match inst with
    | none => some r
    | some i =>
      let (o, d) := i.xform f v
      if i.m.any fun x => !x.finite then none
      else
        match ratsOf (o.map f.decode), ratsOf (d.map f.decode) with
        | some o, some d => if d.all (· == 0) then none else some { r with o := o, d := d }
        | _, _ => none

-- BVH memory (R226 to R229, R403).

/-- A content fault of BVH memory. -/
def bvhFlt (info va : Nat) : Flt := { code := 0x02, info := info, addr := BitVec.ofNat 64 va, src := 4 }

/-- What a query instruction has read of a BVH: whether any of it was poisoned (R388), and the addresses and lengths. -/
structure Seen where
  poisoned : Bool := false
  ways : List (Nat × Nat) := []
  deriving DecidableEq, Repr

/-- Two parts of what was read. -/
def Seen.also (a b : Seen) : Seen := { poisoned := a.poisoned || b.poisoned, ways := a.ways ++ b.ways }

/-- Reads BVH memory as an engine source. A device-page address gives the engine's failure there: R376 and R311 name it, where R403 has
BOUNDS for every address from 0x01FF_F000_0000_0000 on (DEDUCED, log entry 51). -/
def State.bvhRead (s : State) (k va n : Nat) : Except Flt (List Byte × Bool) :=
  let err := fun (f : AccFault) => f.engineFlt false va 4
  if winOf va != .device && decide (teamBase < va + n) then .error (err { code := 0x07, chk := 4 })
  else
    match s.sourceRead (s.agentOf k) va n with
    | .error f => .error (err f)
    | .ok r => .ok r

/-- A rational or an infinity. -/
inductive Ext where
  | ninf
  | num (q : Rat)
  | pinf
  deriving DecidableEq, Repr

/-- Order. -/
def Ext.le : Ext → Ext → Bool
  | .ninf, _ => true
  | _, .pinf => true
  | .num a, .num b => decide (a ≤ b)
  | _, _ => false

def Ext.min (a b : Ext) : Ext := if a.le b then a else b
def Ext.max (a b : Ext) : Ext := if a.le b then b else a

/-- A bound of a box: `none` for a NaN. -/
def extOf : FVal → Option Ext
  | .nan _ _ _ => none
  | .inf n => some (if n then .ninf else .pinf)
  | x => x.rat.map .num

/-- (x - o) / d for d not 0. -/
def Ext.slab (x : Ext) (o d : Rat) : Ext :=
  match x with
  | .num q => .num ((q - o) / d)
  | .ninf => if 0 < d then .ninf else .pinf
  | .pinf => if 0 < d then .pinf else .ninf

/-- One axis of the box test: the slab, or nothing where the box is missed (R230). -/
def axisSlab (lo hi : Ext) (o d : Rat) : Option (Ext × Ext) :=
  if !(lo.le hi) then none
  else if d = 0 then (if lo.le (.num o) && (Ext.num o).le hi then some (.ninf, .pinf) else none)
  else some ((lo.slab o d).min (hi.slab o d), (lo.slab o d).max (hi.slab o d))

/-- near and far of a box (R230): six bounds, lows first. -/
def boxHit (b : List FVal) (r : Ray) : Option (Rat × Rat) :=
  let axis := fun (i : Nat) =>
    match extOf (b.getD i (.nan false true 0)), extOf (b.getD (i + 3) (.nan false true 0)) with
    | some lo, some hi => axisSlab lo hi (r.o.getD i 0) (r.d.getD i 0)
    | _, _ => none
  match axis 0, axis 1, axis 2 with
  | some x, some y, some z =>
    match (((Ext.num r.tmin).max x.1).max y.1).max z.1, (((Ext.num r.tmax).min x.2).min y.2).min z.2 with
    | .num n, .num f => if n ≤ f then some (n, f) else none
    | _, _ => none
  | _, _, _ => none

/-- A hit child of a box node, ranked. -/
structure Kid where
  near : Rat
  far : Rat
  typ : Nat
  cnt : Nat
  va : Nat
  deriving DecidableEq, Repr

/-- Inserts a child by ascending near, behind equal ones. -/
def insertKid (x : Kid) : List Kid → List Kid
  | [] => [x]
  | y :: r => if x.near < y.near then x :: y :: r else y :: insertKid x r

/-- The type and count of a child reference that is malformed: the INFO. -/
def refBad (ref : Nat) : Option Nat :=
  let t := field ref 61 3
  if 6 ≤ t then some 0x41 else if (t = 0 ∨ t = 1 ∨ t = 5) ∧ field ref 57 4 ≠ 0 then some 0x42 else none

/-- Whether bytes of BVH memory are poisoned. -/
def State.bvhBad (s : State) (k va n : Nat) : Bool := match s.bvhRead k va n with | .ok r => r.2 | .error _ => false

/-- The hit children of a box node in rank order (R227, R230), and what was read: the node counts as poisoned
by its references, and by the boxes of the children that are not empty. -/
def State.kids (s : State) (k va : Nat) (r : Ray) : Except Flt (List Kid × Seen) :=
  if va % 256 ≠ 0 then .error (bvhFlt 0x43 va)
  else
    match s.bvhRead k va 256 with
    | .error f => .error f
    | .ok (b, any) =>
      let refs := (upto 0 8).map fun c => fieldAt b (0xC0 + 8 * c) 8
      let p := any && (s.bvhBad k (va + 0xC0) 64 || (refs.zip (upto 0 8)).any fun e => field e.1 61 3 != 0 && s.bvhBad k (va + 24 * e.2) 24)
      match refs.filterMap refBad with
      | i :: _ => .error (bvhFlt i va)
      | [] =>
        let kids := (refs.zip (upto 0 8)).filterMap fun e =>
          if field e.1 61 3 = 0 then none
          else (boxHit ((upto 0 6).map fun i => f32.decode (fieldAt b (24 * e.2 + 4 * i) 4)) r).map fun h =>
            ({ near := h.1, far := h.2, typ := field e.1 61 3, cnt := field e.1 57 4, va := field e.1 0 57 } : Kid)
        .ok (kids.foldl (fun l x => insertKid x l) [], { poisoned := p, ways := [(va, 256)] })

/-- A leaf entry (R228): type 2 an FP32 triangle, 3 an FP64 triangle, 4 procedural. -/
structure Entry where
  typ : Nat
  prim : Nat
  geom : Nat
  flags : Nat
  word : Nat
  ptr : Nat
  vs : List FVal
  seen : Seen
  deriving DecidableEq, Repr

/-- Bytes and alignment of an entry of a type. -/
def entrySize (t : Nat) : Nat := if t = 2 then 48 else if t = 3 then 96 else 32
def entryAlign (t : Nat) : Nat := if t = 3 then 32 else 16

/-- Reads a leaf entry. -/
def State.leafEntry (s : State) (k t va : Nat) : Except Flt Entry :=
  if va % entryAlign t ≠ 0 then .error (bvhFlt 0x43 va)
  else
    match s.bvhRead k va (entrySize t) with
    | .error f => .error f
    | .ok (b, p) =>
      if t = 4 then
        if 1 < fieldAt b 8 4 ∨ !zeroAt b 0x18 8 then .error (bvhFlt 0x44 va)
        else .ok { typ := 4, prim := fieldAt b 0 4, geom := fieldAt b 4 4, flags := fieldAt b 8 4, word := fieldAt b 12 4, ptr := fieldAt b 16 8
                   vs := [], seen := { poisoned := p, ways := [(va, entrySize t)] } }
      else
        let n := if t = 3 then 8 else 4
        let f := if t = 3 then f64 else f32
        let fl := fieldAt b (9 * n + 8) 4
        if 1 < fl ∨ (t = 3 ∧ !zeroAt b 0x54 12) then .error (bvhFlt 0x44 va)
        else .ok { typ := t, prim := fieldAt b (9 * n) 4, geom := fieldAt b (9 * n + 4) 4, flags := fl, word := 0, ptr := 0
                   vs := (upto 0 9).map fun i => f.decode (fieldAt b (n * i) n), seen := { poisoned := p, ways := [(va, entrySize t)] } }

/-- Reads an instance leaf, whose root children stand at a level. -/
def State.instLeaf (s : State) (k va level : Nat) : Except Flt (Inst × Seen) :=
  if va % 64 ≠ 0 then .error (bvhFlt 0x43 va)
  else
    match s.bvhRead k va 64 with
    | .error f => .error f
    | .ok (b, p) =>
      let fl := fieldAt b 12 4
      let id := fieldAt b 8 4
      if 8 ≤ fl then .error (bvhFlt 0x44 va)
      else if bit fl 1 && bit fl 2 then .error (bvhFlt 0x45 va)
      else if id = 0xFFFFFFFF then .error (bvhFlt 0x46 va)
      else
        let wide := bit fl 0
        match (if wide then s.bvhRead k (va + 64) 48 else .ok ([], false)) with
        | .error f => .error f
        | .ok (c, p') =>
          let all := b ++ c
          let f := if wide then f64 else f32
          let n := if wide then 8 else 4
          .ok ({ va := va, root := fieldAt b 0 8, id := id, flags := fl, level := level
                 m := (upto 0 12).map fun i => f.decode (fieldAt all (16 + n * i) n) },
              { poisoned := p || p', ways := (va, 64) :: if wide then [(va + 64, 48)] else [] })

-- The watertight test (R240).

/-- What a triangle test finds. -/
inductive TriTest where
  /-- A vertex or a value of the test is no number: never hit (R402). -/
  | never
  /-- det = 0. -/
  | flat
  | value (hit : Bool) (t : Nat) (b1 b2 : Nat)
  deriving DecidableEq, Repr

/-- A rounding that must stay a number. -/
def numTo (f : Fmt) (q : Rat) : Option Rat := (f.decode (roundRat f q)).rat

/-- An edge function: rounded, or to the extended format where that gives 0 (R240). -/
def edgeFn (f : Fmt) (q : Rat) : Option Rat :=
  match numTo f q with
  | none => none
  | some r => if r = 0 ∧ q ≠ 0 then (e80Decode (roundE80 (decide (q < 0)) q.num.natAbs (-(Nat.log2 q.den : Int)))).rat else some r

/-- A vertex in sheared coordinates. -/
def shear (f : Fmt) (v o : List Rat) (kx ky kz : Nat) (sx sy sz : Rat) : Option (Rat × Rat × Rat) := do
  let x ← numTo f (v.getD 0 0 - o.getD 0 0)
  let y ← numTo f (v.getD 1 0 - o.getD 1 0)
  let z ← numTo f (v.getD 2 0 - o.getD 2 0)
  let t := [x, y, z]
  let a ← numTo f (t.getD kx 0 - sx * t.getD kz 0)
  let b ← numTo f (t.getD ky 0 - sy * t.getD kz 0)
  let c ← numTo f (sz * t.getD kz 0)
  return (a, b, c)

/-- Whether the edge from one sheared point to another owns its boundary. -/
def edgeOwns (p q : Rat × Rat × Rat) : Bool :=
  decide (0 < q.2.1 - p.2.1) || (q.2.1 - p.2.1 == 0 && decide (q.1 - p.1 < 0))

/-- The axis of the largest direction component, the lowest on a tie. -/
def mainAxis (d : List Rat) : Nat :=
  let a := fun (i : Nat) => if d.getD i 0 < 0 then -(d.getD i 0) else d.getD i 0
  if a 1 ≤ a 0 ∧ a 2 ≤ a 0 then 0 else if a 2 ≤ a 1 then 1 else 2

/-- The values of R240: U, V, W and the sheared vertices; `none` where one is no number. -/
def triValues (f : Fmt) (vs : List Rat) (r : Ray) : Option (List (Rat × Bool) × List Rat) := do
  let kz := mainAxis r.d
  let dz := r.d.getD kz 0
  let k1 := (kz + 1) % 3
  let k2 := (kz + 2) % 3
  let kx := if dz < 0 then k2 else k1
  let ky := if dz < 0 then k1 else k2
  let sx ← numTo f (r.d.getD kx 0 / dz)
  let sy ← numTo f (r.d.getD ky 0 / dz)
  let sz ← numTo f (1 / dz)
  let a ← shear f (vs.take 3) r.o kx ky kz sx sy sz
  let b ← shear f ((vs.drop 3).take 3) r.o kx ky kz sx sy sz
  let c ← shear f ((vs.drop 6).take 3) r.o kx ky kz sx sy sz
  let u ← edgeFn f (c.1 * b.2.1 - c.2.1 * b.1)
  let v ← edgeFn f (a.1 * c.2.1 - a.2.1 * c.1)
  let w ← edgeFn f (b.1 * a.2.1 - b.2.1 * a.1)
  return ([(u, edgeOwns b c), (v, edgeOwns c a), (w, edgeOwns a b)], [a.2.2, b.2.2, c.2.2])

/-- The test of a triangle (R240): `tp` the test precision, `qf` that of t, `bf` that of b1 and b2. -/
def triTest (tp qf bf : Fmt) (vs : List FVal) (ray : Option Ray) : TriTest :=
  match ray, ratsOf vs with
  | some r, some v =>
    match triValues tp v r with
    | none => .never
    | some (es, zs) =>
      let e := fun (i : Nat) => (es.getD i (0, false)).1
      let det := e 0 + e 1 + e 2
      if det = 0 then .flat
      else
        let t := roundRat qf ((e 0 * zs.getD 0 0 + e 1 * zs.getD 1 0 + e 2 * zs.getD 2 0) / det)
        let b1 := roundRat bf (e 1 / det)
        let b2 := roundRat bf (e 2 / det)
        match (qf.decode t).rat, (bf.decode b1).rat, (bf.decode b2).rat with
        | some tv, some _, some _ =>
          let nz := (es.map (·.1)).filter (· != 0)
          let hit := !nz.isEmpty && (nz.all (fun x => decide (0 < x)) || nz.all (fun x => decide (x < 0)))
            && es.all (fun x => x.1 != 0 || x.2) && decide (r.tmin ≤ tv) && decide (tv ≤ r.tmax)
          .value hit t b1 b2
        | _, _, _ => .never
  | _, _ => .never

/-- The test of an entry for a query (R240). -/
def Query.test (q : Query) (e : Entry) (ray : Option Ray) : TriTest :=
  triTest (if q.fp64 || e.typ == 3 then f64 else f32) q.fmt f32 e.vs ray

-- The closest-hit rule (R239).

/-- Whether a hit replaces the committed one. -/
def Query.better (q : Query) (t : FVal) (key : Nat) : Bool :=
  !q.hit || fLt t q.tval || (!t.isNan && !q.tval.isNan && fEq t q.tval && decide (key < q.key))

/-- Commits a hit: t as bits of the query's precision. -/
def Query.take (q : Query) (t iid geom prim b1 b2 : Nat) : Query :=
  { q with t := t, iid := iid, geom := geom, prim := prim, b1 := b1, b2 := b2, ctrl := if q.hit then q.ctrl else q.ctrl + 2 ^ 7 }

/-- The instance id of a position. -/
def instId (i : Option Inst) : Nat := match i with | some x => x.id | none => 0xFFFFFFFF

/-- Whether a triangle entry is opaque (R234). -/
def Query.opaque_ (q : Query) (i : Option Inst) (e : Entry) : Bool :=
  q.opq || match i with
    | some x => if bit x.flags 1 then true else if bit x.flags 2 then false else bit e.flags 0
    | none => bit e.flags 0

-- The traversal (R230, R235).

/-- A record for the tape: its kind and values. -/
abbrev LogRec := Nat × List Nat

/-- How far a traversal has come. -/
structure Trav where
  q : Query
  recs : List LogRec := []
  /-- What stops it: RQPROC's result. -/
  res : Option Nat := none
  seen : Seen := {}
  deriving DecidableEq, Repr

/-- Adds a record where the query logs (R243). -/
def Trav.note (t : Trav) (r : LogRec) : Trav := if t.q.log then { t with recs := t.recs ++ [r] } else t

/-- Records the position of an entry (R231): ranks from level 0, the leaf, the index and the instance. -/
def Query.at_ (q : Query) (ranks : List Nat) (typ cnt va idx : Nat) (i : Option Inst) : Query :=
  let trail := (ranks.zip (upto 0 ranks.length)).foldl (fun a e => a + e.1 * 8 ^ e.2) 0
  { q with ctrl := q.ctrl % 2 ^ 8 + b2n i.isSome * 2 ^ 8 + ranks.length * 2 ^ 9, trail := trail
           leaf := cnt * 2 ^ 60 + typ * 2 ^ 57 + va % 2 ^ 57 / 16 * 16 + idx
           inst := match i with | some x => x.va % 2 ^ 57 / 64 * 64 + x.level | none => 0 }

/-- One entry reached (R235). -/
def State.rqEntry (s : State) (k qi : Nat) (ray : Option Ray) (i : Option Inst) (ranks : List Nat) (typ cnt va idx : Nat) (t : Trav) : Except Flt Trav :=
  if t.res.isSome then .ok t
  else
    match s.leafEntry k typ (va + entrySize typ * idx) with
    | .error f => .error f
    | .ok e =>
      let t := { t with seen := t.seen.also e.seen }
      let iid := instId i
      let pos := fun (q : Query) => q.at_ ranks typ cnt va idx i
      if typ = 4 then
        .ok (({ t with q := (pos t.q).setPhase 3, res := some 2 } : Trav).note (0xE0, [e.prim, e.geom, iid, 2 + 4 * qi]))
      else
        match t.q.test e ray with
        | .value true tv b1 b2 =>
          if !(t.q.better (t.q.fmt.decode tv) ((iid * 2 ^ 32 + e.geom) * 2 ^ 32 + e.prim)) then .ok t
          else if t.q.opaque_ i e then
            let t := ({ t with q := (pos t.q).take tv iid e.geom e.prim b1 b2 } : Trav).note (0xE1, [e.prim, e.geom, iid, 1 + 4 * qi + 8])
            .ok (if t.q.fht then { t with q := t.q.done, res := some 0 } else t)
          else .ok (({ t with q := (pos t.q).setPhase 2, res := some 1 } : Trav).note (0xE0, [e.prim, e.geom, iid, 1 + 4 * qi]))
        | _ => .ok t

/-- What a traversal was started with. -/
structure RqStart where
  qi : Nat
  /-- The state before, whose position it goes on from. -/
  q0 : Query
  vals : List FVal
  deriving DecidableEq, Repr

/-- Whether a near is greater than the committed t. -/
def farther (near : Rat) : FVal → Bool
  | .inf n => n
  | x => match x.rat with | some v => decide (v < near) | none => false

/-- Visits the children of a box node; `on` while on the recorded path. The fuel is the number of levels left, 20 at the
root (R230, R403). -/
def State.rqVisit (s : State) (k : Nat) (c : RqStart) : Nat → Nat → Option Inst → Bool → List Nat → Trav → Except Flt Trav
  | 0, node, _, _, _, _ => .error (bvhFlt 0x47 node)
  | n + 1, node, i, on, ranks, t =>
    let lv := ranks.length
    match objectRay c.q0.fmt i c.vals with
    | none => .ok t
    | some ray =>
      match s.kids k node ray with
      | .error f => .error f
      | .ok (kids, p) =>
        let r0 := if on then field c.q0.trail (3 * lv) 3 else 0
        (kids.zip (upto 0 kids.length)).foldl (fun acc e =>
          match acc with
          | .error f => .error f
          | .ok t =>
            let at_ := on && e.2 == r0
            let skip := !at_ && t.q.hit && farther e.1.near t.q.tval
            if t.res.isSome || decide (e.2 < r0) || skip then .ok t
            else
              let rk := ranks ++ [e.2]
              let deeper := at_ && decide (lv + 1 < c.q0.depth)
              if e.1.typ = 1 then s.rqVisit k c n e.1.va i deeper rk t
              else if e.1.typ = 5 then
                if i.isSome then .error (bvhFlt 0x46 e.1.va)
                else
                  match s.instLeaf k e.1.va (lv + 1) with
                  | .error f => .error f
                  | .ok (x, p) => s.rqVisit k c n x.root (some x) deeper rk { t with seen := t.seen.also p }
              else
                let first := if at_ && lv + 1 == c.q0.depth then c.q0.leaf % 16 + 1 else 0
                (upto first (e.1.cnt + 1 - first)).foldl (fun acc idx =>
                  match acc with
                  | .error f => .error f
                  | .ok t => s.rqEntry k c.qi (some ray) i rk e.1.typ e.1.cnt e.1.va idx t) (.ok t))
          (.ok { t with seen := t.seen.also p })

-- Results of a lane.

/-- What a query instruction does in one lane. -/
structure RqOut where
  k : Nat
  q : Option (Nat × Query) := none
  recs : List LogRec := []
  writes : List RegWrite := []
  seen : Seen := {}
  deriving DecidableEq, Repr

/-- Pushes the records of a lane (R243). -/
def State.pushLog (s : State) (k : Nat) : List LogRec → Except Flt State
  | [] => .ok s
  | (kind, xs) :: r =>
    match s.tapePush k kind (xs.map fun x => BitVec.ofNat 32 x) with
    | .error f => .error f
    | .ok s => s.pushLog k r

/-- The state of a query, its registers and its poison; the unit's TLBs hold the translations of what was read (R320). -/
def State.putQuery (s : State) (o : RqOut) : State :=
  let s := s.keepWays (s.agentOf o.k) o.seen.ways
  let s := match o.q with
    | some (qi, q) =>
      let s := s.storeHomes (s.laneHome o.k (64 * qi)) q.bytes
      if o.seen.poisoned then s.markPoison (s.laneHome o.k (64 * qi)) 64 else s
    | none => s
  let s := if o.seen.poisoned then s.poisonedSource o.k 4 0 else s
  s.variable o.k o.writes 0 o.seen.poisoned

/-- The lanes act: the log, the states and the registers; a push that fails leaves every lane as it was (R235, R405). -/
def State.rqFinish (s : State) (outs : List RqOut) : Except Flt State := do
  let _ ← lanesOf (outs.map fun o => s.pushLog o.k o.recs)
  let t := outs.foldl (fun t o => match t.pushLog o.k o.recs with | .ok u => u | .error _ => t) s
  t.checkCharge
  .ok (outs.foldl State.putQuery t)

/-- A ray block as an operand of some threads. -/
def rayOpd (a : BitVec 7) (fp64 : Bool) (only : Option (List Nat)) : Opd :=
  if fp64 then { Opd.vblock a 16 15 with wide := true, only := only } else { Opd.vblock a 8 7 with only := only }

/-- The state of a query that lies within the slice, as it stands. -/
def State.peekQuery (s : State) (q k : Nat) : Option Query :=
  if (s.thr k).laneSz < 64 * q + 64 then none else some (parseQuery (s.readHomes (s.laneHome k (64 * q)) 64))

/-- The ray block in the precision of each thread's query (R233). -/
def State.rayOpds (s : State) (q : BitVec 1) (a : BitVec 7) : List Opd :=
  let of := fun (b : Bool) => s.issue.filter fun k => match s.peekQuery q.toNat k with | some x => x.fp64 == b | none => false
  [rayOpd a false (some (of false)), rayOpd a true (some (of true))]

/-- A destination block of vector registers. -/
def Opd.vdst (n : BitVec 7) (cnt last : Nat) (wide : Bool := false) : Opd :=
  { Opd.vblock n cnt last with wide := wide, rd := false, wr := true }

/-- An FP64 pair of a value of a precision, widened (R236). -/
def widen (f : Fmt) (bits : Nat) : DWord := BitVec.ofNat 64 (if f.width = 64 then bits else (fConvert f64 .rne (f.decode bits)).1)

/-- The FP64 default NaN. -/
def nan64 : DWord := BitVec.ofNat 64 f64.nanBits

/-- Pairs to the registers from D on. -/
def State.toPairs (s : State) (k n : Nat) : List DWord → List RegWrite
  | [] => []
  | x :: r => s.toV64 k n x ++ s.toPairs k (n + 2) r

-- The instructions.

/-- RQINIT (R234). -/
def execRqinit (q : BitVec 1) (d a : BitVec 7) (log fp opq fht : BitVec 1) (s : State) : Host.Outcome State Fault Refusal :=
  s.issueWord { instr := .rqinit q d a log fp opq fht, ops := [.src d true, { rayOpd a (fp == 1) none with rd := false }] } fun s => do
    let outs ← lanesOf (s.issue.map fun k =>
      if (s.thr k).laneSz < 64 * q.toNat + 64 then Except.error ({ code := 0x0B, addr := rqVa q.toNat } : Flt)
      else
        let x : Query :=
          { ctrl := 1 + 8 * log.toNat + 16 * fp.toNat + 32 * opq.toNat + 64 * fht.toNat, iid := 0xFFFFFFFF, trail := 0, leaf := 0, inst := 0
            t := 0, geom := 0xFFFFFFFF, prim := 0xFFFFFFFF, b1 := 0, b2 := 0, root := (s.v64 k d.toNat).toNat % 2 ^ 57 }
        .ok ({ k := k, q := some (q.toNat, x) } : RqOut))
    s.rqFinish outs

/-- RQPROC on one lane (R235). -/
def State.rqprocLane (s : State) (q d : Nat) (a : BitVec 7) (k : Nat) : Except Flt RqOut := do
  let x ← s.useQuery k q [1, 2, 3, 4]
  let out := fun (res : Nat) => [s.toV k d (BitVec.ofNat 32 res)]
  if x.phase = 4 then .ok { k := k, writes := out 0 }
  else
    let c : RqStart := { qi := q, q0 := x, vals := s.rayVals k a x.fp64 }
    let t ← (match rayOfVals c.vals with
      | none => Except.ok ({ q := x } : Trav)
      | some _ => s.rqVisit k c 20 (x.root % 2 ^ 57) none (decide (0 < x.depth)) [] { q := x })
    let t := match t.res with
      | some _ => t
      | none =>
        let e : Trav := { t with q := t.q.done, res := some 0 }
        e.note (0xE3, [e.q.ctrl, e.q.prim, e.q.geom, e.q.iid])
    .ok { k := k, q := some (q, t.q), recs := t.recs, writes := out (t.res.getD 0), seen := t.seen }

/-- RQPROC (R235). -/
def execRqproc (q : BitVec 1) (d a : BitVec 7) (s : State) : Host.Outcome State Fault Refusal :=
  s.issueWord { instr := .rqproc q d a, ops := .dst d :: s.rayOpds q a } fun s => do
    let outs ← lanesOf (s.issue.map (s.rqprocLane q.toNat d.toNat a))
    s.rqFinish outs

/-- The entry of the candidate and its instance leaf, read again (R236). -/
def State.candidate (s : State) (k : Nat) (q : Query) : Except Flt (Entry × Option Inst × Seen) := do
  let e ← s.leafEntry k q.leafType (q.leaf % 2 ^ 57 / 16 * 16 + entrySize q.leafType * (q.leaf % 16))
  if q.inInst then
    let (i, p) ← s.instLeaf k (q.inst % 2 ^ 57 / 64 * 64) (q.inst % 64)
    .ok (e, some i, e.seen.also p)
  else .ok (e, none, e.seen)

/-- The box of the leaf at the recorded position, found along TRAIL (R236): `none` where the path is no longer there; and what was
read on the way. -/
def State.leafBox (s : State) (k : Nat) (q : Query) (vals : List FVal) : Nat → Nat → Nat → Option Inst → Except Flt (Option (Rat × Rat) × Seen)
  | 0, _, _, _ => .ok (none, {})
  | n + 1, lv, node, i =>
    match objectRay q.fmt i vals with
    | none => .ok (none, {})
    | some ray => do
      let (kids, p) ← s.kids k node ray
      match kids[field q.trail (3 * lv) 3]? with
      | none => .ok (none, p)
      | some x =>
        let level := if q.inInst then q.inst % 64 else 0
        if n = 0 then .ok (if x.typ = 4 then some (x.near, x.far) else none, p)
        else if lv + 1 = level then
          if x.typ ≠ 5 then .ok (none, p)
          else
            let (y, p') ← s.instLeaf k x.va level
            let (r, p'') ← s.leafBox k q vals n (lv + 1) y.root (some y)
            .ok (r, (p.also p').also p'')
        else if x.typ = 1 then
          let (r, p') ← s.leafBox k q vals n (lv + 1) x.va i
          .ok (r, p.also p')
        else .ok (none, p)

/-- Registers that a field of RQCAND or RQRES writes, and whether they form pairs. -/
def rqField (f : Nat) : Nat × Bool :=
  if f = 0 then (3, false) else if f = 1 then (4, true) else if f = 2 then (2, false)
  else if f = 3 ∨ f = 4 then (6, true) else if f = 5 then (3, true) else (1, false)

/-- The destination of a field. -/
def rqDst (f : BitVec 3) (d : BitVec 7) : Opd := let (n, w) := rqField f.toNat; Opd.vdst d n (n - 1) w

/-- The values of a field of the candidate (R236), and what was read for them beside the candidate. A triangle whose test has no value
(the ray block or the entry has changed since) has no t, b1 or b2 that the spec states: they are free words (DESIGN CHOICE, log
entry 52). -/
def State.candField (s : State) (k f d : Nat) (q : Query) (vals : List FVal) (e : Entry) (i : Option Inst) :
    Except Flt (List RegWrite × Seen) :=
  let w := fun (n : Nat) => (BitVec.ofNat 32 n : Word)
  let open64 := fun (n : Nat) => pairOf (s.openWord k (2 * n)) (s.openWord k (2 * n + 1))
  let ray := objectRay q.fmt i vals
  if f = 0 then .ok (s.toBlock k d [w (instId i), w e.geom, w e.prim], {})
  else if f = 5 then .ok (s.toV64 k d (BitVec.ofNat 64 e.ptr) ++ [s.toV k (d + 2) (w e.word)], {})
  else if f = 3 ∨ f = 4 then
    let own := if f = 3 then vals.take 3 else (vals.drop 3).take 3
    let bits := match i with
      | none => own.map fun x => BitVec.ofNat 64 (fConvert f64 .rne x).1
      | some x => (if f = 3 then (x.xform q.fmt vals).1 else (x.xform q.fmt vals).2).map (widen q.fmt)
    .ok (s.toPairs k d bits, {})
  else if e.typ = 4 then
    if f = 2 then .ok (s.toBlock k d [0, 0], {})
    else
      match s.leafBox k q vals q.depth 0 (q.root % 2 ^ 57) none with
      | .error x => .error x
      | .ok (none, p) => .ok (s.toPairs k d [nan64, nan64], p)
      | .ok (some (n, x), p) => .ok (s.toPairs k d [widen q.fmt (roundRat q.fmt n), widen q.fmt (roundRat q.fmt x)], p)
  else
    match q.test e ray with
    | .value _ t b1 b2 =>
      .ok (if f = 1 then s.toPairs k d [widen q.fmt t, widen q.fmt t] else s.toBlock k d [w b1, w b2], {})
    | _ => .ok (if f = 1 then s.toPairs k d [open64 0, open64 0] else s.toBlock k d [s.openWord k 0, s.openWord k 1], {})

/-- Whether a field of RQCAND names the ray block. -/
def candRay (f : BitVec 3) : Bool := 1 ≤ f.toNat && f.toNat ≤ 4

/-- RQCAND (R236). -/
def execRqcand (f : BitVec 3) (q : BitVec 1) (d a : BitVec 7) (s : State) : Host.Outcome State Fault Refusal :=
  s.issueWord { instr := .rqcand f q d a, ops := rqDst f d :: (if candRay f then s.rayOpds q a else []) } fun s => do
    let outs ← lanesOf (s.issue.map fun k => do
      let x ← s.useQuery k q.toNat [2, 3]
      let (e, i, p) ← s.candidate k x
      let (ws, p') ← s.candField k f.toNat d.toNat x (s.rayVals k a x.fp64) e i
      .ok ({ k := k, writes := ws, seen := p.also p' } : RqOut))
    s.takeFree.2.rqFinish outs

/-- The end of a commit (R237): the phase, and its record. -/
def Trav.decide_ (t : Trav) (qi kind iid : Nat) (e : Entry) (ok : Bool) : Trav :=
  let t := t.note (0xE1, [e.prim, e.geom, iid, kind + 4 * qi + 16 * b2n !ok])
  { t with q := if ok && t.q.fht then t.q.done else t.q.setPhase 1 }

/-- RQCOMMIT on one lane (R237). -/
def State.rqcommitLane (s : State) (qi : Nat) (a b : BitVec 7) (k : Nat) : Except Flt RqOut := do
  let x ← s.useQuery k qi [2, 3]
  let (e, i, p) ← s.candidate k x
  let vals := s.rayVals k a x.fp64
  let iid := instId i
  let key := (iid * 2 ^ 32 + e.geom) * 2 ^ 32 + e.prim
  let t0 : Trav := { q := x }
  let t :=
    if x.phase = 2 then
      match x.test e (objectRay x.fmt i vals) with
      | .value true tv b1 b2 =>
        let ok := x.better (x.fmt.decode tv) key
        Trav.decide_ (if ok then { t0 with q := x.take tv iid e.geom e.prim b1 b2 } else t0) qi 1 iid e ok
      | _ => t0.decide_ qi 1 iid e false
    else
      let bits := (fConvert x.fmt .rne (f64.decode (s.v64 k b.toNat).toNat)).1
      let tv := x.fmt.decode bits
      let lo := vals.getD 6 (.nan false true 0)
      let hi := vals.getD 7 (.nan false true 0)
      let ok := !tv.isNan && !lo.isNan && !hi.isNan && !(fLt tv lo) && !(fLt hi tv) && x.better tv key
      let wide := widen x.fmt bits
      let t1 := t0.note (0xE2, [(loWord wide).toNat, (hiWord wide).toNat])
      Trav.decide_ (if ok then { t1 with q := x.take bits iid e.geom e.prim 0 0 } else t1) qi 2 iid e ok
  .ok { k := k, q := some (qi, t.q), recs := t.recs, seen := p }

/-- RQCOMMIT (R237). -/
def execRqcommit (q : BitVec 1) (a b : BitVec 7) (s : State) : Host.Outcome State Fault Refusal :=
  let procs := s.issue.filter fun k => match s.peekQuery q.toNat k with | some x => x.phase == 3 | none => false
  s.issueWord { instr := .rqcommit q a b, ops := s.rayOpds q a ++ [{ Opd.src b true with only := some procs }] } fun s => do
    let outs ← lanesOf (s.issue.map (s.rqcommitLane q.toNat a b))
    s.rqFinish outs

/-- RQABORT (R237). -/
def execRqabort (q : BitVec 1) (s : State) : Host.Outcome State Fault Refusal :=
  s.issueWord { instr := .rqabort q } fun s => do
    let outs ← lanesOf (s.issue.map fun k => do
      let x ← s.useQuery k q.toNat [1, 2, 3, 4]
      if x.phase = 4 then .ok ({ k := k } : RqOut)
      else
        let t : Trav := { q := x.done }
        let t := t.note (0xE3, [t.q.ctrl, t.q.prim, t.q.geom, t.q.iid])
        .ok { k := k, q := some (q.toNat, t.q), recs := t.recs })
    s.rqFinish outs

/-- The values of a field of the committed result (R236). -/
def State.resField (s : State) (k f d : Nat) (q : Query) (vals : List FVal) : List RegWrite :=
  let w := fun (n : Nat) => (BitVec.ofNat 32 n : Word)
  if f = 0 then (if q.hit then s.toBlock k d [w q.iid, w q.geom, w q.prim] else s.toBlock k d [w 0xFFFFFFFF, w 0xFFFFFFFF, w 0xFFFFFFFF])
  else if f = 1 then
    let t := if q.hit then widen q.fmt (if q.fp64 then q.t else q.t % 2 ^ 32) else BitVec.ofNat 64 (f64.infBits false)
    s.toPairs k d [t, BitVec.ofNat 64 (fConvert f64 .rne (vals.getD 7 (.fin false 0 0))).1]
  else if f = 2 then (if q.hit then s.toBlock k d [w q.b1, w q.b2] else s.toBlock k d [0, 0])
  else [s.toV k d (w q.ctrl)]

/-- RQRES (R236). -/
def execRqres (f : BitVec 3) (q : BitVec 1) (d a : BitVec 7) (s : State) : Host.Outcome State Fault Refusal :=
  s.issueWord { instr := .rqres f q d a, ops := rqDst f d :: (if f = 1 then s.rayOpds q a else []) } fun s => do
    let outs ← lanesOf (s.issue.map fun k => do
      let x ← s.useQuery k q.toNat (if f = 6 then [0, 1, 2, 3, 4] else [1, 2, 3, 4])
      .ok ({ k := k, writes := s.resField k f.toNat d.toNat x (s.rayVals k a x.fp64) } : RqOut))
    s.rqFinish outs

-- RQTRI and RQGRAD (R244, R245).

/-- The entry and the instance leaf that a pair of addresses names, with what was read. -/
def State.namedEntry (s : State) (k : Nat) (kind : BitVec 1) (b ir : BitVec 7) : Except Flt (Entry × Option Inst × Seen) := do
  let e ← s.leafEntry k (2 + kind.toNat) (s.v64 k b.toNat).toNat
  let ia := (s.v64 k ir.toNat).toNat
  if ia = 0 then .ok (e, none, e.seen)
  else
    let (i, p) ← s.instLeaf k ia 0
    .ok (e, some i, e.seen.also p)

/-- RQTRI (R244). -/
def execRqtri (d a b ir : BitVec 7) (p : BitVec 4) (kind : BitVec 1) (s : State) : Host.Outcome State Fault Refusal :=
  s.issueWord { instr := .rqtri d a b ir p kind, ops := [.vdst d 6 5 true, rayOpd a true none, .src b true, .src ir true, .pdst p.toNat] } fun s => do
    let outs ← lanesOf (s.issue.map fun k => do
      let (e, i, bad) ← s.namedEntry k kind b ir
      let (hit, xs) := match triTest f64 f64 f64 e.vs (objectRay f64 i (s.rayVals k a true)) with
        | .value h t b1 b2 => (h, [BitVec.ofNat 64 t, BitVec.ofNat 64 b1, BitVec.ofNat 64 b2])
        | _ => (false, [nan64, nan64, nan64])
      .ok ({ k := k, writes := s.toPairs k d.toNat xs ++ [.pred k p.toNat hit], seen := bad } : RqOut))
    s.rqFinish outs

/-- The determinant of three columns. -/
def det3 (a b c : List Rat) : Rat :=
  let g := fun (l : List Rat) (i : Nat) => l.getD i 0
  g a 0 * (g b 1 * g c 2 - g b 2 * g c 1) - g b 0 * (g a 1 * g c 2 - g a 2 * g c 1) + g c 0 * (g a 1 * g b 2 - g a 2 * g b 1)

/-- The solution of a system of three columns by determinants. -/
def solve3 (a b c r : List Rat) : List Rat :=
  let dt := det3 a b c
  [det3 r b c / dt, det3 a r c / dt, det3 a b r / dt]

/-- Row i of three columns. -/
def rowAt (a b c : List Rat) (i : Nat) : List Rat := [a.getD i 0, b.getD i 0, c.getD i 0]

/-- The exact gradients (R245): for the ray's o and d, then for the nine vertex components; `none` when M (d, 0) is parallel
to the plane. -/
def rayGradients (v m : List Rat) (r : Ray) (g : List Rat) : Option (List Rat) :=
  let at_ := fun (row col : Nat) => m.getD (4 * row + col) 0
  let lin := fun (x : List Rat) (row : Nat) => at_ row 0 * x.getD 0 0 + at_ row 1 * x.getD 1 0 + at_ row 2 * x.getD 2 0
  let o := (upto 0 3).map fun i => lin r.o i + at_ i 3
  let d := (upto 0 3).map fun i => lin r.d i
  let p := fun (n i : Nat) => v.getD (3 * n + i) 0
  let e1 := (upto 0 3).map fun i => p 0 i - p 1 i
  let e2 := (upto 0 3).map fun i => p 0 i - p 2 i
  if det3 d e1 e2 = 0 then none
  else
    let y := solve3 d e1 e2 ((upto 0 3).map fun i => p 0 i - o.getD i 0)
    let lam := solve3 (rowAt d e1 e2 0) (rowAt d e1 e2 1) (rowAt d e1 e2 2) g
    let mo := (upto 0 3).map fun c => -((upto 0 3).foldl (fun a row => a + at_ row c * lam.getD row 0) 0)
    let wts := [1 - y.getD 1 0 - y.getD 2 0, y.getD 1 0, y.getD 2 0]
    some (mo ++ mo.map (y.getD 0 0 * ·) ++ wts.flatMap fun w => lam.map (· * w))

/-- The identity matrix. -/
def identity34 : List Rat := [1, 0, 0, 0, 0, 1, 0, 0, 0, 0, 1, 0]

/-- BIN_OVF of a gradient of lane k (R245). -/
def gradFlt (k info : Nat) : Flt := { code := 0x0E, info := info, lanes := some [k] }

/-- BIN_OVF of values that are no numbers. -/
def gradBad (k : Nat) (l : List FVal) : Except Flt Unit :=
  if l.any FVal.isNan then .error (gradFlt k 3) else if l.any fun x => !x.finite then .error (gradFlt k 2) else .ok ()

/-- One lane of RQGRAD: its six results, and the nine addends if there are any. -/
def State.rqgradLane (s : State) (d a b ir gu : BitVec 7) (kind : BitVec 1) (k : Nat) : Except Flt (RqOut × List Nat) := do
  let up := (upto 0 3).map fun i => f64.decode (s.v64 k (gu.toNat + 2 * i)).toNat
  gradBad k up
  let (e, i, bad) ← s.namedEntry k kind b ir
  let vals := s.rayVals k a true
  let ray := objectRay f64 i vals
  let m := match i with | none => some identity34 | some x => ratsOf x.m
  let none_ : RqOut × List Nat := ({ k := k, writes := s.toPairs k d.toNat (List.replicate 6 0), seen := bad }, [])
  match triTest f64 f64 f64 e.vs ray, rayOfVals vals, ratsOf e.vs, m, ratsOf up with
  | .never, _, _, _, _ => .ok none_
  | _, some r, some v, some m, some g =>
    match rayGradients v m r g with
    | none => .ok none_
    | some l =>
      let bits := l.map (roundRat f64)
      gradBad k (bits.map f64.decode)
      .ok ({ k := k, writes := s.toPairs k d.toNat ((bits.take 6).map fun x => BitVec.ofNat 64 x), seen := bad }, bits.drop 6)
  | _, _, _, _, _ => .ok none_

/-- RQGRAD (R245). -/
def execRqgrad (d a b ir gu : BitVec 7) (g : BitVec 5) (kind : BitVec 1) (s : State) : Host.Outcome State Fault Refusal :=
  s.issueWord { instr := .rqgrad d a b ir gu g kind
                ops := [.vdst d 12 11 true, rayOpd a true none, .src b true, .src ir true, { Opd.vblock gu 6 5 with wide := true }, .g g] } fun s => do
    let outs ← lanesOf (s.issue.map (s.rqgradLane d a b ir gu kind))
    let adds := outs.flatMap fun o => (o.2.zip (upto 0 9)).map fun e => (o.1.k, s.eaOf o.1.k g.toNat (8 * e.2 : Nat), e.1)
    let xs ← s.checkGadds g.toNat 1 0x66 adds
    s.checkGaddWindow xs
    let t := s.sendGadds ((upto 0 9).flatMap fun i => (upto 0 (xs.length / 9)).filterMap fun l => xs[9 * l + i]?)
    t.rqFinish (outs.map (·.1))

end Sys2Proof.Machine
end

