-- ==== Sys2Proof/Machine/Tape.lean ====
section
/-! DEFINITION. The meanings of the tape instructions (R247 to R259, R405 to R407), of the reservoir instructions (R260 to
R262, R408) and of CLOVE (R263), and the event that ends a tape sync. -/

namespace Sys2Proof.Machine

-- Tape instructions.

/-- The lowest frame that an operation at the top of a tape may read: that of the open span's mark, or the one below the top. -/
def Tape.reach (t : Tape) : Nat := Nat.min (t.top / 64 - 1) (if t.isOpen then t.markp / 64 else t.top / 64)

/-- Performs a tape operation in every issued thread; a failing thread leaves every tape as it was (R252, R371). It waits while a Torc
step owns a line that it may read, from the frame `low` of each thread on (R107). -/
def State.tapeAll (s : State) (f : State → Nat → Except Flt State) (low : Nat → Nat := fun k => (s.thr k).tape.reach) : Except Flt State := do
  if s.issue.any fun k => s.tapeWaits k (low k) then .error { code := 0 }
  let _ ← lanesOf (s.issue.map fun k => f s k)
  let t := s.issue.foldl (fun t k => match f t k with | .ok u => u | .error _ => t) s
  t.checkCharge
  .ok t

/-- A push by TREC or TMARK: with no bound tape it raises TAPE_FULL (R405). -/
def execTrec (n : BitVec 2) (kind : BitVec 7) (a : BitVec 7) (s : State) : Host.Outcome State Fault Refusal :=
  s.issueWord { instr := .trec n kind a, ops := [.block a (n.toNat + 1)] } fun s =>
    s.tapeAll fun t k => t.tapePush k kind.toNat ((upto 0 (n.toNat + 1)).map fun i => s.v k (a.toNat + i))

/-- TPOP's status word (R254). -/
def popStatus (p : Popped) : Word :=
  let cls := if p.kind = 0xF0 then 1 else if p.kind = 0xF2 then 2 else if p.kind = 0xF1 then 3 else 0
  BitVec.ofNat 32 (p.kind + (p.vals.length - 1) * 2 ^ 8 + cls * 2 ^ 12)

/-- One thread's TPOP (R254). -/
def State.popTo (s : State) (d a : BitVec 7) (k : Nat) : Except Flt State :=
  match s.tapePop k with
  | .error f => .error f
  | .ok (p, t) =>
    .ok (t.variable k (s.toBlock k d.toNat ((upto 0 4).map fun i => p.vals.getD i 0) ++ [s.toV k a.toNat (popStatus p)]) 0 p.bad)

/-- TPOP (R254). -/
def execTpop (d a : BitVec 7) (s : State) : Host.Outcome State Fault Refusal :=
  s.issueWord { instr := .tpop d a, ops := [.vdst d 4 3, .dst a] } fun s => s.tapeAll fun t k => t.popTo d a k

/-- The close of a span (R255). -/
def State.closeSpan (s : State) (k : Nat) : Except Flt State :=
  let t := (s.thr k).tape
  if !t.bound then .error { code := 0x12, info := 2 }
  else if !t.isOpen then .ok s
  else s.tapePush k 0xF1 [BitVec.ofNat 32 t.markp] fun t => { t with isOpen := false, disc := false }

/-- The opening of a span (R255): `pc` is the fall-through address of the run. -/
def State.openSpan (s : State) (k : Nat) (pc : DWord) (x y : Word) : Except Flt State :=
  match s.closeSpan k with
  | .error f => .error f
  | .ok s =>
    s.tapePush k 0xF0 [loWord pc, BitVec.ofNat 32 (field pc.toNat 32 25), x, y] fun t =>
      { t with isOpen := true, disc := false, markp := t.top, m0 := t.s0, m1 := t.s1, m2 := t.s2, m3 := t.s3 }

/-- TMARK.open (R255). -/
def execTmarkOpen (a b : BitVec 7) (s : State) : Host.Outcome State Fault Refusal :=
  s.issueWord { instr := .tmarkOpen a b, ops := [.src a, .src b] } fun s =>
    s.tapeAll fun t k => t.openSpan k (BitVec.ofNat 64 s.fallThrough) (s.v k a.toNat) (s.v k b.toNat)

/-- TMARK.close (R255). -/
def execTmarkClose (s : State) : Host.Outcome State Fault Refusal :=
  s.issueWord { instr := .tmarkClose } fun s => s.tapeAll State.closeSpan

/-- A tape descriptor (R248). -/
structure TapeDesc where
  base : Nat
  stride : Nat
  budget : Nat
  idBase : Nat
  mode : Nat
  deriving DecidableEq, Repr

/-- The descriptor in 32 bytes, unless it breaks R248. -/
def parseTapeDesc (b : List Byte) : Option TapeDesc :=
  let d : TapeDesc := { base := fieldAt b 0 8, stride := fieldAt b 8 4, budget := fieldAt b 12 4, idBase := fieldAt b 16 4, mode := fieldAt b 20 1 }
  if d.base % 64 ≠ 0 ∨ d.stride % 64 ≠ 0 ∨ d.stride < 128 ∨ d.budget % 64 ≠ 0 ∨ d.budget < 64 ∨ d.stride < d.budget + 64 ∨ 1 < d.mode
      ∨ !zeroAt b 21 11 then none else some d

/-- The area of a thread (R248). -/
def TapeDesc.area (d : TapeDesc) (lid : Word) : Nat := (d.base + (lid.toNat + d.idBase) % 2 ^ 32 * d.stride) % 2 ^ 64

/-- A tape as its header gives it, unless the header is malformed for a RESUME bind (R249, R405). -/
def parseTape (b : List Byte) (base budget : Nat) : Option Tape :=
  let w := fun (o : Nat) => (BitVec.ofNat 32 (fieldAt b o 4) : Word)
  let top := fieldAt b 0 4
  let fl := fieldAt b 4 4
  let mk := fieldAt b 0x18 4
  let cnt := fieldAt b 0x2C 4
  if !bit fl 2 ∨ 8 ≤ fl ∨ budget < top ∨ top < cnt ∨ (bit fl 0 ∧ top < mk) then none
  else some { bound := true, base := BitVec.ofNat 64 base, budget := budget, top := top, isOpen := bit fl 0, disc := bit fl 1
              s0 := w 8, s1 := w 12, s2 := w 16, s3 := w 20, markp := mk, m0 := w 0x1C, m1 := w 0x20, m2 := w 0x24, m3 := w 0x28, count := cnt }

/-- A thread whose tape a sync is writing waits for its end (R259). -/
def State.syncThread (s : State) (k : Nat) : State :=
  if !(s.thr k).tape.bound then s
  else ((s.tapeSync k).updThr k fun t => { t with syncing := true }).later (.tapeSyncComplete k)

/-- Binds one thread's area: an empty tape with its header written, or the tape its header gives. -/
def State.bindTape (s : State) (d : TapeDesc) (k : Nat) : Except Flt State :=
  let base := d.area (s.thr k).lid
  if d.mode = 0 then
    let t : Tape := { bound := true, base := BitVec.ofNat 64 base, budget := d.budget }
    .ok ((s.tapeWrite k base t.header).updThr k fun x => { x with tape := t, synced := t })
  else
    match s.tapeRead k base 64 with
    | .error f => .error f
    | .ok b =>
      match parseTape b base d.budget with
      | none => .error { code := 0x02, info := 0x61, addr := BitVec.ofNat 64 base }
      | some t => .ok ((s.tapePoison k (s.tapeBad k base 64)).updThr k fun x => { x with tape := t, synced := t })

/-- The descriptor of a group's bind, which its lowest issued lane names (R248, R258). -/
def State.tapeDesc (s : State) (g low : Nat) : Except Flt TapeDesc :=
  let va := (s.ptrOf low g).toNat
  match parseTapeDesc (s.engineBytes low va 32).1 with
  | none => .error { code := 0x02, info := 0x60, addr := BitVec.ofNat 64 va }
  | some d => .ok d

/-- Binds the issued threads (R258, R406): every area is translated before any thread binds, and a failure binds none. -/
def State.bindThreads (s : State) (g : Nat) : Except Flt State := do
  let gs := s.issueGroups
  let _ ← lanesOf (gs.map fun e => s.engineChecks e.2 { size := 32, align := 32, g := g, perm := 1 } false [(s.ptrOf e.2 g).toNat])
  let t := s.issue.foldl State.syncThread s
  let ds ← lanesOf (gs.map fun e => (t.tapeDesc g e.2).map fun d => (e.1, d))
  let of := fun (k : Nat) => firstThat (fun (e : Nat × TapeDesc) => e.1 == (s.thr k).grp) ds
  let bad := fun (k : Nat) => (of k).bind fun e =>
    t.enginePartFault (t.agentOf k) { w := true } (parts (e.2.area (s.thr k).lid) (64 + e.2.budget))
  match s.issue.findSome? bad with
  | some (a, f) => .error (f.engineFlt true a 5)
  | none =>
    let area := fun (k : Nat) => (of k).map fun e => e.2.area (s.thr k).lid
    if s.issue.any fun k => match (area k).map fun a => t.engineHomes (t.agentOf k) {} (parts a 64) with
        | some (.ok hs) => t.torcOwns hs
        | _ => false
    then .error { code := 0 }
    else
    let t := s.issue.foldl (fun t k => match of k with
      | some e => t.keepWay (t.agentOf k) { w := true } (e.2.area (s.thr k).lid) (64 + e.2.budget)
      | none => t) t
    let bind := fun (t : State) (k : Nat) => match of k with | some e => t.bindTape e.2 k | none => .ok t
    let _ ← lanesOf (s.issue.map (bind t))
    let u := s.issue.foldl (fun u k => match bind u k with | .ok x => x | .error _ => u) t
    u.checkCharge
    .ok (gs.foldl (fun x e => x.tapePoison e.2 (t.engineBytes e.2 (s.ptrOf e.2 g).toNat 32).2) u)

/-- TCTL.bind (R258). -/
def execTctlBind (g : BitVec 5) (s : State) : Host.Outcome State Fault Refusal :=
  s.issueWord { instr := .tctlBind g, ops := [.g g] } fun s => s.bindThreads g.toNat

/-- TCTL.stat (R258). -/
def execTctlStat (d : BitVec 7) (s : State) : Host.Outcome State Fault Refusal :=
  s.issuePlain { instr := .tctlStat d, ops := [.dst d] } fun s =>
    s.issue.foldl (fun t k =>
      let x := (s.thr k).tape
      t.variable k [s.toV k d.toNat (BitVec.ofNat 32 (if x.bound then x.flags + 8 else 0))]) s

/-- TCTL.seek (R258). -/
def execTctlSeek (a : BitVec 7) (s : State) : Host.Outcome State Fault Refusal :=
  s.issueWord { instr := .tctlSeek a, ops := [.src a] } fun s =>
    s.tapeAll (fun t k =>
      if !(t.thr k).tape.bound then .error { code := 0x13, info := 2 }
      else t.tapeSeek k (s.v k a.toNat).toNat ((t.thr k).tape.top + 1))
      (fun k => Nat.min (s.thr k).tape.reach ((s.v k a.toNat).toNat / 64))

/-- TCTL.sync (R259). -/
def execTctlSync (s : State) : Host.Outcome State Fault Refusal :=
  s.issueWord { instr := .tctlSync } fun s => do
    let t := s.issue.foldl State.syncThread s
    t.checkCharge
    .ok t

/-- TAPE_SYNC_COMPLETE (R259). -/
def execTapeSyncComplete (th : Nat) (s : State) : Host.Outcome State Fault Refusal :=
  .next (s.updThr th fun t => { t with syncing := false })

-- Reservoirs (R50, R260 to R262, R408).

/-- A reservoir's fields. -/
structure Rsv where
  sample : Word
  phat : Word
  wsum : Word
  m : Nat
  deriving DecidableEq, Repr

/-- The fields of a reservoir register. -/
def rsvOf (x : BitVec 128) : Rsv :=
  { sample := x.extractLsb' 0 32, phat := x.extractLsb' 32 32, wsum := x.extractLsb' 64 32, m := (x.extractLsb' 96 32).toNat }

/-- The register that holds the fields. -/
def Rsv.bits (r : Rsv) : BitVec 128 := (BitVec.ofNat 32 r.m ++ r.wsum ++ r.phat ++ r.sample : BitVec 128)

/-- A reservoir operand. -/
def Opd.q (n : Nat) (rd wr : Bool) : Opd := { cls := .rsv, n := n, rd := rd, wr := wr }

/-- The FP32 value of a word. -/
def fOf (w : Word) : FVal := f32.decode w.toNat

/-- w as the sum takes it: NaN, infinite and negative ones count as +0 (R408). -/
def rsvWeight (w : Word) : Word :=
  match fOf w with
  | .fin neg m _ => if neg && m ≠ 0 then 0 else w
  | _ => 0

/-- The new weight sum (R260, R408). -/
def rsvSum (wsum w : Word) : Word :=
  let x := (fAdd f32 .rne (fOf wsum) (fOf w)).1
  if x = f32.infBits false then 0x7F7FFFFF else BitVec.ofNat 32 x

/-- Whether a candidate is accepted: neither ws nor w is 0, and u * ws < w * 2^24, compared exactly (R260, R408). -/
def rsvAccept (u : Nat) (ws w : Word) : Bool :=
  match fOf ws, (fOf w).rat.filter (· != 0) with
  | .inf neg, some _ => neg && decide (0 < u)
  | .fin neg m e, some y =>
    match (FVal.fin neg m e).rat with
    | some x => decide (m ≠ 0) && decide ((u : Rat) * x < y * 2 ^ 24)
    | none => false
  | _, _ => false

/-- The largest count. -/
def rsvCap (m : Nat) : Nat := Nat.min m (2 ^ 32 - 1)

/-- One update with its draw (R260). -/
def Rsv.update (x : Rsv) (cand phat w : Word) (m u : Nat) : Rsv :=
  let w := rsvWeight w
  let ws := rsvSum x.wsum w
  let ok := rsvAccept u ws w
  { sample := if ok then cand else x.sample, phat := if ok then phat else x.phat, wsum := ws, m := m }

/-- RSVUPD (R260). -/
def execRsvupd (q : BitVec 3) (a b : BitVec 7) (s : State) : Host.Outcome State Fault Refusal :=
  s.issuePlain { instr := .rsvupd q a b, ops := [.block a 3, .usrc b.toNat false 3, .q q.toNat true true] } fun s =>
    s.issue.foldl (fun t k =>
      let x := rsvOf (s.q k q.toNat)
      let m := rsvCap (x.m + 1)
      let w := fun (i : Nat) => s.wOf k (b.toNat + i)
      let u := cloveDraw (w 0) (w 1) (s.thr k).lid (BitVec.ofNat 32 q.toNat) (BitVec.ofNat 32 m) (w 2)
      let v := fun (i : Nat) => s.v k (a.toNat + i)
      t.variable k [.rsv k q.toNat (x.update (v 0) (v 2) (v 1) m u).bits]) s.takeFree.2

/-- The weight that RSVMRG gives a merged reservoir (R261). -/
def mergeWeight (pt : Word) (src : Rsv) : Word :=
  match fOf src.phat with
  | .fin _ 0 _ => 0
  | p => BitVec.ofNat 32 (fDiv f32 .rne (f32.decode (fMul f32 .rne (fOf pt) (fOf src.wsum)).1) p).1

/-- RSVMRG (R261). -/
def execRsvmrg (qs qd : BitVec 3) (a b : BitVec 7) (s : State) : Host.Outcome State Fault Refusal :=
  s.issuePlain { instr := .rsvmrg qs qd a b
                 ops := [.src a, .usrc b.toNat false 4, .q qs.toNat true false, .q qd.toNat true true] } fun s =>
    s.issue.foldl (fun t k =>
      let src := rsvOf (s.q k qs.toNat)
      let dst := rsvOf (s.q k qd.toNat)
      let w := fun (i : Nat) => s.wOf k (b.toNat + i)
      let m := rsvCap (dst.m + Nat.min src.m (w 3).toNat)
      let u := cloveDraw (w 0) (w 1) (s.thr k).lid (BitVec.ofNat 32 (qd.toNat + 2 ^ 31)) (BitVec.ofNat 32 m) (w 2)
      let pt := s.v k a.toNat
      t.variable k [.rsv k qd.toNat (dst.update src.sample pt (mergeWeight pt src) m u).bits]) s.takeFree.2

/-- RSVINIT (R262). -/
def execRsvinit (q : BitVec 3) (s : State) : Host.Outcome State Fault Refusal :=
  s.issuePlain { instr := .rsvinit q, ops := [.q q.toNat false true] } fun s => s.issue.foldl (fun t k => t.variable k [.rsv k q.toNat 0]) s

/-- W of a reservoir (R262). -/
def Rsv.weight (x : Rsv) : Word :=
  match fOf x.phat with
  | .fin _ 0 _ => 0
  | p =>
    if x.m = 0 then 0
    else
      let m := f32.decode (intToF f32 .rne x.m).1
      BitVec.ofNat 32 (fDiv f32 .rne (fOf x.wsum) (f32.decode (fMul f32 .rne m p).1)).1

/-- RSVFIN (R262). -/
def execRsvfin (d : BitVec 7) (q : BitVec 3) (s : State) : Host.Outcome State Fault Refusal :=
  s.issuePlain { instr := .rsvfin d q, ops := [.dst d, .q q.toNat true false] } fun s =>
    s.issue.foldl (fun t k => t.variable k [s.toV k d.toNat (rsvOf (s.q k q.toNat)).weight]) s.takeFree.2

/-- The fields of a reservoir as words. -/
def rsvWords (x : BitVec 128) : List Word := (upto 0 4).map fun i => x.extractLsb' (32 * i) 32

/-- RSVGET (R262). -/
def execRsvget (d : BitVec 7) (q : BitVec 3) (b : BitVec 7) (s : State) : Host.Outcome State Fault Refusal :=
  s.issuePlain { instr := .rsvget d q b, ops := [if b = 4 then .vdst d 4 3 else .dst d, .q q.toNat true false] } fun s =>
    s.issue.foldl (fun t k =>
      let ws := rsvWords (s.q k q.toNat)
      t.variable k (if b = 4 then s.toBlock k d.toNat ws else [s.toV k d.toNat (ws.getD b.toNat 0)])) s.takeFree.2

/-- RSVSET (R262). -/
def execRsvset (q : BitVec 3) (a b : BitVec 7) (s : State) : Host.Outcome State Fault Refusal :=
  s.issuePlain { instr := .rsvset q a b, ops := [if b = 4 then .vblock a 4 3 else .src a, .q q.toNat (b != 4) true] } fun s =>
    s.issue.foldl (fun t k =>
      let old := rsvWords (s.q k q.toNat)
      let at_ := fun (i : Nat) => if b = 4 then s.v k (a.toNat + i) else if b.toNat = i then s.v k a.toNat else old.getD i 0
      t.variable k [.rsv k q.toNat (at_ 3 ++ at_ 2 ++ at_ 1 ++ at_ 0 : BitVec 128)]) s.takeFree.2

-- The generator.

/-- (o >> 8) * 2^-24 in FP32. -/
def unitFloat (o : Word) : Word := BitVec.ofNat 32 (roundTo f32 .rne false (o.toNat / 256) (-24)).1

/-- CLOVE (R263). -/
def execClove (u vk : BitVec 1) (d a b : BitVec 7) (s : State) : Host.Outcome State Fault Refusal :=
  s.issuePlain { instr := .clove u vk d a b
                 ops := [.dst d, .vblock a 4 3, if vk = 1 then .src b true else .usrc b.toNat false 2] } fun s =>
    s.issue.foldl (fun t k =>
      let key := fun (i : Nat) => if vk = 1 then s.v k (b.toNat + i) else s.wOf k (b.toNat + i)
      let c := fun (i : Nat) => s.v k (a.toNat + i)
      let o := clove (key 0) (key 1) (c 0) (c 1) (c 2) (c 3)
      t.variable k [s.toV k d.toNat (if u = 1 then (if o.toNat / 256 = 0 then 0 else unitFloat o) else o)]) s

end Sys2Proof.Machine
end

