-- ==== Sys2Proof/Machine/Tasks.lean ====
section
/-! DEFINITION. The meanings of SPAWN, TQADD, TQGET, DEPOP, SPUSH, SPOP and SCTL (R264 to R280, R410, R411), a pipeline's
residency (R276) and the balancer (R281, R414). -/

namespace Sys2Proof.Machine

/-- A content fault of these instructions (R410). -/
def taskFlt (info : Nat) : Flt := { code := 0x02, info := info }

/-- A check of R176 on an engine read or write of one lane. -/
def State.laneEngine (s : State) (k : Nat) (a : Ask) : Except Flt Spot :=
  let va := s.ptrOf k a.g
  match s.engineCheck k a va.toNat with
  | .error f => .error (f.laneFlt a.wr k va)
  | .ok p => .ok p

/-- Whether a counter of a die belongs to a context (R273). -/
def State.ownsCtr (s : State) (d n ctx : Nat) : Bool := (s.die d).ctrCtx.get 0 n == ctx

-- SPAWN.

/-- The child grid of a descriptor (R265, R410). -/
def State.childGrid (s : State) (k : Nat) (b : List Byte) (dm : BitVec 4) (ctr : BitVec 12) (sig : BitVec 1) : Except Flt Grid :=
  let d := parseDesc b
  let die := dieOfThread k
  let g := s.grid (s.team (s.thr k).team).grid
  let ctx := s.ctxOf k
  if 12 ≤ g.depth then .error { code := 0x18, info := 13 }
  else if d.kind ≠ 0 ∨ descBad b ∨ d.det ≠ 0 then .error (taskFlt 0x90)
  else if sig = 1 ∧ !s.ownsCtr die ctr.toNat ctx then .error (taskFlt 0x91)
  else .ok { ctx := ctx, desc := d, depth := g.depth + 1, parent := some (s.thr k).team
             dies := if dm = 0 then [die] else maskDies dm.toNat, signal := if sig = 1 then .ctr die ctr.toNat else .none }

/-- The child of one leader is accepted: its issue is a release at .pkg (R265). -/
def State.spawnOne (s : State) (k : Nat) (bad : Bool) (x : Grid) : State :=
  let s := if bad then s.poisonedSource k 7 0 else s
  (((s.release k 3).updTeam (s.thr k).team fun t => { t with children := t.children + 1 }).acceptGrid x).2

/-- SPAWN (R265): in the leaders alone, of which an issue set may hold those of several teams (R34). -/
def execSpawn (g : BitVec 5) (dm : BitVec 4) (ctr : BitVec 12) (sig : BitVec 1) (s : State) : Host.Outcome State Fault Refusal :=
  s.issueWord { instr := .spawn g dm ctr sig, ops := [.g g], det := some 0x70 } fun s =>
    let leaders := s.issue.filter fun k => (s.thr k).tid == 0
    do
      let _ ← lanesOf (leaders.map fun k => s.laneEngine k { size := 128, align := 64, g := g.toNat, perm := 1 })
      let xs ← lanesOf (leaders.map fun k =>
        let (b, bad) := s.engineBytes k (s.ptrOf k g.toNat).toNat 128
        (s.childGrid k b dm ctr sig).map fun x => (k, bad, x))
      .ok (xs.foldl (fun t x => t.spawnOne x.1 x.2.1 x.2.2) s)

-- TQADD and TQGET.

/-- The content checks of an entry (R410). -/
def State.entryBad (s : State) (d q ctx : Nat) (e : List Byte) : Option Nat :=
  let ctl := taskCtl e
  let ctrBad := (taskWait e && !s.ownsCtr d (taskWctr e) ctx) || (match taskSctr e with | some n => !s.ownsCtr d n ctx | none => false)
  if ctrBad then some 0x91
  else if field (entryNat e 0 8) 57 7 ≠ 0 ∨ taskGrain e = 0 ∨ 2 ^ 24 < taskGrain e ∨ field ctl 13 3 ≠ 0 ∨ field ctl 29 3 ≠ 0 then some 0x92
  else if ((s.die d).queues.get {} q).ctx ≠ ctx then some 0x93 else none

/-- One lane's entry reaches its queue's die (R268, R269, R411). -/
def State.addTask (s : State) (d q : Nat) (k : Nat) (e : List Byte) (va : DWord) : State :=
  let x := s.die d
  let t : Task := { id := x.nextTask, entry := e, queue := q, th := k, va := va }
  let s := s.updDie d fun x => { x with nextTask := x.nextTask + 1 }
  if taskWait e && s.ctrValue d (taskWctr e) != 0 then
    if 1024 ≤ x.pendTab.length then s.taskOvf (s.ctxOf k) t 1
    else s.updDie d fun x => { x with pendTab := x.pendTab ++ [t] }
  else s.enqueue d t

/-- TQADD (R268). -/
def execTqadd (g : BitVec 5) (q : BitVec 6) (xd : BitVec 1) (die : BitVec 2) (s : State) : Host.Outcome State Fault Refusal :=
  s.issueWord { instr := .tqadd g q xd die, ops := [.g g], det := some 0x71 } fun s => do
    let dieTo := fun (k : Nat) => if xd = 1 then die.toNat else dieOfThread k
    let _ ← lanesOf (s.issue.map fun k => s.laneEngine k { size := 32, align := 8, g := g.toNat, perm := 1 })
    let es ← lanesOf (s.issue.map fun k =>
      let (b, bad) := s.engineBytes k (s.ptrOf k g.toNat).toNat 32
      match s.entryBad (dieTo k) q.toNat (s.ctxOf k) b with
      | some i => Except.error (taskFlt i)
      | none => .ok (k, b, bad))
    .ok (es.foldl (fun t e =>
      let t := if e.2.2 then t.poisonedSource e.1 7 q.toNat else t
      let t := (t.release e.1 (if xd = 1 then 3 else 2)).addTask (dieTo e.1) q.toNat e.1 e.2.1 (s.ptrOf e.1 g.toNat)
      t.serveLater (dieTo e.1)) s)

/-- A thread waits at the word just performed without being a ring or strand waiter. -/
def State.waitHere (s : State) (k : Nat) (w : Wait) : State :=
  let r := s.run
  s.updThr k fun t => { t with nextWait := some w, blkPc := r.pc, blkPos := r.pos }

/-- Whether other groups already wait for a chunk of a queue: a request then takes its turn behind them (R271). -/
def State.askedBefore (s : State) (d q : Nat) : Bool := (s.die d).askers.any fun a => a.queue == q && s.servable a.grp

/-- One group's TQGET (R271). -/
def State.tqget (s : State) (g low q dreg : Nat) : State :=
  let ks := s.issuedOf g
  let s := if (s.grp g).chunks.any fun c => c.1 == q then (ks.foldl (fun s k => s.release k 2) s).finishChunks g q else s
  match (if s.askedBefore (dieOfThread g) q then (.wait, s) else s.serve (coreOfThread g) q) with
  | (.wait, s) =>
    let (id, s) := s.newId
    let s := s.updDie (dieOfThread g) fun x => { x with askers := x.askers ++ [{ id := id, queue := q, grp := g, dreg := dreg }] }
    ks.foldl (fun s k => s.waitHere k (.task q id)) s
  | (r, s) =>
    let s := s.variable low (servedRegs g dreg r)
    match r with
    | .chunk _ _ _ _ task => (s.updGrp g fun x => { x with chunks := x.chunks ++ [(q, task)] }).refresh low 2
    | _ => s

/-- TQGET (R271, R272). -/
def execTqget (d : BitVec 7) (q : BitVec 6) (s : State) : Host.Outcome State Fault Refusal :=
  s.issueWord { instr := .tqget d q, ops := [{ cls := .uni, n := d.toNat, cnt := 8, wide := true, rd := false, wr := true }], det := some 0x72 } fun s =>
    let bad := s.issue.any fun k => ((s.die (dieOfThread k)).queues.get {} q.toNat).ctx != s.ctxOf k
    if bad then .error (taskFlt 0x93)
    else
      let t := s.issueGroups.foldl (fun t e => t.tqget e.1 e.2 q.toNat d.toNat) s
      .ok (t.serveLater (dieOfThread (s.issue.headD 0)))

-- DEPOP.

/-- The counter a lane names. -/
def State.ctrOf (s : State) (a : BitVec 7) (k : Nat) : Nat := (s.v k a.toNat).toNat % 2 ^ 12

/-- Performs a DEPOP in every lane, ascending (R273, R274): the counter's new value from the old one and the lane. -/
def State.depop (s : State) (d a : BitVec 7) (f : Nat → Word → Option Word) : Except Flt State :=
  if s.issue.any fun k => !s.ownsCtr (dieOfThread k) (s.ctrOf a k) (s.ctxOf k) then .error (taskFlt 0x91)
  else
    let t := s.issue.foldl (fun t k =>
      let die := dieOfThread k
      let n := s.ctrOf a k
      let old := t.ctrValue die n
      let t := match f k old with | some v => (t.release k 2).ctrWrite die n v | none => t.refresh k 2
      t.variable k [s.toV k d.toNat old]) s
    .ok (t.serveLater (dieOfThread (s.issue.headD 0)))

/-- DEPOP.set (R274). -/
def execDepopSet (d a b : BitVec 7) (s : State) : Host.Outcome State Fault Refusal :=
  s.issueWord { instr := .depopSet d a b, ops := [.dst d, .src a, .src b], det := some 0x73 } fun s =>
    s.depop d a fun k _ => some (s.v k b.toNat)

/-- DEPOP.add (R274). -/
def execDepopAdd (d a b : BitVec 7) (s : State) : Host.Outcome State Fault Refusal :=
  s.issueWord { instr := .depopAdd d a b, ops := [.dst d, .src a, .src b], det := some 0x73 } fun s =>
    s.depop d a fun k old => some (old + s.v k b.toNat)

/-- DEPOP.get (R274). -/
def execDepopGet (d a : BitVec 7) (s : State) : Host.Outcome State Fault Refusal :=
  s.issueWord { instr := .depopGet d a, ops := [.dst d, .src a], det := some 0x73 } fun s => s.depop d a fun _ _ => none

-- SPUSH, SPOP and SCTL.

/-- The strand that an output of a thread's stage names (R410). -/
def State.outStrand (s : State) (k o : Nat) : Except Flt (Nat × Pipe × Nat × Nat × Strand) :=
  match s.stageRec k with
  | none => .error (taskFlt 0x94)
  | some (d, p, i, st) =>
    match (if st.out o = 0xFF then none else p.strand (st.out o)) with
    | none => .error (taskFlt 0x94)
    | some t => .ok (d, p, i, st.out o, t)

/-- The input strand of a thread's stage (R410). -/
def State.inStrand (s : State) (k : Nat) : Except Flt (Nat × Pipe × Nat × Strand) :=
  match s.stageRec k with
  | none => .error (taskFlt 0x94)
  | some (d, p, _, st) =>
    match (if st.input = 0xFF then none else p.strand st.input) with
    | none => .error (taskFlt 0x94)
    | some t => .ok (d, p, st.input, t)

/-- Bytes of the bead that the operand checks ask for: where the thread has no strand, the smallest bead (DEDUCED, log entry 63). -/
def beadAsk (b : Except Flt Nat) : Nat := match b with | .ok n => n | .error _ => 16

/-- SPUSH (R278): the checks of R176, then those of R410. -/
def execSpush (d : BitVec 7) (g : BitVec 5) (o : BitVec 1) (s : State) : Host.Outcome State Fault Refusal :=
  s.issueWord { instr := .spush d g o, ops := [.src d, .g g], det := some 0x74 } fun s => do
    let _ ← lanesOf (s.issue.map fun k =>
      s.laneEngine k { size := beadAsk ((s.outStrand k o.toNat).map (·.2.2.2.2.bead)), align := 16, g := g.toNat, perm := 1 })
    let xs ← lanesOf (s.issue.map fun k => (s.outStrand k o.toNat).map fun x => (k, x))
    let _ ← lanesOf (xs.map fun x => if x.2.2.2.2.2.closed.contains x.2.2.2.1 then Except.error (taskFlt 0x95) else .ok ())
    .ok (s.issue.foldl (fun t k =>
      let t := t.release k 2
      let seq := s.v k d.toNat
      let va := s.ptrOf k g.toNat
      match t.tryPush k o.toNat va seq id with
      | .ok (some u) => u.runStrands
      | _ => t.blockAt k (.push o.toNat va seq)) s)

/-- SPOP (R279): the checks of R176, then those of R410. -/
def execSpop (d : BitVec 7) (g : BitVec 5) (s : State) : Host.Outcome State Fault Refusal :=
  s.issueWord { instr := .spop d g, ops := [.dst d true, .g g], det := some 0x75 } fun s => do
    let _ ← lanesOf (s.issue.map fun k =>
      s.laneEngine k { size := beadAsk ((s.inStrand k).map (·.2.2.2.bead)), align := 16, g := g.toNat, perm := 2, wr := true, need := { w := true } })
    let _ ← lanesOf (s.issue.map fun k => (s.inStrand k).map fun x => (k, x))
    .ok (s.issue.foldl (fun t k =>
      let va := s.ptrOf k g.toNat
      match t.tryPop k va d.toNat (fun u ws => u.variable k ws) with
      | .ok (some u) => u.runStrands
      | _ => t.blockAt k (.pop va d.toNat)) s)

/-- One lane's close of output o by its stage: the stage's first one closes the strand, and a repeated one does nothing (R280). -/
def State.closeOut (s : State) (k o : Nat) : State :=
  match s.outStrand k o with
  | .error _ => s
  | .ok (d, p, i, n, st) =>
    if st.closed.contains i then s
    else (s.updPipe d p.launch fun q => q.updStrand n fun st => { st with closed := st.closed ++ [i] }).moveBlock d p.launch n

/-- SCTL.close (R280). It is a release in every lane, a repeated close among them (DEDUCED, log entry 155). -/
def execSctlClose (o : BitVec 2) (s : State) : Host.Outcome State Fault Refusal :=
  s.issueWord { instr := .sctlClose o, det := some 0x76 } fun s => do
    let _ ← lanesOf (s.issue.map fun k => s.outStrand k o.toNat)
    let t := s.issue.foldl (fun t k => (t.release k 2).closeOut k o.toNat) s
    .ok ((t.runStrands).checkPipes (dieOfThread (s.issue.headD 0)))

/-- The status word of a strand (R280). -/
def Pipe.status (p : Pipe) (n : Nat) (t : Strand) : Word :=
  BitVec.ofNat 32 (t.beads.length % 2 ^ 24 + b2n (p.allClosed n) * 2 ^ 24 + b2n (decide (t.chip < t.beads.length)) * 2 ^ 25)

/-- SCTL.stat (R280). -/
def execSctlStat (d : BitVec 7) (o : BitVec 2) (s : State) : Host.Outcome State Fault Refusal :=
  s.issueWord { instr := .sctlStat d o, ops := [.dst d], det := some 0x76 } fun s => do
    let xs ← lanesOf (s.issue.map fun k =>
      if o = 2 then (s.inStrand k).map fun x => (k, x.2.1.status x.2.2.1 x.2.2.2)
      else (s.outStrand k o.toNat).map fun x => (k, x.2.1.status x.2.2.2.1 x.2.2.2.2))
    .ok (xs.foldl (fun t x => t.variable x.1 [s.toV x.1 d.toNat x.2]) s)

-- Residency of a pipeline (R276).

/-- Whether a core is free for a pipeline of a context. -/
def State.coreFree (s : State) (c ctx : Nat) : Bool :=
  let k := s.core c
  s.coreOpen c ctx none && k.ctx == 0 && k.stage.isNone

/-- The free cores of a die, lowest first. -/
def State.freeCores (s : State) (d ctx : Nat) : List Nat := (upto (96 * d) 96).filter fun c => s.coreFree c ctx

/-- Cores given out to the stages in order; the rest are stage 8, the free pool. -/
def dealCores : List (Nat × Nat) → List Nat → List (Nat × Nat)
  | [], cs => cs.map fun c => (c, 8)
  | (i, n) :: r, cs => (cs.take n).map (fun c => (c, i)) ++ dealCores r (cs.drop n)

/-- The grid of a stage on a die (R276): a stage that is no source reads the extent (65,535, 8, 1). -/
def stageGrid (ctx d launch i : Nat) (st : Stage) : Grid :=
  let desc := if st.input = 0xFF then st.desc else { st.desc with ex := 65535, ey := 8, ez := 1 }
  { ctx := ctx, desc := desc, dies := [d], stage := some (launch, i) }

/-- A pipeline becomes resident on a die. -/
def State.pipeResident (s : State) (d : Nat) (p : Pipe) : State :=
  let cs := (s.freeCores d p.ctx).take p.cores
  let deal := dealCores (p.stages.mapIdx fun i t => (i, t.cores0)) cs
  let s := deal.foldl (fun s e => s.updCore e.1 fun k => { k with stage := some (p.launch, e.2) }) s
  let (ids, s) := (p.stages.zip (upto 0 p.stages.length)).foldl (fun (a : List Nat × State) e =>
    let (id, s) := a.2.acceptGrid (stageGrid p.ctx d p.launch e.2 e.1)
    (a.1 ++ [id], s)) ([], s)
  (s.updPipe d p.launch fun q =>
    { q with resident := true, pool := (deal.filter fun e => e.2 == 8).map (·.1)
             stages := q.stages.mapIdx fun i t => { t with grid := ids.getD i 0 } }).pokePlace d

/-- PIPELINE_RESIDENT (R276). -/
def execPipelineResident (die pipe : Nat) (s : State) : Host.Outcome State Fault Refusal :=
  match (s.die die).pipe pipe with
  | some p =>
    if !p.resident && s.ctxOpen die p.ctx && decide (p.cores ≤ (s.freeCores die p.ctx).length) then .next (s.pipeResident die p) else .next s
  | none => .next s

/-- Asks every waiting pipeline of a die whether it can become resident. -/
def State.pokePipes (s : State) (d : Nat) : State :=
  ((s.die d).pipes.filter fun p => !p.resident).foldl (fun s p => s.poll (s.clk + 1) (.pipelineResident d p.launch)) s

-- The balancer (R281).

/-- The cores of a stage: those it holds and those on their way to it. -/
def State.stageCores (s : State) (d l i : Nat) : List Nat :=
  (upto (96 * d) 96).filter fun c =>
    let k := s.core c
    match k.stage with
    | some (l', i') => l' == l && (if k.revoked then k.goingTo == some i else i' == i)
    | none => false

/-- f of a stage (R281). -/
def Pipe.fill (p : Pipe) (i : Nat) : Rat :=
  match p.stages[i]? with
  | some st => (match p.strand st.input with
    | some t => if t.cap = 0 then 0 else (t.beads.length : Rat) / t.cap
    | none => 0)
  | none => 0

/-- The stages that may take part: those that are no source. -/
def Pipe.movable (p : Pipe) : List Nat :=
  (upto 0 p.stages.length).filter fun i => match p.stages[i]? with | some st => st.input != 0xFF && !st.finished | none => false

/-- The best of a list by a key, the first on a tie. -/
def bestBy (better : Rat → Rat → Bool) (f : Nat → Rat) : List Nat → Option Nat
  | [] => none
  | i :: r => match bestBy better f r with
    | none => some i
    | some j => if better (f j) (f i) then some j else some i

/-- Step 1: the receiver. -/
def State.receiver (s : State) (d : Nat) (p : Pipe) : Option Nat :=
  let gave := fun (i : Nat) => match p.stages[i]? with | some t => t.gave | none => false
  let full := p.movable.filter fun i => decide (0 < p.fill i)
  match firstThat (fun i => (s.stageCores d p.launch i).isEmpty) full with
  | some i => some i
  | none => bestBy (fun a b => decide (b < a)) p.fill (full.filter fun i => !gave i)

/-- Cores a stage can give. -/
def State.canGive (s : State) (d : Nat) (p : Pipe) (i : Nat) : Nat :=
  let n := (s.stageCores d p.launch i).length
  if 0 < p.fill i then n - 1 else n

/-- Step 2: the donor, 8 for the free pool. -/
def State.donor (s : State) (d : Nat) (p : Pipe) (r : Nat) : Option Nat :=
  let received := fun (i : Nat) => match p.stages[i]? with | some t => t.received | none => false
  if !p.pool.isEmpty then some 8
  else bestBy (fun a b => decide (a < b)) p.fill
    (p.movable.filter fun i => decide (p.fill i < p.fill r) && !received i && decide (0 < s.canGive d p i))

/-- Revokes a core of a stage for a receiver; a core with no team goes at once. -/
def State.revoke (s : State) (r c : Nat) : State := (s.updCore c fun k => { k with revoked := true, goingTo := some r }).coreIdle c

/-- No stage gave or received cores in an interval (R281). -/
def Pipe.clearMarks (p : Pipe) : Pipe := { p with stages := p.stages.map fun t => { t with gave := false, received := false } }

/-- Step 3: the move, and the marks of the interval. -/
def State.balance (s : State) (d : Nat) (p : Pipe) : State :=
  let clear := fun (s : State) => s.updPipe d p.launch Pipe.clearMarks
  match s.receiver d p with
  | none => clear s
  | some r =>
    match s.donor d p r with
    | none => clear s
    | some g =>
      let s' := if g = 8 then
          let cs := p.pool.take 4
          (cs.foldl (fun s c => s.updCore c fun k => { k with stage := some (p.launch, r) }) s).updPipe d p.launch fun q =>
            { q with pool := q.pool.drop 4 }
        else
          let n := Nat.min 4 (s.canGive d p g)
          let cs := s.stageCores d p.launch g
          (cs.drop (cs.length - n)).foldl (fun s c => s.revoke r c) s
      ((clear s').updPipe d p.launch fun q =>
        { q with stages := q.stages.mapIdx fun i t => { t with gave := i == g, received := i == r } }).runStrands.pokePlace d

/-- The waiting states of R29. -/
def Thread.waits (t : Thread) : Bool :=
  t.atBar || match t.wait with
    | .ring _ _ _ => true
    | .push _ _ _ => true
    | .pop _ _ => true
    | .task _ _ => true
    | .asleep _ => true
    | _ => false

/-- The strand a thread waits on, and whether it waits to push (R414). -/
def State.waitStrand (s : State) (p : Pipe) (k : Nat) : Option (Nat × Bool) :=
  match (s.thr k).wait, s.stageRec k with
  | .push o _ _, some (_, q, _, st) => if q.launch = p.launch then some (st.out o, true) else none
  | .pop _ _, some (_, q, _, st) => if q.launch = p.launch then some (st.input, false) else none
  | _, _ => none

/-- The threads of a pipeline's teams on a die that have not exited. -/
def State.pipeThreads (s : State) (d : Nat) (p : Pipe) : List Nat :=
  (s.threads.filter fun e => e.2.live && !isCmd e.1 && e.2.wait != .exited && dieOfThread e.1 == d
    && (match (s.grid (s.team e.2.team).grid).stage with | some (l, _) => l == p.launch | none => false)).map (·.1)

/-- The deadlock test of one pipeline (R414), and the marks of the interval; after the fault two intervals count anew. -/
def State.strandTest (s : State) (d : Nat) (p : Pipe) : Bool × State :=
  let ks := s.pipeThreads d p
  let ws := ks.filterMap (s.waitStrand p)
  let now := ks.all (fun k => (s.thr k).waits) && !ws.isEmpty
  let moved := p.strands.any (·.moved)
  let dead := now && p.stuck && !moved
  let s := s.updPipe d p.launch fun q => { q with stuck := now && !dead, strands := q.strands.map fun t => { t with moved := false } }
  if dead then
    let low := ws.foldl (fun m w => Nat.min m w.1) 255
    let info := low + 256 * b2n (ws.any fun w => w.1 == low && w.2)
    (true, (s.logEvent 0x16 1 p.ctx (distributorStop d) 7 info 0).stopOnDie p.ctx d)
  else (false, s)

/-- One pipeline at a balancer interval; one that makes no move, as while its context is pre-empted, leaves no marks. -/
def State.interval (s : State) (d l : Nat) : State :=
  match (s.die d).pipe l with
  | none => s
  | some p =>
    if !p.resident then s
    else if (s.cx p.ctx).dies.get .running d != .running then s.updPipe d l fun q => { q.clearMarks with stuck := false }
    else
      match s.strandTest d p with
      | (true, s) => s.updPipe d l Pipe.clearMarks
      | (false, s) => match (s.die d).pipe l with
        | some q => s.balance d q
        | none => s

/-- BALANCER_INTERVAL (R281, R414). -/
def execBalancerInterval (die : Nat) (s : State) : Host.Outcome State Fault Refusal :=
  .next (((s.die die).pipes.map (·.launch)).foldl (fun s l => s.interval die l) s)

end Sys2Proof.Machine
end

