-- ==== Sys2Proof/Machine/Command.lean ====
section
/-! DEFINITION. The meanings of CPX on the command cores (R283 to R294, R304, R308, R345, R412), and the completion of a
CCOPY. -/

namespace Sys2Proof.Machine

/-- The command context of the current word, by its thread. -/
def State.cmdThread (s : State) : Nat := s.issue.headD 0

/-- The check of R345, made last. -/
def State.checkSem (s : State) (uses : Bool) (sem : BitVec 12) : Except Flt Unit :=
  if uses && !s.ownsSem s.cmdThread sem.toNat then .error { code := 0x21, info := sem.toNat } else .ok ()

/-- The completion signal of R286. -/
def sigOf (c : Nat) (sig add : BitVec 1) (sem : BitVec 12) (v : DWord) : Signal :=
  if sig = 1 then .sem c sem.toNat (add == 1) v else .none

/-- One LAUNCH or CCOPY more is outstanding (R288). -/
def State.cmdIssued (s : State) (c : Nat) : State := s.updCmd c fun x => { x with out := x.out + 1 }

/-- A read of a command core's engine. -/
def State.cmdRead (s : State) (va n : Nat) : Except Flt (List Byte × Bool) :=
  match s.sourceRead (s.agentOf s.cmdThread) va n with
  | .error f => .error (f.engineFlt false va 0)
  | .ok r => .ok r

-- LAUNCH: pipelines (R275).

/-- RESERVED_FIELD of a LAUNCH or CCOPY (R412). -/
def cpxFlt (info : Nat) : Flt := { code := 0x02, info := info }

/-- A stage entry of a pipeline descriptor. -/
structure StageEntry where
  desc : Nat
  input : Nat
  out0 : Nat
  out1 : Nat
  cores0 : Nat
  deriving DecidableEq, Repr

/-- Stage entry i. -/
def stageEntry (b : List Byte) (i : Nat) : StageEntry :=
  let e := b.drop (0x40 + 32 * i)
  { desc := fieldAt e 0 8, input := fieldAt e 8 1, out0 := fieldAt e 9 1, out1 := fieldAt e 10 1, cores0 := fieldAt e 11 1 }

/-- Strand entry i. -/
def strandEntry (b : List Byte) (i : Nat) : Strand :=
  let e := b.drop (0x140 + 32 * i)
  { off := fieldAt e 0 4, size := fieldAt e 4 4, bead := fieldAt e 8 2, extS := fieldAt e 12 4, extB := BitVec.ofNat 64 (fieldAt e 16 8) }

/-- Whether a strand entry breaks R275. -/
def strandBad (b : List Byte) (i : Nat) : Bool :=
  let t := strandEntry b i
  t.off % 128 != 0 || t.size % 4096 != 0 || t.size == 0 || decide (65536 < t.size) || t.bead % 16 != 0 || t.bead == 0
    || decide (256 < t.bead) || t.extS % 4096 != 0 || t.extB.toNat % 4096 != 0
    || !zeroAt b (0x14A + 32 * i) 2 || !zeroAt b (0x158 + 32 * i) 8

/-- Active cores of a die. -/
def State.activeCores (s : State) (d : Nat) : Nat := ((upto (96 * d) 96).filter fun c => !(s.part.noCore.get false c)).length

/-- Whether a pipeline descriptor breaks R275, its stages' descriptors apart, or asks for more cores than a die has
(R429). -/
def State.pipeBad (s : State) (b : List Byte) (dies : List Nat) : Bool :=
  let ns := fieldAt b 0 1
  let nk := fieldAt b 1 1
  let c := fieldAt b 2 1
  let es := (upto 0 ns).map (stageEntry b)
  let ins := (es.map (·.input)).filter (· != 0xFF)
  let strandOk := fun (k : Nat) => k == 0xFF || decide (k < nk)
  ns == 0 || decide (8 < ns) || nk == 0 || decide (16 < nk) || c == 0 || decide (96 < c) || !zeroAt b 3 61
    || !((upto 0 ns).all fun i => zeroAt b (0x4C + 32 * i) 20) || !zeroAt b (0x40 + 32 * ns) (32 * (8 - ns))
    || !(es.all fun e => strandOk e.input && strandOk e.out0 && strandOk e.out1) || (dedup ins).length != ins.length
    || decide (c < (es.map (·.cores0)).sum)
    || (upto 0 nk).any (strandBad b) || !zeroAt b (0x140 + 32 * nk) (32 * (16 - nk))
    || (dies.any fun d => decide (s.activeCores d < c)
          || (upto 0 nk).any fun k => decide (s.sharedSize d < (strandEntry b k).off + (strandEntry b k).size))

/-- The launch descriptor of a stage, read from its address (R275). -/
def State.stageDesc (s : State) (b : List Byte) (i : Nat) : Except Flt (Stage × Bool) :=
  let e := stageEntry b i
  match s.cmdRead e.desc 128 with
  | .error f => .error f
  | .ok (x, bad) =>
    let d := parseDesc x
    if e.desc % 64 ≠ 0 ∨ descBad x ∨ d.kind ≠ 0 ∨ d.stage ≠ i ∨ d.shape ≠ 0 then .error (cpxFlt 0x98)
    else .ok ({ desc := d, input := e.input, out0 := e.out0, out1 := e.out1, cores0 := e.cores0 }, bad)

/-- Each result of a list in turn, or the first fault. -/
def allOk {α : Type} : List (Except Flt α) → Except Flt (List α)
  | [] => .ok []
  | .error f :: _ => .error f
  | .ok x :: r => (allOk r).map (x :: ·)

/-- What a LAUNCH of a pipeline reads: its descriptor, and the launch descriptors of its stages. -/
def State.pipeWays (s : State) (d : Desc) : List (Nat × Nat) :=
  let b := match s.cmdRead d.pc.toNat 832 with | .ok x => x.1 | .error _ => []
  (d.pc.toNat, 832) :: (upto 0 (fieldAt b 0 1)).map fun i => ((stageEntry b i).desc, 128)

/-- A pipeline whose descriptor and stages meet R275 and R412: its stages, its strands and its cores, and whether a
poisoned byte was read. The argument pointer and the user words of the pipeline's own launch descriptor, which R289 says are read, are
what the groups of every stage receive (R290); a stage's own descriptor gives the rest (DEDUCED, log entry 130). -/
def State.readPipe (s : State) (d : Desc) (dies : List Nat) (ctx : Nat) : Except Flt (Pipe × Bool) := do
  let (b, bad) ← s.cmdRead d.pc.toNat 832
  if d.pc.toNat % 64 ≠ 0 ∨ s.pipeBad b dies then .error (cpxFlt 0x98)
  else
    let st ← allOk ((upto 0 (fieldAt b 0 1)).map (s.stageDesc b))
    if d.ctx ≠ ctx ∨ st.any fun x => x.1.desc.ctx != ctx then .error (cpxFlt 0x99)
    else if st.any fun x => !x.1.desc.placeable then .error (cpxFlt 0x9A)
    else if st.any fun x => x.1.desc.det != 0 then .error (cpxFlt 0xB0)
    else
      .ok ({ launch := 0, ctx := ctx, resident := false, cores := fieldAt b 2 1
             stages := st.map fun x => { x.1 with desc := { x.1.desc with arg := d.arg, user := d.user } }
             strands := (upto 0 (fieldAt b 1 1)).map (strandEntry b), pool := [], stuck := false }, bad || st.any (·.2))

/-- A pipeline is launched on its dies; it waits there until it can become resident (R276). -/
def State.launchPipe (s : State) (p : Pipe) (dies : List Nat) (sg : Signal) (c : Nat) : State :=
  let (id, s) := s.newId
  let s := { s with launches := s.launches ++ [(id, { ctx := p.ctx, dies := dies, signal := sg, cmd := some c })] }
  dies.foldl (fun s d => (s.updDie d fun x => { x with pipes := x.pipes ++ [{ p with launch := id }] }).poll (s.clk + 1) (.pipelineResident d id)) s

-- LAUNCH: deterministic grids (R304, R308).

/-- The deterministic run of a descriptor, if neither it nor its table breaks R304 and R308, and whether the table is poisoned. -/
def State.readDet (s : State) (d : Desc) : Except Flt (Det × Bool) :=
  let k := s.cmdThread
  let va := d.dtab.toNat
  match s.cmdRead va 64 with
  | .error _ => .error (cpxFlt 0xB0)
  | .ok (b, bad) =>
    let mode := fieldAt b 0 4
    let lim := fieldAt b 4 4
    let w := fieldAt b 8 4
    let base := fieldAt b 0x10 8
    let t := d.clusters
    if d.ex % d.det ≠ 0 ∨ va % 64 ≠ 0 ∨ 1 < mode ∨ lim % 4096 ≠ 0 ∨ lim = 0 ∨ 2 ^ 20 < lim ∨ w = 0 ∨ 64 < w ∨ base % 4096 ≠ 0
        ∨ !zeroAt b 0x24 28 ∨ (mode = 1 ∧ fieldAt b 0x0C 4 ≠ t % 2 ^ 32)
        ∨ (s.engineFault (s.agentOf k) { w := true } va 64).isSome
        ∨ (s.engineFault (s.agentOf k) { w := mode == 0 } (va + 64) (8 * t)).isSome
    then .error (cpxFlt 0xB0)
    else .ok ({ table := d.dtab, replay := mode == 1, plimit := lim, windows := w, area := BitVec.ofNat 64 base, total := t }, bad)

/-- A grid is launched on its dies (R288); the device writes T into a deterministic table, and begins its count of mismatched tasks at 0
(R308; DEDUCED, log entry 131). -/
def State.launchGrid (s : State) (d : Desc) (det : Option Det) (dies : List Nat) (sg : Signal) (c : Nat) : State :=
  let s := match det with
    | some t => (s.keepWay (s.agentOf s.cmdThread) { w := !t.replay } t.table.toNat (64 + 8 * t.total)).engineWrite (s.agentOf s.cmdThread) (t.table.toNat + 0x0C) (leBytes 4 t.total)
      |>.engineWrite (s.agentOf s.cmdThread) (t.table.toNat + 0x20) (leBytes 4 0)
    | none => s
  (s.acceptGrid { ctx := d.ctx, desc := d, dies := dies, signal := sg, cmd := some c, det := det }).2

/-- CPX LAUNCH (R288, R412). -/
def execCpxLaunch (a b : BitVec 7) (sem : BitVec 12) (dm : BitVec 4) (sig add : BitVec 1) (s : State) : Host.Outcome State Fault Refusal :=
  s.issueWord { instr := .cpxLaunch a b sem dm sig add, place := .command
                ops := [.src a true] ++ (if sig == 1 then [.src b true] else []) } fun s => do
    let k := s.cmdThread
    let c := k - cmdBase
    let va := (s.v64 k a.toNat).toNat
    let dies := maskDies dm.toNat
    let sg := sigOf c sig add sem (if sig == 1 then s.v64 k b.toNat else 0)
    if va % 64 ≠ 0 then .error { code := 0x06, info := 1, addr := BitVec.ofNat 64 va }
    else
      let (x, bad) ← s.cmdRead va 128
      let d := parseDesc x
      if descBad x then .error (cpxFlt 0x98)
      else if d.kind = 1 then
        let (p, bad2) ← s.readPipe d dies (s.ctxOf k)
        let _ ← s.checkSem (sig == 1) sem
        let s := s.keepWays (s.agentOf k) ((va, 128) :: s.pipeWays d)
        let s := if bad || bad2 then s.poisonedSource k 8 0 else s
        .ok (((s.release k 4).cmdIssued c).launchPipe p dies sg c)
      else if d.ctx ≠ s.ctxOf k then .error (cpxFlt 0x99)
      else if !d.placeable then .error (cpxFlt 0x9A)
      else
        let det ← if d.det = 0 then Except.ok none else (s.readDet d).map some
        let bad := bad || match det with | some x => x.2 | none => false
        let _ ← s.checkSem (sig == 1) sem
        let s := s.keepWays (s.agentOf k) [(va, 128)]
        let s := if bad then s.poisonedSource k 8 0 else s
        .ok (((s.release k 4).cmdIssued c).launchGrid d (det.map (·.1)) dies sg c)

-- Semaphores (R292).

/-- CPX SEMWAIT (R292). -/
def execCpxSemwait (d a : BitVec 7) (sem : BitVec 12) (ne : BitVec 1) (s : State) : Host.Outcome State Fault Refusal :=
  s.issueWord { instr := .cpxSemwait d a sem ne, place := .command, ops := [.dst d true, .src a true] } fun s => do
    let k := s.cmdThread
    let _ ← s.checkSem true sem
    let s := s.release k 4
    let v := s.semValue sem.toNat
    let x := s.v64 k a.toNat
    .ok (if semHolds (ne == 1) x v then s.variable k (s.toV64 k d.toNat v)
      else (s.waitHere k (.sem sem.toNat (ne == 1) x d.toNat)).updCmd (k - cmdBase) fun m => { m with st := .semWait })

/-- CPX SEMSIG (R292). -/
def execCpxSemsig (a : BitVec 7) (sem : BitVec 12) (s : State) : Host.Outcome State Fault Refusal :=
  s.issueWord { instr := .cpxSemsig a sem, place := .command, ops := [.src a true] } fun s => do
    let k := s.cmdThread
    let _ ← s.checkSem true sem
    .ok ((s.release k 4).semWrite sem.toNat (s.v64 k a.toNat))

/-- CPX SEMADD (R292). -/
def execCpxSemadd (d a : BitVec 7) (sem : BitVec 12) (s : State) : Host.Outcome State Fault Refusal :=
  s.issueWord { instr := .cpxSemadd d a sem, place := .command, ops := [.dst d true, .src a true] } fun s => do
    let k := s.cmdThread
    let _ ← s.checkSem true sem
    let s := s.release k 4
    let v := s.semValue sem.toNat
    .ok ((s.semWrite sem.toNat (v + s.v64 k a.toNat)).variable k (s.toV64 k d.toNat v))

-- CCOPY, IRQ and CHALT (R294).

/-- A window in the range of a CCOPY's address (R412): the device page raises PERM, every other one BOUNDS. -/
def copyWindow (perm wr : Bool) (va : DWord) (n : Nat) : Option Flt :=
  let dev := winOf va.toNat == .device
  if va.toNat + n ≤ teamBase ∨ dev ≠ perm then none
  else some { code := if perm then 0x08 else 0x07, info := (if perm then 6 else 4) + 8 * b2n wr, addr := va }

/-- The destination bytes before the first part that does not translate, and that failure. -/
def State.copyTargets (s : State) (a : Agent) : List (Nat × Nat) → List Nat × Option (Nat × Nat × DWord)
  | [] => ([], none)
  | (va, n) :: r =>
    match s.engineSpot a { w := true } va n with
    | .error f => ([], some (f.code, f.infoWord true, BitVec.ofNat 64 va))
    | .ok p => let (hs, e) := s.copyTargets a r; (upto p.home n ++ hs, e)

/-- A CCOPY begins (R294, R107): it reads every source byte, and owns the bytes that it writes. -/
def State.beginCopy (s : State) (k n : Nat) (dst src : DWord) (sg : Signal) : State :=
  let a := s.agentOf k
  let r := s.run
  let c := k - cmdBase
  let copy : CCopy := match s.enginePartFault a {} (parts src.toNat n) with
    | some (va, f) => { pc := r.pc, pos := r.pos, dests := [], bad := [], fail := some (f.code, f.infoWord false, BitVec.ofNat 64 va), signal := sg }
    | none =>
      let (hs, e) := s.copyTargets a (parts dst.toNat n)
      let from_ := match s.engineHomes a {} (parts src.toNat n) with | .ok l => l | .error _ => []
      { pc := r.pc, pos := r.pos, dests := hs, fail := e, signal := sg
        bad := ((hs.zip from_).filter fun x => s.isPoisoned x.2 1).map (·.1) }
  let bytes := match s.engineRead a src.toNat n with | .ok x => x.1 | .error _ => []
  let s' := (copy.dests.zip bytes).foldl (fun (t : State) e =>
    { t with owned := t.owned.put none e.1 (some e.2), ownedBad := t.ownedBad.put false e.1 (copy.bad.contains e.1) }) s
  let s' := (s'.keepWay a {} src.toNat n).keepWay a { w := true } dst.toNat n
  ((s'.cmdIssued c).updCmd c fun m => { m with copies := m.copies ++ [copy] }).later (.ccopyComplete c)

/-- Whether a CCOPY waits: a Torc step owns a line that it reads or writes (R107, R301). -/
def State.copyWaits (s : State) (k n : Nat) (dst src : DWord) : Bool :=
  !s.torcHeld.isEmpty && (s.torcOwns (s.copyTargets (s.agentOf k) (parts dst.toNat n)).1
    || match s.engineHomes (s.agentOf k) {} (parts src.toNat n) with | .ok hs => s.torcOwns hs | .error _ => false)

/-- CPX CCOPY (R294, R412). -/
def execCpxCcopy (d a b : BitVec 7) (sem : BitVec 12) (sig add : BitVec 1) (v : BitVec 7) (s : State) : Host.Outcome State Fault Refusal :=
  s.issueWord { instr := .cpxCcopy d a b sem sig add v, place := .command
                ops := [.src d true, .src a true, .src b true] ++ (if sig == 1 then [.src v true] else []) } fun s => do
    let k := s.cmdThread
    let n := (s.v64 k d.toNat).toNat
    let dst := s.v64 k a.toNat
    let src := s.v64 k b.toNat
    if n = 0 ∨ 2 ^ 36 < n then .error (cpxFlt 0x9B)
    else
      match [copyWindow false true dst n, copyWindow false false src n, copyWindow true true dst n, copyWindow true false src n].filterMap id with
      | f :: _ => .error f
      | [] => do
        let _ ← s.checkSem (sig == 1) sem
        let _ ← if s.copyWaits k n dst src then .error { code := 0 } else .ok ()
        .ok ((s.release k 4).beginCopy k n dst src (sigOf (k - cmdBase) sig add sem (if sig == 1 then s.v64 k v.toNat else 0)))

/-- A command context stops for a fault of a CCOPY (R294), with the code in its status row: at once in SEMWAIT or between runs, else at
its next run boundary. One that has stopped already keeps its state. -/
def State.copyStops (s : State) (c code : Nat) : State :=
  let k := cmdBase + c
  let m := s.cmd c
  let s := s.updCmd c fun m => { m with fault := code }
  if m.st == .semWait || m.st == .ready then
    if (s.thr k).wait == .issued then s.updCmd c fun m => { m with faultDue := true }
    else (s.updCmd c fun m => { m with st := .faulted }).updThr k fun t => { t with wait := .faulted }
  else s

/-- The oldest CCOPY of a command context completes, and signals unless it failed (R294). -/
def State.finishCopy (s : State) (c : Nat) (x : CCopy) : State :=
  let s := s.writeOwned x.dests
  let rec0 : Record := { code := 0, cls := 1, ctx := (s.cmd c).ctx, stop := 0x1000 + c / 16, lanes := 1, pc := x.pc, runpos := x.pos, src := 8, hbt := s.hbt }
  let s := if x.bad.isEmpty then s else s.logRecord { rec0 with code := 0x1C, cls := 2 }
  let s := (s.updCmd c fun m => { m with copies := m.copies.drop 1 }).cmdDone (some c)
  match x.fail with
  | none => s.signal x.signal
  | some (code, info, addr) => (s.logRecord { rec0 with code := code, info := info, addr := addr, flags := b2n (code == 9) }).copyStops c code

/-- CCOPY_COMPLETE (R294). -/
def execCcopyComplete (c : Nat) (s : State) : Host.Outcome State Fault Refusal :=
  match (s.cmd c).copies with
  | x :: _ => .next (s.finishCopy c x)
  | [] => .next s

/-- CPX IRQ (R294). -/
def execCpxIrq (vec : BitVec 11) (s : State) : Host.Outcome State Fault Refusal :=
  s.issuePlain { instr := .cpxIrq vec, place := .command } fun s => (s.release s.cmdThread 4).msix vec.toNat

/-- CPX CHALT (R294): the run ends with the context Halted. -/
def execCpxChalt (s : State) : Host.Outcome State Fault Refusal :=
  s.issuePlain { instr := .cpxChalt, place := .command } fun s =>
    s.issue.foldl (fun s k => (s.release k 4).updThr k fun t => { t with nextWait := some .exited }) s

end Sys2Proof.Machine
end

