-- ==== Sys2Proof/Machine/Host.lean ====
section
/-! DEFINITION. The management mailbox (R335 to R337, R428): host writes, SUBMIT, the response, and the MSI-X vectors
(R294). -/

namespace Sys2Proof.Machine

/-- A field of the request being performed. -/
def State.reqNat (s : State) (off n : Nat) : Nat := tabNat s.host.req off n

/-- Whether bytes of the request are zero. -/
def State.reqZero (s : State) (off n : Nat) : Bool := (tabBytes s.host.req off n).all (· == 0)

/-- Whether FLAGS and every byte from `off` on are as R335 and R338 require, apart from the argument bytes before. -/
def State.reqPlain (s : State) (off : Nat) : Bool := decide (s.reqNat 1 1 < 2) && s.reqZero off (32 - off)

/-- A field of the inbound payload. -/
def State.payNat (s : State) (off n : Nat) : Nat := s.reqNat (0x100 + off) n

/-- Bytes of the inbound payload. -/
def State.payBytes (s : State) (n : Nat) : List Byte := tabBytes s.host.req 0x100 n

/-- The response bytes (R335). -/
def State.responseBytes (s : State) (result len : Nat) (extra : List Byte) : List Byte :=
  leBytes 1 (s.reqNat 0 1) ++ leBytes 1 result ++ leBytes 2 (s.reqNat 2 2) ++ leBytes 4 len ++ extra ++ List.replicate (24 - extra.length) 0

/-- A request completes (R337): its payload and response, DONESEQ with BUSY clear, and vector 0 if it asked for it. -/
def State.respond (s : State) (result : Nat) (payload extra : List Byte) : State :=
  let h := s.host
  let m := putBytes (putBytes h.mbox 0x100 payload) 0x20 (s.responseBytes result payload.length extra)
  let irq := decide (s.reqNat 1 1 % 2 = 1)
  let s := State.unschedule { s with host := { h with mbox := m, busy := false, doneSeq := BitVec.ofNat 16 (s.reqNat 2 2), waiting := none } }
    (· == .mailboxWatchdog)
  if irq then s.msix 0 else s

/-- A request that fails changes nothing but its response (R337). -/
def State.fails (s : State) (result : Nat) : State := s.respond result [] []

/-- A request that succeeds without a payload. -/
def State.ok (s : State) : State := s.respond 0 [] []

/-- RESULT codes (R337). -/
def badArg : Nat := 2
def badState : Nat := 3
def noResource : Nat := 4
def noAuth : Nat := 5

/-- Whether a request of a code is being performed and waits for nothing. -/
def State.performing (s : State) (code : Nat) : Bool := s.host.busy && s.host.waiting.isNone && s.reqNat 0 1 == code

/-- Performs the request of a code: BADARG for its fields, STATE in minimal mode where the command is not one of R427's,
then its own causes in the order of R428, and its effect. -/
def State.perform (s : State) (code : Nat) (bad minimal : Bool) (causes : List (Nat × Bool)) (body : State → State) :
    Host.Outcome State Fault Refusal :=
  if !s.performing code then .next s
  else if bad then .next (s.fails badArg)
  else if s.boot.minimal && !minimal then .next (s.fails badState)
  else
    match firstThat (fun (c : Nat × Bool) => c.2) causes with
    | some c => .next (s.fails c.1)
    | none => .next (body s)

/-- The event that performs a command; none for a code, an operation of CTXMAP or one of MEASURE that does not exist. -/
def commandOf (code op : Nat) : Option Instr :=
  match code, op with
  | 1, _ => some .ident
  | 2, _ => some .resync
  | 3, _ => some .ctxnew
  | 4, _ => some .ctxdel
  | 5, _ => some .resume
  | 6, 0 => some .ctxmapDieShared
  | 6, 1 => some .ctxmapQueueBind
  | 6, 2 => some .ctxmapCounters
  | 6, 3 => some .ctxmapSemGrant
  | 6, 4 => some .ctxmapInvalidate
  | 7, _ => some .cmdstart
  | 8, _ => some .cmdstop
  | 9, _ => some .preempt
  | 10, _ => some .poolcfg
  | 11, _ => some .attest
  | 12, 0 => some .measureRead
  | 12, 1 => some .measureExtend
  | 13, _ => some .fwlog
  | 14, _ => some .degrade
  | 15, _ => some .reset
  | _, _ => none

/-- The request and the payload area as the mailbox holds them. -/
def HostIf.snapshot (h : HostIf) : Tab Byte := putBytes (putBytes [] 0 (tabBytes h.mbox 0 32)) 0x100 (tabBytes h.mbox 0x100 3840)

/-- A request is accepted: BUSY, the request as it stands, and its command after a free latency; a code or an operation
that does not exist is answered at once. -/
def State.accept (s : State) : State :=
  let s := { s with host := { s.host with busy := true, busySince := s.beats, req := s.host.snapshot, waiting := none } }
  match commandOf (s.reqNat 0 1) (s.reqNat 4 1) with
  | some e => (s.later e).scheduleAt (64 * (s.beats + 2 ^ 26)) .mailboxWatchdog
  | none => s.fails (if s.reqNat 0 1 = 6 ∨ s.reqNat 0 1 = 12 then badArg else 1)

/-- A write of a value to SUBMIT (R337). -/
def State.submit (s : State) (val : Nat) : State :=
  let h := s.host
  if !h.ready then s
  else if h.busy then { s with host := { h with overrun := true } }
  else if val ≠ tabNat h.mbox 2 2 then s
  else s.accept

/-- SUBMIT (R337). -/
def execSubmit (val : BitVec 32) (s : State) : Host.Outcome State Fault Refusal := .next (s.submit val.toNat)

/-- Clears OVERRUN (R336). -/
def State.clearOverrun (s : State) : State := { s with host := { s.host with overrun := false } }

/-- The byte that a write at an offset puts at another one, if it covers it. -/
def writtenAt (off : Nat) (data : List Byte) (o : Nat) : Option Byte := if o < off then none else data[o - off]?

/-- A host write to the mailbox page (R335 to R337): the request, response and payload bytes are stored; a 1 written to STATUS.OVERRUN
clears it; the whole SUBMIT word, once the bytes before it are written, submits. The other bytes of STATUS and the reserved ones keep
nothing. That OVERRUN is cleared before one 8-byte write submits is the model's order (DESIGN CHOICE, log entry 94). -/
def State.mailboxWrite (s : State) (off : Nat) (data : List Byte) : State :=
  let keep := fun (o : Nat) => decide (o < 0x40) || decide (0x100 ≤ o)
  let m := (upto off data.length).foldl (fun t o => match writtenAt off data o with | some b => if keep o then t.put 0 o b else t | none => t) s.host.mbox
  let s : State := { s with host := { s.host with mbox := m } }
  let s := match writtenAt off data 0x43 with | some b => if b.getLsbD 5 then s.clearOverrun else s | none => s
  if off ≤ 0x44 ∧ 0x48 ≤ off + data.length then s.submit (leNat ((data.drop (0x44 - off)).take 4)) else s

/-- STATUS as the host reads it (R336). -/
def HostIf.status (h : HostIf) : Nat := h.doneSeq.toNat + 2 ^ 29 * b2n h.overrun + 2 ^ 30 * b2n h.busy + 2 ^ 31 * b2n h.ready

/-- A byte of the mailbox page as the host reads it (R335): the request, the response and the payload as they stand, and STATUS. What
SUBMIT, which is write-only, and the reserved bytes read as is not stated: free bytes (DESIGN CHOICE, log entry 156). -/
def State.mailboxByte (s : State) (o : Nat) : Byte :=
  if o < 0x40 ∨ (0x100 ≤ o ∧ o < 0x1000) then s.host.mbox.get 0 o
  else if o < 0x44 then (leBytes 4 s.host.status).getD (o - 0x40) 0
  else Config.freeByte (s.free * 2 ^ 40 + o)

/-- What a host read of 4 or 8 bytes of the page returns (R335); it changes nothing. -/
def State.mailboxRead (s : State) (off n : Nat) : List Byte := (upto off n).map s.mailboxByte

/-- MAILBOX_WRITE (R335): 4 or 8 bytes within the page. -/
def execMailboxWrite (off : Nat) (data : List (BitVec 8)) (s : State) : Host.Outcome State Fault Refusal :=
  let n := data.length
  if (n = 4 ∨ n = 8) ∧ off + n ≤ 4096 then .next (s.mailboxWrite off data) else .next s

/-- OVERRUN_CLEAR (R336). -/
def execOverrunClear (s : State) : Host.Outcome State Fault Refusal := .next s.clearOverrun

/-- MSIX_VECTOR_UNMASK (R294): the pending message is sent, or stays pending while the host port is not up (R424). -/
def execMsixVectorUnmask (vec : Nat) (s : State) : Host.Outcome State Fault Refusal :=
  let h := s.host
  let s := { s with host := { h with msixMask := h.msixMask.put false vec false } }
  if 2048 ≤ vec then .next { s with host := h }
  else if h.msixPend.get false vec && h.port == .up
  then .next { s with host := { s.host with msixPend := s.host.msixPend.put false vec false, sent := s.host.sent ++ [vec] } }
  else .next s

end Sys2Proof.Machine
end

