-- ==== Sys2Proof/Machine/Save.lean ====
section
/-! DEFINITION. Saving and restoring the cores of a context (R40, R41, R324 to R327, R369, R370, R389, R390): the core
records, and the events CORE_SAVE, CORE_RESTORE and HANDOVER_COMPLETE. -/

namespace Sys2Proof.Machine

-- Core records (R52, R53, R327).

/-- A part of an image: its bytes, and the registers or the home whose data they are; poison travels with the data (R387). -/
structure ImagePart where
  bytes : List Byte
  regs : List (EccPlace × Nat × Nat) := []
  home : Option Nat := none
  deriving DecidableEq, Repr

/-- The bytes of an image. -/
def imageBytes (l : List ImagePart) : List Byte := l.flatMap (·.bytes)

/-- Bytes that are no storage's. -/
def plainPart (b : List Byte) : List ImagePart := [{ bytes := b }]

/-- Fills an image with zeros to a multiple of 64 bytes. -/
def pad64 (l : List ImagePart) : List ImagePart := l ++ plainPart (List.replicate ((64 - (imageBytes l).length % 64) % 64) 0)

/-- The state number and the awaited object of a thread's wait word (R52, R189, R191, R272, R279). -/
def Thread.waitCode (t : Thread) : Nat × Nat :=
  if t.wait == .exited then (6, 0)
  else if t.atBar then (1, t.barWait.getD (t.held.headD 0))
  else
    match t.wait with
    | .ring fill h _ => (2, b2n fill * 2 ^ 15 + h % 2 ^ 21 / 128)
    | .push o _ _ => (3, 2 ^ 15 + o)
    | .pop _ _ => (3, 0)
    | .task q _ => (4, q)
    | .asleep n => (5, n)
    | _ => (0, 0)

/-- The team-barrier arrivals of a thread (R52). -/
def Thread.arrivals (t : Thread) (m : Team) : Nat :=
  (upto 0 16).foldl (fun a b => a + 2 ^ b * b2n (decide ((m.bars.get {} b).released < t.phases.get 0 (16 + b)))) 0

/-- The image of `n` numbered storages of a unit. -/
def regParts (p : EccPlace) (unit n : Nat) (bytes : Nat → List Byte) : List ImagePart :=
  (upto 0 n).map fun i => { bytes := bytes i, regs := [(p, unit, i)] }

/-- A thread image (R52). -/
def State.threadImage (s : State) (k : Nat) (t : Thread) : List ImagePart :=
  pad64 (plainPart (leBytes 8 t.pc.toNat ++ leBytes 4 (t.waitCode.1 * 2 ^ 28 + t.waitCode.2) ++ leBytes 4 t.csp ++ leBytes 2 t.age
      ++ leBytes 1 t.pos ++ leBytes 1 (t.winb / 16))
    ++ [{ bytes := leBytes 2 (t.preds.toNat % 2 ^ 15 + 2 ^ 15), regs := (upto 0 15).map fun i => (.pred, k, i) }]
    ++ plainPart (leBytes 2 (t.arrivals (s.team t.team)) ++ leBytes 4 t.fpcsr.toNat ++ leBytes 4 t.chk.toNat)
    ++ regParts .temp k 6 (fun n => leBytes 4 (t.tm.get 0 n).toNat) ++ plainPart (leBytes 8 0)
    ++ regParts .rsv k 8 (fun n => leBytes 16 (t.rsv.get 0 n).toNat) ++ regParts .ptr k 32 (fun n => leBytes 8 (t.ptr.get 0 n).toNat)
    ++ regParts .vreg k t.alloc (fun n => leBytes 4 (t.v.get 0 n).toNat)
    ++ [{ bytes := s.readHomes (homeLane t.uid 0) t.laneSz, home := some (homeLane t.uid 0) }])

/-- A group image (R53). -/
def Group.image (k : Nat) (g : Group) : List ImagePart :=
  regParts .ureg k 64 (fun n => leBytes 4 (g.w.get 0 n).toNat)
    ++ regParts .gfield k 32 (fun n => let f := g.g.get {} n
        leBytes 8 f.base.toNat ++ leBytes 8 (f.limit.toNat + f.perm.toNat * 2 ^ 40 + f.kind.toNat * 2 ^ 44))
    ++ plainPart ((upto 0 16).flatMap fun n => let b := g.bars.get {} n
        leBytes 8 b.arrived.toNat ++ leBytes 4 b.released ++ leBytes 4 0)
    ++ regParts .tile k (1024 * g.tiles) (fun n => leBytes 2 (g.tile.get 0 n).toNat)

/-- The bytes of sr.lutv for a latch (R174). -/
def Latch.bytes (l : Latch) : List Byte :=
  if l.latched then leBytes 4 (2 + b2n l.bank) ++ leBytes 4 l.version.toNat else leBytes 8 0

/-- A group tag (R327). Its byte 0x08 holds .regs divided by 16, as the launch descriptor does: .regs goes up to 256 and the field has one
byte (DEDUCED, log entry 136). -/
def groupTag (k : Nat) (g : Group) (t : Thread) (entry : Nat) : List Byte :=
  leBytes 2 entry ++ leBytes 2 g.gidx ++ leBytes 1 (slotOfThread k) ++ leBytes 1 (layerOfThread k) ++ leBytes 1 (k % 64) ++ leBytes 1 g.width
    ++ leBytes 1 (t.alloc / 16) ++ leBytes 1 g.tiles ++ leBytes 2 (t.laneSz / 64) ++ leBytes 4 0
    ++ (upto 0 4).flatMap (fun i => (g.latch.get {} i).bytes) ++ leBytes 16 0

/-- The group section: each group's tag, its image and its threads' images. -/
def State.groupSection (s : State) (v : SavedCore) : List ImagePart :=
  v.groups.flatMap fun e =>
    let mine := v.threads.filter fun x => x.2.grp == e.1
    plainPart (groupTag e.1 e.2 ((mine.map (·.2)).headD {}) (indexIn e.2.team v.teams)) ++ pad64 (e.2.image e.1)
      ++ mine.flatMap fun x => s.threadImage x.1 x.2

/-- Team-local bytes that a team holds on a core. -/
def Team.localOn (t : Team) : Nat := if t.cores.isEmpty then 0 else t.localSz / t.cores.length

/-- A team entry (R327). -/
def State.teamEntry (s : State) (c m : Nat) : List Byte :=
  let t := s.team m
  let place := indexIn c t.cores
  leBytes 8 t.grid ++ leBytes 2 t.x ++ leBytes 2 t.y ++ leBytes 2 t.z ++ leBytes 1 (s.grid t.grid).desc.shape ++ leBytes 1 (t.tag.getD 0xFF)
    ++ leBytes 1 place ++ leBytes 3 0 ++ leBytes 4 t.localOn ++ leBytes 40 0
    ++ (if place = 0 then (upto 0 16).flatMap (fun b => let x := t.bars.get {} b
          leBytes 4 x.count ++ leBytes 4 0 ++ leBytes 4 x.released ++ leBytes 4 0) else leBytes 256 0)

/-- The tables whose version is not zero, ascending. -/
def SavedCore.tableIds (v : SavedCore) : List Nat := (upto 0 4).filter fun t => (v.tables.get {} t).version != 0

/-- A table state (R327). -/
def SavedCore.tableState (v : SavedCore) (t : Nat) : List Byte :=
  let x := v.tables.get {} t
  let w := firstThat (fun (l : TableLoad) => l.t == t) v.loads
  leBytes 4 x.version.toNat ++ leBytes 1 (b2n x.active) ++ leBytes 1 (b2n w.isSome)
    ++ leBytes 2 (match w with | some l => indexIn l.grp (v.groups.map (·.1)) | none => 0)
    ++ leBytes 8 (match w with | some l => l.ptr.toNat | none => 0) ++ tabBytes x.bank0 0 3088 ++ tabBytes x.bank1 0 3088

/-- Copy commands that wait for a slot on a core: their ring's offset and their entry. -/
def State.heldCopies (s : State) (c : Nat) (v : SavedCore) : List (Nat × List Byte) :=
  (s.core c).rings.flatMap fun r =>
    if v.teams.contains r.team then (r.cmds.filter fun x => !x.issued).map fun x => (r.off, x.entry) else []

/-- Team-local bytes of a core: its granules in ascending order (R86). -/
def State.localSection (s : State) (c m : Nat) : List ImagePart :=
  let t := s.team m
  let k := t.cores.length
  (upto 0 (t.localOn / 2 ^ 15)).map fun i =>
    let h := homeTeam m ((k * i + indexIn c t.cores) * 2 ^ 15)
    { bytes := s.readHomes h (2 ^ 15), home := some h }

/-- The sections of a core record after its head. -/
def State.recordBody (s : State) (c : Nat) (v : SavedCore) : List ImagePart :=
  pad64 (plainPart (v.teams.flatMap (s.teamEntry c))) ++ pad64 (plainPart (v.tableIds.flatMap v.tableState))
    ++ pad64 (plainPart ((s.heldCopies c v).flatMap fun h => h.2 ++ leBytes 4 h.1 ++ leBytes 12 0))
    ++ s.groupSection v ++ v.teams.flatMap (s.localSection c)

/-- A core record (R327). -/
def State.coreRecord (s : State) (c : Nat) (v : SavedCore) : List ImagePart :=
  let body := s.recordBody c v
  plainPart (leBytes 4 (stopOfCore c) ++ leBytes 2 v.teams.length ++ leBytes 2 v.groups.length ++ leBytes 4 v.threads.length
    ++ leBytes 4 (64 + (imageBytes body).length) ++ leBytes 4 ((v.tableIds.map (2 ^ ·)).sum) ++ leBytes 4 (s.heldCopies c v).length
    ++ leBytes 40 0) ++ body

-- What a core holds of its context.

/-- Whether a poisoned register is one of a thread or group of a core. -/
def regOnCore (c : Nat) (p : EccPlace × Nat × Nat) : Bool :=
  regKinds.contains p.1 && !isCmd p.2.1 && coreOfThread p.2.1 == c

/-- The groups and threads of a core. -/
def State.groupsOn (s : State) (c : Nat) : List (Nat × Group) := s.groups.filter fun e => !isCmd e.1 && coreOfThread e.1 == c
def State.threadsOn (s : State) (c : Nat) : List (Nat × Thread) := s.threads.filter fun e => !isCmd e.1 && coreOfThread e.1 == c

/-- Everything of a core that a save keeps (R40): a team whose threads have all exited holds nothing of the core (R24). -/
def State.gather (s : State) (c : Nat) : SavedCore :=
  let k := s.core c
  let ids := k.loads.flatMap (·.pend)
  { teams := (s.teams.filter fun e =>
      e.2.live && e.2.phase != .finished && e.2.ctx == k.ctx && e.2.cores.contains c && !(e.2.away.contains c)).map (·.1)
    groups := s.groupsOn c, threads := s.threadsOn c, pend := s.pend.filter fun p => ids.contains p.id
    tables := k.tables, loads := k.loads, askers := (s.die (dieOfCore c)).askers.filter fun a => coreOfThread a.grp == c
    resume := (upto (4 * c) 4).flatMap fun i => (s.slot i).resume.map fun r => (i, r)
    poison := s.poisonReg.filter (regOnCore c) }

/-- Cores of a die that a context's save still waits for, ascending. -/
def State.savingCores (s : State) (ctx d : Nat) : List Nat :=
  (upto (96 * d) 96).filter fun c => (s.core c).saving && (s.core c).ctx == ctx

/-- The saved cores of a context on a die, ascending. -/
def State.savedCores (s : State) (ctx d : Nat) : List (Nat × SavedCore) :=
  (s.cx ctx).saved.filterMap fun e => if dieOfCore e.1 == d then e.2.map fun v => (e.1, v) else none

/-- Bytes of core records a save of a context on a die would write: saved cores, and cores that hold it (R389). -/
def State.saveLength (s : State) (ctx d : Nat) : Nat :=
  let done := s.savedCores ctx d
  let live := (upto (96 * d) 96).filter fun c => (s.core c).ctx == ctx && !(done.any fun e => e.1 == c)
  (done.map fun e => (imageBytes (s.coreRecord e.1 e.2)).length).sum + (live.map fun c => (imageBytes (s.coreRecord c (s.gather c))).length).sum

/-- Whether the records of a context on a die fit their quarter of the save area (R326, R389). -/
def State.saveFits (s : State) (ctx d : Nat) : Bool :=
  let n := s.saveLength ctx d
  n == 0 || decide (64 + n ≤ (s.cx ctx).saveS.toNat / 4)

-- CORE_SAVE.

/-- An issue set chosen but not begun is dropped; one that resumes after a fault goes back to where it was (R40, R42). -/
def Slot.dropChosen (x : Slot) : Slot :=
  match x.phase with
  | .chosen pc pos ks [] => { x with phase := .idle, resume := (pc, pos, ks) :: x.resume }
  | .chosen _ _ _ _ => { x with phase := .idle }
  | _ => x

/-- Whether a ring has announced entries that its engine accepts now (R193): behind no waiting command, of a team that is there. -/
def State.ringAhead (s : State) (c : Nat) (r : CopyRing) : Bool :=
  !(r.cmds.any fun x => !x.issued) && (s.team r.team).phase == .resident && !((s.team r.team).away.contains c)
    && s.blockNat r.home 0x14 4 % 256 == 0 && s.blockNat r.home 4 4 != r.limit

/-- Whether everything of a core's context has come to rest: runs, results, copies, loads, syncs, teams (R324). -/
def State.atRest (s : State) (c : Nat) : Bool :=
  let k := s.core c
  let ids := k.loads.flatMap (·.pend)
  ((upto (4 * c) 4).all fun i => match (s.slot i).phase with | .running _ => false | _ => true)
    && !(s.pend.any fun p => !isCmd p.th && coreOfThread p.th == c && !(ids.contains p.id))
    && !(k.loads.any (·.begun)) && k.pubs.isEmpty && !(k.rings.any fun r => r.cmds.any (·.issued) || s.ringAhead c r)
    && !((s.threadsOn c).any fun e => e.2.syncing)
    && !(s.teams.any fun e => e.2.live && e.2.cores.contains c && (e.2.phase == .handover || e.2.phase == .finishing))

/-- Takes a core's part of its context out of the machine. -/
def State.takeOut (s : State) (c : Nat) : State :=
  let v := s.gather c
  let k := s.core c
  let ctx := k.ctx
  let uids := v.threads.map (·.2.uid)
  let here := fun (w : Nat) => if w < 2 ^ 128 then coreOfThread w == c else w / 2 ^ 128 == c + 1
  let s := s.updCx ctx fun x => { x with saved := x.saved.put none c (some v) }
  let s := v.teams.foldl (fun s m => s.updTeam m fun t =>
    { t with away := t.away ++ [c], localGran := t.localGran.filter fun g => g / 16 != c, tapeGran := t.tapeGran.filter fun g => g / 16 != c }) s
  let s := s.updDie (dieOfCore c) fun x => { x with askers := x.askers.filter fun a => coreOfThread a.grp != c }
  let s := (upto (4 * c) 4).foldl (fun s i => s.updSlot i fun x => { x with resume := [] }) s
  let s := s.setCore c { k with ctx := 0, saving := false, gran := [], loads := [], drains := k.drains.filter fun d => !(uids.contains d.uid) }
  { s with
    groups := s.groups.keep fun g => isCmd g || coreOfThread g != c
    threads := s.threads.keep fun t => isCmd t || coreOfThread t != c
    pend := s.pend.filter fun p => !(v.pend.any fun q => q.id == p.id)
    poisonReg := s.poisonReg.filter fun p => !regOnCore c p
    waiters := s.waiters.filter fun w => !here w }

/-- A core saves: its bin updates, the implicit tape sync, its publication, its record (R324, R259, R99). -/
def State.saveCore (s : State) (c : Nat) : State :=
  let s := s.flushBins fun u => coreOfThread u.th == c
  let s := (s.threadsOn c).foldl (fun s e => s.tapeSync e.1 false) s
  ((s.publish c).takeOut c).pokeRestores (dieOfCore c)

/-- A core whose restoration had begun gives it up; its record is still there. -/
def State.unrestore (s : State) (c : Nat) : State :=
  let k := s.core c
  let s := s.setCore c { k with ctx := 0, saving := false, restoring := false, reserved := none, gran := [] }
  { s with teams := s.teams.map fun e => (e.1, { e.2 with localGran := e.2.localGran.filter fun g => !(g / 16 == c && e.2.away.contains c)
                                                          tapeGran := e.2.tapeGran.filter fun g => !(g / 16 == c && e.2.away.contains c) }) }

/-- The agent that writes and reads a die's quarter of the save area. -/
def saveAgent (ctx d : Nat) : Agent := { unit := threadKey (96 * d) 0 0 0, ctx := ctx }

/-- The quarter of a die (R326): its base. -/
def State.quarterBase (s : State) (ctx d : Nat) : Nat := (s.cx ctx).saveB.toNat + d * ((s.cx ctx).saveS.toNat / 4)

/-- The core records of a quarter. -/
def State.quarterRecords (s : State) (ctx d : Nat) : List ImagePart := (s.savedCores ctx d).flatMap fun e => s.coreRecord e.1 e.2

/-- A quarter: its header and its core records (R326). -/
def State.quarterImage (s : State) (ctx d : Nat) : List ImagePart :=
  let body := s.quarterRecords ctx d
  plainPart (leBytes 4 (s.savedCores ctx d).length ++ leBytes 4 0 ++ leBytes 8 (imageBytes body).length ++ leBytes 8 s.hbt ++ leBytes 40 0) ++ body

/-- The bytes of an image whose registers or homes are poisoned, among `marks` of registers: their offsets, from an offset on. -/
def State.partsBad (s : State) (marks : List (EccPlace × Nat × Nat)) : Nat → List ImagePart → List Nat
  | _, [] => []
  | o, p :: r =>
    let bad := if p.regs.any marks.contains then upto o p.bytes.length
      else match p.home with
        | some h => (upto 0 p.bytes.length).filterMap fun i => if s.isPoisoned (h + i) 1 then some (o + i) else none
        | none => []
    bad ++ s.partsBad marks (o + p.bytes.length) r

/-- What the poisoned bytes of an image belong to: the registers, and the homes; `bad` is the marks of its bytes. -/
def badParts : List Bool → List ImagePart → List (EccPlace × Nat × Nat) × List Nat
  | _, [] => ([], [])
  | bad, p :: r =>
    let mine := bad.take p.bytes.length
    let (rs, hs) := badParts (bad.drop p.bytes.length) r
    (if mine.contains true then p.regs ++ rs else rs,
     match p.home with
     | some h => (mine.mapIdx fun i b => if b then [h + i] else []).flatten ++ hs
     | none => hs)

/-- The save of a context on a die is complete: its quarter, with the poison of what it saves (R387), and the digest of it (R326,
R390). -/
def State.closeSave (s : State) (ctx d : Nat) : State :=
  let img := s.quarterImage ctx d
  let q := imageBytes img
  let room := decide (q.length ≤ (s.cx ctx).saveS.toNat / 4)
  let bad := s.partsBad ((s.savedCores ctx d).flatMap fun e => e.2.poison) 0 img
  let s := if room then s.engineWriteBad (saveAgent ctx d) (s.quarterBase ctx d) q bad else s
  let dig := (sha3Nat (if room then q else []), if room then q.length else 0)
  s.updCx ctx fun x => { x with dies := x.dies.put .running d .saved, digests := x.digests.put (0, 0) d dig }

/-- Asks for the request that waits for a save to be looked at again. -/
def State.pokeHost (s : State) : State :=
  if s.host.waiting.isNone then s
  else match commandOf (s.reqNat 0 1) (s.reqNat 4 1) with
    | some e => s.poll (s.clk + 1) e
    | none => s

/-- Completes the saves of a die that no core holds up any more. -/
def State.closeSaves (s : State) (d : Nat) : State :=
  let due := (s.ctxs.filter fun e => e.2.dies.get .running d == .saving && (s.savingCores e.1 d).isEmpty).map (·.1)
  let s := due.foldl (fun s x => s.closeSave x d) s
  if due.isEmpty then s else (s.pokeHost.pokePlace d).pokePipes d

/-- A core of a context that is to be saved: the whole die stays stopped in place when the records do not fit and none is
saved yet (R389). -/
def State.trySave (s : State) (c : Nat) : State :=
  let ctx := (s.core c).ctx
  let d := dieOfCore c
  let s := (upto (4 * c) 4).foldl (fun s i => s.updSlot i Slot.dropChosen) s
  if (s.core c).restoring then (s.unrestore c).closeSaves d
  else if (s.savedCores ctx d).isEmpty && !s.saveFits ctx d then
    (s.updCx ctx fun x => { x with dies := x.dies.put .running d .stoppedInPlace }).pokeHost
  else if s.atRest c then (s.saveCore c).closeSaves d
  else s.poll (s.clk + 1) (.coreSave c)

/-- CORE_SAVE (R324). -/
def execCoreSave (core : Nat) (s : State) : Host.Outcome State Fault Refusal :=
  if !(s.core core).saving then .next (s.closeSaves (dieOfCore core))
  else if (s.cx (s.core core).ctx).dies.get .running (dieOfCore core) != .saving then .next s
  else .next (s.trySave core)

-- CORE_RESTORE.

/-- The threads of a core go on: waits that have become satisfied end, deliverable faults raised during the save are
delivered, and stopped threads resume (R41, R42, R370). -/
def State.deliverDue (s : State) (k : Nat) : State :=
  match (s.thr k).due with
  | none => s
  | some r =>
    let ks := (s.stoppedBy r.id).filter fun x => (s.thr x).due.isSome
    let s := ks.foldl (fun s x => s.updThr x fun t => { t with due := none }) s
    match s.trapTable k with
    | some t =>
      let r := (firstThat (fun (x : Record) => x.id == r.id) s.log).getD r
      if ks.all fun x => s.slotWritable t x && !s.slotActive t x then
        ks.foldl (fun s x => s.deliverTo t r (s.thr x).pc (s.thr x).pos x) s
      else s
    | none => s

/-- A thread's waits and events after a restoration. -/
def State.rewait (s : State) (k : Nat) : State :=
  let t := s.thr k
  let s := (dedup t.held).foldl (fun s b => (s.countHeld k b).checkBarrier (s.barOwner k) b) s
  let s := s.tryWait k
  let s := match t.fence with | some h => s.scheduleAt (Nat.max s.clk (64 * h)) (.fencescComplete k) | none => s
  match t.wait with
  | .asleep 0 => s.poll s.clk (.sleepWake k)
  | _ => s

/-- Lets the threads of a core run again. -/
def State.goOn (s : State) (c : Nat) : State :=
  let ks := (s.threadsOn c).map (·.1)
  let s := ks.foldl State.rewait s
  let s := ks.foldl State.deliverDue s
  let fids := dedup ((s.threadsOn c).flatMap fun e => e.2.fids)
  let s := fids.foldl State.rejoin s
  let s := (s.core c).rings.foldl (fun s r => s.poll (s.clk + 1) (.copyCmdIssue c r.key)) s
  let s := (s.core c).loads.foldl (fun s l => s.poll (s.clk + 1) (.lutldLoadBegin c l.t)) s
  ((s.runRings.runStrands).serveLater (dieOfCore c)).pokePlace (dieOfCore c)

/-- Inserts a request in the order of the requests' numbers. -/
def insertAsker (a : Asker) : List Asker → List Asker
  | [] => [a]
  | b :: r => if a.id < b.id then a :: b :: r else b :: insertAsker a r

/-- Inserts a waiter in the order of arrival. -/
def State.insertWaiter (s : State) (k : Nat) : List Nat → List Nat
  | [] => [k]
  | j :: r => if (s.thr k).arr < (s.thr j).arr then k :: j :: r else j :: s.insertWaiter k r

/-- Whether a thread waits at a ring or a strand. -/
def Thread.isWaiter (t : Thread) : Bool := match t.wait with | .ring _ _ _ => true | .push _ _ _ => true | .pop _ _ => true | _ => false

/-- Puts a saved core's part of its context back. -/
def State.putBack (s : State) (c : Nat) (v : SavedCore) : State :=
  let s := { s with
    groups := v.groups.foldl (fun (t : Tab Group) (e : Nat × Group) => t.put {} e.1 e.2) s.groups
    threads := v.threads.foldl (fun (t : Tab Thread) (e : Nat × Thread) => t.put {} e.1 e.2) s.threads
    pend := s.pend ++ v.pend, poisonReg := s.poisonReg ++ v.poison }
  let s := v.teams.foldl (fun s m => if (s.team m).live then s.updTeam m fun t => { t with away := t.away.filter (· != c) } else s) s
  let s := s.updDie (dieOfCore c) fun x => { x with askers := v.askers.foldl (fun l a => insertAsker a l) x.askers }
  let s := v.resume.foldl (fun s e => s.updSlot e.1 fun x => { x with resume := x.resume ++ [e.2] }) s
  let s := s.updCore c fun k => { k with tables := v.tables, loads := v.loads, restoring := false, reserved := none }
  (v.threads.filter fun e => e.2.isWaiter).foldl (fun s e => { s with waiters := s.insertWaiter e.1 s.waiters }) s

/-- The restoration of a core ends: the record is discarded, and its threads go on (R325). A core to which no team comes back holds no
context (R26). -/
def State.endRestore (s : State) (c : Nat) : State :=
  let ctx := (s.core c).ctx
  match (s.cx ctx).saved.get none c with
  | none => (s.updCore c fun k => { k with restoring := false, reserved := none }).coreIdle c
  | some v => (((s.updCx ctx fun x => { x with saved := x.saved.del c }).putBack c v).goOn c).coreIdle c

/-- Whether any granule of a core is in Handover. -/
def Core.handingOver (k : Core) : Bool := k.gran.any fun e => match e.2 with | .handover _ => true | _ => false

/-- Whether a saved team takes its place again: one that has finished meanwhile on its other cores holds nothing (R24). -/
def Team.comesBack (t : Team) : Bool := t.live && t.phase != .finished

/-- Claims the granules of a saved team on a core again. -/
def State.reclaim (s : State) (c m : Nat) : State :=
  let t := s.team m
  if !t.comesBack then s
  else
    let d := (s.grid t.grid).desc
    let (lg, s) := s.claimGranules m c d.localPer
    let (tg, s) := s.claimGranules m c d.tape
    s.updTeam m fun t => { t with localGran := t.localGran ++ lg, tapeGran := t.tapeGran ++ tg }

/-- Granules the saved teams of a core need. -/
def State.granNeed (s : State) (v : SavedCore) : Nat :=
  (v.teams.map fun m => let t := s.team m; if t.comesBack then (s.grid t.grid).desc.localPer + (s.grid t.grid).desc.tape else 0).sum

/-- A reserved core takes its saved teams back (R325, R41). -/
def State.beginRestore (s : State) (ctx c : Nat) (v : SavedCore) : State :=
  let s := (s.ownCore ctx c).updCore c fun k => { k with restoring := true }
  let s := v.teams.foldl (fun s m => s.reclaim c m) s
  if (s.core c).handingOver then s else s.endRestore c

/-- CORE_RESTORE (R325): once the RESUME has taken effect on its die, the core holds no other context's team, and no more than 64 contexts would execute on its die (R323). -/
def execCoreRestore (core : Nat) (s : State) : Host.Outcome State Fault Refusal :=
  let k := s.core core
  match k.reserved with
  | none => .next s
  | some ctx =>
    let room := (s.ctxsOn (dieOfCore core)).contains ctx || decide ((s.ctxsOn (dieOfCore core)).length < 64)
    let resumed := (s.cx ctx).dies.get .running (dieOfCore core) == .running
    if (k.ctx != 0 && k.ctx != ctx) || k.saving || k.restoring || !room || !resumed then .next s
    else
      match (s.cx ctx).saved.get none core with
      | none => .next (s.updCore core fun k => { k with reserved := none })
      | some v =>
        if k.freeGranules.length < s.granNeed v then .next s else .next (s.beginRestore ctx core v)

-- HANDOVER_COMPLETE.

/-- The handover of a granule invalidates the core's lines that lie in it; which ones those are is not stated, so each
line's choice is free, and no more stay than the granules left have room for (R85). -/
def State.dropClean (s : State) (c : Nat) : State :=
  let (f, s) := s.takeFree
  s.updCore c fun k => Core.fitL1 { k with l1 := if k.l1Granules = 0 then [] else k.l1.filter fun e => Config.coin ((4 * f + 3) * 2 ^ 200 + e.1) } (f * 2 ^ 60 + 6)

/-- A team in Handover is resident once every granule it claimed is Held (R85). -/
def State.checkHeld (s : State) (m : Nat) : State :=
  let t := s.team m
  let held := (t.localGran ++ t.tapeGran).all fun g => (s.core (g / 16)).gran.get .l1 (g % 16) == .held m
  if t.live && t.phase == .handover && held then (s.makeResident m).ringsMoved else s

/-- HANDOVER_COMPLETE (R85): the core's pending stores are home, its lines in the granule are gone, and the granule is
Held. -/
def execHandoverComplete (core gran : Nat) (s : State) : Host.Outcome State Fault Refusal :=
  match (s.core core).gran.get .l1 gran with
  | .handover m =>
    let s := (s.finishPublications core).dropClean core
    let s := s.updCore core fun k => { k with gran := k.gran.put .l1 gran (.held m) }
    if (s.core core).restoring then
      (if (s.core core).handingOver || (s.core core).saving then .next s else .next (s.endRestore core))
    else .next (s.checkHeld m)
  | _ => .next s

end Sys2Proof.Machine
end

