-- ==== Sys2Proof/Machine/Torc.lean ====
section
/-! DEFINITION. The Torc collective engine (R295 to R303, R384, R415 to R419) and the events that concern it. -/

namespace Sys2Proof.Machine

-- Blocks in memory (R296).

/-- The home of a block. -/
def blockHome (d off : Nat) : Nat := homeShared d off

/-- A field of a block as it stands. -/
def State.torcNat (s : State) (d off at_ n : Nat) : Nat := s.blockNat (blockHome d off) at_ n

/-- The enabled blocks of a die's window, lowest first. -/
def State.enabledBlocks (s : State) (d : Nat) : List Nat :=
  let lo := homeShared d 0
  (s.mem.filter fun e => decide (lo ≤ e.1) && decide (e.1 < lo + s.sharedSize d) && (e.1 - lo) % 128 == 15 && e.2 == 0xA7).map
    fun e => e.1 - lo - 15

/-- The enabled block that holds a tag. -/
def State.blockOfTag (s : State) (d : Nat) (tag : Word) : Option Nat :=
  firstThat (fun off => s.torcNat d off 0x1C 4 == tag.toNat) (s.enabledBlocks d)

/-- What the engine reads of a block for a step. -/
structure CollRun where
  d : Nat
  b : TorcBlock
  s : Nat
  tag : Word
  n : Nat
  rank : Nat
  table : Nat
  prog : Nat
  deriving DecidableEq, Repr

/-- The running instance of a block. -/
def State.inst (s : State) (d : Nat) (b : TorcBlock) : CollRun :=
  let w := s.torcNat d b.off 0x18 4
  { d := d, b := b, s := b.done + 1, tag := BitVec.ofNat 32 (s.torcNat d b.off 0x1C 4), n := field w 0 11, rank := field w 16 10
    table := s.torcNat d b.off 0x10 8, prog := s.torcNat d b.off 0x20 8 }

/-- The sequence number of an instance. -/
def CollRun.seq (i : CollRun) : Word := BitVec.ofNat 32 i.s

/-- A loop counter of an instance. -/
def CollRun.loop (i : CollRun) (l : Nat) : Nat := i.b.loops.get 0 l

/-- The engine's agent for a context's instance. -/
def torcAgent (d ctx : Nat) : Agent := { unit := threadKey (96 * d) 0 0 0, ctx := ctx }

-- Steps (R299).

/-- A step. -/
structure TStep where
  code : Nat
  ty : Nat
  op : Nat
  pk : Nat
  pl : Nat
  loc : Bool
  wr : Bool
  k : Int
  ch : Nat
  w0 : Nat
  w1 : Nat
  x : Nat
  y : Nat
  deriving DecidableEq, Repr

/-- The step in 16 bytes. -/
def parseStep (b : List Byte) : TStep :=
  let w := fieldAt b 0 4
  { code := field w 0 4, ty := field w 4 2, op := field w 6 2, pk := field w 8 2, pl := field w 10 4, loc := bit w 14, wr := bit w 15
    k := sgn 11 (field w 16 11), ch := field w 27 5, w0 := w, w1 := fieldAt b 4 4, x := fieldAt b 8 4, y := fieldAt b 12 4 }

/-- Bytes of an element. -/
def TStep.elem (t : TStep) : Nat := if t.ty = 0 then 4 else if t.ty = 1 then 2 else if t.ty = 2 then 8 else 32

/-- The bits of W0 that a step uses. -/
def TStep.uses (t : TStep) : Nat :=
  let peer := 0xFFFF4300 + (if t.pk = 3 then 0x3C00 else 0)
  if t.code = 1 ∨ t.code = 2 then 0x3F + peer
  else if t.code = 3 then 0xFF + 0x8000 + peer
  else if t.code = 4 then 0x3F
  else if t.code = 5 then 0xFF + peer
  else if t.code = 7 ∨ t.code = 8 then 0x3C0F
  else 0xF

/-- Whether a step moves data. -/
def TStep.isData (t : TStep) : Bool := decide (1 ≤ t.code) && decide (t.code ≤ 5)
def TStep.usesX (t : TStep) : Bool := [1, 3, 4, 5].contains t.code
def TStep.usesY (t : TStep) : Bool := [2, 4, 5].contains t.code || (t.code == 3 && t.wr)

/-- Whether a step breaks the first row of R416. -/
def TStep.reservedBad (t : TStep) : Bool :=
  t.code == 0 || (decide (10 ≤ t.code) && decide (t.code ≤ 14)) || (([3, 5].contains t.code) && (t.op == 3 || (t.ty == 3 && t.op != 0)))
    || Nat.land t.w0 t.uses != t.w0
    || (if t.isData then t.w1 / 2 ^ 17 != 0 else if t.code = 6 then t.w1 / 2 ^ 12 != 0
        else if t.code = 7 then field t.w1 24 7 != 0 else if t.code = 9 then t.w1 / 2 ^ 13 != 0 else t.w1 != 0)
    || (if t.usesX then t.x / 2 ^ 25 != 0 else t.x != 0) || (if t.usesY then t.y / 2 ^ 25 != 0 else t.y != 0)

/-- Whether a step breaks the second row of R416. -/
def TStep.shapeBad (t : TStep) (b : TorcBlock) : Bool :=
  if t.isData then t.w1 == 0 || decide (65536 < t.w1) || t.w1 % t.elem != 0
  else if t.code = 7 then b.opens.any fun o => o.1 == t.pl
  else t.code == 8 && !(b.opens.any fun o => o.1 == t.pl)

/-- How an instance ends early. -/
structure TEnd where
  code : Nat
  cls : Nat := 1
  info : Nat := 0
  addr : Nat := 0
  deriving DecidableEq, Repr

/-- RESERVED_FIELD of a step. -/
def tReserved (info : Nat) : TEnd := { code := 0x02, info := info }

/-- A failing translation of the engine (R375). -/
def tAccess (f : AccFault) (wr : Bool) (va : Nat) : TEnd := { code := f.code, info := f.infoWord wr, addr := va }

/-- Reads bytes for the engine; which of them are poisoned stands beside them. -/
def State.torcRead (s : State) (i : CollRun) (va n : Nat) : Except TEnd (List (Byte × Bool)) :=
  match s.homeRead (torcAgent i.d i.b.ctx) va n with
  | .error f => .error (tAccess f false va)
  | .ok l => .ok l

/-- A step of the program, and whether a byte of it was poisoned. -/
def State.torcProg (s : State) (i : CollRun) (k : Nat) : Except TEnd (TStep × Bool) :=
  if 65535 < k then .error (tReserved 0xA1)
  else (s.torcRead i (i.prog + 16 * k) 16).map fun b => (parseStep (b.map (·.1)), b.any (·.2))

-- Peers and rank-table entries (R297, R300).

/-- The ranks that a step's expression counts, and the own number among them. -/
def TStep.space (t : TStep) (i : CollRun) : Nat × Nat := if t.loc then (4, i.d) else (i.n, i.rank)

/-- The peer, or the mirror peer; none when it lies outside the communicator. -/
def TStep.peer (t : TStep) (i : CollRun) (mirror : Bool) : Option Nat :=
  let (n, r) := t.space i
  let l : Int := (i.loop t.pl : Nat)
  let off : Int := if t.pk = 1 then t.k else t.k * l
  if t.pk = 1 ∨ t.pk = 3 then some (((r : Int) + (if mirror then -off else off)) % (n : Int)).toNat
  else if t.k < 0 then none
  else
    let p := if t.pk = 0 then t.k.toNat else Nat.xor r t.k.toNat
    if n ≤ p then none else some p

/-- Rank-table entry k. -/
def State.rankEntry (s : State) (i : CollRun) (k : Nat) : Except TEnd RankEntry :=
  (s.torcRead i (i.table + 8 * k) 8).map fun b =>
    let e := leNat (b.map (·.1))
    { reserved := e / 2 ^ 16, ports := field e 12 4, die := field e 10 2, acc := field e 0 10 }

/-- Whether rank-table entry k is poisoned. -/
def State.rankBad (s : State) (i : CollRun) (k : Nat) : Bool :=
  match s.torcRead i (i.table + 8 * k) 8 with | .ok b => b.any (·.2) | .error _ => false

/-- Whether a UALink port of a die is down. -/
def State.portDown (s : State) (d p : Nat) : Bool := s.host.ualDown.get false (4 * d + p)

/-- Whether an entry is one that the third row of R416 rejects. -/
def State.entryWrong (s : State) (d : Nat) (e : RankEntry) : Bool :=
  e.reserved != 0
    || (e.acc != s.part.accId && (e.ports == 0 || (upto 0 4).any fun p => bit e.ports p && s.portDown d p))

/-- The port a channel uses toward a remote rank (R297). -/
def RankEntry.port (e : RankEntry) (ch : Nat) : Nat :=
  let l := (upto 0 4).filter (bit e.ports)
  l.getD (ch % l.length) 0

/-- The place of a peer, with the checks of R416. -/
def State.target (s : State) (i : CollRun) (t : TStep) (mirror : Bool) : Except TEnd (Nat × Target) :=
  match t.peer i mirror with
  | none => .error (tReserved 0xA2)
  | some p =>
    if t.loc then .ok (p, .die p)
    else do
      let e ← s.rankEntry i p
      if s.entryWrong i.d e then .error (tReserved 0xA2)
      else .ok (p, if e.acc = s.part.accId then .die e.die else .remote e)

-- Operands.

/-- The address of an operand (R299). -/
def State.torcVa (s : State) (i : CollRun) (t : TStep) (w : Nat) : Nat :=
  let x := (((b2n (bit w 3) * i.rank : Nat) : Int) + sgn 6 (field w 8 6) * (i.loop (field w 4 4) : Int) + sgn 11 (field w 14 11)) % (i.n : Int)
  (s.torcNat i.d i.b.off (0x40 + 8 * (field w 0 3)) 8 + x.toNat * t.w1) % 2 ^ 64

/-- The source operand of a step. -/
def State.torcSource (s : State) (i : CollRun) (t : TStep) : Except TEnd Data :=
  (s.torcRead i (s.torcVa i t t.x) t.w1).map fun l =>
    { bytes := l.map (·.1), bad := (l.zip (upto 0 l.length)).filterMap fun e => if e.1.2 then some e.2 else none }

/-- Whether another step owns a line that a step reads (R107, R301); `mine` are the homes that the step itself owns. -/
def State.torcWaits (s : State) (i : CollRun) (t : TStep) (mine : List Nat) : Bool :=
  !s.torcHeld.isEmpty && t.usesX
    && match s.engineHomes (torcAgent i.d i.b.ctx) {} (parts (s.torcVa i t t.x) t.w1) with
      | .ok hs => s.torcOwns (hs.filter fun h => !((mine.map (· / 128)).contains (h / 128)))
      | .error _ => false

/-- The homes of the destination of a step. -/
def State.torcDest (s : State) (i : CollRun) (t : TStep) : Except TEnd (List Nat) :=
  let va := s.torcVa i t t.y
  match s.engineHomes (torcAgent i.d i.b.ctx) { w := true } (parts va t.w1) with
  | .error f => .error (tAccess f true va)
  | .ok hs => .ok hs

/-- Logs a record of the engine for an instance (R415). -/
def State.torcLog (s : State) (i : CollRun) (e : TEnd) : State :=
  s.logEvent e.code e.cls i.b.ctx (torcStop i.d) 6 e.info i.b.step (BitVec.ofNat 64 e.addr)

/-- Logs a poisoned source (R388). -/
def State.torcPoison (s : State) (i : CollRun) (bad : List Nat) : State :=
  if bad.isEmpty then s else s.torcLog i { code := 0x1C, cls := 2 }

-- Combining (R301, R303, R384).

/-- Combines one element; the flag tells a bin that left its range. -/
def combineElem (ty op : Nat) (a b : List Byte) : List Byte × Bool :=
  if ty = 3 then
    let l := ((binsOf 4 a).zip (binsOf 4 b)).map fun e => e.1 + e.2
    (binBytes l, !binsFit l)
  else
    let f := if ty = 0 then f32 else if ty = 1 then b16 else f64
    let x := leNat a
    let y := leNat b
    (leBytes (f.width / 8) (if op = 0 then (fAdd f .rne (f.decode x) (f.decode y)).1 else (fMinMax f (op == 2) x y).1), false)

/-- Combines two strings of elements of a size; `n` bounds their number. -/
def combineAll (ty op sz : Nat) : Nat → List Byte → List Byte → List Byte × Bool
  | 0, _, _ => ([], false)
  | n + 1, a, b =>
    let (h, o) := combineElem ty op (a.take sz) (b.take sz)
    let (r, p) := combineAll ty op sz n (a.drop sz) (b.drop sz)
    (h ++ r, o || p)

/-- The element that a byte offset lies in, as the offsets of its bytes. -/
def spreadBad (sz : Nat) (l : List Nat) : List Nat := (dedup (l.map (· / sz))).flatMap fun e => upto (sz * e) sz

/-- A step's combination of local and received data. -/
def TStep.combine (t : TStep) (a b : Data) : Data × Bool :=
  let (r, o) := combineAll t.ty t.op t.elem (t.w1 / t.elem) a.bytes b.bytes
  ({ bytes := r, bad := spreadBad t.elem (a.bad ++ b.bad) }, o)

-- Chunks (R302).

/-- Ticks after which a spill write or refetch that has not completed fails (R419). -/
def poolTicks : Nat := 2 ^ 20

/-- Whether two chunks belong to one stream. -/
def Chunk.same (a b : Chunk) : Bool := a.tag == b.tag && a.seq == b.seq && a.src == b.src && a.ch == b.ch && a.loc == b.loc

/-- Whether a chunk is in a slot. -/
def Chunk.inSlot (c : Chunk) : Bool := c.place == .slot

/-- The spill place of a chunk. -/
def Chunk.spillAt (c : Chunk) : Option Nat := match c.place with | .spilled i => some i | _ => none

/-- Whether a number is at or below DONE, both modulo 2^32. -/
def atOrBelow (a done : Nat) : Bool := decide ((done + 2 ^ 32 - a) % 2 ^ 32 < 2 ^ 31)

/-- The free place of a block's spill area, if it has one (R296). -/
def State.spillPlace (s : State) (d off : Nat) (tag : Word) : Option Nat :=
  let used := (s.die d).torc.chunks.filterMap fun c => if c.tag == tag then c.spillAt else none
  firstThat (fun i => !(used.contains i)) (upto 0 (s.torcNat d off 0x30 4 / 2 ^ 16))

/-- Whether the pool answers for some homes: its port is up, and those of the pool range lie in what POOLCFG maps (R338, R419). -/
def State.poolAnswers (s : State) (hs : List Nat) : Bool :=
  s.host.poolUp && s.host.poolOn && hs.all fun h => !(s.part.rangeOf h == .pool) || decide (h - 2 ^ 51 < s.host.poolSize.toNat)

/-- The address of a spill place. -/
def State.spillVa (s : State) (d off i : Nat) : Nat := s.torcNat d off 0x28 8 + 2 ^ 16 * i

/-- The context of a block: that of its latest start on the die; 0 before any. -/
def State.blockCtx (s : State) (d off : Nat) : Nat := (s.die d).torc.ctxs.get 0 off - 1

/-- The homes of a spill place, if the pool serves it to the block's context. -/
def State.spillHomes (s : State) (d off i n : Nat) (wr : Bool) : Option (List Nat) :=
  match s.engineHomes (torcAgent d (s.blockCtx d off)) { w := wr } (parts (s.spillVa d off i) n) with
  | .error _ => none
  | .ok hs => if s.poolAnswers hs then some hs else none

/-- Writes data at homes, with the poison of its source (R388); a home in `late` has taken a later write of another agent, which stands
(R108). -/
def State.torcWrite (s : State) (late hs : List Nat) (x : Data) : State :=
  let s := s.engineWrites ((hs.zip x.bytes).filter fun e => !late.contains e.1)
  ((x.bad.map fun o => hs.getD o 0).filter fun h => !late.contains h).foldl (fun s h => s.markPoison h 1) s

/-- Adds a chunk behind the ones that have arrived. -/
def State.addChunk (s : State) (d : Nat) (c : Chunk) : State := s.updTorc d fun t => { t with chunks := t.chunks ++ [c] }

/-- An instance will end, or ends, as a failure of the pool or an ABORT says. -/
def State.doom (s : State) (d off : Nat) (x : Doom) : State :=
  (s.updTorc d fun t => { t with dooms := t.dooms ++ [x] }).poll (s.clk + 1) (.torcStep d off)

/-- Chunk slots in use on a die: those of arrivals, and those of chunks that were combined and have still to be accepted (R295;
DEDUCED, log entry 141). -/
def Torc.slotsUsed (t : Torc) : Nat :=
  (t.chunks.filter Chunk.inSlot).length + (t.blocks.filter fun b => match b.cmd with | some c => c.slot | none => false).length

/-- Where an arriving chunk has room (R302, R419), among those that arrived before it: a free slot; once a chunk of its stream is spilled,
or no slot is free, a place of its block's spill area. A chunk behind one of its stream that is held back waits with it, and so does one of
a block that no instance has been started of, whose spill area no context maps (DESIGN CHOICE, log entry 140). -/
def State.roomFor (s : State) (d off : Nat) (before : List Chunk) (c : Chunk) : Option ChunkPlace :=
  let mine := before.filter (·.same c)
  if mine.any fun x => x.place == .waiting then none
  else if mine.all Chunk.inSlot && decide ((s.die d).torc.slotsUsed < 64) then some .slot
  else if s.blockCtx d off = 0 then none
  else (s.spillPlace d off c.tag).map .spilled

/-- A chunk of the running instance of a block was accepted (R417). -/
def State.acceptedAt (s : State) (d off : Nat) (c : Chunk) : State :=
  s.updBlock d off fun b => if BitVec.ofNat 32 (b.done + 1) = c.seq then { b with since := s.beats } else b

/-- Changes the place of a chunk that was held back. -/
def State.placeChunk (s : State) (d : Nat) (c : Chunk) (p : ChunkPlace) : State :=
  s.updTorc d fun t => { t with chunks := t.chunks.map fun x => if x.id = c.id then { x with place := p } else x }

/-- Asks the pool for a spill write or a refetch of a chunk (R419). Whether it completes in time is free: one that does is performed at
once, and one that does not is outstanding until POOL_TIMEOUT (DESIGN CHOICE, log entry 158). -/
def State.askPool (s : State) (d off : Nat) (c : Chunk) : Bool × State :=
  let done := s.coinFor (2 ^ 34)
  let (_, s) := s.takeFree
  if done then (true, s)
  else
    (false, (s.updTorc d fun t => { t with poolOps := t.poolOps ++ [{ id := c.id, off := off, tag := c.tag, seq := c.seq, since := s.beats }] }).poll
      (64 * (s.beats + poolTicks)) (.poolTimeout d off))

/-- The bytes of a chunk that is to be spilled go to the pool (R302); none where the pool refuses (R419). -/
def State.spillData (s : State) (d off : Nat) (c : Chunk) (p : ChunkPlace) : Option State :=
  match p with
  | .spilled i => (s.spillHomes d off i c.data.length true).map fun hs => ((s.torcWrite [] hs { bytes := c.data, bad := c.bad }).askPool d off c).2
  | _ => some s

/-- The block of a chunk; or the context and INFO of the record with which one that names no enabled block, or a finished instance, is
discarded (R418). -/
def State.strayChunk (s : State) (d : Nat) (c : Chunk) : Except (Nat × Nat) Nat :=
  match s.blockOfTag d c.tag with
  | none => .error (0, 2)
  | some off => if atOrBelow c.seq.toNat (s.torcNat d off 4 4) then .error (s.blockCtx d off, 3) else .ok off

/-- A chunk arrives at an engine (R302, R418, R419): it takes a slot or is spilled, and without room it is held back. One that names no
enabled block or a finished instance is discarded, and a write that the pool refuses ends the chunk's instance. -/
def State.takeChunk (s : State) (d : Nat) (c : Chunk) : State :=
  match s.strayChunk d c with
  | .error (ctx, info) => s.logEvent 0x1B 1 ctx (torcStop d) 6 info 0
  | .ok off =>
      match s.roomFor d off (s.die d).torc.chunks c with
      | none => s.addChunk d { c with place := .waiting }
      | some p =>
        match s.spillData d off c p with
        | none => s.doom d off { tag := c.tag, seq := c.seq, code := 0x1D, cls := 2, info := 1 }
        | some t => (t.acceptedAt d off c).addChunk d { c with place := p }

/-- One chunk that is held back, behind those of a list, takes the room it finds, or is discarded as an arrival is. -/
def State.serveChunk (s : State) (d : Nat) (before : List Chunk) (c : Chunk) : State :=
  match s.strayChunk d c with
  | .error (ctx, info) => (s.updTorc d fun t => { t with chunks := t.chunks.filter (· != c) }).logEvent 0x1B 1 ctx (torcStop d) 6 info 0
  | .ok off =>
    match s.roomFor d off before c with
    | none => s
    | some p =>
      match s.spillData d off c p with
      | none => (s.updTorc d fun t => { t with chunks := t.chunks.filter (· != c) }).doom d off { tag := c.tag, seq := c.seq, code := 0x1D, cls := 2, info := 1 }
      | some t => ((t.placeChunk d c p).acceptedAt d off c).poll (s.clk + 1) (.torcStep d off)

/-- The chunks held back take the room that there is, in arrival order (R295): those from number `i` on, `n` of them. -/
def State.serveWaiting (s : State) (d : Nat) : Nat → Nat → State
  | 0, _ => s
  | n + 1, i =>
    match (s.die d).torc.chunks[i]? with
    | none => s
    | some c =>
      if c.place == .waiting then
        let t := s.serveChunk d ((s.die d).torc.chunks.take i) c
        t.serveWaiting d n (if (t.die d).torc.chunks.length < (s.die d).torc.chunks.length then i else i + 1)
      else s.serveWaiting d n (i + 1)

/-- Slots or places become free. -/
def State.slotsFreed (s : State) (d : Nat) : State := s.serveWaiting d (s.die d).torc.chunks.length 0

/-- Removes the first chunk equal to one. -/
def dropChunk (c : Chunk) : List Chunk → List Chunk
  | [] => []
  | x :: r => if x = c then r else x :: dropChunk c r

/-- The next chunk of a stream, if it has arrived and the pool has it: its data, and the state without it. -/
def State.recv (s : State) (i : CollRun) (src ch : Nat) (loc : Bool) : Except TEnd (Option Data × State) :=
  let key : Chunk := { tag := i.tag, seq := i.seq, src := src, ch := ch, loc := loc, data := [] }
  let t := (s.die i.d).torc
  match firstThat (fun (c : Chunk) => c.same key && c.place != .waiting) t.chunks with
  | none => .ok (none, s)
  | some c =>
    let taken := fun (s : State) => (s.updTorc i.d fun t => { t with chunks := dropChunk c t.chunks }).slotsFreed i.d
    if t.poolOps.any fun o => o.id == c.id then .ok (none, s)
    else match c.spillAt with
    | none => .ok (some { bytes := c.data, bad := c.bad }, taken s)
    | some p =>
      match s.spillHomes i.d i.b.off p c.data.length false with
      | none => .error { code := 0x1D, cls := 2, info := 1 }
      | some hs =>
        let x : Data := { bytes := hs.map s.readHome, bad := (hs.mapIdx fun o h => if s.isPoisoned h 1 then [o] else []).flatten }
        let (done, s) := s.askPool i.d i.b.off c
        .ok (if done then (some x, taken s) else (none, s))

/-- Whether a chunk of a die of this package is still held back there. -/
def State.heldBack (s : State) (w : Nat × Nat) : Bool := (s.die w.1).torc.chunks.any fun c => c.place == .waiting && c.id == w.2

/-- Delivers a chunk to a peer: what is still to be accepted, if anything, and the state (R302). A die of this package holds back in its own
arrival order; when another package accepts is free. -/
def State.deliver (s : State) (i : CollRun) (t : TStep) (to_ : Target) (x : Data) : Option (Option (Nat × Nat)) × State :=
  let c : Chunk := { tag := i.tag, seq := i.seq, src := if t.loc then i.d else i.rank, ch := t.ch, loc := t.loc, data := x.bytes, bad := x.bad }
  match to_ with
  | .die d =>
    let (id, s) := s.newId
    let s := s.takeChunk d { c with id := id }
    let s := match s.blockOfTag d i.tag with | some off => s.poll (s.clk + 1) (.torcStep d off) | none => s
    (if s.heldBack (d, id) then some (some (d, id)) else none, s)
  | .remote e =>
    if s.coinFor (2 ^ 31) then (some none, s)
    else
      (none, s.updTorc i.d fun u =>
        { u with sent := u.sent ++ [{ port := e.port t.ch, acc := e.acc, die := e.die, tag := c.tag, seq := c.seq, src := c.src, ch := c.ch, data := c.data, bad := c.bad }] })

-- The lines that a data step owns (R107, R301).

/-- The step under way of a block changes. -/
def State.setTorcCmd (s : State) (i : CollRun) (c : Option TorcCmd) : State := s.updBlock i.d i.b.off fun b => { b with cmd := c }

/-- Takes the lines of a destination, or gives them back. -/
def State.ownLines (s : State) (hs : List Nat) (on : Bool) : State :=
  { s with torcHeld := (dedup (hs.map (· / 128))).foldl (fun t l => t.put false l on) s.torcHeld }

/-- Lines are free again, and what was written over them meanwhile is forgotten. -/
def State.giveUp (s : State) (hs : List Nat) : State :=
  let s := s.ownLines hs false
  { s with torcOver := s.torcOver.filter fun h => s.torcOwns [h] }

/-- The data step under way of a block is over; pushes that waited for its lines go on. -/
def State.dropTorcCmd (s : State) (i : CollRun) : State :=
  match (firstThat (fun (b : TorcBlock) => b.off == i.b.off) (s.die i.d).torc.blocks).bind (·.cmd) with
  | none => s
  | some c => ((s.giveUp (c.dest.getD [])).setTorcCmd i none).runStrands

-- The end of an instance (R301, R415).

/-- An instance ends with a status: DONE, the semaphore, and the next instance or block. -/
def State.endInstance (s : State) (i : CollRun) (status : Nat) : State :=
  let h := blockHome i.d i.b.off
  let cfg := s.torcNat i.d i.b.off 0x0C 4
  let s := s.dropTorcCmd i
  let s := s.updTorc i.d fun t =>
    { t with chunks := t.chunks.filter fun c => !(c.tag == i.tag && c.seq == i.seq && c.place != .waiting)
             dooms := t.dooms.filter fun x => !(x.tag == i.tag && x.seq == i.seq)
             poolOps := t.poolOps.filter fun x => !(x.tag == i.tag && x.seq == i.seq) }
  let s := (s.writeHomes (h + 8) (leBytes 4 status)).writeHomes (h + 4) (leBytes 4 i.s)
  let s := s.slotsFreed i.d
  let s := if bit cfg 23 then s.semWrite (cfg % 2 ^ 12) (s.semValue (cfg % 2 ^ 12) + 1) else s
  if i.s < i.b.started then (s.updBlock i.d i.b.off fun b => { b with done := i.s }).beginInstance i.d i.b.off
  else
    let s := s.updTorc i.d fun t => { t with blocks := t.blocks.filter fun b => b.off != i.b.off }
    s.activate i.d 64

/-- Sends ABORT(TAG, s) to every rank of the table (R417). -/
def State.sendAborts (s : State) (i : CollRun) : State :=
  (upto 0 i.n).foldl (fun s k =>
    if k = i.rank then s
    else
      match s.rankEntry i k with
      | .error _ => s
      | .ok e =>
        if e.acc = s.part.accId then s.later (.torcAbortReceive e.die i.tag i.seq i.rank)
        else
          s.updTorc i.d fun u =>
            { u with sent := u.sent ++ [{ port := e.port 0, acc := e.acc, die := e.die, tag := i.tag, seq := i.seq, src := i.rank, ch := 0, abort := true }] }) s

/-- A Torc fault ends its instance (R415); the loss of a member and of the pool is told to every rank. -/
def State.torcFault (s : State) (i : CollRun) (e : TEnd) : State :=
  let s := s.torcLog i e
  let s := if e.code = 0x1D then s.sendAborts i else s
  s.endInstance i e.code

/-- A rank declares the loss of a member (R417). -/
def State.memberLost (s : State) (i : CollRun) (who : Nat) : State :=
  ((s.torcLog i { code := 0x1A, info := who }).sendAborts i).endInstance i 0x1A

-- Performing a step (R301).

/-- The engine goes on with a block after a free latency. -/
def State.torcLater (s : State) (d off : Nat) : State :=
  if s.agenda.any fun e => e.2 == .torcStep d off then s else s.later (.torcStep d off)

/-- The step is done; the next one follows. -/
def State.stepped (s : State) (i : CollRun) (next : Nat) (f : TorcBlock → TorcBlock) : State :=
  (s.updBlock i.d i.b.off fun b => { f b with step := next, begun := false }).torcLater i.d i.b.off

/-- The step waits and is looked at again; from when it begins to wait the time of R417 runs. -/
def State.stepWaits (s : State) (i : CollRun) : State :=
  let s := if i.b.begun then s
    else (s.updBlock i.d i.b.off fun b => { b with begun := true, since := s.beats }).poll (64 * (s.beats + collTicks)) (.collTimeout i.d i.b.off)
  s.torcLater i.d i.b.off

/-- A chunk of the instance was accepted, from a peer or by one (R417). -/
def State.progress (s : State) (i : CollRun) : State := s.updBlock i.d i.b.off fun b => { b with since := s.beats }

/-- The peers of a data step, with the checks of R416. -/
def State.peers (s : State) (i : CollRun) (t : TStep) : Except TEnd Peers := do
  let out ← if t.code = 1 ∨ t.code = 3 then (s.target i t false).map some else .ok none
  let src ← if t.code = 2 ∨ t.code = 5 then (s.target i t false).map some
    else if t.code = 3 then (s.target i t true).map some else .ok none
  .ok { out := out, src := src }

/-- Whether a rank-table entry that a data step reads is poisoned. -/
def State.peersBad (s : State) (i : CollRun) (t : TStep) (p : Peers) : Bool :=
  !t.loc && (p.out.toList ++ p.src.toList).any fun e => s.rankBad i e.1

/-- A data step is read: its peers, and the translations of what it reads and writes, are checked (R416). -/
def State.beginData (s : State) (i : CollRun) (t : TStep) : Except TEnd State := do
  let a := torcAgent i.d i.b.ctx
  let _ ← if t.usesY then (s.torcDest i t).map fun _ => () else .ok ()
  let _ ← if t.usesX then (s.torcSource i t).map fun _ => () else .ok ()
  let p ← s.peers i t
  let s := if t.usesX then s.keepWay a {} (s.torcVa i t t.x) t.w1 else s
  let s := if t.usesY then s.keepWay a { w := true } (s.torcVa i t t.y) t.w1 else s
  let s := if t.loc then s else s.keepWays a ((p.out.toList ++ p.src.toList).map fun e => (i.table + 8 * e.1, 8))
  let s := if s.peersBad i t p then s.torcPoison i [0] else s
  .ok (s.setTorcCmd i (some { peers := p }))

/-- The destination of a data step is written, its lines are free, and the step is done. A write of another agent that has reached an owned
line meanwhile comes after the step's (R108). -/
def State.endData (s : State) (i : CollRun) (t : TStep) (c : TorcCmd) (z : Data) : State :=
  let late := s.torcOver
  let s := s.dropTorcCmd i
  let s := if t.usesY then s.torcWrite late (c.dest.getD []) z else s
  ((if c.slot then s.slotsFreed i.d else s).stepped i (i.b.step + 1) id)

/-- The chunk that a data step has made goes to its peer, if it has one; until it is accepted the step waits with it. -/
def State.sendData (s : State) (i : CollRun) (t : TStep) (c : TorcCmd) (z : Data) : State :=
  match c.peers.out with
  | none => s.endData i t c z
  | some (_, to_) =>
    match s.deliver i t to_ z with
    | (none, s) => (s.progress i).endData i t c z
    | (some w, s) => (s.setTorcCmd i (some { c with out := some z, slot := t.code == 3, wait := w })).stepWaits i

/-- A data step that has its lines goes on: it waits for its chunk, and to combine it for a free chunk slot, in which its own operand is
read (R295). -/
def State.dataStep (s : State) (i : CollRun) (t : TStep) (c : TorcCmd) : Except TEnd State :=
  match c.out, c.wait with
  | some z, some w => .ok (if s.heldBack w then s.stepWaits i else (s.progress i).endData i t c z)
  | some z, none => .ok (s.sendData i t c z)
  | none, _ =>
    if s.torcWaits i t (c.dest.getD []) then .ok (s.stepWaits i)
    else do
      let x ← if t.usesX then s.torcSource i t else .ok { bytes := [], bad := [] }
      let combines := t.code == 3 || t.code == 5
      let (got, s) ← match c.peers.src with
        | none => Except.ok (some ({ bytes := [], bad := [] } : Data), s)
        | some (p, _) => if combines && decide (64 ≤ (s.die i.d).torc.slotsUsed) then .ok (none, s) else s.recv i p t.ch t.loc
      match got with
      | none => .ok (s.stepWaits i)
      | some r =>
        let (z, ovf) := if combines then t.combine x r else if t.code = 2 then (r, false) else (x, false)
        let s := if ovf then (s.torcLog i { code := 0x0E, info := 5 }).updBlock i.d i.b.off fun b => { b with binOvf := true } else s
        let s := s.torcPoison i (x.bad ++ r.bad)
        let s := if c.peers.src.isSome then s.progress i else s
        .ok (s.sendData i t c z)

/-- A data step takes the lines of its destination (R107, R301), once no other step owns one of them, and goes on. The destination is
translated as the lines are taken, and after an invalidation again (R321). -/
def State.takeLines (s : State) (i : CollRun) (t : TStep) (c : TorcCmd) : Except TEnd State :=
  match c.dest with
  | some _ => s.dataStep i t c
  | none => do
    let dest ← if t.usesY then s.torcDest i t else .ok []
    let c := { c with dest := some dest }
    if s.torcOwns dest then .ok (s.stepWaits i) else ((s.ownLines dest true).setTorcCmd i (some c)).dataStep i t c

/-- A data step, from its beginning or from where it waits. -/
def State.runData (s : State) (i : CollRun) (t : TStep) : Except TEnd State :=
  match i.b.cmd with
  | some c => s.takeLines i t c
  | none => do
    let s ← s.beginData i t
    match (firstThat (fun (b : TorcBlock) => b.off == i.b.off) (s.die i.d).torc.blocks).bind (·.cmd) with
    | some c => s.takeLines i t c
    | none => .ok s

/-- A data step of a context gives its lines up where a translation invalidation ends the translation of its destination (R321): it takes
them again, translated anew. -/
def State.dropDest (s : State) (i : CollRun) : State :=
  match i.b.cmd with
  | none => s
  | some c => (s.giveUp (c.dest.getD [])).setTorcCmd i (some { c with dest := none })

/-- The open loops from the one of a counter outward. -/
def openFrom (pl : Nat) : List (Nat × Nat × Nat) → List (Nat × Nat × Nat)
  | [] => []
  | o :: r => if o.1 = pl then o :: r else openFrom pl r

/-- The step after the ENDL that matches a LOOP: the next one with the same PL at the same depth. The steps that are passed over are read,
and so checked for their fields and for how their loops nest; they have no peers and no operands (DEDUCED, log entry 157). `st` holds the
loops opened on the way, innermost first. -/
def State.matchEndl (s : State) (i : CollRun) (pl : Nat) : Nat → Nat → List (Nat × Nat × Nat) → Except TEnd Nat
  | 0, _, _ => .error (tReserved 0xA1)
  | n + 1, k, st =>
    match s.torcProg i k with
    | .error e => .error e
    | .ok (t, _) =>
      if t.reservedBad then .error (tReserved 0xA0)
      else if t.shapeBad { i.b with opens := st ++ (pl, 0, 0) :: i.b.opens } then .error (tReserved 0xA1)
      else if t.code = 7 then s.matchEndl i pl n (k + 1) ((t.pl, 0, 0) :: st)
      else if t.code = 8 then
        (if st.isEmpty && t.pl == pl then .ok (k + 1) else s.matchEndl i pl n (k + 1) ((openFrom t.pl st).drop 1))
      else s.matchEndl i pl n (k + 1) st

/-- LOOP: the next step, and what it does to the loops. -/
def State.loopNext (s : State) (i : CollRun) (t : TStep) : Except TEnd (Nat × (TorcBlock → TorcBlock)) :=
  let c : Int := if bit t.w1 31 then (i.n : Int) + sgn 24 (field t.w1 0 24) else (field t.w1 0 24 : Nat)
  let zero := fun (b : TorcBlock) => { b with loops := b.loops.put 0 t.pl 0 }
  if c ≤ 0 then (s.matchEndl i t.pl (65536 - i.b.step) (i.b.step + 1) []).map fun k => (k, zero)
  else .ok (i.b.step + 1, fun b => { zero b with opens := (t.pl, c.toNat, i.b.step + 1) :: b.opens })

/-- ENDL: the next step, and what it does to the loops. -/
def TorcBlock.endlNext (b : TorcBlock) (t : TStep) : Nat × (TorcBlock → TorcBlock) :=
  match openFrom t.pl b.opens with
  | [] => (b.step + 1, id)
  | (pl, limit, first) :: r =>
    let l := b.loops.get 0 pl + 1
    (if l < limit then first else b.step + 1,
      fun b => { b with loops := b.loops.put 0 pl l, opens := if l < limit then (pl, limit, first) :: r else r })

/-- LOOP. -/
def State.loopStep (s : State) (i : CollRun) (t : TStep) : Except TEnd State := (s.loopNext i t).map fun x => s.stepped i x.1 x.2

/-- ENDL. -/
def State.endlStep (s : State) (i : CollRun) (t : TStep) : State := let x := i.b.endlNext t; s.stepped i x.1 x.2

/-- END: a chunk left over is COLL_SEQ with INFO 4 (R418). -/
def State.endStep (s : State) (i : CollRun) : State :=
  if (s.die i.d).torc.chunks.any fun c => c.tag == i.tag && c.seq == i.seq then s.torcFault i { code := 0x1B, info := 4 }
  else s.endInstance i (if i.b.binOvf then 0x0E else 0)

/-- One checked step of an instance (R299 to R301, R416). -/
def State.oneStep (s : State) (i : CollRun) (t : TStep) : Except TEnd State :=
  if t.reservedBad then .error (tReserved 0xA0)
  else if t.shapeBad i.b then .error (tReserved 0xA1)
  else if t.isData then s.runData i t
  else if t.code = 6 then
    .ok (if s.ctrValue i.d (t.w1 % 2 ^ 12) = 0 then s.stepped i (i.b.step + 1) id else s.stepWaits i)
  else if t.code = 7 then s.loopStep i t
  else if t.code = 8 then .ok (s.endlStep i t)
  else if t.code = 9 then
    let n := t.w1 % 2 ^ 12
    let s := if bit t.w1 12 then s.semWrite n (s.semValue n + 1) else (s.ctrDec i.d n).serveLater i.d
    .ok (s.stepped i (i.b.step + 1) id)
  else .ok (s.endStep i)

/-- The reason for which an instance is to end before its next step. -/
def State.doomOf (s : State) (i : CollRun) : Option TEnd :=
  if i.b.late.any fun r => decide (r.1 ≤ i.s) && decide (i.s ≤ r.2) then some { code := 0x1B, info := 1 }
  else (firstThat (fun (x : Doom) => x.tag == i.tag && x.seq == i.seq) (s.die i.d).torc.dooms).map fun x => { code := x.code, cls := x.cls, info := x.info }

/-- TORC_STEP (R301). -/
def execTorcStep (die block : Nat) (s : State) : Host.Outcome State Fault Refusal :=
  match firstThat (fun (b : TorcBlock) => b.off == block) (s.die die).torc.blocks with
  | none => .next s
  | some b =>
    let s := s.slotsFreed die
    if !b.active then .next s
    else
      let i := s.inst die b
      match s.doomOf i with
      | some e => .next (s.torcFault i e)
      | none =>
        match s.torcProg i b.step with
        | .error e => .next (s.torcFault i e)
        | .ok (t, bad) =>
          let s := s.keepWay (torcAgent die i.b.ctx) {} (i.prog + 16 * b.step) 16
          let s := if bad && !b.begun then s.torcPoison i [0] else s
          match s.oneStep i t with
          | .error e => .next (s.torcFault i e)
          | .ok s => .next s

/-- TORC_CHUNK_ARRIVAL (R302, R418, R419): a chunk without room is held back. -/
def execTorcChunkArrival (die : Nat) (tag seq : BitVec 32) (src ch : Nat) (data : List (BitVec 8)) (s : State) :
    Host.Outcome State Fault Refusal :=
  let (id, s) := s.newId
  .next (s.takeChunk die { id := id, tag := tag, seq := seq, src := src, ch := ch, loc := false, data := data })

/-- The active block of a tag, running its instance. -/
def State.running (s : State) (d : Nat) (tag : Word) : Option CollRun :=
  (firstThat (fun (b : TorcBlock) => b.active && s.torcNat d b.off 0x1C 4 == tag.toNat) (s.die d).torc.blocks).map (s.inst d)

/-- TORC_ABORT_RECEIVE (R417). -/
def execTorcAbortReceive (die : Nat) (tag seq : BitVec 32) (rank : Nat) (s : State) : Host.Outcome State Fault Refusal :=
  match s.blockOfTag die tag with
  | none => .next s
  | some off =>
    if atOrBelow seq.toNat (s.torcNat die off 4 4) then .next s
    else
      match s.running die tag with
      | some i =>
        if i.seq = seq then .next (s.torcFault i { code := 0x1A, info := rank })
        else .next (s.doom die off { tag := tag, seq := seq, code := 0x1A, cls := 1, info := rank })
      | none => .next (s.doom die off { tag := tag, seq := seq, code := 0x1A, cls := 1, info := rank })

/-- COLL_TIMEOUT (R417): the current step has waited for 2^24 ticks, and no chunk of the instance was accepted meanwhile. -/
def execCollTimeout (die block : Nat) (s : State) : Host.Outcome State Fault Refusal :=
  match firstThat (fun (b : TorcBlock) => b.off == block && b.active && b.begun) (s.die die).torc.blocks with
  | none => .next s
  | some b =>
    if b.since + collTicks ≤ s.beats then .next (s.memberLost (s.inst die b) 0x7FF)
    else .next (s.poll (64 * (b.since + collTicks)) (.collTimeout die block))

/-- POOL_TIMEOUT (R419): a spill write or refetch that has not completed in 2^20 ticks ends its instance with LINK, at once or when that
instance begins. -/
def execPoolTimeout (die block : Nat) (s : State) : Host.Outcome State Fault Refusal :=
  match firstThat (fun (o : PoolOp) => o.off == block && decide (o.since + poolTicks ≤ s.beats)) (s.die die).torc.poolOps with
  | none => .next s
  | some o =>
    let s := s.updTorc die fun t => { t with poolOps := t.poolOps.filter (· != o) }
    match s.running die o.tag with
    | some i =>
      if i.seq = o.seq then .next (s.torcFault i { code := 0x1D, cls := 2, info := 1 })
      else .next (s.doom die block { tag := o.tag, seq := o.seq, code := 0x1D, cls := 2, info := 1 })
    | none => .next (s.doom die block { tag := o.tag, seq := o.seq, code := 0x1D, cls := 2, info := 1 })

-- Ports that go down (R417, R423).

/-- The ranks that a step exchanges chunks with, with its channel: the one it sends to, and the one it receives from. -/
def TStep.partners (t : TStep) (i : CollRun) : List (Nat × Nat) :=
  if !t.isData || t.code == 4 || t.loc then []
  else
    let recv := if t.code = 1 then none else if t.code = 3 then t.peer i true else t.peer i false
    let send := if t.code = 1 ∨ t.code = 3 then t.peer i false else none
    -- a step that has made its chunk has received
    (send.toList ++ (if (i.b.cmd.bind (·.out)).isSome then [] else recv.toList)).map fun r => (r, t.ch)

/-- The ranks and channels that an instance still needs: those of its steps from the current one on, as its loops lead through them, up to
END or to a step that ends it. Each loop counter has at most 2^24 values, and an instance 16 of them. -/
def State.stillNeeds (s : State) : Nat → CollRun → List (Nat × Nat)
  | 0, _ => []
  | n + 1, i =>
    match s.torcProg i i.b.step with
    | .error _ => []
    | .ok (t, _) =>
      let go := fun (k : Nat) (f : TorcBlock → TorcBlock) => s.stillNeeds n { i with b := { f i.b with step := k, cmd := none } }
      if t.reservedBad || t.shapeBad i.b || t.code == 15 then []
      else if t.code = 7 then (match s.loopNext i t with | .ok x => go x.1 x.2 | .error _ => [])
      else if t.code = 8 then let x := i.b.endlNext t; go x.1 x.2
      else t.partners i ++ go (i.b.step + 1) id

/-- The lowest rank that an instance still needs and whose port is the one gone down. -/
def State.lostRank (s : State) (i : CollRun) (port : Nat) : Option Nat :=
  let lost := (s.stillNeeds (2 ^ 400) i).filterMap fun e =>
    match s.rankEntry i e.1 with
    | .ok x => if x.acc != s.part.accId && x.ports != 0 && x.port e.2 == port then some e.1 else none
    | .error _ => none
  (sortNat lost).head?

/-- The instances of a die that need a port that has gone down declare the loss. -/
def State.portLost (s : State) (d port : Nat) : State :=
  ((s.die d).torc.blocks.filter (·.active)).foldl (fun s b =>
    match s.lostRank (s.inst d b) port with
    | some r => s.memberLost (s.inst d b) r
    | none => s) s

end Sys2Proof.Machine
end

