-- ==== Sys2Proof/Machine/Boot.lean ====
section
/-! DEFINITION. Starts, failed starts and minimal mode (R342, R343, R426, R427), the I3C registers (R334), the heartbeat
(R18), and the events POWER_ON, BOOT_STEP_WATCHDOG, I3C_REFRESH and HEARTBEAT_TICK. -/

namespace Sys2Proof.Machine

-- Measurement (R343).

/-- The 32 bytes of a register or a digest. -/
def digestBytes (x : BitVec 256) : List Byte := leBytes 32 x.toNat

/-- An extend: M := SHA3-256(M then x). -/
def extend (m x : BitVec 256) : BitVec 256 := sha3Nat (digestBytes m ++ digestBytes x)

/-- Extends register i with a digest. -/
def Boot.extendM (b : Boot) (i : Nat) (x : BitVec 256) : Boot := { b with m := b.m.upd 0 i fun y => extend y x }

-- Telemetry (R334).

/-- STATUS [31:24] (R336). -/
def HostIf.statusTop (h : HostIf) : Nat := 128 * b2n h.ready + 64 * b2n h.busy + 32 * b2n h.overrun

/-- The I3C registers of one refresh. -/
def State.i3cBytes (s : State) (ts : List (BitVec 16)) : List Byte :=
  leBytes 4 0x9400 ++ ts.flatMap (fun t => leBytes 2 t.toNat) ++ leBytes 4 s.boot.count.toNat ++ leBytes 1 s.boot.attempts
    ++ leBytes 1 s.host.statusTop

/-- A refresh with the sensors' values: four temperatures, the hub's, and the power. -/
def State.i3cRefresh (s : State) (ts : List (BitVec 16)) : State :=
  { s with host := { s.host with i3c := putBytes [] 0 (s.i3cBytes ts) } }

/-- A sensor's value: free. -/
def State.sense (s : State) : BitVec 16 × State := let (f, s) := s.takeFree; ((Config.freeWord f).setWidth 16, s)

/-- Six sensor values. -/
def State.senseAll (s : State) : List (BitVec 16) × State :=
  (upto 0 6).foldl (fun (a : List (BitVec 16) × State) _ => let (v, s) := a.2.sense; (a.1 ++ [v], s)) ([], s)

/-- Schedules the next refresh, at the next multiple of 2^20 heartbeat ticks. -/
def State.nextRefresh (s : State) : State :=
  match s.senseAll with
  | ([a, b, c, d, e, f], s) => s.scheduleAt (64 * ((s.beats / 2 ^ 20 + 1) * 2 ^ 20)) (.i3cRefresh a b c d e f)
  | (_, s) => s

/-- The refresh that a start ends with, and the next one. -/
def State.firstRefresh (s : State) : State := let (ts, s) := s.senseAll; (s.i3cRefresh ts).nextRefresh

/-- I3C_REFRESH (R334). -/
def execI3cRefresh (t0 t1 t2 t3 hub power : BitVec 16) (s : State) : Host.Outcome State Fault Refusal :=
  .next ((s.i3cRefresh [t0, t1, t2, t3, hub, power]).nextRefresh)

-- Starts (R342, R426, R427).

/-- The package with every unit at its reset value: the always-on logic, the firmware log, the vectors already sent, what the
part is built of, and the bytes at physical addresses, which R342 does not name, remain. -/
def State.cleared (s : State) : State :=
  { mem := s.mem.keep fun h => decide (h < 2 ^ 52), poison := s.poison.keep fun g => decide (g < 2 ^ 47), part := s.part
    boot := { s.boot with minimal := false, up := false, m := [] }, log := s.log
    host := { HostIf.untrained with sent := s.host.sent }, free := s.free, nextId := s.nextId }

/-- Schedules the next attempt; how it ends is free. -/
def State.restart (s : State) : State :=
  let (f, s) := s.takeFree
  s.scheduleAt (s.clk + 1) (.powerOn (BitVec.ofNat 8 (Config.pick f % 10)))

/-- Steps 1 and 2: the attempt is counted, and M0 and M3 are extended. -/
def State.beginStart (s : State) : State :=
  let s := s.cleared
  let b : Boot := { s.boot with attempts := Nat.min 255 (s.boot.attempts + 1) }
  { s with boot := (b.extendM 0 s.part.romDigest).extendM 3 s.part.fuseState }

/-- Records a cause. -/
def State.noteCause (s : State) (cause : Nat) : State := { s with boot := { s.boot with causes := s.boot.causes ++ [cause] } }

/-- The rates of R332 not above one. -/
def ratesUpTo (r : Nat) : List Nat := [32, 16, 8].filter fun x => decide (x ≤ r)

/-- The host port is trained: at one of the rates that the part and the host can have, which is free (R332, R342). -/
def State.trainHost (s : State) (top : Nat) : State :=
  let (f, s) := s.takeFree
  { s with host := { s.host with port := .up, rate := pickFrom f (ratesUpTo top) } }

/-- Minimal mode (R427): READY is set once the host port is trained, which cause 0x04 says it is not. -/
def State.enterMinimal (s : State) (cause : Nat) : State :=
  let s := if cause = 9 then s.noteCause 9 else s
  let ok := cause != 4 && !(ratesUpTo s.part.ucie).isEmpty
  let s : State := { s with boot := { s.boot with minimal := true }, host := { s.host with ready := ok } }
  let s := if ok then s.trainHost s.part.ucie else s
  State.scheduleAt s.firstRefresh (64 * (s.beats + 1)) .heartbeatTick

/-- Steps 3 to 7 of a good start. -/
def State.finishStart (s : State) : State :=
  let b := (s.boot.extendM 1 s.part.confDigest).extendM 2 s.part.fwDigest
  let s : State := { s with boot := { b with attempts := 0, count := b.count + 1, up := true }
                            host := { s.host with ready := true, ualDown := s.part.noLink, poolUp := !s.part.noPool } }
  State.scheduleAt (s.trainHost s.part.ucie).firstRefresh (64 * (s.beats + 1)) .heartbeatTick

/-- The cause that what flash and the module give a start makes it end with, if any (R426): training at no rate of R332, and C, Cp or
an accelerator ID out of range: the last above 1,023 (R332), the others such that a region does not fit its range (R89; DEDUCED, log entry
139). -/
def Part.startCause (p : Part) : Option Nat :=
  if (ratesUpTo p.ucie).isEmpty then some 4
  else if p.cLines < p.cpLines ∨ 1024 ≤ p.accId ∨ 2 ^ 50 < p.packageSize ∨ (upto 0 4).any fun d => decide (2 ^ 44 < p.localSize d) then some 6
  else none

/-- One attempt that ends with a cause, 0 for a good one; a cause of an earlier step comes before one of step 4. With the counter at 4 or
more the attempt goes on to minimal mode, unless a step before that takes too long (R426, R427). -/
def State.attempt (s : State) (cause : Nat) : State :=
  let s := s.beginStart
  let cause := match s.part.startCause with
    | some c => if cause ∈ [1, 2, 3, 8, 9] then cause else if c = 6 ∧ (cause = 4 ∨ cause = 5) then cause else c
    | none => cause
  if 4 ≤ s.boot.attempts ∧ cause ≠ 8 then s.enterMinimal cause
  else if 1 ≤ cause ∧ cause ≤ 9 then (s.noteCause cause).restart
  else s.finishStart

/-- POWER_ON (R342). -/
def execPowerOn (cause : BitVec 8) (s : State) : Host.Outcome State Fault Refusal :=
  let s := if s.boot.up then { s with boot := { s.boot with causes := [] } } else s
  .next (s.attempt cause.toNat)

/-- BOOT_STEP_WATCHDOG (R426): while a start is under way. -/
def execBootStepWatchdog (s : State) : Host.Outcome State Fault Refusal :=
  if s.boot.up || s.boot.minimal then .next s else .next (s.attempt 8)

/-- The reset of RESET (R338, R423): a start follows. `clear` is RESET in minimal mode, which clears the attempt counter first (R427).
Until the start begins, the last response and DONESEQ can still be read (R337). -/
def State.resetPackage (s : State) (clear : Bool) : State :=
  let h := s.host
  let b := if clear then { s.boot with attempts := 0, causes := [] } else if s.boot.up then { s.boot with causes := [] } else s.boot
  let s := State.cleared { s with boot := b }
  State.restart { s with host := { s.host with mbox := h.mbox, doneSeq := h.doneSeq } }

-- The heartbeat.

/-- Asleep threads count a tick; at zero they wake (R154). -/
def State.tickSleepers (s : State) : State :=
  let ks := s.threads.filterMap fun e => match e.2.wait with | .asleep (n + 1) => some (e.1, n) | _ => none
  ks.foldl (fun s e =>
    let s := s.updThr e.1 fun t => { t with wait := .asleep e.2 }
    if e.2 = 0 then s.poll s.clk (.sleepWake e.1) else s) s

/-- HEARTBEAT_TICK (R18, R154, R281). -/
def execHeartbeatTick (s : State) : Host.Outcome State Fault Refusal :=
  let s := State.tickSleepers { s with ticks := s.ticks + 1 }
  let s := if s.beats % 256 = 0 then (upto 0 4).foldl (fun s d => s.poll s.clk (.balancerInterval d)) s else s
  .next (s.poll (64 * (s.beats + 1)) .heartbeatTick)

end Sys2Proof.Machine
end

