-- ==== Sys2Proof/Machine/Det.lean ====
section
/-! DEFINITION. Deterministic grids: a finished task is compared and commits (R312 to R314), a mismatched one executes again
(R421), a grid that fails ends (R420); and the event DET_COMMIT. -/

namespace Sys2Proof.Machine

/-- The grid's run, changed. -/
def State.updDet (s : State) (g : Nat) (f : Det → Det) : State := s.updGrid g fun x => { x with det := x.det.map f }

/-- The agent of the device's accesses to a grid's table. -/
def State.detAgent (s : State) (g : Nat) : Agent := { unit := threadKey (96 * (s.grid g).dies.headD 0) 0 0 0, ctx := (s.grid g).ctx }

/-- The device writes a field of the table (R308). -/
def State.tableWrite (s : State) (g off n v : Nat) : State :=
  match (s.grid g).det with
  | some d => s.engineWrite (s.detAgent g) (d.table.toNat + off) (leBytes n v)
  | none => s

/-- A field of the table. -/
def State.tableRead (s : State) (g off n : Nat) : Option Nat :=
  match (s.grid g).det with
  | some d => match s.engineRead (s.detAgent g) (d.table.toNat + off) n with
    | .ok (b, _) => some (leNat b)
    | .error _ => none
  | none => none

/-- Logs a poisoned field of the table, which the device reads (R388). -/
def State.tablePoison (s : State) (g off n cmd : Nat) : State :=
  match (s.grid g).det with
  | some d => match s.engineRead (s.detAgent g) (d.table.toNat + off) n with
    | .ok (_, true) => s.logEvent 0x1C 2 (s.grid g).ctx (distributorStop ((s.grid g).dies.headD 0)) 7 0 cmd
    | _ => s
  | none => s

/-- The term of a task in the grid digest (R312). -/
def gridTerm (p : Nat) (d : DWord) : DWord := mix64 (d ^^^ (BitVec.ofNat 64 (p + 1) * 0xC7A136E95F08D2B5))

/-- Every die of a grid looks for clusters to place. -/
def State.pokeGrid (s : State) (g : Nat) : State := (s.grid g).dies.foldl State.pokePlace s

/-- The poison marks of a task's view go to the homes with its writes (R387). -/
def State.commitPoison (s : State) (view : Nat) (t : DetTask) : State :=
  let s := s.clearWhole (t.held.map (·.1))
  let mine := (s.poison.map (·.1)).filter fun g => view / 32 == g / 2 ^ 105 * 2 ^ 105 && decide (0 < g / 2 ^ 105)
  { s with poison := mine.foldl (fun t g => (t.put false g false).put false (g % 2 ^ 105) true) s.poison }

/-- A task commits (R314): its held bytes and its GADDs are performed, and the window is free. -/
def State.commitTask (s : State) (g : Nat) (t : DetTask) : State :=
  let s := t.held.foldl (fun s e => match e.2 with | some b => s.writeHome e.1 b | none => s) s
  let s := t.gadds.foldl State.binUpdate (s.commitPoison (viewOf g t.p) t)
  s.updDet g fun d =>
    { d with committed := t.p + 1, grid := d.grid + gridTerm t.p t.digest, turn := none
             tasks := d.tasks.filter fun x => x.p != t.p }

/-- A grid completes: its signal, and its place on the dies (R110, R286). -/
def State.completeGrid (s : State) (g : Nat) : State :=
  let x := s.grid g
  let dies := x.dies
  dies.foldl State.pokePlace (((s.signal x.signal).cmdDone x.cmd).dropGrid g)

/-- After a commit: the count of mismatches, and the digest and completion with the last task (R314, R421). -/
def State.afterCommit (s : State) (g : Nat) (t : DetTask) : State :=
  match (s.grid g).det with
  | none => s
  | some d =>
    let s := match t.retry, s.tableRead g 0x20 4 with
      | true, some n => s.tableWrite g 0x20 4 (n + 1)
      | _, _ => s
    if d.committed < d.total then (s.pokeGrid g).poll (s.clk + 1) (.detCommit g)
    else (s.tableWrite g 0x18 8 d.grid.toNat).completeGrid g

/-- The poison marks of a view's writes are gone with them (R421). -/
def State.clearView (s : State) (view : Nat) : State :=
  { s with poison := s.poison.keep fun g => view / 32 != g / 2 ^ 105 * 2 ^ 105 }

/-- A task whose digest differs from the recorded one (R421). -/
def State.mismatch (s : State) (g : Nat) (t : DetTask) : State :=
  let s := s.logEvent 0x19 1 (s.grid g).ctx (distributorStop (t.window / 64)) 7 (if t.retry then 2 else 1) t.p
  if t.retry then s.failGrid g
  else
    let s := (s.updDetTask g t.p fun x =>
      { x with again := true, finished := false, held := [], gadds := [], lines := [], digest := 0 }).clearView (viewOf g t.p)
    (s.updDet g fun d => { d with turn := none }).pokeGrid g

/-- The first task not yet committed, once it has finished, commits or mismatches. -/
def State.tryCommit (s : State) (g : Nat) (d : Det) : State :=
  match s.detTask g d.committed with
  | none => s
  | some t =>
    if !t.finished then s
    else if !d.replay then ((s.tableWrite g (0x40 + 8 * t.p) 8 t.digest.toNat).commitTask g t).afterCommit g t
    else
      let s := s.tablePoison g (0x40 + 8 * t.p) 8 t.p
      if s.tableRead g (0x40 + 8 * t.p) 8 = some t.digest.toNat then (s.commitTask g t).afterCommit g t else s.mismatch g t

-- A grid that fails (R420).

/-- Every thread of a grid ends as if it had executed EXIT. -/
def State.endTeams (s : State) (g : Nat) : State :=
  let ks := (s.threads.filter fun e => e.2.live && !isCmd e.1 && e.2.wait != .exited && (s.team e.2.team).grid == g).map (·.1)
  ks.foldl (fun s k => if (s.thr k).live then s.exitThread k else s) (s.detach ks)

/-- A grid that fails: its held writes are discarded, its teams end, and it completes once they have. -/
def State.failStep (s : State) (g : Nat) : State :=
  let s := (s.updDet g fun d => { d with tasks := [] }).endTeams g
  let mine := s.teams.filter fun e => e.2.live && e.2.grid == g && e.2.phase != .finished
  if mine.any fun e => !e.2.away.isEmpty then s.poll (s.clk + 64) (.detCommit g)
  else if !mine.isEmpty then s
  else ((s.tableWrite g 0x18 8 0).tableWrite g 0x20 4 0xFFFFFFFF).completeGrid g

/-- DET_COMMIT (R314, R420, R421). -/
def execDetCommit (grid : Nat) (s : State) : Host.Outcome State Fault Refusal :=
  match (s.grid grid).live, (s.grid grid).det with
  | true, some d => .next (if d.failed then s.failStep grid else s.tryCommit grid d)
  | _, _ => .next s

end Sys2Proof.Machine
end

