-- ==== Sys2Proof/Machine/Manage.lean ====
section
/-! DEFINITION. The management commands (R338 to R344, R428), and the mailbox watchdog. -/

namespace Sys2Proof.Machine

-- The blocks that requests return.

/-- The core mask, the slice mask and the lane counts of a die: 32 bytes of the unit map (R338). -/
def Part.unitMap (p : Part) (d : Nat) : List Byte :=
  let mask := fun (n : Nat) (absent : Nat → Bool) => (upto 0 n).foldl (fun a i => if absent i then a else a + 2 ^ i) 0
  leBytes 12 (mask 96 fun i => p.noCore.get false (96 * d + i)) ++ leBytes 16 (mask 128 fun i => !(p.hasSlice d i))
    ++ (upto 0 4).flatMap fun i => leBytes 1 (if p.narrow.get false (4 * d + i) then 2 else 4)

/-- The DEGRADE map: 128 bytes. -/
def Part.degradeMap (p : Part) : List Byte := (upto 0 4).flatMap p.unitMap

/-- IDENT's port status as it stands (R339). -/
def HostIf.portStatus (h : HostIf) : Nat :=
  (upto 0 16).foldl (fun a i => if h.ualDown.get false i then a else a + 2 ^ i) 0 + 2 ^ 16 * b2n h.poolUp

/-- The public key that IDENT reports (R344, R427). -/
def State.publicKey (s : State) : List Byte :=
  if s.boot.minimal && s.boot.causes.contains 9 then List.replicate 1312 0
  else (upto 0 1312).map fun i => Config.publicKey s.part.idSeed i

/-- The identity block (R339). -/
def State.identity (s : State) : List Byte :=
  leBytes 4 0x9400 ++ leBytes 4 s.part.silicon.toNat ++ leBytes 2 s.part.accId ++ leBytes 2 s.host.rate ++ leBytes 4 s.part.cLines
    ++ leBytes 4 s.part.cpLines ++ leBytes 4 s.part.firmware.toNat ++ leBytes 4 s.boot.count.toNat ++ leBytes 4 s.host.portStatus
    ++ leBytes 32 0 ++ s.part.degradeMap ++ s.publicKey

/-- Dies on which a context executes, and on which it is saved, as masks. -/
def State.execMask (s : State) (ctx : Nat) : Nat := (upto 0 4).foldl (fun a d => a + 2 ^ d * b2n ((s.ctxsOn d).contains ctx)) 0
def State.savedMask (s : State) (ctx : Nat) : Nat := (upto 0 4).foldl (fun a d => a + 2 ^ d * b2n ((s.cx ctx).dies.get .running d == .saved)) 0

/-- A context slot of the cameo (R340). -/
def State.cameoSlot (s : State) (i : Nat) : List Byte :=
  match firstThat (fun (e : Nat × Ctx) => e.2.reg && e.2.slot == i) s.ctxs with
  | none => leBytes 4 0
  | some (c, _) =>
    let x := s.execMask c
    let y := s.savedMask c
    leBytes 2 c ++ leBytes 1 (if x ≠ 0 then 1 else if y ≠ 0 then 2 else 0) ++ leBytes 1 (x + 16 * y)

/-- A command context of the cameo. -/
def State.cameoCmd (s : State) (c : Nat) : List Byte :=
  let m := s.cmd c
  leBytes 1 m.st.code ++ leBytes 1 m.fault ++ leBytes 2 m.out ++ leBytes 2 m.ctx ++ leBytes 2 0

/-- A semaphore block of the cameo. -/
def State.cameoSem (s : State) (b : Nat) : List Byte :=
  let o := s.semOwner.get 0 b
  leBytes 2 (if o = 0 then 0 else if 65537 ≤ o then 0x200 + (o - 65537) else (s.cx (o - 1)).slot + 1)

/-- A pending-fault entry of the cameo. -/
def FaultEntry.bytes (e : FaultEntry) : List Byte := leBytes 2 e.ctx ++ leBytes 1 e.first ++ leBytes 1 (Nat.min e.count 255)

/-- The pending-fault entries by ascending context slot (R340). -/
def State.faultsBySlot (s : State) : List FaultEntry :=
  (upto 0 256).flatMap fun i => s.faults.filter fun e => (s.cx e.ctx).slot == i

/-- The cameo (R340). -/
def State.cameo (s : State) : List Byte :=
  leBytes 4 1 ++ leBytes 4 s.boot.count.toNat ++ leBytes 1 s.boot.attempts ++ leBytes 1 (b2n s.truncated) ++ leBytes 2 0
    ++ leBytes 4 s.part.firmware.toNat ++ leBytes 8 s.hbt ++ leBytes 2 s.host.doneSeq.toNat ++ leBytes 38 0
    ++ (upto 0 256).flatMap s.cameoSlot ++ (upto 0 64).flatMap s.cameoCmd ++ (upto 0 64).flatMap s.cameoSem
    ++ (s.faultsBySlot.flatMap FaultEntry.bytes ++ leBytes (64 - 4 * s.faultsBySlot.length) 0) ++ s.part.degradeMap
    ++ leBytes 4 (b2n s.boot.minimal) ++ leBytes 4 (s.boot.causes.getLastD 0) ++ digestBytes (s.boot.m.get 0 2) ++ leBytes 24 0 ++ leBytes 64 0

/-- The record of a failed attempt in minimal mode (R427). -/
def causeRecord (cause i : Nat) : Record :=
  { code := if cause = 8 then 0x1E else if cause = 4 then 0x1D else 0x1C, cls := 2, src := 10, info := cause, seq := i }

/-- The records that FWLOG returns. -/
def State.logRecords (s : State) : List Record := if s.boot.minimal then s.boot.causes.mapIdx fun i c => causeRecord c i else s.log

/-- M0 to M7. -/
def Boot.mBytes (b : Boot) : List Byte := (upto 0 8).flatMap fun i => digestBytes (b.m.get 0 i)

/-- The signed part of an ATTEST report (R344). -/
def State.reportBody (s : State) (nonce : List Byte) : List Byte :=
  leBytes 4 1 ++ leBytes 4 s.boot.count.toNat ++ leBytes 4 s.part.firmware.toNat ++ leBytes 2 s.part.accId ++ leBytes 2 0 ++ leBytes 8 s.hbt
    ++ leBytes 8 0 ++ nonce ++ s.boot.mBytes

-- Requests that read.

/-- IDENT (R339). -/
def execIdent (s : State) : Host.Outcome State Fault Refusal :=
  s.perform 1 (!s.reqPlain 4) true [] fun s => s.respond 0 s.identity []

/-- RESYNC (R340). -/
def execResync (s : State) : Host.Outcome State Fault Refusal :=
  s.perform 2 (!s.reqPlain 4) true [] fun s => s.respond 0 s.cameo []

/-- ATTEST (R344). -/
def execAttest (s : State) : Host.Outcome State Fault Refusal :=
  s.perform 11 (!s.reqPlain 4) false [(noAuth, s.boot.causes.contains 9)] fun s =>
    let b := s.reportBody (s.payBytes 32)
    let (f, s) := s.takeFree
    s.respond 0 (b ++ (upto 0 2420).map fun i => Config.signature s.part.idSeed f b i) []

/-- MEASURE, operation 0 (R343). -/
def execMeasureRead (s : State) : Host.Outcome State Fault Refusal :=
  s.perform 12 (!s.reqPlain 5 || s.reqNat 4 1 != 0) true [] fun s => s.respond 0 s.boot.mBytes []

/-- MEASURE, operation 1 (R343). -/
def execMeasureExtend (s : State) : Host.Outcome State Fault Refusal :=
  let i := s.reqNat 5 1
  s.perform 12 (!s.reqPlain 6 || s.reqNat 4 1 != 1 || decide (i < 4) || decide (7 < i)) false [] fun s =>
    State.ok { s with boot := s.boot.extendM i (BitVec.ofNat 256 (leNat (s.payBytes 32))) }

/-- FWLOG (R338, R368). -/
def execFwlog (s : State) : Host.Outcome State Fault Refusal :=
  s.perform 13 (!s.reqPlain 8) true [] fun s =>
    let off := s.reqNat 4 4
    let l := s.logRecords
    let part := ((l.drop (off / 64)).take 61).flatMap Record.bytes
    s.respond 0 ((part.drop (off % 64)).take 3840) (leBytes 4 (64 * l.length))

/-- DEGRADE (R338). -/
def execDegrade (s : State) : Host.Outcome State Fault Refusal :=
  s.perform 14 (!s.reqPlain 4) false [] fun s => s.respond 0 s.part.degradeMap []

/-- RESET (R338, R342): the response, then the reset. -/
def execReset (s : State) : Host.Outcome State Fault Refusal :=
  s.perform 15 (!s.reqPlain 4) true [] fun s => s.ok.resetPackage s.boot.minimal

-- Contexts (R322).

/-- The lowest free context slot. -/
def State.freeSlot (s : State) : Nat :=
  (firstThat (fun i => !(s.ctxs.any fun e => e.2.reg && e.2.slot == i)) (upto 0 256)).getD 0

/-- CTXNEW (R322). -/
def execCtxnew (s : State) : Host.Outcome State Fault Refusal :=
  let c := s.reqNat 4 2
  let p := fun (i : Nat) => s.payNat (8 * i) 8
  let bad := !s.reqPlain 6 || c == 0 || p 0 % 4096 != 0 || p 1 % 4096 != 0 || p 2 % 4096 != 0 || p 3 % 4096 != 0 || p 4 % 16384 != 0
    || p 5 % 16 != 0
  s.perform 3 bad false [(badState, (s.cx c).reg), (noResource, decide (256 ≤ (s.ctxs.filter (·.2.reg)).length))] fun s =>
    let w := fun (i : Nat) => BitVec.ofNat 64 (p i)
    (s.setCx c { reg := true, slot := s.freeSlot, root := w 0, privB := w 1, privS := w 2, saveB := w 3, saveS := w 4, accb := w 5 }).ok

/-- Whether a grid has teams still to be placed: its launch is queued. -/
def Grid.queued (g : Grid) : Bool :=
  match g.det with
  | none => g.stage.isNone && g.dies.any fun d => (g.nextTeam d).isSome
  | some t => t.tasks.any (·.again) || g.dies.any fun d => decide ((g.share d).1 + g.placed.get 0 d < (g.share d).2)

/-- Whether a context holds a resident team, a queued launch or a running Torc instance (R322). -/
def State.ctxBusy (s : State) (c : Nat) : Bool :=
  (s.grids.any fun e => e.2.live && e.2.ctx == c && e.2.queued)
    || (s.teams.any fun e => e.2.live && e.2.ctx == c && e.2.phase != .finished && e.2.cores.any fun k => !(e.2.away.contains k))
    || (s.dies.any fun e => (e.2.pipes.any fun p => p.ctx == c) || e.2.torc.blocks.any fun b => b.ctx == c)

/-- Releases what a die holds for a context: its queues with their entries, and its counters (R322). -/
def Die.release (x : Die) (c : Nat) : Die :=
  let mine := (x.queues.filter fun e => e.2.ctx == c).map (·.1)
  let ctrs := (x.ctrCtx.filter fun e => e.2 == c).map (·.1)
  { x with
    queues := x.queues.filter fun e => e.2.ctx != c
    pendTab := x.pendTab.filter fun t => !(mine.contains t.queue)
    pieces := x.pieces.filter fun p => !(mine.contains p.queue)
    begun := x.begun.filter fun b => !(mine.contains b.queue)
    ctr := ctrs.foldl (fun t n => t.del n) x.ctr, ctrCtx := x.ctrCtx.filter fun e => e.2 != c }

/-- Removes a context and every grant and binding held for it (R322): bit [31] of the owner registers of its tiles is set. Its saved teams
and their grids are gone, and the route tags that they held are free (DESIGN CHOICE, log entry 138). -/
def State.dropCtx (s : State) (c : Nat) : State :=
  let teams := (s.teams.filter fun e => e.2.ctx == c).map (·.1)
  let grids := (s.grids.filter fun e => e.2.ctx == c).map (·.1)
  let acc := fun (a : Acc) => if a.owner = some c then { a with owner := none, was := c } else a
  { s with
    ctxs := s.ctxs.del c
    teams := s.teams.filter fun e => e.2.ctx != c
    grids := s.grids.filter fun e => e.2.ctx != c
    dies := s.dies.map fun e =>
      let x := e.2.release c
      (e.1, { x with grids := x.grids.filter fun g => !grids.contains g, tags := x.tags.filter fun t => !teams.contains (t.2 - 1) })
    semOwner := s.semOwner.filter fun e => e.2 != c + 1
    cores := s.cores.map fun e =>
      (e.1, { e.2 with acc := e.2.acc.map fun a => (a.1, acc a.2), tabCtx := if e.2.tabCtx = c then 0 else e.2.tabCtx
                       reserved := if e.2.reserved = some c then none else e.2.reserved })
    faults := s.faults.filter fun e => e.ctx != c }

/-- CTXDEL (R322). -/
def execCtxdel (s : State) : Host.Outcome State Fault Refusal :=
  let c := s.reqNat 4 2
  s.perform 4 (!s.reqPlain 6 || c == 0) false [(badState, !(s.cx c).reg || s.ctxBusy c)] fun s => (s.dropCtx c).ok

-- PREEMPT and RESUME (R324, R325).

/-- Where a context stands on a die. -/
def State.dieState (s : State) (c d : Nat) : CtxDie := (s.cx c).dies.get .running d

/-- The dies of the request's mask. -/
def State.reqDies (s : State) : List Nat := maskDies (s.reqNat 6 1)

/-- Clears a context's pending-fault entry (R368). -/
def State.clearFaults (s : State) (c : Nat) : State := { s with faults := s.faults.filter fun e => e.ctx != c }

/-- Whether the request's id, mask and zero fields are well formed. -/
def State.maskBad (s : State) : Bool :=
  !s.reqPlain 7 || s.reqNat 4 2 == 0 || s.reqNat 6 1 == 0 || decide (15 < s.reqNat 6 1)

/-- PREEMPT's effect: the saves of the named dies begin, and the request waits for them. -/
def State.startPreempt (s : State) (c : Nat) : State :=
  let fresh := (s.reqDies.filter fun d => s.dieState c d == .running).foldl (fun m d => m + 2 ^ d) 0
  let s := s.reqDies.foldl (fun s d => s.stopOnDie c d) s
  { s with host := { s.host with waiting := some fresh } }

/-- Whether a request of a code waits. -/
def State.waits (s : State) (code : Nat) : Bool := s.host.busy && s.host.waiting.isSome && s.reqNat 0 1 == code

/-- Whether a saved quarter is what the save wrote (R390). -/
def State.digestOk (s : State) (c d : Nat) : Bool :=
  let (dig, n) := (s.cx c).digests.get (0, 0) d
  match s.homeRead (saveAgent c d) (s.quarterBase c d) n with
  | .ok b => sha3Nat (b.map (·.1)) == dig
  | .error _ => false

/-- What the save image brings back of poison (R387): a register with a byte in a poisoned granule of it, and the homes of such bytes. -/
def State.rereadPoison (s : State) (c d : Nat) : State :=
  match s.homeRead (saveAgent c d) (s.quarterBase c d + 64) (((s.cx c).digests.get (0, 0) d).2 - 64) with
  | .error _ => s
  | .ok b =>
    if b.isEmpty then s
    else
      let (rs, hs) := badParts (b.map (·.2)) (s.quarterRecords c d)
      let s := s.updCx c fun x => { x with saved := x.saved.map fun e =>
        (e.1, if dieOfCore e.1 == d then e.2.map fun v => { v with poison := rs.filter (regOnCore e.1) } else e.2) }
      hs.foldl (fun s h => s.markPoison h 1) s

/-- A saved context is restored on a die: its cores are reserved, and each is restored when it can be. -/
def State.resumeSaved (s : State) (c d : Nat) : State :=
  let s := (s.rereadPoison c d).updCx c fun x => { x with dies := x.dies.put .running d .running }
  let cs := (s.savedCores c d).map (·.1)
  let s := cs.foldl (fun s k => (s.updCore k fun x => { x with reserved := some c }).poll (s.clk + 1) (.coreRestore k)) s
  (s.pokePlace d).pokePipes d

/-- A context stopped in place goes on there (R389). -/
def State.resumeInPlace (s : State) (c d : Nat) : State :=
  let s := s.updCx c fun x => { x with dies := x.dies.put .running d .running }
  let cs := s.savingCores c d
  let s := cs.foldl (fun s k => s.updCore k fun x => { x with saving := false }) s
  (cs.foldl State.goOn s).pokePipes d

/-- RESUME on one die. -/
def State.resumeDie (s : State) (c d : Nat) : State :=
  match s.dieState c d with
  | .saved => s.resumeSaved c d
  | .stoppedInPlace => s.resumeInPlace c d
  | _ => s

/-- Reserves the saved cores of a context on some dies for it (R325), or gives those reservations up. -/
def State.reserve (s : State) (c : Nat) (on : Bool) (ds : List Nat) : State :=
  (ds.filter fun d => s.dieState c d == .saved).foldl (fun s d => (s.savedCores c d).foldl (fun s e => s.updCore e.1 fun k =>
    { k with reserved := if on then some c else if k.reserved = some c then none else k.reserved }) s) s

/-- RESUME's effect on dies (R325, R390): every digest is checked before any die acts. While a named die is being saved, RESUME takes
effect when that save completes: the request waits, with the saved cores of the others reserved, and a digest that fails then leaves
nothing restored and nothing reserved (R337; DEDUCED, log entry 96). -/
def State.doResume (s : State) (c : Nat) (ds : List Nat) : State :=
  if ds.any fun d => s.dieState c d == .saved && !s.digestOk c d then (s.reserve c false ds).fails noAuth
  else if ds.any fun d => s.dieState c d == .saving then
    State.reserve { s with host := { s.host with waiting := some (ds.foldl (fun m d => m + 2 ^ d) 0) } } c true ds
  else ((ds.foldl (fun s d => s.resumeDie c d) s).clearFaults c).ok

/-- RESUME (R325, R390). -/
def execResume (s : State) : Host.Outcome State Fault Refusal :=
  let c := s.reqNat 4 2
  if s.waits 5 then .next (s.doResume c (maskDies (s.host.waiting.getD 0)))
  else s.perform 5 s.maskBad false [(badState, !(s.cx c).reg || s.reqDies.all fun d => s.dieState c d == .running)] fun s =>
    s.doResume c (s.reqDies.filter fun d => s.dieState c d != .running)

/-- The dies that a waiting PREEMPT began to save go on (R337). -/
def State.undoPreempt (s : State) (c : Nat) (ds : List Nat) : State :=
  ds.foldl (fun s d => match s.dieState c d with
    | .saving => (s.resumeSaved c d).resumeInPlace c d
    | .running => s
    | _ => s.resumeDie c d) s

/-- PREEMPT that waits responds once no named die is being saved. Where one cannot be saved after all it fails, and the dies that it
made save go on (R337, R389). -/
def State.awaitPreempt (s : State) (c : Nat) : State :=
  if s.reqDies.any fun d => s.dieState c d == .saving then s
  else if s.reqDies.any fun d => s.dieState c d == .stoppedInPlace then (s.undoPreempt c (maskDies (s.host.waiting.getD 0))).fails noResource
  else s.ok

/-- PREEMPT (R324, R389). -/
def execPreempt (s : State) : Host.Outcome State Fault Refusal :=
  let c := s.reqNat 4 2
  if s.waits 9 then .next (s.awaitPreempt c)
  else
    s.perform 9 s.maskBad false [(badState, !(s.cx c).reg), (noResource, s.reqDies.any fun d => s.dieState c d != .saved && !s.saveFits c d)] fun s =>
      (s.startPreempt c).awaitPreempt c


-- CTXMAP (R341).

/-- Whether a CTXMAP request's id and zero bytes from an offset on are well formed. -/
def State.mapBad (s : State) (off : Nat) : Bool := !s.reqPlain off || s.reqNat 6 2 == 0

/-- Whether a die holds die-shared memory of any context (R93). -/
def State.sharedHeld (s : State) (d : Nat) : Bool :=
  !(s.ctxsOn d).isEmpty || (s.ctxs.any fun e => !(s.savedCores e.1 d).isEmpty) || ((s.die d).pipes.any (·.resident))
    || !(s.die d).torc.blocks.isEmpty

/-- The bytes of a die's window beyond a size are gone, with their poison: what a later change adds reads zero (R93). -/
def State.trimShared (s : State) (d : Nat) : State :=
  let out := fun (h : Nat) => decide (homeShared d (s.sharedSize d) ≤ h) && decide (h < homeShared (d + 1) 0)
  { s with mem := s.mem.keep fun h => !out h, poison := s.poison.keep fun g => !out (32 * g) }

/-- CTXMAP, operation 0 (R93). -/
def execCtxmapDieShared (s : State) : Host.Outcome State Fault Refusal :=
  let d := s.reqNat 5 1
  let g := s.reqNat 8 1
  s.perform 6 (s.mapBad 9 || decide (3 < d) || decide (4 < g)) false
    [(badState, !(s.cx (s.reqNat 6 2)).reg || s.sharedHeld d)] fun s =>
      ((s.updDie d fun x => { x with gshared := g }).trimShared d).ok

/-- CTXMAP, operation 1 (R267). -/
def execCtxmapQueueBind (s : State) : Host.Outcome State Fault Refusal :=
  let d := s.reqNat 5 1
  let c := s.reqNat 6 2
  let q := s.reqNat 8 1
  s.perform 6 (s.mapBad 28 || !s.reqZero 9 7 || decide (3 < d) || decide (63 < q) || s.reqNat 24 4 % 32 != 0) false [(badState, !(s.cx c).reg)] fun s =>
    (s.updDie d fun x =>
      { x with queues := x.queues.upd {} q fun y => { y with ctx := c, spillB := BitVec.ofNat 64 (s.reqNat 16 8), spillS := s.reqNat 24 4 } }).ok

/-- CTXMAP, operation 2 (R273). -/
def execCtxmapCounters (s : State) : Host.Outcome State Fault Refusal :=
  let d := s.reqNat 5 1
  let c := s.reqNat 6 2
  let n := s.reqNat 8 2
  let k := s.reqNat 10 2
  s.perform 6 (s.mapBad 12 || decide (3 < d) || decide (4095 < n) || decide (4096 < n + k)) false [(badState, !(s.cx c).reg)] fun s =>
    (s.updDie d fun x => { x with ctrCtx := (upto n k).foldl (fun t i => t.put 0 i c) x.ctrCtx }).ok

/-- Grants semaphore blocks (R341). -/
def State.grantSems (s : State) (first count owner : Nat) : State :=
  { s with semOwner := (upto first count).foldl (fun t b => t.put 0 b owner) s.semOwner }

/-- CTXMAP, operation 3 (R341). -/
def execCtxmapSemGrant (s : State) : Host.Outcome State Fault Refusal :=
  let c := s.reqNat 6 2
  let n := s.reqNat 8 2
  let k := s.reqNat 10 2
  s.perform 6 (s.mapBad 12 || decide (63 < n) || decide (64 < n + k)) false [(badState, !(s.cx c).reg)] fun s => (s.grantSems n k (c + 1)).ok

/-- Whether a range of a context touches another. -/
def overlaps (va n lo len : Nat) : Bool := decide (va < lo + len) && decide (lo < va + n)

/-- Every issued copy command is performed: what was translated before has happened (R321). -/
def State.finishCopies (s : State) (core : Nat) : Nat → State
  | 0 => s
  | n + 1 =>
    match firstThat (fun (r : CopyRing) => r.cmds.any (·.issued)) (s.core core).rings with
    | none => s
    | some r =>
      match r.cmds with
      | c :: _ => if c.issued then (s.copyFinish core r c).finishCopies core n else s
      | [] => s

/-- Copies of the command contexts bound to a context that are under way are performed. -/
def State.finishCcopies (s : State) (c : Nat) : Nat → State
  | 0 => s
  | n + 1 =>
    match (s.cmd c).copies with
    | x :: _ => (s.finishCopy c x).finishCcopies c n
    | [] => s

/-- Performs every access of a context that has already been translated; a Torc step under way translates its destination anew. -/
def State.settleCtx (s : State) (c : Nat) : State :=
  let s := s.flushBins fun u => u.ctx == c
  let cs := (s.cores.filter fun e => e.2.ctx == c).map (·.1)
  let s := cs.foldl (fun s k => s.finishCopies k (((s.core k).rings.map fun r => r.cmds.length).sum)) s
  let ms := (s.cmds.filter fun e => e.2.ctx == c).map (·.1)
  let s := ms.foldl (fun s m => s.finishCcopies m (s.cmd m).copies.length) s
  (upto 0 4).foldl (fun s d => ((s.die d).torc.blocks.filter fun b => b.ctx == c).foldl (fun s b => s.dropDest (s.inst d b)) s) s

/-- Drops every translation of a context that a range touches, and every instruction line and loop-buffer run fetched through one
(R321). -/
def State.invalidate (s : State) (c va n : Nat) : State :=
  let keep := fun (e : TlbEntry) => !(e.ctx == c && overlaps e.va e.size va n)
  let run := fun (x : CodeCopy) => !(x.ctx == c && (overlaps x.pc.toNat (4 * x.words.length) va n || x.via.any fun e => !keep e))
  { s with
    dies := s.dies.map fun e => (e.1, { e.2 with tlb := (e.2.tlb.map fun x => (x.1, x.2.filter keep)).filter fun x => !x.2.isEmpty })
    cmds := s.cmds.map fun e => (e.1, { e.2 with tlb := e.2.tlb.filter keep })
    cores := s.cores.map fun e => (e.1, { e.2 with tlb := e.2.tlb.filter keep, code := e.2.code.filter run })
    slots := s.slots.map fun e => (e.1, { e.2 with loop := e.2.loop.filter run }) }

/-- CTXMAP, operation 4 (R321). -/
def execCtxmapInvalidate (s : State) : Host.Outcome State Fault Refusal :=
  let c := s.reqNat 6 2
  s.perform 6 (s.mapBad 24) false [(badState, !(s.cx c).reg)] fun s =>
    ((s.settleCtx c).invalidate c (s.reqNat 8 8) (s.reqNat 16 8)).ok

-- Command contexts (R284, R338).

/-- CMDSTART (R284): the context's state, every register 0 and unpoisoned (R51), nothing left of an earlier run of it, its grants and its
cleared fault code. -/
def State.startCommand (s : State) (c ctx : Nat) (pc : DWord) (first count : Nat) : State :=
  let (u, s) := s.newId
  let k := cmdBase + c
  let s := s.detach [k]
  let s : State := { s with poisonReg := s.poisonReg.filter fun p => !(regKinds.contains p.1 && p.2.1 == k) }
  let s := s.setThr k { live := true, uid := u, grp := k, alloc := 128, laneSz := 512, csp := 512, pc := pc }
  let s := s.setGrp k { live := true, width := 1 }
  let s := s.setCmd c { st := .ready, ctx := ctx }
  (s.grantSems first count (65537 + c)).clearFaults ctx

/-- CMDSTART (R338). -/
def execCmdstart (s : State) : Host.Outcome State Fault Refusal :=
  let c := s.reqNat 4 1
  let ctx := s.reqNat 6 2
  let st := (s.cmd c).st
  let bad := !s.reqPlain 20 || !s.reqZero 5 1 || decide (63 < c) || ctx == 0 || decide (63 < s.reqNat 16 2) || decide (64 < s.reqNat 16 2 + s.reqNat 18 2)
  s.perform 7 bad false [(badState, !(s.cx ctx).reg || st == .ready || st == .semWait || (s.cmd c).out != 0)] fun s =>
    (s.startCommand c ctx (BitVec.ofNat 64 (s.reqNat 8 8)) (s.reqNat 16 2) (s.reqNat 18 2)).ok

/-- CMDSTOP's effect (R338): at once between runs and in Sem-wait, else at the end of the run. -/
def State.stopCommand (s : State) (c : Nat) : State :=
  let k := cmdBase + c
  let m := s.cmd c
  match m.st with
  | .semWait => (s.endCommand k .stopped).ok
  | .ready =>
    if (s.thr k).wait == .issued then
      let s := s.updCmd c fun x => { x with stopping := true }
      { s with host := { s.host with waiting := some 0 } }
    else (s.endCommand k .stopped).ok
  | _ => s.ok

/-- CMDSTOP (R338). -/
def execCmdstop (s : State) : Host.Outcome State Fault Refusal :=
  let c := s.reqNat 4 1
  if s.waits 8 then (if (s.cmd c).st == .ready then .next s else .next s.ok)
  else s.perform 8 (!s.reqPlain 5 || decide (63 < c)) false [] fun s => s.stopCommand c

-- POOLCFG (R338).

/-- POOLCFG. -/
def execPoolcfg (s : State) : Host.Outcome State Fault Refusal :=
  let size := s.reqNat 8 8
  let spills := (upto 0 4).any fun d => (s.enabledBlocks d).any fun o => s.torcNat d o 0x30 4 != 0
  s.perform 10 (!s.reqPlain 16 || !s.reqZero 5 3 || decide (1 < s.reqNat 4 1) || size % 2 ^ 30 != 0 || decide (2 ^ 50 < size)) false
    [(badState, spills)] fun s =>
      State.ok { s with host := { s.host with poolOn := s.reqNat 4 1 == 1, poolSize := BitVec.ofNat 64 size } }

-- MAILBOX_WATCHDOG (R428).

/-- Undoes what a PREEMPT, a RESUME or a CMDSTOP that did not finish in time has done (R337; DEDUCED, log entry 95). -/
def State.undoWait (s : State) : State :=
  let c := s.reqNat 4 2
  match s.host.waiting, s.reqNat 0 1 with
  | some m, 9 => s.undoPreempt c (maskDies m)
  | some m, 5 => s.reserve c false (maskDies m)
  | some _, 8 => s.updCmd (s.reqNat 4 1) fun x => { x with stopping := false }
  | _, _ => s

/-- MAILBOX_WATCHDOG (R428): firmware restarts, logs WATCHDOG and answers RESOURCE. -/
def execMailboxWatchdog (s : State) : Host.Outcome State Fault Refusal :=
  if s.host.busy && decide (s.host.busySince + 2 ^ 26 ≤ s.beats) then
    .next ((s.undoWait.logEvent 0x1E 2 0 0x1000 8 0 0).fails noResource)
  else .next s

end Sys2Proof.Machine
end

