-- ==== Sys2Proof/Machine/Events.lean ====
section
/-! DEFINITION. The events of the machine's own course: the picker and the start of a run (R33, R34), results that land
(R59), teams placed and finished (R24, R26); and those from outside: the host's accesses (R333), storage errors (R386),
and links (R423, R424). -/

namespace Sys2Proof.Machine

/-- PICKER_DECISION (R33). -/
def execPickerDecision (iss : Nat) (s : State) : Host.Outcome State Fault Refusal := .next (s.pick iss)

/-- RUN_ISSUE (R34). -/
def execRunIssue (iss : Nat) (s : State) : Host.Outcome State Fault Refusal := .next (s.beginRun iss)

-- Results that land.

/-- Whether a register belongs to a group: its writes land whatever becomes of the thread. -/
def RegWrite.ofGroup : RegWrite → Bool
  | .ureg _ _ _ => true
  | .gfield _ _ _ => true
  | .tile _ _ _ _ => true
  | _ => false

/-- The storage a register write goes to: p15 has none, a row of a tile register has 32 elements. -/
def RegWrite.storage : RegWrite → List (EccPlace × Nat × Nat)
  | .vreg t p _ => [(.vreg, t, p)]
  | .temp t n _ => [(.temp, t, n)]
  | .ureg g n _ => [(.ureg, g, n)]
  | .pred t n _ => if n = 15 then [] else [(.pred, t, n)]
  | .ptr t n _ => [(.ptr, t, n)]
  | .gfield g n _ => [(.gfield, g, n)]
  | .rsv t n _ => [(.rsv, t, n)]
  | .tile g row _ _ => (upto (32 * row) 32).map fun i => (.tile, g, i)

/-- Whether a write carries poison: a row of a tile register says so itself (R388). -/
def RegWrite.isBad (bad : Bool) : RegWrite → Bool
  | .tile _ _ _ b => bad || b
  | _ => bad

/-- Raises the flags of a landed result; an enabled one is a trap due at the next run boundary, which the earliest
instruction names (R158, R382). -/
def State.landFlags (s : State) (p : Pending) : State :=
  let s := s.raiseFlags p.th p.flags
  if p.quiet || (s.trapping [(p.th, p.flags)]).isEmpty then s
  else
    s.updThr p.th fun t =>
      if t.trapFlags = 0 ∨ p.id < t.trapId
      then { t with trapFlags := t.trapFlags ||| p.flags, trapPc := p.pc, trapPos := p.pos, trapId := p.id }
      else { t with trapFlags := t.trapFlags ||| p.flags }

/-- A result lands: its writes, and poison that came with it (R59, R388); those of a thread that has exited are discarded
(R55). -/
def State.land (s : State) (p : Pending) : State :=
  let t := s.thr p.th
  if !t.live || t.uid != p.uid then s
  else
    let gone := t.wait == .exited
    let ws := if gone then p.writes.filter RegWrite.ofGroup else p.writes
    let s := s.writeRegs ws
    let bad := (ws.filter (RegWrite.isBad p.bad)).flatMap RegWrite.storage
    let s := { s with poisonReg := s.poisonReg ++ bad.filter fun e => !s.poisonReg.contains e }
    if gone then s else s.landFlags p

/-- RESULT_LANDS (R59, R54). -/
def execResultLands (id : Nat) (s : State) : Host.Outcome State Fault Refusal :=
  match firstThat (fun (p : Pending) => p.id == id) s.pend with
  | none => .next s
  | some p =>
    .next ((State.land { s with pend := s.pend.filter fun x => x.id != id } p).freeDrains (coreOfThread p.th))

-- Teams.

/-- TEAM_PLACE (R26): the first grid whose next team can be placed places it, and the distributor looks again. -/
def execTeamPlace (die : Nat) (s : State) : Host.Outcome State Fault Refusal :=
  match s.placeFirst die (s.die die).grids with
  | some t => .next ((t.pokePlace die).pokePipes die)
  | none => .next (s.pokePipes die)

/-- TEAM_FINISH_COMPLETE (R24). -/
def execTeamFinishComplete (team : Nat) (s : State) : Host.Outcome State Fault Refusal :=
  if (s.team team).live && (s.team team).phase == .finishing then .next (s.finishTeam team).ringsMoved else .next s

-- The host's accesses.

/-- Whether an address range of the host's lies in one of the HDM ranges (R332). -/
def Part.isHdm (p : Part) (pa n : Nat) : Bool :=
  match p.rangeOf pa, p.rangeOf (pa + n - 1) with
  | .package, .package => true
  | .dieLocal a, .dieLocal b => a == b
  | _, _ => false

/-- HOST_CXL_MEM_ACCESS (R333): a write enters its line's home order; a read of as many bytes as `data` has returns what the homes hold,
with the poison indication of R387. -/
def execHostCxlMemAccess (pa : Nat) (wr : Bool) (data : List (BitVec 8)) (s : State) : Host.Outcome State Fault Refusal :=
  if s.host.port == .up && !data.isEmpty && s.part.isHdm pa data.length then
    if s.torcOwns (upto pa data.length) then .next (s.poll (s.clk + 1) (.hostCxlMemAccess pa wr data))
    else if wr then .next (s.storeHomes pa data)
    else .next { s with host := { s.host with answer := s.readHomes pa data.length, answerBad := s.isPoisoned pa data.length } }
  else .next s

/-- What the host may have stored in a line that it took: its bytes or free ones (DESIGN CHOICE, log entry 39). -/
def State.hostStores (s : State) (line : Nat) : State :=
  let bs := (upto 0 128).map fun i => if s.coinFor (i + 1) then Config.freeByte (s.free * 2 ^ 40 + i) else s.readHome (128 * line + i)
  let stores := s.coinFor 0
  let s : State := { s with free := s.free + 1 }
  if stores then s.storeHomes (128 * line) bs else s

/-- HOST_SNOOP (R333): the line's home slice answers, before any later access to the line, and holds it no longer; what the host stores
behind the snoop is what the device then reads. It waits while a Torc step owns the line (R107). -/
def execHostSnoop (pa : Nat) (s : State) : Host.Outcome State Fault Refusal :=
  if s.host.port == .up && s.part.rangeOf pa == .host then
    if s.torcOwns [pa] then .next (s.poll (s.clk + 1) (.hostSnoop pa))
    else .next (State.hostStores { s with host := { s.host with lines := s.host.lines.del (pa / 128) } } (pa / 128))
  else .next s

-- Storage errors (R386).

/-- Whether a physical address lies in the window of a task of a deterministic grid (R309). -/
def State.inWindow (s : State) (g a : Nat) : Bool :=
  match (s.grid g).det with
  | none => false
  | some d =>
    d.tasks.any fun t =>
      (upto 0 (d.plimit / 2 ^ 12)).any fun i =>
        let va := d.area.toNat + (t.window / 64 * d.windows + t.window % 64) * d.plimit + 2 ^ 12 * i
        match s.translateFor (threadKey (96 * (t.window / 64)) 0 0 0) (s.grid g).ctx va {} with
        | .ok e => decide (e.pa + (va - e.va) ≤ a) && decide (a < e.pa + (va - e.va) + 2 ^ 12)
        | .error _ => false

/-- Logs an uncorrectable error at a physical address (R386), at its home slice's stop (R365). -/
def State.logUncorrected (s : State) (ctx a : Nat) : State := s.logEvent 0x1C 2 ctx (s.homeStop a) 9 0 0 (BitVec.ofNat 64 a) 8

/-- An uncorrectable error in memory data: the granules are poisoned (R386), and a window that is struck fails its grid, with
a record (R420). -/
def State.strikeData (s : State) (h n : Nat) : State :=
  (s.grids.filter fun e => e.2.live && s.inWindow e.1 h).foldl
    (fun s e => (s.logUncorrected e.2.ctx h).failGrid e.1) (s.markPoison h n)

/-- An uncorrectable error in a register or an element: the word or element is poisoned, if something holds it. -/
def State.strikeReg (s : State) (kind : EccPlace) (unit index : Nat) : State :=
  let held := if kind == .acc then decide (unit < 384)
    else if [EccPlace.ureg, .gfield, .tile].contains kind then (s.grp unit).live else (s.thr unit).live
  if held && !(kind == .pred && index == 15) && !(s.poisonReg.contains (kind, unit, index))
  then { s with poisonReg := s.poisonReg ++ [(kind, unit, index)] } else s

/-- Copies that a core holds are dropped, to be fetched again: those of the line in L0 and, where it is clean, in L1, and the instruction
lines, loop buffers, records and translations. -/
def State.dropCopies (s : State) (core line : Nat) : State :=
  let s := s.updCore core fun c => { c with code := [], records := [], tlb := [], l1 := c.l1.del line, fills := c.fills.del line }
  (upto 0 4).foldl (fun s i => s.updSlot (4 * core + i) fun sl =>
    { sl with l0 := sl.l0.del line, fills := sl.fills.del line, loop := [] }) s

/-- ECC_UNCORRECTABLE (R386). -/
def execEccUncorrectable (kind : EccPlace) (unit index : Nat) (s : State) : Host.Outcome State Fault Refusal :=
  match kind with
  | .cached => .next (s.dropCopies unit (index / 128))
  | .data => .next (s.strikeData (index / 32 * 32) 32)
  | .scrub => if index < 2 ^ 52 then .next ((s.logUncorrected 0 (index / 32 * 32)).strikeData (index / 32 * 32) 32) else .next s
  | .tags => .next (s.strikeData (index / 128 * 128) 128)
  | _ => .next (s.strikeReg kind unit index)

-- Links.

/-- Logs LINK (R423). -/
def State.logLink (s : State) (info stop : Nat) : State := s.logEvent 0x1D 2 0 stop 10 info 0

/-- MESH_LINK_ERROR (R423): the reset leaves the attempt counter alone, which only RESET in minimal mode and a good start clear (R427). -/
def execMeshLinkError (die stop : Nat) (s : State) : Host.Outcome State Fault Refusal :=
  .next ((s.logLink (0x10 + die) stop).resetPackage false)

/-- HOST_PORT_DOWN (R423, R424). -/
def execHostPortDown (s : State) : Host.Outcome State Fault Refusal :=
  if s.host.port != .up then .next s
  else
    let (f, s) := (s.logLink 0x20 0x1000).takeFree
    .next (State.scheduleAt { s with host := { s.host with port := .retraining s.beats, downKey := f } } (64 * (s.beats + 2 ^ 20)) .hostRetrainTimeout)

/-- Sends the pending messages of unmasked vectors, lowest first (R424). -/
def State.sendPending (s : State) : State :=
  let h := s.host
  let go := (h.msixPend.filter fun e => e.2 && !(h.msixMask.get false e.1)).map (·.1)
  { s with host := { h with sent := h.sent ++ go, msixPend := go.foldl (fun t v => t.put false v false) h.msixPend } }

/-- HOST_PORT_RETRAINED (R423, R424): at the rate it had or a lower one, which is free; behind a corrected error the port has stayed up. -/
def execHostPortRetrained (s : State) : Host.Outcome State Fault Refusal :=
  match s.host.port with
  | .retraining _ =>
    let s := s.trainHost s.host.rate
    .next (State.unschedule { s with host := { s.host with lines := [] } } (· == .hostRetrainTimeout)).sendPending
  | .up => .next (s.trainHost s.host.rate)
  | _ => .next s

/-- HOST_RETRAIN_TIMEOUT (R424): the port stays down until the next boot. -/
def execHostRetrainTimeout (s : State) : Host.Outcome State Fault Refusal :=
  match s.host.port with
  | .retraining since => if since + 2 ^ 20 ≤ s.beats then .next { s with host := { s.host with port := .down } } else .next s
  | _ => .next s

/-- UALINK_PORT_DOWN (R417, R423). -/
def execUalinkPortDown (die port : Nat) (s : State) : Host.Outcome State Fault Refusal :=
  if 4 ≤ die ∨ 4 ≤ port ∨ s.portDown die port then .next s
  else
    let s := s.logLink (0x30 + 4 * die + port) (portStop die port)
    .next (State.portLost { s with host := { s.host with ualDown := s.host.ualDown.put false (4 * die + port) true } } die port)

/-- POOL_PORT_DOWN (R419, R423). The pool port is the hub's: STOP is 0x1000, as for the host port (DEDUCED, log entry 137). -/
def execPoolPortDown (s : State) : Host.Outcome State Fault Refusal :=
  if s.host.poolUp then .next { s.logLink 0x40 0x1000 with host := { (s.logLink 0x40 0x1000).host with poolUp := false } } else .next s

end Sys2Proof.Machine
end

