-- ==== Sys2Proof/Machine/Integer.lean ====
section
/-! DEFINITION. The meanings of the integer, compare, predicate, select and move instructions (R129 to R139). -/

namespace Sys2Proof.Machine

/-- A result of the fixed-latency integer class (R58). -/
def intLat : Nat := 4

/-- One source operand as a number: uniform or vector, 32 or 64 bits. -/
def State.intSrc (s : State) (k : Nat) (uni wide : Bool) (n : Nat) : Nat :=
  if uni then (if wide then (s.wOf64 k n).toNat else (s.wOf k n).toNat)
  else if wide then (s.v64 k n).toNat else (s.v k n).toNat

/-- The writes of one result: to the thread's vector register or its group's uniform register, 32 or 64 bits. -/
def State.intDst (s : State) (k : Nat) (uni wide : Bool) (n x : Nat) : List RegWrite :=
  if uni then
    if wide then toW64 (s.thr k).grp n (BitVec.ofNat 64 x) else [.ureg (s.thr k).grp n (BitVec.ofNat 32 x)]
  else if wide then s.toV64 k n (BitVec.ofNat 64 x) else [s.toV k n (BitVec.ofNat 32 x)]

/-- The threads an integer instruction executes for: every issued one, or one for each group present (R129). -/
def State.actors (s : State) (uni : Bool) : List Nat := if uni then s.issueGroups.map (·.2) else s.issue

/-- An operand in uniform or vector context. -/
def intOpd (uni wide : Bool) (n : BitVec 7) (rd wr : Bool) : Opd :=
  { cls := if uni then .uni else .vec, n := n.toNat, cnt := if wide then 2 else 1, wide := wide, rd := rd, wr := wr }

/-- The three operands of an RRR integer instruction: `rdD` when D is read, `wideB` when B is a pair. -/
def rrrOpds (f : BitVec 4) (d a b : BitVec 7) (rdD wideB : Bool) : List Opd :=
  let u := f.getLsbD 3
  let w := f.getLsbD 1
  [intOpd u w d rdD true, intOpd u w a true false, intOpd (u || f.getLsbD 2) (w && wideB) b true false]

/-- An operation on N-bit numbers: N, the signedness, and the values of a, b and d. -/
abbrev IntOp := Nat → Bool → Nat → Nat → Nat → Nat

/-- The results of an RRR integer instruction, by thread (R129). -/
def State.rrrResults (s : State) (f : BitVec 4) (d a b : BitVec 7) (wideB : Bool) (op : IntOp) : List (Nat × List RegWrite) :=
  let u := f.getLsbD 3
  let w := f.getLsbD 1
  let n := if w then 64 else 32
  (s.actors u).map fun k =>
    let x := s.intSrc k u w a.toNat
    let y := s.intSrc k (u || f.getLsbD 2) (w && wideB) b.toNat
    let z := s.intSrc k u w d.toNat
    (k, s.intDst k u w d.toNat (op n (f.getLsbD 0) x y z % 2 ^ n))

/-- A fixed-latency RRR integer instruction. -/
def State.rrrFixed (s : State) (i : Instr) (f : BitVec 4) (d a b : BitVec 7) (rdD wideB : Bool) (op : IntOp) :
    Host.Outcome State Fault Refusal :=
  s.issuePlain { instr := i, place := .both, ops := rrrOpds f d a b rdD wideB } fun s =>
    s.fixed intLat ((s.rrrResults f d a b wideB op).flatMap (·.2))

/-- A variable-latency RRR integer instruction (R131). -/
def State.rrrVariable (s : State) (i : Instr) (f : BitVec 4) (d a b : BitVec 7) (op : IntOp) : Host.Outcome State Fault Refusal :=
  s.issuePlain { instr := i, place := .both, ops := rrrOpds f d a b false true } fun s =>
    (s.rrrResults f d a b true op).foldl (fun s e => s.variable e.1 e.2) s

-- The operations (R131, R65).

def opAdd : IntOp := fun _ _ a b _ => a + b
def opSub : IntOp := fun n _ a b _ => a + (2 ^ n - b)
def opMul : IntOp := fun _ _ a b _ => a * b
def opMad : IntOp := fun _ _ a b d => a * b + d
def opAnd : IntOp := fun _ _ a b _ => Nat.land a b
def opOr : IntOp := fun _ _ a b _ => Nat.lor a b
def opXor : IntOp := fun _ _ a b _ => Nat.xor a b
def opShl : IntOp := fun n _ a b _ => a * 2 ^ (b % n)
def opShr : IntOp := fun n _ a b _ => a / 2 ^ (b % n)
def opSar : IntOp := fun n _ a b _ => wrap n (sgn n a / 2 ^ (b % n))
def opRot : IntOp := fun n _ a b _ => let k := b % n; a * 2 ^ k % 2 ^ n + a / 2 ^ (n - k)

/-- The high half of the exact product. -/
def opMulh : IntOp := fun n s a b _ => if s then wrap n (sgn n a * sgn n b / 2 ^ n) else a * b / 2 ^ n

/-- Whether a pair of numbers is out of order: signed or unsigned. -/
def intLess (n : Nat) (s : Bool) (a b : Nat) : Bool := if s then decide (sgn n a < sgn n b) else decide (a < b)

def opMin : IntOp := fun n s a b _ => if intLess n s b a then b else a
def opMax : IntOp := fun n s a b _ => if intLess n s a b then b else a

/-- DIV with the cases that have no ordinary quotient (R65). -/
def opDiv : IntOp := fun n s a b _ =>
  if s then
    if b = 0 then (if 0 ≤ sgn n a then 2 ^ (n - 1) - 1 else 2 ^ (n - 1)) else wrap n (Int.tdiv (sgn n a) (sgn n b))
  else if b = 0 then 2 ^ n - 1 else a / b

/-- REM: a - b * q (R65). -/
def opRem : IntOp := fun n s a b _ =>
  if b = 0 then a else if s then wrap n (Int.tmod (sgn n a) (sgn n b)) else a % b

/-- The field of BFX and BFI: position and length (R133). -/
def bitField (n b : Nat) : Nat × Nat :=
  let pos := b % 64 % n
  (pos, Nat.min (field b 8 7) (n - pos))

def opBfx : IntOp := fun n s a b _ =>
  let (pos, len) := bitField n b
  let f := field a pos len
  if s && decide (0 < len) && decide (2 ^ (len - 1) ≤ f) then wrap n ((f : Int) - 2 ^ len) else f

def opBfi : IntOp := fun n _ a b d =>
  let (pos, len) := bitField n b
  d % 2 ^ pos + field a 0 len * 2 ^ pos + d / 2 ^ (pos + len) * 2 ^ (pos + len)

/-- ADD (R131: a + b). -/
def execAdd (f : BitVec 4) (d a b : BitVec 7) (s : State) : Host.Outcome State Fault Refusal :=
  s.rrrFixed (.add f d a b) f d a b false true opAdd

/-- SUB (R131: a - b). -/
def execSub (f : BitVec 4) (d a b : BitVec 7) (s : State) : Host.Outcome State Fault Refusal :=
  s.rrrFixed (.sub f d a b) f d a b false true opSub

/-- MUL (R131: the low half of the product). -/
def execMul (f : BitVec 4) (d a b : BitVec 7) (s : State) : Host.Outcome State Fault Refusal :=
  s.rrrFixed (.mul f d a b) f d a b false true opMul

/-- MULH (R131: the high half of the product). -/
def execMulh (f : BitVec 4) (d a b : BitVec 7) (s : State) : Host.Outcome State Fault Refusal :=
  s.rrrFixed (.mulh f d a b) f d a b false true opMulh

/-- AND (R131: bitwise and). -/
def execAnd (f : BitVec 4) (d a b : BitVec 7) (s : State) : Host.Outcome State Fault Refusal :=
  s.rrrFixed (.and f d a b) f d a b false true opAnd

/-- OR (R131: bitwise or). -/
def execOr (f : BitVec 4) (d a b : BitVec 7) (s : State) : Host.Outcome State Fault Refusal :=
  s.rrrFixed (.or f d a b) f d a b false true opOr

/-- XOR (R131: bitwise exclusive or). -/
def execXor (f : BitVec 4) (d a b : BitVec 7) (s : State) : Host.Outcome State Fault Refusal :=
  s.rrrFixed (.xor f d a b) f d a b false true opXor

/-- MAD (R131: a * b + d). -/
def execMad (f : BitVec 4) (d a b : BitVec 7) (s : State) : Host.Outcome State Fault Refusal :=
  s.rrrFixed (.mad f d a b) f d a b true true opMad

/-- SHL (R131); B is a single register. -/
def execShl (f : BitVec 4) (d a b : BitVec 7) (s : State) : Host.Outcome State Fault Refusal :=
  s.rrrFixed (.shl f d a b) f d a b false false opShl

/-- SHR (R131); B is a single register. -/
def execShr (f : BitVec 4) (d a b : BitVec 7) (s : State) : Host.Outcome State Fault Refusal :=
  s.rrrFixed (.shr f d a b) f d a b false false opShr

/-- SAR (R131); B is a single register. -/
def execSar (f : BitVec 4) (d a b : BitVec 7) (s : State) : Host.Outcome State Fault Refusal :=
  s.rrrFixed (.sar f d a b) f d a b false false opSar

/-- ROT (R131); B is a single register. -/
def execRot (f : BitVec 4) (d a b : BitVec 7) (s : State) : Host.Outcome State Fault Refusal :=
  s.rrrFixed (.rot f d a b) f d a b false false opRot

/-- BFX (R133); B is a single register. -/
def execBfx (f : BitVec 4) (d a b : BitVec 7) (s : State) : Host.Outcome State Fault Refusal :=
  s.rrrFixed (.bfx f d a b) f d a b false false opBfx

/-- BFI (R133); FN [0] is reserved, and D is read. -/
def execBfi (f : BitVec 3) (d a b : BitVec 7) (s : State) : Host.Outcome State Fault Refusal :=
  s.rrrFixed (.bfi f d a b) (f ++ (0 : BitVec 1)) d a b true false opBfi

/-- FN of MIN and MAX without the bit that tells them apart. -/
def minMaxFn (u w sg : BitVec 1) : BitVec 4 := u ++ (0 : BitVec 1) ++ w ++ sg

/-- MIN (R131). -/
def execMin (u w sg : BitVec 1) (d a b : BitVec 7) (s : State) : Host.Outcome State Fault Refusal :=
  s.rrrFixed (.min u w sg d a b) (minMaxFn u w sg) d a b false true opMin

/-- MAX (R131). -/
def execMax (u w sg : BitVec 1) (d a b : BitVec 7) (s : State) : Host.Outcome State Fault Refusal :=
  s.rrrFixed (.max u w sg d a b) (minMaxFn u w sg) d a b false true opMax

/-- DIV (R65). -/
def execDiv (f : BitVec 4) (d a b : BitVec 7) (s : State) : Host.Outcome State Fault Refusal :=
  s.rrrVariable (.div f d a b) f d a b opDiv

/-- REM (R65). -/
def execRem (f : BitVec 4) (d a b : BitVec 7) (s : State) : Host.Outcome State Fault Refusal :=
  s.rrrVariable (.rem f d a b) f d a b opRem

/-- The number of zero bits above the highest one bit of an N-bit number. -/
def clz (n a : Nat) : Nat := if a = 0 then n else n - 1 - Nat.log2 a

/-- The number of zero bits below the lowest one bit. -/
def ctz (n a : Nat) : Nat := ((upto 0 n).takeWhile fun i => !bit a i).length

/-- The number of one bits. -/
def popCount (n a : Nat) : Nat := ((upto 0 n).filter fun i => bit a i).length

/-- The bits in reverse. -/
def brev (n a : Nat) : Nat := ((upto 0 n).map fun i => b2n (bit a i) * 2 ^ (n - 1 - i)).sum

/-- BITC (R134): CLZ, CTZ and POP write a single register, BREV one of the operand's width. -/
def execBitc (f : BitVec 2) (w : BitVec 1) (d a : BitVec 7) (s : State) : Host.Outcome State Fault Refusal :=
  let wide := w == 1
  let wd := wide && f == 3
  s.issuePlain { instr := .bitc f w d a, place := .both, ops := [.dst d wd, .src a wide] } fun s =>
    let n := if wide then 64 else 32
    s.fixed intLat (s.issue.flatMap fun k =>
      let x := s.intSrc k false wide a.toNat
      let r := if f = 0 then clz n x else if f = 1 then ctz n x else if f = 2 then popCount n x else brev n x
      s.intDst k false wd d.toNat r)

/-- The immediate of a format with an `m`-bit field, as a signed number (R116, R132). -/
def immOf (m f : Nat) (hi : Option (BitVec 25)) : Int :=
  match hi with
  | none => sgn m f
  | some h => sgn (m + 25) (h.toNat * 2 ^ m + f)

/-- An RI integer instruction with an immediate (R132). -/
def State.riFixed (s : State) (i : Instr) (d a : BitVec 7) (im : BitVec 11) (hi : Option (BitVec 25)) (op : Nat → Nat → Nat) :
    Host.Outcome State Fault Refusal :=
  s.issuePlain { instr := i, place := .both, ops := [.dst d, .src a] } fun s =>
    s.fixed intLat (s.issue.flatMap fun k =>
      s.intDst k false false d.toNat (op (s.intSrc k false false a.toNat) (wrap 32 (immOf 11 im.toNat hi))))

/-- ADDI (R132). -/
def execAddi (d a : BitVec 7) (i : BitVec 11) (hi : Option (BitVec 25)) (s : State) : Host.Outcome State Fault Refusal :=
  s.riFixed (.addi d a i hi) d a i hi (fun x y => x + y)

/-- ANDI (R132). -/
def execAndi (d a : BitVec 7) (i : BitVec 11) (hi : Option (BitVec 25)) (s : State) : Host.Outcome State Fault Refusal :=
  s.riFixed (.andi d a i hi) d a i hi (Nat.land)

/-- ORI (R132). -/
def execOri (d a : BitVec 7) (i : BitVec 11) (hi : Option (BitVec 25)) (s : State) : Host.Outcome State Fault Refusal :=
  s.riFixed (.ori d a i hi) d a i hi (Nat.lor)

/-- XORI (R132). -/
def execXori (d a : BitVec 7) (i : BitVec 11) (hi : Option (BitVec 25)) (s : State) : Host.Outcome State Fault Refusal :=
  s.riFixed (.xori d a i hi) d a i hi (Nat.xor)

/-- MOVI (R132): to a vector or uniform register, or to a pair. -/
def execMovi (d : BitVec 7) (u w : BitVec 1) (i : BitVec 11) (hi : Option (BitVec 25)) (s : State) : Host.Outcome State Fault Refusal :=
  s.issuePlain { instr := .movi d u w i hi, place := .both, ops := [intOpd (u == 1) (w == 1) d false true] } fun s =>
    s.fixed intLat ((s.actors (u == 1)).flatMap fun k => s.intDst k (u == 1) (w == 1) d.toNat (wrap 64 (immOf 11 i.toNat hi)))

/-- CMP (R135). -/
def execCmp (c : BitVec 4) (v w : BitVec 1) (p : BitVec 4) (a b : BitVec 7) (s : State) : Host.Outcome State Fault Refusal :=
  let wide := w == 1
  s.issuePlain { instr := .cmp c v w p a b, place := .both, ops := [.pdst p.toNat, .src a wide, intOpd (v == 1) wide b true false] } fun s =>
    s.fixed intLat (s.issue.map fun k =>
      .pred k p.toNat (intCond c.toNat (if wide then 64 else 32) (s.intSrc k false wide a.toNat) (s.intSrc k (v == 1) wide b.toNat)))

/-- CMPI (R114, R135). -/
def execCmpi (c p : BitVec 4) (a : BitVec 7) (i : BitVec 10) (hi : Option (BitVec 25)) (s : State) : Host.Outcome State Fault Refusal :=
  s.issuePlain { instr := .cmpi c p a i hi, place := .both, ops := [.pdst p.toNat, .src a] } fun s =>
    s.fixed intLat (s.issue.map fun k =>
      .pred k p.toNat (intCond c.toNat 32 (s.intSrc k false false a.toNat) (wrap 32 (immOf 10 i.toNat hi))))

/-- SEL (R136). -/
def execSel (p : BitVec 4) (d a b : BitVec 7) (s : State) : Host.Outcome State Fault Refusal :=
  s.issuePlain { instr := .sel p d a b, place := .both, ops := [.psrc p.toNat, .dst d, .src a, .src b] } fun s =>
    s.fixed intLat (s.issue.map fun k => s.toV k d.toNat (if s.p k p.toNat then s.v k a.toNat else s.v k b.toNat))

/-- The operands of MOV, destination first (R137). -/
def movOpds (f : Nat) (d a : BitVec 7) : List Opd :=
  if f = 0 then [.dst d, .src a]
  else if f = 1 then [.dst d, .usrc a.toNat]
  else if f = 2 then [.udst d.toNat, .src a]
  else if f = 3 then [.udst d.toNat, .usrc a.toNat]
  else if f = 4 then [.dst d, .psrc a.toNat]
  else if f = 5 then [.pdst d.toNat, .src a]
  else if f = 6 then [.dst d true, .src a true]
  else [.udst d.toNat true, .usrc a.toNat true]

/-- The writes of MOV for one thread, which stands for its group where the destination is uniform. -/
def State.movWrites (s : State) (f : Nat) (d a : BitVec 7) (k : Nat) : List RegWrite :=
  let g := (s.thr k).grp
  if f = 0 then [s.toV k d.toNat (s.v k a.toNat)]
  else if f = 1 then [s.toV k d.toNat (s.wOf k a.toNat)]
  else if f = 2 then [.ureg g d.toNat (s.v k a.toNat)]
  else if f = 3 then [.ureg g d.toNat (s.wOf k a.toNat)]
  else if f = 4 then [s.toV k d.toNat (if s.p k a.toNat then 1 else 0)]
  else if f = 5 then [.pred k d.toNat (s.v k a.toNat != 0)]
  else if f = 6 then s.toV64 k d.toNat (s.v64 k a.toNat)
  else toW64 g d.toNat (s.wOf64 k a.toNat)

/-- MOV (R137). -/
def execMov (f : BitVec 4) (d a : BitVec 7) (s : State) : Host.Outcome State Fault Refusal :=
  s.issuePlain { instr := .mov f d a, place := .both, ops := movOpds f.toNat d a } fun s =>
    s.fixed intLat ((s.actors (f == 2 || f == 3 || f == 7)).flatMap (s.movWrites f.toNat d a))

/-- PLOG (R138). -/
def execPlog (t d a b : BitVec 4) (s : State) : Host.Outcome State Fault Refusal :=
  s.issuePlain { instr := .plog t d a b, place := .both, ops := [.pdst d.toNat, .psrc a.toNat, .psrc b.toNat] } fun s =>
    s.fixed intLat (s.issue.map fun k => .pred k d.toNat (t.getLsbD (2 * b2n (s.p k a.toNat) + b2n (s.p k b.toNat))))

/-- LEA, forms 0 and 1 (R139): the index is sign-extended, or zero-extended with `n` set. -/
def execLea (n : BitVec 1) (sc : BitVec 2) (d a : BitVec 7) (g : BitVec 5) (s : State) : Host.Outcome State Fault Refusal :=
  s.issuePlain { instr := .lea n sc d a g, place := .both, ops := [.dst d true, .src a, .g g] } fun s =>
    s.fixed intLat (s.issue.flatMap fun k =>
      let x : Int := if n = 1 then ((s.v k a.toNat).toNat : Int) else sgn 32 (s.v k a.toNat).toNat
      s.toV64 k d.toNat (BitVec.ofNat 64 (wrap 64 ((s.ptrOf k g.toNat).toNat + x * 2 ^ sc.toNat))))

/-- LEA, form 2 (R139): the lane-store window address of an offset from the call-stack pointer. -/
def execLeaLs (sc : BitVec 2) (d a : BitVec 7) (s : State) : Host.Outcome State Fault Refusal :=
  s.issuePlain { instr := .leaLs sc d a, ops := [.dst d true, .src a] } fun s =>
    s.fixed intLat (s.issue.flatMap fun k =>
      s.toV64 k d.toNat (BitVec.ofNat 64 (wrap 64 ((laneBase + (s.thr k).csp : Nat) + sgn 32 (s.v k a.toNat).toNat * 2 ^ sc.toNat))))

end Sys2Proof.Machine
end

