-- ==== Sys2Proof/Machine/FpInstr.lean ====
section
/-! DEFINITION. The meanings of the floating-point and function instructions and of the activation tables (R156 to R174,
R381, R382, R409). -/

namespace Sys2Proof.Machine

/-- The format of a type field: .f32, .f64, .f16x2, .b16x2 (R159). -/
def fmtOf (t : Nat) : Fmt := if t = 0 then f32 else if t = 1 then f64 else if t = 2 then f16 else b16

/-- An operation on one element: the format, then the operands' encodings. -/
abbrev FpOp := Fmt → List Nat → Nat × Flags

/-- An operation on a register's elements: packed types compute each half and raise the union (R66, R69). -/
def onElems (t : Nat) (op : FpOp) (xs : List Nat) : Nat × Flags :=
  if t < 2 then op (fmtOf t) xs
  else
    let (l, f) := op (fmtOf t) (xs.map (· % 2 ^ 16))
    let (h, g) := op (fmtOf t) (xs.map (· / 2 ^ 16 % 2 ^ 16))
    (l + h * 2 ^ 16, f ||| g)

/-- The latency of a type's arithmetic (R156). -/
def fpLat (t : Nat) : Nat := if t = 1 then 8 else 4

/-- The results and flags of an instruction for each issued thread. -/
def State.fpResults (s : State) (t : Nat) (srcs : List (BitVec 7)) (d : BitVec 7) (op : Nat → FpOp) : List (Nat × List RegWrite × Flags) :=
  s.issue.map fun k =>
    let (x, fl) := onElems t (op k) (srcs.map fun r => s.intSrc k false (t == 1) r.toNat)
    (k, s.intDst k false (t == 1) d.toNat x, fl)

/-- A fixed-latency floating-point instruction. -/
def State.fpFixed (s : State) (i : Instr) (t : Nat) (srcs : List (BitVec 7)) (d : BitVec 7) (op : Nat → FpOp) : Host.Outcome State Fault Refusal :=
  s.issueFp { instr := i, ops := .dst d (t == 1) :: srcs.map fun r => .src r (t == 1) } 1 fun s =>
    let l := s.fpResults t srcs d op
    (s.fixed (fpLat t) (l.flatMap (·.2.1)), l.map fun e => (e.1, e.2.2))

/-- A variable-latency floating-point instruction: flags and traps come as the result lands (R158). -/
def State.fpVariable (s : State) (i : Instr) (t : Nat) (srcs : List (BitVec 7)) (d : BitVec 7) (op : Nat → FpOp) : Host.Outcome State Fault Refusal :=
  s.issuePlain { instr := i, ops := .dst d (t == 1) :: srcs.map fun r => .src r (t == 1) } fun s =>
    (s.fpResults t srcs d op).foldl (fun s e => s.variable e.1 e.2.1 e.2.2) s

/-- Operand `i` of an element operation. -/
def opnd (f : Fmt) (xs : List Nat) (i : Nat) : FVal := f.decode (xs.getD i 0)

/-- FADD (R159). -/
def execFadd (r t : BitVec 2) (d a b : BitVec 7) (s : State) : Host.Outcome State Fault Refusal :=
  s.fpFixed (.fadd r t d a b) t.toNat [a, b] d fun _ f xs => fAdd f (.ofCode r.toNat) (opnd f xs 0) (opnd f xs 1)

/-- FSUB (R159). -/
def execFsub (r t : BitVec 2) (d a b : BitVec 7) (s : State) : Host.Outcome State Fault Refusal :=
  s.fpFixed (.fsub r t d a b) t.toNat [a, b] d fun _ f xs => fSub f (.ofCode r.toNat) (opnd f xs 0) (opnd f xs 1)

/-- FMUL (R159). -/
def execFmul (r t : BitVec 2) (d a b : BitVec 7) (s : State) : Host.Outcome State Fault Refusal :=
  s.fpFixed (.fmul r t d a b) t.toNat [a, b] d fun _ f xs => fMul f (.ofCode r.toNat) (opnd f xs 0) (opnd f xs 1)

/-- FFMA (R159): D is the addend. -/
def execFfma (r t : BitVec 2) (d a b : BitVec 7) (s : State) : Host.Outcome State Fault Refusal :=
  s.fpFixed (.ffma r t d a b) t.toNat [a, b, d] d fun k f xs =>
    fFma f (.ofCode r.toNat) (s.coinFor (2 ^ 32 + k)) (opnd f xs 0) (opnd f xs 1) (opnd f xs 2)

/-- FFMAT (R160): the addend is a temporary or +0. -/
def execFfmat (c : BitVec 3) (y : BitVec 1) (d a b : BitVec 7) (s : State) : Host.Outcome State Fault Refusal :=
  let wide := y == 1
  let t : Nat := y.toNat
  let tm : BitVec 7 := BitVec.ofNat 7 (122 + c.toNat)
  s.issueFp { instr := .ffmat c y d a b
              ops := [.dst d wide, .src a wide, .src b wide] ++ (if c = 6 then [] else [.src tm wide]) } 1 fun s =>
    let l := s.issue.map fun k =>
      let f := fmtOf t
      let z := if c = 6 then 0 else s.intSrc k false wide tm.toNat
      let (x, fl) := fFma f .rne (s.coinFor (2 ^ 32 + k)) (f.decode (s.intSrc k false wide a.toNat)) (f.decode (s.intSrc k false wide b.toNat)) (f.decode z)
      (k, s.intDst k false wide d.toNat x, fl)
    (s.fixed (fpLat t) (l.flatMap (·.2.1)), l.map fun e => (e.1, e.2.2))

/-- FMIN (R162). -/
def execFmin (t : BitVec 2) (d a b : BitVec 7) (s : State) : Host.Outcome State Fault Refusal :=
  s.fpFixed (.fmin t d a b) t.toNat [a, b] d fun _ f xs => fMinMax f false (xs.getD 0 0) (xs.getD 1 0)

/-- FMAX (R162). -/
def execFmax (t : BitVec 2) (d a b : BitVec 7) (s : State) : Host.Outcome State Fault Refusal :=
  s.fpFixed (.fmax t d a b) t.toNat [a, b] d fun _ f xs => fMinMax f true (xs.getD 0 0) (xs.getD 1 0)

/-- FCMP (R161): scalar types; a 16-bit operand is bits [15:0]. -/
def execFcmp (c : BitVec 4) (t : BitVec 2) (p : BitVec 4) (a b : BitVec 7) (s : State) : Host.Outcome State Fault Refusal :=
  let wide := t == 1
  s.issueFp { instr := .fcmp c t p a b, ops := [.pdst p.toNat, .src a wide, .src b wide] } 1 fun s =>
    let f := fmtOf t.toNat
    let l := s.issue.map fun k =>
      let (x, fl) := fCompare c.toNat (f.decode (s.intSrc k false wide a.toNat % 2 ^ f.width)) (f.decode (s.intSrc k false wide b.toNat % 2 ^ f.width))
      (RegWrite.pred k p.toNat x, k, fl)
    (s.fixed (fpLat t.toNat) (l.map (·.1)), l.map fun e => (e.2.1, e.2.2))

/-- FRND (R165). -/
def execFrnd (r t : BitVec 2) (d a : BitVec 7) (s : State) : Host.Outcome State Fault Refusal :=
  s.fpFixed (.frnd r t d a) t.toNat [a] d fun _ f xs => fRound f (.ofCode r.toNat) (xs.getD 0 0)

/-- FDIV (R159). -/
def execFdiv (r t : BitVec 2) (d a b : BitVec 7) (s : State) : Host.Outcome State Fault Refusal :=
  s.fpVariable (.fdiv r t d a b) t.toNat [a, b] d fun _ f xs => fDiv f (.ofCode r.toNat) (opnd f xs 0) (opnd f xs 1)

/-- FSQRT (R159). -/
def execFsqrt (r t : BitVec 2) (d a : BitVec 7) (s : State) : Host.Outcome State Fault Refusal :=
  s.fpVariable (.fsqrt r t d a) t.toNat [a] d fun _ f xs => fSqrt f (.ofCode r.toNat) (opnd f xs 0)

/-- FSFU (R169). -/
def execFsfu (fn : BitVec 3) (d a : BitVec 7) (s : State) : Host.Outcome State Fault Refusal :=
  s.fpVariable (.fsfu fn d a) 0 [a] d fun k _ xs => sfu fn.toNat (xs.getD 0 0) (s.free * 2 ^ 40 + k)

/-- The sign operation of FSGN on one element (R163). -/
def signOp (o : Nat) (f : Fmt) (a b : Nat) : Nat :=
  let top := 2 ^ (f.width - 1)
  let mag := a % top
  let sa := bit a (f.width - 1)
  let sb := bit b (f.width - 1)
  mag + top * b2n (if o = 0 then sb else if o = 1 then !sb else if o = 2 then sa != sb else false)

/-- FSGN (R163). -/
def execFsgn (o t : BitVec 2) (d a b : BitVec 7) (s : State) : Host.Outcome State Fault Refusal :=
  s.fpFixed (.fsgn o t d a b) t.toNat (if o = 3 then [a] else [a, b]) d fun _ f xs => (signOp o.toNat f (xs.getD 0 0) (xs.getD 1 0), 0)

/-- FCLASS (R164): one register, whatever the type. -/
def execFclass (t : BitVec 2) (d a : BitVec 7) (s : State) : Host.Outcome State Fault Refusal :=
  s.issuePlain { instr := .fclass t d a, ops := [.dst d, .src a (t == 1)] } fun s =>
    s.fixed (fpLat t.toNat) (s.issue.map fun k =>
      let x := s.intSrc k false (t == 1) a.toNat
      let m := if t.toNat < 2 then fClass (fmtOf t.toNat) x
        else fClass (fmtOf t.toNat) (x % 2 ^ 16) + fClass (fmtOf t.toNat) (x / 2 ^ 16) * 2 ^ 16
      s.toV k d.toNat (BitVec.ofNat 32 m))

-- FCVT (R166 to R168).

/-- The scalar float format of a type code. -/
def fmtCode (t : Nat) : Fmt := if t = 4 then f32 else if t = 5 then f64 else if t = 6 || t = 8 then f16 else b16

/-- Whether a type code is a packed pair of halves. -/
def isPacked (t : Nat) : Bool := t == 8 || t == 9

/-- Whether a type code is 64 bits wide. -/
def isWideCode (t : Nat) : Bool := t == 2 || t == 3 || t == 5

/-- Whether A or D names a pair: a 64-bit type, or the FP32 side of a packed conversion (R167). -/
def fcvtWide (t other : Nat) : Bool := isWideCode t || (t == 4 && isPacked other)

/-- One element converted between scalar types. -/
def convertElem (dt st : Nat) (r : Rnd) (x : Nat) : Nat × Flags :=
  if st < 4 then intToF (fmtCode dt) r (if st % 2 = 0 then sgn (if st = 0 then 32 else 64) x else (x : Int))
  else if dt < 4 then fToInt (dt % 2 == 0) (if dt < 2 then 32 else 64) r ((fmtCode st).decode (x % 2 ^ (fmtCode st).width))
  else fConvert (fmtCode dt) r ((fmtCode st).decode (x % 2 ^ (fmtCode st).width))

/-- FCVT's result: an element, or two where either type is packed; `r i` is the rounding of element i. -/
def convert (dt st : Nat) (r : Nat → Rnd) (x : Nat) : Nat × Flags :=
  if isPacked dt || isPacked st then
    let ws := if isPacked st then 2 ^ 16 else 2 ^ 32
    let wd := if isPacked dt then 2 ^ 16 else 2 ^ 32
    let (a, f) := convertElem dt st (r 0) (x % ws)
    let (b, g) := convertElem dt st (r 1) (x / ws % ws)
    (a + b * wd, f ||| g)
  else convertElem dt st (r 0) x

/-- The rounding of an element: a static mode, or the Clove draw of R168. -/
def State.cvtRnd (s : State) (k : Nat) (rnd : Nat) (seed : Nat) (b : BitVec 7) (i : Nat) : Rnd :=
  if rnd = 4 then
    .rsr (cloveDraw (s.wOf k seed) (s.wOf k (seed + 1)) (s.thr k).lid (BitVec.ofNat 32 i) (s.v k b.toNat) (s.wOf k (seed + 2)))
  else .ofCode rnd

/-- FCVT (R166, R167). -/
def execFcvt (d a b : BitVec 7) (dt st : BitVec 4) (rnd : BitVec 3) (seed : BitVec 6) (s : State) : Host.Outcome State Fault Refusal :=
  let wd := fcvtWide dt.toNat st.toNat
  let ws := fcvtWide st.toNat dt.toNat
  let lat := if isWideCode dt.toNat || isWideCode st.toNat then 8 else 4
  s.issueFp { instr := .fcvt d a b dt st rnd seed
              ops := [.dst d wd, .src a ws] ++ (if rnd = 4 then [.src b, .usrc seed.toNat false 3] else []) } 2 fun s =>
    let l := s.issue.map fun k =>
      let (x, fl) := convert dt.toNat st.toNat (s.cvtRnd k rnd.toNat seed.toNat b) (s.intSrc k false ws a.toNat)
      (k, s.intDst k false wd d.toNat x, fl)
    (s.fixed lat (l.flatMap (·.2.1)), l.map fun e => (e.1, e.2.2))

-- Activation tables (R170 to R174).

/-- The image in a bank. -/
def Table.bank (t : Table) (b : Bool) : Tab Byte := if b then t.bank1 else t.bank0

/-- Whether a loaded image is malformed (R171). -/
def imageBad (im : Tab Byte) : Bool :=
  let sh := sgn 16 (tabNat im 4 2)
  field (tabNat im 0 4) 23 8 == 255 || decide (sh < -149) || decide (127 < sh) || (tabBytes im 6 10).any (· != 0)

/-- LUT's evaluation of an FP32 value on an image (R171). Where a is -0 and x0 + i * 2^s is exactly 0 the difference is taken as +0, as R67
names no zero of that sign (DEDUCED, log entry 152). -/
def lutEval (im : Tab Byte) (n : Nat) : Nat × Flags :=
  if imageBad im then (f32.nanBits, flNV)
  else
    let a := f32.decode n
    match pickNan f32 [a] with
    | some x => x
    | none =>
      let x0 := (f32.decode (tabNat im 0 4)).exact
      let sh := sgn 16 (tabNat im 4 2)
      let coef := fun (i j : Nat) => f32.decode (tabNat im (16 + 12 * i + 4 * j) 4)
      let (i, dd, f0) : Nat × FVal × Flags :=
        match a with
        | .inf neg => (if neg then 0 else 255, .inf neg, 0)
        | a =>
          let (v, e) := addExact a.exact.1 a.exact.2 (-x0.1) x0.2
          let i := floorScale v (e - sh)
          let i := if i < 0 then 0 else if 255 < i then 255 else i.toNat
          let (u, q) := addExact v e (-(i : Int)) sh
          let (r, fl) := roundSum f32 .rne a.sign false u q
          (i, f32.decode r, fl)
      let (p1, f1) := fMul f32 .rne (coef i 2) dd
      let (p2, f2) := fAdd f32 .rne (coef i 1) (f32.decode p1)
      let (p3, f3) := fMul f32 .rne (f32.decode p2) dd
      let (p4, f4) := fAdd f32 .rne (coef i 0) (f32.decode p3)
      (p4, f0 ||| f1 ||| f2 ||| f3 ||| f4)

/-- A group latches a table at its first LUT on it (R173); a bank loaded in this clk is active from the next clk on (R172). -/
def State.latchTable (s : State) (g t : Nat) : State :=
  let l := (s.grp g).latch.get {} t
  if l.latched then s
  else
    let x := (s.core (coreOfThread g)).tables.get {} t
    let now := x.at_ != some s.clk
    s.updGrp g fun y =>
      { y with latch := y.latch.put {} t { latched := true, bank := x.active == now, version := if now then x.version else x.version - 1 } }

/-- LUT (R171). It raises its flags, but no trap: R382 names LUT-table reads among what never raises FP_TRAP (DEDUCED, log entry
128). -/
def execLut (t : BitVec 2) (d a : BitVec 7) (s : State) : Host.Outcome State Fault Refusal :=
  s.issuePlain { instr := .lut t d a, ops := [.dst d, .src a] } fun s =>
    let s := s.issueGroups.foldl (fun s e => s.latchTable e.1 t.toNat) s
    let l := s.issue.map fun k =>
      let g := (s.thr k).grp
      let im := ((s.core (coreOfThread k)).tables.get {} t.toNat).bank ((s.grp g).latch.get {} t.toNat).bank
      let (x, fl) := lutEval im (s.v k a.toNat).toNat
      (k, [s.toV k d.toNat (BitVec.ofNat 32 x)], fl)
    l.foldl (fun s e => s.variable e.1 e.2.1 e.2.2 (quiet := true)) s

/-- The bank that a new load of a table fills (R409). -/
def Core.loadBank (c : Core) (t : Nat) : Bool :=
  match (c.loads.filter fun l => l.t == t).getLast? with
  | some l => !l.bank
  | none => !(c.tables.get {} t).active

/-- A result in flight whose landing another event decides. -/
def State.hold (s : State) (th : Nat) (ws : List RegWrite) : Nat × State :=
  let s := s.noteLate ws
  let r := s.run
  let (id, s) := s.newId
  (id, { s with pend := s.pend ++ [{ id := id, th := th, uid := (s.thr th).uid, run := r.id, pc := r.pc, pos := r.pos, writes := ws }] })

/-- The banks of the queued loads of a table, which take turns from the active one on (R172, R409). -/
def rebank (t : Nat) : Bool → List TableLoad → List TableLoad
  | _, [] => []
  | a, l :: r =>
    if l.t = t then
      let b := if l.begun then l.bank else !a
      { l with bank := b } :: rebank t b r
    else l :: rebank t a r

/-- The banks that the queued loads of a table are to fill and the versions that they are to deliver (R172): those that stand behind a
load that fails move up by one. -/
def State.renumber (s : State) (core t : Nat) : State :=
  let s := s.updCore core fun c => { c with loads := rebank t (c.tables.get {} t).active c.loads }
  let c := s.core core
  let ls := c.loads.filter fun l => l.t == t
  let v0 := (c.tables.get {} t).version
  let new := fun (p : Pending) => firstThat (fun (e : TableLoad × Nat) => e.1.pend.contains p.id) (ls.zip (upto 1 ls.length))
  let put := fun (v : Word) (w : RegWrite) => match w with
    | .vreg a b _ => RegWrite.vreg a b v
    | x => x
  { s with pend := s.pend.map fun p => match new p with | some e => { p with writes := p.writes.map (put (v0 + BitVec.ofNat 32 e.2)) } | none => p }

/-- The load of a table by one group: its checks, then its place in the queue (R172, R381, R409). -/
def State.lutldGroup (s : State) (t : Nat) (d : BitVec 7) (g : BitVec 5) (grp k : Nat) : Except Flt State :=
  let ks := s.issuedOf grp
  let core := coreOfThread k
  match s.checkLanes { size := 3088, align := 16, g := g.toNat, perm := 1, noDevice := true } false [(k, s.ptrOf k g.toNat)] with
  | .error f => .error f
  | .ok _ =>
    match s.engineFault (s.agentOf k) {} (s.ptrOf k g.toNat).toNat 3088 with
    | some f => .error (f.engineFlt false (s.ptrOf k g.toNat).toNat 0)
    | none =>
      let bank := (s.core core).loadBank t
      let l := (s.grp grp).latch.get {} t
      if l.latched && l.bank == bank then .error { code := 0x02, info := 0x80 + t }
      else
        let earlier := ((s.core core).loads.filter fun x => x.t == t).length
        let v := ((s.core core).tables.get {} t).version + BitVec.ofNat 32 (earlier + 1)
        let (ids, s) := ks.foldl (fun (acc : List Nat × State) m =>
          let (id, s) := acc.2.hold m [acc.2.toV m d.toNat v]
          (acc.1 ++ [id], s)) ([], s)
        .ok ((s.updCore core fun c =>
          { c with loads := c.loads ++ [{ t := t, grp := grp, ctx := s.ctxOf k, ptr := s.ptrOf k g.toNat, begun := false, bank := bank, pend := ids, image := [] }] }).poll
          (s.clk + 1) (.lutldLoadBegin core t))

/-- LUTLD (R172): once for each group of the issue set. -/
def execLutld (t : BitVec 2) (d : BitVec 7) (g : BitVec 5) (s : State) : Host.Outcome State Fault Refusal :=
  s.issueMany { instr := .lutld t d g, ops := [.dst d, .g g], det := some 0x3F } fun s =>
    s.perGroup fun s gr k => s.lutldGroup t.toNat d g gr k

/-- A queued load that cannot be completed: its threads stop at their next run boundary, each then (R381), and no bank and no
version changes. -/
def State.failLoad (s : State) (core : Nat) (l : TableLoad) (code cls info : Nat) : State :=
  let ps := s.pend.filter fun p => l.pend.contains p.id
  let s := State.updCore { s with pend := s.pend.filter fun p => !(l.pend.contains p.id) } core fun c => { c with loads := c.loads.filter (· != l) }
  let s := (s.renumber core l.t).freeDrains core
  let s := (ps.filter fun p => (s.thr p.th).live && (s.thr p.th).uid == p.uid).foldl (fun s p => s.updThr p.th fun t =>
    { t with traps := t.traps ++ [{ code := code, cls := cls, info := info, addr := l.ptr, pc := p.pc, pos := p.pos }] }) s
  s.poll (s.clk + 1) (.lutldLoadBegin core l.t)

/-- The agent of a queued load. -/
def State.loadAgent (s : State) (l : TableLoad) : Agent :=
  { unit := l.grp, ctx := l.ctx, team := some (s.grp l.grp).team, view := s.view (s.grp l.grp).team }

/-- LUTLD_LOAD_BEGIN: the first load of a table begins once no group on the core latches the inactive bank (R172, R381), which is the
one that served before the latest load from the clk after its completion on. A poisoned image ends it; it waits for lines that a Torc
step owns (R107). -/
def execLutldLoadBegin (core t : Nat) (s : State) : Host.Outcome State Fault Refusal :=
  match firstThat (fun l => l.t == t) (s.core core).loads with
  | none => .next s
  | some l =>
    let bank := !((s.core core).tables.get {} t).active
    let latched := s.groups.any fun e => e.2.live && !isCmd e.1 && coreOfThread e.1 == core
      && (let x := e.2.latch.get {} t; x.latched && x.bank == bank)
    let a := s.loadAgent l
    let waits := ((s.core core).tables.get {} t).at_ == some s.clk
      || (match s.engineHomes a {} (parts l.ptr.toNat 3088) with | .ok hs => s.torcOwns hs | .error _ => false)
    if l.begun || latched || (s.core core).saving then .next s
    else if waits then .next (s.poll (s.clk + 1) (.lutldLoadBegin core t))
    else
      match s.engineRead a l.ptr.toNat 3088 with
      | .error f => .next (s.failLoad core l f.code f.cls (f.infoWord false))
      | .ok (bs, poisoned) =>
        if poisoned then .next (s.failLoad core l 0x1C 2 0)
        else
          .next (((s.keepWay a {} l.ptr.toNat 3088).updCore core fun c =>
            { c with loads := c.loads.map fun x => if x = l then { x with begun := true, bank := bank, image := putBytes [] 0 bs } else x }).later
            (.lutldLoadComplete core t))

/-- LUTLD_LOAD_COMPLETE: the bank holds the image, the version steps, the bank becomes active from the next clk on, and the version
lands (R172). -/
def execLutldLoadComplete (core t : Nat) (s : State) : Host.Outcome State Fault Refusal :=
  match firstThat (fun l => l.t == t && l.begun) (s.core core).loads with
  | none => .next s
  | some l =>
    let s := s.updCore core fun c =>
      { c with loads := c.loads.filter (· != l)
               tables := c.tables.upd {} t fun x =>
                 { x with version := x.version + 1, active := l.bank, at_ := some s.clk
                          bank0 := if l.bank then x.bank0 else l.image, bank1 := if l.bank then l.image else x.bank1 } }
    let s := l.pend.foldl (fun s id => s.scheduleAt s.clk (.resultLands id)) s
    .next (s.poll (s.clk + 1) (.lutldLoadBegin core t))

end Sys2Proof.Machine
end

