-- ==== Sys2Proof/Machine/Lanes.lean ====
section
/-! DEFINITION. The meanings of the cross-lane instructions (R145 to R151). Each acts on every group of the issue set
separately; lane i of a group is its thread with index i. -/

namespace Sys2Proof.Machine

/-- The cross-lane latency (R58). -/
def laneLat : Nat := 6

/-- The issued threads of each group, by group. -/
def State.laneSets (s : State) : List (Nat × List Nat) := s.issueGroups.map fun e => (e.1, s.issuedOf e.1)

/-- The issued thread of a group with an index. -/
def State.laneAt (s : State) (ks : List Nat) (i : Nat) : Option Nat := firstThat (fun k => s.gi k == i) ks

/-- The value of an operand on a lane: 0 when it is not issued (R145). -/
def State.laneVal (s : State) (ks : List Nat) (wide : Bool) (n i : Nat) : Nat :=
  match s.laneAt ks i with
  | some k => s.intSrc k false wide n
  | none => 0

/-- The lane operand of LSHUF and LROT (R146). -/
def State.laneOperand (s : State) (k : Nat) (f : BitVec 2) (b : BitVec 7) (w : Nat) : Int :=
  if f = 0 then ((s.v k b.toNat).toNat : Int)
  else if f = 1 then ((s.wOf k b.toNat).toNat : Int)
  else if f = 2 then sgn 7 b.toNat
  else (w / 2 ^ (b.toNat % 8) : Nat)

/-- The operands of LSHUF and LROT. -/
def shufOpds (f : BitVec 2) (wide : Bool) (d a b : BitVec 7) : List Opd :=
  [.dst d wide, .src a wide] ++ (if f = 0 then [.src b] else if f = 1 then [.usrc b.toNat] else [])

/-- LSHUF (R146): the index form, or the exclusive-or form with `x` set. -/
def execLshuf (f : BitVec 2) (w x : BitVec 1) (d a b : BitVec 7) (s : State) : Host.Outcome State Fault Refusal :=
  let wide := w == 1
  s.issuePlain { instr := .lshuf f w x d a b, ops := shufOpds f wide d a b } fun s =>
    s.fixed laneLat (s.laneSets.flatMap fun e =>
      let n := (s.grp e.1).width
      e.2.flatMap fun k =>
        let v := (s.laneOperand k f b n % (n : Int)).toNat
        let j := if x = 1 then Nat.xor (s.gi k) v % n else v
        s.intDst k false wide d.toNat (s.laneVal e.2 wide a.toNat j))

/-- LROT (R146). -/
def execLrot (f : BitVec 2) (w : BitVec 1) (d a b : BitVec 7) (s : State) : Host.Outcome State Fault Refusal :=
  let wide := w == 1
  s.issuePlain { instr := .lrot f w d a b, ops := shufOpds f wide d a b } fun s =>
    s.fixed laneLat (s.laneSets.flatMap fun e =>
      let n := (s.grp e.1).width
      e.2.flatMap fun k =>
        let j := (((s.gi k : Int) + s.laneOperand k f b n) % (n : Int)).toNat
        s.intDst k false wide d.toNat (s.laneVal e.2 wide a.toNat j))

/-- LPUSH (R147): the lowest sender wins, and the predicate tells of a collision. -/
def execLpush (p : BitVec 4) (d a b : BitVec 7) (s : State) : Host.Outcome State Fault Refusal :=
  s.issuePlain { instr := .lpush p d a b, ops := [.pdst p.toNat, .dst d, .src a, .src b] } fun s =>
    s.fixed laneLat (s.laneSets.flatMap fun e =>
      let n := (s.grp e.1).width
      e.2.flatMap fun t =>
        match e.2.filter fun k => (s.v k b.toNat).toNat % n == s.gi t with
        | [] => [.pred t p.toNat false]
        | k :: r => [s.toV t d.toNat (s.v k a.toNat), .pred t p.toNat (!r.isEmpty)])

/-- A combine of a reduction: the result and its flags. -/
abbrev Combine := Nat → Nat → Nat × Flags

/-- The integer combines of LRED and LSCAN, codes 0 to 7 (R148). -/
def intCombine (f : Nat) (x y : Nat) : Nat :=
  if f = 0 then (x + y) % 2 ^ 32
  else if f = 1 then opMin 32 true x y 0
  else if f = 2 then opMax 32 true x y 0
  else if f = 3 then opMin 32 false x y 0
  else if f = 4 then opMax 32 false x y 0
  else if f = 5 then Nat.land x y
  else if f = 6 then Nat.lor x y
  else Nat.xor x y

/-- The combines of LRED (R148). -/
def redCombine (f : Nat) : Combine := fun x y =>
  if f < 8 then (intCombine f x y, 0)
  else if f = 8 then fAdd f32 .rne (f32.decode x) (f32.decode y)
  else if f = 9 then fMinMax f32 false x y
  else if f = 10 then fMinMax f32 true x y
  else if f = 11 then fAdd f64 .rne (f64.decode x) (f64.decode y)
  else ((x + y) % 2 ^ 64, 0)

/-- One value of a pair of lanes, either of which may be absent. -/
def joinLanes (c : Combine) : Option Nat → Option Nat → Option Nat × Flags
  | some x, some y => let (r, f) := c x y; (some r, f)
  | some x, none => (some x, 0)
  | none, y => (y, 0)

/-- One level of the tree: neighbours combine (R148). -/
def treeLevel (c : Combine) : List (Option Nat) → List (Option Nat) × Flags
  | x :: y :: r =>
    let (v, f) := joinLanes c x y
    let (l, g) := treeLevel c r
    (v :: l, f ||| g)
  | l => (l, 0)

/-- The whole tree: the value of lane 0 after every level. -/
def treeReduce (c : Combine) : Nat → List (Option Nat) → Nat × Flags
  | 0, l => (((l.headD none).getD 0), 0)
  | n + 1, l =>
    let (l, f) := treeLevel c l
    let (v, g) := treeReduce c n l
    (v, f ||| g)

/-- LRED (R148): every issued lane receives the result, and the flags of every step. -/
def execLred (f : BitVec 4) (d a : BitVec 7) (s : State) : Host.Outcome State Fault Refusal :=
  let wide := f == 11 || f == 12
  s.issueFp { instr := .lred f d a, ops := [.dst d wide, .src a wide] } 1 fun s =>
    let res := s.laneSets.map fun e =>
      let n := (s.grp e.1).width
      let vals := (upto 0 n).map fun i => (s.laneAt e.2 i).map fun k => s.intSrc k false wide a.toNat
      (e.2, treeReduce (redCombine f.toNat) 6 vals)
    (s.fixed laneLat (res.flatMap fun e => e.1.flatMap fun k => s.intDst k false wide d.toNat e.2.1),
      res.flatMap fun e => e.1.map fun k => (k, e.2.2))

/-- The identity of a scan (R149). -/
def scanIdentity (f : Nat) : Nat :=
  if f = 1 then 2 ^ 31 - 1 else if f = 2 then 2 ^ 31 else if f = 3 ∨ f = 5 then 2 ^ 32 - 1 else 0

/-- LSCAN (R149). -/
def execLscan (e : BitVec 1) (f : BitVec 3) (d a : BitVec 7) (s : State) : Host.Outcome State Fault Refusal :=
  s.issuePlain { instr := .lscan e f d a, ops := [.dst d, .src a] } fun s =>
    s.fixed laneLat (s.laneSets.flatMap fun g =>
      g.2.map fun k =>
        let below := (upto 0 (s.gi k + (if e = 1 then 0 else 1))).filterMap fun i => (s.laneAt g.2 i).map fun m => s.intSrc m false false a.toNat
        let r := match below with
          | [] => scanIdentity f.toNat
          | x :: r => r.foldl (intCombine f.toNat) x
        s.toV k d.toNat (BitVec.ofNat 32 r))

/-- The operands of VOTE (R150). -/
def voteOpds (w : BitVec 1) (f : BitVec 2) (d a : BitVec 7) : List Opd :=
  if f = 2 then [.dst d true, .psrc a.toNat]
  else if f = 3 then [.pdst d.toNat, .src a (w == 1)]
  else [.pdst d.toNat, .psrc a.toNat]

/-- The writes of VOTE for one group. -/
def State.voteWrites (s : State) (w : BitVec 1) (f : BitVec 2) (d a : BitVec 7) (ks : List Nat) : List RegWrite :=
  let any := ks.any fun k => s.p k a.toNat
  let all := ks.all fun k => s.p k a.toNat
  let mask : DWord := ks.foldl (fun m k => if s.p k a.toNat then m ||| (1#64 <<< s.gi k) else m) 0
  let vals := ks.map fun k => s.intSrc k false (w == 1) a.toNat
  let same := vals.all (· == vals.headD 0)
  ks.flatMap fun k =>
    if f = 0 then [.pred k d.toNat any]
    else if f = 1 then [.pred k d.toNat all]
    else if f = 2 then s.toV64 k d.toNat mask
    else [.pred k d.toNat same]

/-- VOTE (R150). -/
def execVote (w : BitVec 1) (f : BitVec 2) (d a : BitVec 7) (s : State) : Host.Outcome State Fault Refusal :=
  s.issuePlain { instr := .vote w f d a, ops := voteOpds w f d a } fun s =>
    s.fixed laneLat (s.laneSets.flatMap fun e => s.voteWrites w f d a e.2)

/-- LMATCH (R151). -/
def execLmatch (w : BitVec 1) (d a : BitVec 7) (s : State) : Host.Outcome State Fault Refusal :=
  let wide := w == 1
  s.issuePlain { instr := .lmatch w d a, ops := [.dst d true, .src a wide] } fun s =>
    s.fixed laneLat (s.laneSets.flatMap fun e =>
      e.2.flatMap fun k =>
        let x := s.intSrc k false wide a.toNat
        let mask : DWord := e.2.foldl (fun m j => if s.intSrc j false wide a.toNat = x then m ||| (1#64 <<< s.gi j) else m) 0
        s.toV64 k d.toNat mask)

end Sys2Proof.Machine
end

