-- ==== Sys2Proof/Machine/Matrix.lean ====
section
/-! DEFINITION. The meanings of the accumulator and tile instructions (R198 to R205, R394 to R398). -/

namespace Sys2Proof.Machine

/-- An accumulator operand. -/
def Opd.acc (n : BitVec 4) : Opd := { cls := .acc, n := n.toNat, rd := false, wr := true }

/-- A tile-register operand. -/
def Opd.tile (n : Nat) : Opd := { cls := .tile, n := n, rd := false, wr := true }

-- MMQ.

/-- Bytes of a row or column that MMQ checks at issue, and their alignment (R200, R202). -/
def mmqRow (kind : Nat) : Nat × Nat := if kind = 0 then (18, 1) else if kind = 3 then (32, 8) else (32, 2)

/-- What MMQ asks of an operand. -/
def mmqAsk (kind size : Nat) (g : BitVec 5) : Ask := { size := size, align := (mmqRow kind).2, g := g.toNat, perm := 1 }

/-- One quarter of an MMQ: its threads, the first of them, the tile and row slot, and the rows' and columns' addresses. -/
structure Quarter where
  threads : List Nat
  k : Nat
  tile : Nat
  rows : List Nat
  cols : List Nat
  deriving DecidableEq, Repr

/-- Addresses at a signed stride. -/
def strided (base : DWord) (stride : Word) (n : Nat) : List Nat :=
  (upto 0 n).map fun (i : Nat) => addrAdd base.toNat ((i : Int) * sgn 32 stride.toNat)

/-- The quarters of the issue set (R201). -/
def State.quarters (s : State) (acc : BitVec 4) (ga gb : BitVec 5) (wsa wsb : BitVec 6) : List Quarter :=
  (upto 0 8).filterMap fun q =>
    match s.issue.filter fun k => k % 64 / 8 == q with
    | [] => none
    | k :: r =>
      some { threads := k :: r, k := k, tile := s.tileNo k acc.toNat, rows := strided (s.ptrOf k ga.toNat) (s.wOf k wsa.toNat) 8
             cols := strided (s.ptrOf k gb.toNat) (s.wOf k wsb.toNat) 32 }

/-- A row or column read by the load pipe (R202, R396): its values, and whether a source byte was poisoned. -/
def State.mmqRead (s : State) (kind k : Nat) (g : BitVec 5) (isB : Bool) (idx va : Nat) : Except Flt (List FVal × Bool) :=
  let fail := fun (f : AccFault) => (f.engineFlt false va 2 : Flt)
  match s.engineCheck k (mmqAsk kind (mmqRow kind).1 g) va with
  | .error f => .error (fail f)
  | .ok _ =>
    if kind = 0 then
      let sel := ((s.engineBytes k va 1).1.getD 0 0).toNat
      if sel = 0 ∨ 6 < sel then
        .error { code := 0x02, src := 2, addr := BitVec.ofNat 64 va, info := sel + 2 ^ 8 * b2n isB + 2 ^ 9 * idx }
      else
        match s.engineCheck k (mmqAsk kind (mxLen sel) g) va with
        | .error f => .error (fail f)
        | .ok _ => let (b, p) := s.engineBytes k va (mxLen sel); .ok (mxBlock b, p)
    else
      let (b, p) := s.engineBytes k va 32
      .ok (floatRow (if kind = 1 then b16 else if kind = 2 then f16 else f64) b, p)

/-- Reads some rows or columns in order. -/
def State.mmqReads (s : State) (kind k : Nat) (g : BitVec 5) (isB : Bool) : Nat → List Nat → Except Flt (List (List FVal × Bool))
  | _, [] => .ok []
  | i, va :: r =>
    match s.mmqRead kind k g isB i va with
    | .error f => .error f
    | .ok x =>
      match s.mmqReads kind k g isB (i + 1) r with
      | .error f => .error f
      | .ok l => .ok (x :: l)

/-- One row of the tile updated by its row of A and every column of B. -/
def Acc.updateRow (a : Acc) (row : Nat) (x : List FVal) (cols : List (List FVal × Bool)) : Acc :=
  (cols.zip (upto 0 32)).foldl (fun a c => a.update (32 * row + c.2) (blockSum x c.1.1)) a

/-- The bytes of a row or column: of an MX block, as many as the selector gives that can be read (R71). -/
def State.mmqLen (s : State) (kind k : Nat) (g : BitVec 5) (va : Nat) : Nat :=
  let n := (mmqRow kind).1
  if kind != 0 then n
  else
    match s.engineCheck k (mmqAsk kind n g) va with
    | .error _ => n
    | .ok _ => let sel := ((s.engineBytes k va 1).1.getD 0 0).toNat; if sel = 0 ∨ 6 < sel then n else mxLen sel

/-- Whether some row or column lies in a line that a Torc step owns: the MMQ waits before any quarter begins (R107, R301). -/
def State.mmqWaits (s : State) (kind : Nat) (ga gb : BitVec 5) (q : Quarter) : Bool :=
  let held := fun (g : BitVec 5) va => match s.engineCheck q.k (mmqAsk kind (s.mmqLen kind q.k g va) g) va with | .error f => f.code == 0 | .ok _ => false
  q.cols.any (held gb) || q.rows.any (held ga)

/-- The translations of rows read or written stay in the TLBs of the unit (R320). -/
def State.keepRows (s : State) (k : Nat) (wr : Bool) (len : Nat) (vas : List Nat) : State :=
  vas.foldl (fun s va => s.keepWay (s.agentOf k) { w := wr } va len) s

/-- The translation of a row or column of an MMQ that was read. -/
def State.mmqKeep (s : State) (kind k : Nat) (g : BitVec 5) (va : Nat) : State := s.keepRows k false (s.mmqLen kind k g va) [va]

/-- Where a quarter stands: the state, the rows done, and the fault that stopped it. -/
structure MmqRun where
  s : State
  rows : BitVec 8
  stop : Option Flt := none
  deriving DecidableEq, Repr

/-- The rows of A in ascending order (R201). -/
def State.mmqRows (kind : Nat) (q : Quarter) (ga : BitVec 5) (slot : Nat) (cols : List (List FVal × Bool)) (i : MmqRun) : MmqRun :=
  let core := coreOfThread q.k
  (q.rows.zip (upto 0 8)).foldl (fun r e =>
    if r.stop.isSome || r.rows.getLsbD e.2 then r
    else
      match r.s.mmqRead kind q.k ga false e.2 e.1 with
      | .error f => { r with stop := some f }
      | .ok (x, p) =>
        let row := 8 * slot + e.2
        let s := r.s.setAcc core q.tile ((r.s.accOf core q.tile).updateRow row x cols)
        let bad := (upto 0 32).filter fun j => p || (cols.getD j ([], false)).2
        let s := s.markElems .acc core (bad.map (1024 * q.tile + 32 * row + ·))
        let s := s.mmqKeep kind q.k ga e.1
        { r with s := if bad.isEmpty then s else s.poisonedSource q.k 2 0, rows := r.rows ||| (1#8 <<< e.2) }) i

/-- Whether a saved mask is that of the current word: the fault it was saved under is over, and the PC and position are its own
(R395). An MMQ of the handler has masks of its own. -/
def State.mmqMine (s : State) (t : Thread) (m : MmqMask) : Bool := m.pc == s.run.pc && m.pos == s.run.pos && !(t.fids.contains m.fid)

/-- The mask a reissued MMQ starts with (R395). -/
def State.mmqMask (s : State) (k : Nat) : MmqMask :=
  ((s.thr k).mmq.find? (s.mmqMine (s.thr k))).getD { pc := s.run.pc, pos := s.run.pos, rows := 0 }

/-- Threads' mask of the current word becomes the given one, if any. -/
def State.setMmq (s : State) (m : Option MmqMask) (ks : List Nat) : State :=
  ks.foldl (fun s k => s.updThr k fun t => { t with mmq := m.toList ++ t.mmq.filter fun x => !(s.mmqMine t x) }) s

/-- Whether the trap of R397 is armed for a thread's context. -/
def State.satArmed (s : State) (k : Nat) : Bool :=
  match s.trapTable k with
  | some t => t.deliver.getLsbD 0x0F
  | none => false

/-- One quarter of an MMQ (R201, R202, R395, R397). -/
def State.mmqQuarter (s : State) (kind : Nat) (ga gb : BitVec 5) (slot : Nat) (q : Quarter) : State × Option Flt :=
  let core := coreOfThread q.k
  let m := s.mmqMask q.k
  let before := (s.accOf core q.tile).sat
  let r : MmqRun :=
    match s.mmqReads kind q.k gb true 0 q.cols with
    | .error f => { s := (q.cols.takeWhile fun va => (s.mmqRead kind q.k gb true 0 va).isOk).foldl (fun s va => s.mmqKeep kind q.k gb va) s, rows := m.rows, stop := some f }
    | .ok cols => State.mmqRows kind q ga slot cols { s := q.cols.foldl (fun s va => s.mmqKeep kind q.k gb va) s, rows := m.rows }
  let sat := m.sat || (!before && (r.s.accOf core q.tile).sat)
  match r.stop with
  | some f =>
    (r.s.setMmq (some { m with rows := r.rows, sat := sat, fid := 0 }) q.threads,
      some { f with rows := r.rows.toNat, stops := some q.threads })
  | none =>
    let s := r.s.setMmq none q.threads
    if sat && s.satArmed q.k
    then (q.threads.foldl (fun s k => s.updThr k fun t => 
      { t with traps := t.traps ++ [{ code := 0x0F, info := q.tile, rows := 0xFF, src := 2, pc := m.pc, pos := m.pos }] }) s, none)
    else (s, none)

/-- The checks 1 to 4 of every quarter (R202). -/
def State.mmqChecks (s : State) (kind : Nat) (ga gb : BitVec 5) : List Quarter → Except Flt Unit
  | [] => .ok ()
  | q :: r => do
    s.engineChecks q.k (mmqAsk kind (mmqRow kind).1 gb) true q.cols
    s.engineChecks q.k (mmqAsk kind (mmqRow kind).1 ga) true q.rows
    s.mmqChecks kind ga gb r

/-- ECC_UNCORR of the elements a quarter will update: those of the rows not yet done (R388, R395). -/
def State.mmqPoison (s : State) (q : Quarter) (slot acc : Nat) : Except Flt Unit :=
  let done := (s.mmqMask q.k).rows
  let rows := (upto 0 8).filter fun i => !done.getLsbD i
  if rows.any fun i => s.elemsPoisoned .acc (coreOfThread q.k) (1024 * q.tile + 32 * (8 * slot + i)) 32
  then .error { code := 0x1C, cls := 2, info := acc + 256 * 6 } else .ok ()

/-- The faults of one quarter do not stop the others (R202, R395): a fault before its first row keeps the mask of a reissue. -/
def State.mmqOne (kind : Nat) (ga gb : BitVec 5) (slot acc : Nat) (a : State × List Flt) (q : Quarter) : State × List Flt :=
  let stop := fun (f : Flt) => (a.1, a.2 ++ [{ f with rows := (a.1.mmqMask q.k).rows.toNat, stops := some q.threads }])
  match a.1.takeover q.k q.tile with
  | .error f => stop f
  | .ok t =>
    match t.mmqPoison q slot acc with
    | .error f => stop f
    | .ok _ =>
      match t.mmqQuarter kind ga gb slot q with
      | (t, none) => (t, a.2)
      | (t, some f) => (t, a.2 ++ [f])

/-- MMQ (R201). A failure of checks 1 to 4 at issue stops the whole issue set, which resumes with empty masks (R395); code 0
is no failure, and the word waits. -/
def execMmq (kind acc : BitVec 4) (slot : BitVec 2) (ga gb : BitVec 5) (wsa wsb : BitVec 6) (s : State) : Host.Outcome State Fault Refusal :=
  s.issueMany { instr := .mmq kind acc slot ga gb wsa wsb
                ops := [.acc acc, .g ga, .g gb, .usrc wsa.toNat, .usrc wsb.toNat] } fun s =>
    let qs := s.quarters acc ga gb wsa wsb
    match s.mmqChecks kind.toNat ga gb qs with
    | .error f => .ok (if f.code = 0 then s else s.setMmq none s.issue, [f])
    | .ok _ =>
      if qs.any (s.mmqWaits kind.toNat ga gb) then .ok (s, [{ code := 0 }])
      else .ok (qs.foldl (State.mmqOne kind.toNat ga gb slot.toNat acc.toNat) (s, []))

-- Tile instructions.

/-- ACCZ (R203). -/
def execAccz (m : BitVec 1) (acc : BitVec 4) (anchor : BitVec 16) (s : State) : Host.Outcome State Fault Refusal :=
  s.issueMany { instr := .accz m acc anchor, ops := [.acc acc] } fun s =>
    s.perGroup fun s _ k => do
      let n := s.tileNo k acc.toNat
      let t ← s.takeover k n
      .ok (t.replaceAcc (coreOfThread k) n { fix := m == 1, anchor := if m = 1 then anchor else 0, owner := some (s.ctxOf k) })

/-- Output formats of ACCDR (R204): bytes of an element. -/
def drainSize (f : Nat) : Nat := if f = 0 then 8 else if f = 1 then 4 else if f < 4 then 2 else 1

/-- The format of a drained element. -/
def drainFmt (f : Nat) : Fmt := if f = 0 then f64 else if f = 1 then f32 else if f = 2 then b16 else if f = 3 then f16 else if f = 5 then e5m2 else ⟨8, 4, 7⟩

/-- Reads a residual in the output format. -/
def drainDecode (f n : Nat) : FVal := if f = 4 then e4m3Decode n else (drainFmt f).decode n

/-- Rounds a finite magnitude to E4M3, which has no infinity (R204). -/
def roundE4m3 (r : Rnd) (neg : Bool) (m : Nat) (e : Int) : Nat :=
  let s := b2n neg * 128
  if m = 0 then s
  else
    let (k, q, _) := roundCore 4 (-6) r neg m e
    let code := if k < 8 then k else ((q + 10).toNat * 8 + (k - 8))
    s + Nat.min code 126

/-- round_fmt (R204). -/
def drainRound (f : Nat) (r : Rnd) (v : FVal) : Nat :=
  match v with
  | .nan _ _ _ => if f = 4 then 0x7F else (drainFmt f).nanBits
  | .inf neg => if f = 4 then b2n neg * 128 + 126 else (drainFmt f).infBits neg
  | .fin neg m e => if f = 4 then roundE4m3 r neg m e else (roundTo (drainFmt f) r neg m e).1

/-- round_e80 of a product or a sum of two values, as a value. -/
def e80Of (v : FVal) : FVal :=
  match v with
  | .fin neg m e => e80Decode (roundE80 neg m e)
  | .nan _ _ _ => .nan false true 0
  | .inf n => .inf n

/-- A product rounded to e80; an invalid one is NaN. -/
def e80Mul (a b : FVal) : FVal :=
  if a.isNan || b.isNan then .nan false true 0
  else match mulExact a b with | some p => e80Of p | none => .nan false true 0

/-- A sum rounded to e80. -/
def e80Add (a b : FVal) : FVal :=
  match a, b with
  | .nan _ _ _, _ => .nan false true 0
  | _, .nan _ _ _ => .nan false true 0
  | .inf x, .inf y => if x == y then .inf x else .nan false true 0
  | .inf x, _ => .inf x
  | _, .inf y => .inf y
  | .fin x m e, .fin y n g =>
    let (t, q) := addExact (smant x m) e (smant y n) g
    if t = 0 then .fin (m = 0 && n = 0 && x && y) 0 0 else e80Of (.fin (decide (t < 0)) t.natAbs q)

/-- The parameters of a drain (R204). -/
structure DrainPar where
  f : Nat
  rnd : Nat
  scl : Bool
  drop : Bool
  scale : FVal
  keep : Nat
  keepScale : FVal
  k0 : Word
  k1 : Word
  step : Word
  stream : Word
  deriving DecidableEq, Repr

/-- One output element (R204): `r` is the residual, if any. -/
def DrainPar.out (p : DrainPar) (v : FVal) (r : Option FVal) (i j : Nat) : Nat :=
  let wi : Word := BitVec.ofNat 32 i
  let wj : Word := BitVec.ofNat 32 j
  let v := if p.scl then e80Mul v p.scale else v
  let v := if p.drop then (if p.keep ≤ cloveDraw p.k0 p.k1 wi wj p.step p.stream then .fin false 0 0 else e80Mul v p.keepScale) else v
  let v := match r with | some x => e80Add v x | none => v
  drainRound p.f (if p.rnd = 4 then .rsr (cloveDraw p.k0 p.k1 wi wj p.step (p.stream ^^^ 0x80000000)) else Rnd.ofCode p.rnd) v

/-- The parameters in nine uniform registers of a group. -/
def State.drainOf (s : State) (g : Nat) (f : BitVec 4) (rnd : BitVec 3) (scl drop : BitVec 1) (wu : Nat) : DrainPar :=
  { f := f.toNat, rnd := rnd.toNat, scl := scl == 1, drop := drop == 1, scale := f32.decode (s.w g wu).toNat, keep := (s.w g (wu + 3)).toNat
    keepScale := f32.decode (s.w g (wu + 4)).toNat, k0 := s.w g (wu + 5), k1 := s.w g (wu + 6), step := s.w g (wu + 7), stream := s.w g (wu + 8) }

/-- One row of a drain, its elements in order (R204): element j of the residual is read when the elements before it have been
written. The outputs, and whether any residual element was poisoned. -/
def State.drainRow (s : State) (p : DrainPar) (tile : Acc) (i k : Nat) (rsd dst : Option Nat) : List Nat × Bool :=
  let sz := drainSize p.f
  let (_, outs, bad) := (upto 0 32).foldl (fun (a : State × List Nat × Bool) j =>
    let (t, outs, bad) := a
    let r := rsd.map fun va => t.engineBytes k (va + sz * j) sz
    let x := p.out (tile.value (32 * i + j)) (r.map fun e => drainDecode p.f (leNat e.1)) i j
    let t := match r, dst with
      | some _, some va => t.engineWrites ((t.storeHomesOf k (va + sz * j) sz).zip (leBytes sz x))
      | _, _ => t
    (t, outs ++ [x], bad || (r.map (·.2)).getD false)) (s, [], false)
  (outs, bad)

/-- ACCDR for one group (R204, R394). -/
def State.drain (s : State) (p : DrainPar) (acc : BitVec 4) (td : Bool) (a rg : BitVec 5) (res : Bool) (dstride rstride : Word) (g k : Nat) :
    Except Flt State := do
  let sz := drainSize p.f
  let core := coreOfThread k
  let n := s.tileNo k acc.toNat
  let dst := strided (s.ptrOf k a.toNat) dstride 32
  let rsd := strided (s.ptrOf k rg.toNat) rstride 32
  if td && p.f != 2 && p.f != 3 then .error { code := 0x02, info := 0x10 }
  else if p.rnd == 4 && p.f == 0 then .error { code := 0x02, info := 0x11 }
  else
    if !td then s.engineChecks k (rowAsk (32 * sz) sz a true) false dst
    if res then s.engineChecks k (rowAsk (32 * sz) sz rg false) false rsd
    if !td then s.checkWindow [(k, dst.flatMap fun va => s.storeHomesOf k va (32 * sz))]
    let s ← s.takeover k n
    s.checkElems .acc core (1024 * n) 1024 (acc.toNat + 256 * 6)
    let s := (if res then s.keepRows k false (32 * sz) rsd else s)
    let s := (if td then s else s.keepRows k true (32 * sz) dst)
    let tile := s.accOf core n
    let residual := fun (i : Nat) => if res then some (rsd.getD i 0) else none
    if td then
      let rows := (upto 0 32).map fun i => (i, s.drainRow p tile i k (residual i) none)
      let t := s.tileRows g (a.toNat % 8) rows
      .ok (if rows.any (·.2.2) then t.poisonedSource k 2 0 else t)
    else
      let (t, bad) := (upto 0 32).foldl (fun (x : State × Bool) i =>
        let va := dst.getD i 0
        let (outs, bad) := x.1.drainRow p tile i k (residual i) (some va)
        let t := x.1.engineStore k va (outs.flatMap fun x => leBytes sz x)
        (if bad then (t.storeHomesOf k va (32 * sz)).foldl (fun t h => t.markPoison h 1) t else t, x.2 || bad)) (s, false)
      .ok (if bad then t.poisonedSource k 2 0 else t)

/-- ACCDR (R204). -/
def execAccdr (f acc : BitVec 4) (td : BitVec 1) (a rg : BitVec 5) (res : BitVec 1) (rnd : BitVec 3) (scl drop : BitVec 1) (wu : BitVec 6) (s : State) :
    Host.Outcome State Fault Refusal :=
  s.issueMany { instr := .accdr f acc td a rg res rnd scl drop wu
                ops := [.acc acc, if td == 1 then .tile a.toNat else .g a] ++ (if res == 1 then [.g rg] else []) ++ [.usrc wu.toNat false 9] } fun s =>
    s.perGroup fun s g k =>
      s.drain (s.drainOf g f rnd scl drop wu.toNat) acc (td == 1) a rg (res == 1) (s.w g (wu.toNat + 1)) (s.w g (wu.toNat + 2)) g k

/-- ACCSV.save (R205). -/
def execAccsvSave (acc : BitVec 4) (g : BitVec 5) (s : State) : Host.Outcome State Fault Refusal :=
  s.issueMany { instr := .accsvSave acc g, ops := [.acc acc, .g g] } fun s =>
    s.perGroup fun s _ k => do
      let n := s.tileNo k acc.toNat
      let c := coreOfThread k
      let va := (s.ptrOf k g.toNat).toNat
      s.engineChecks k (rowAsk 10256 16 g true) false [va]
      s.checkWindow [(k, s.storeHomesOf k va 10256)]
      let s ← s.takeover k n
      s.checkElems .acc c (1024 * n) 1024 (acc.toNat + 256 * 6)
      .ok ((s.keepRows k true 10256 [va]).engineStore k va ((s.accOf c n).image 0))

/-- ACCSV.load (R205): the header is read before the elements (R394). -/
def execAccsvLoad (acc : BitVec 4) (g : BitVec 5) (s : State) : Host.Outcome State Fault Refusal :=
  s.issueMany { instr := .accsvLoad acc g, ops := [.acc acc, .g g] } fun s =>
    s.perGroup fun s _ k => do
      let n := s.tileNo k acc.toNat
      let c := coreOfThread k
      let va := (s.ptrOf k g.toNat).toNat
      s.engineChecks k (rowAsk 10256 16 g false) false [va]
      let (b, _) := s.engineBytes k va 10256
      let h := b.drop 10240
      let s := s.keepRows k false 10256 [va]
      if 1 < (h.getD 0 0).toNat ∨ (h.drop 4).any (· != 0) then .error { code := 0x02, info := 0x12 }
      else
        let bad := s.imageBad (s.agentOf k) va
        let s ← s.takeover k n
        let s := s.replaceAcc c n (accOfImage b (some (s.ctxOf k))) bad
        .ok (if bad.isEmpty then s else s.poisonedSource k 2 0)

/-- TLD (R205). -/
def execTld (t : BitVec 3) (g : BitVec 5) (ws : BitVec 6) (s : State) : Host.Outcome State Fault Refusal :=
  s.issueMany { instr := .tld t g ws, ops := [.tile t.toNat, .g g, .usrc ws.toNat] } fun s =>
    s.perGroup fun s gr k => do
      let rows := strided (s.ptrOf k g.toNat) (s.w gr ws.toNat) 32
      s.engineChecks k (rowAsk 64 2 g false) false rows
      let data := (rows.zip (upto 0 32)).map fun e =>
        let (b, bad) := s.engineBytes k e.1 64
        (e.2, (upto 0 32).map fun j => leNat ((b.drop (2 * j)).take 2), bad)
      let s := (s.keepRows k false 64 rows).tileRows gr t.toNat data
      .ok (if data.any (·.2.2) then s.poisonedSource k 2 0 else s)

/-- TST (R205). -/
def execTst (t : BitVec 3) (g : BitVec 5) (ws : BitVec 6) (s : State) : Host.Outcome State Fault Refusal :=
  s.issueMany { instr := .tst t g ws, ops := [.tile t.toNat, .g g, .usrc ws.toNat] } fun s =>
    s.perGroup fun s gr k => do
      let rows := strided (s.ptrOf k g.toNat) (s.w gr ws.toNat) 32
      s.engineChecks k (rowAsk 64 2 g true) false rows
      s.checkWindow [(k, rows.flatMap fun va => s.storeHomesOf k va 64)]
      if s.tileBad gr t.toNat then .error { code := 0x1C, cls := 2, info := t.toNat + 256 * 5 }
      let b := s.tileBytes gr t.toNat
      let s := s.keepRows k true 64 rows
      .ok ((rows.zip (upto 0 32)).foldl (fun s e => s.engineStore k e.1 ((b.drop (64 * e.2)).take 64)) s)

/-- The value ACCRD returns for one element (R205). -/
def Acc.read (a : Acc) (f : Nat) (i : Nat) : Nat :=
  let raw := (a.el.get 0 i).toNat
  if f = 2 then raw % 2 ^ 64
  else if f = 3 then raw / 2 ^ 64
  else
    let fmt := if f = 0 then f32 else f64
    match a.value i with
    | .nan _ _ _ => fmt.nanBits
    | .inf n => fmt.infBits n
    | .fin n m e => (roundTo fmt .rne n m e).1

/-- ACCRD (R205). -/
def execAccrd (f : BitVec 2) (d a : BitVec 7) (acc : BitVec 4) (s : State) : Host.Outcome State Fault Refusal :=
  let wide := f == 1 || f == 2
  s.issueMany { instr := .accrd f d a acc, ops := [.dst d wide, .src a, .acc acc] } fun s =>
    s.perGroup fun s g k => do
      let n := s.tileNo k acc.toNat
      let c := coreOfThread k
      let s ← s.takeover k n
      let elem := fun (k : Nat) => let x := (s.v k a.toNat).toNat; 32 * field x 0 5 + field x 8 5
      match firstThat (fun k => s.elemsPoisoned .acc c (1024 * n + elem k) 1) (s.issuedOf g) with
      | some _ => .error { code := 0x1C, cls := 2, info := acc.toNat + 256 * 6 }
      | none =>
        .ok ((s.issuedOf g).foldl (fun t k =>
          let x := (s.accOf c n).read f.toNat (elem k)
          t.variable k (if wide then s.toV64 k d.toNat (BitVec.ofNat 64 x) else [s.toV k d.toNat (BitVec.ofNat 32 x)])) s)

end Sys2Proof.Machine
end

