-- ==== Sys2Proof/Machine/Dispatch.lean ====
section
/-! DEFINITION. One arm for each constructor of Instr: a direct call of its meaning. -/

namespace Sys2Proof.Machine

/-- Performs one instruction or event. -/
def exec (i : Instr) (s : State) : Host.Outcome State Fault Refusal :=
  match i with
  | .powerOn x0 => Sys2Proof.Machine.execPowerOn x0 s
  | .bootStepWatchdog => Sys2Proof.Machine.execBootStepWatchdog s
  | .heartbeatTick => Sys2Proof.Machine.execHeartbeatTick s
  | .sleepWake x0 => Sys2Proof.Machine.execSleepWake x0 s
  | .balancerInterval x0 => Sys2Proof.Machine.execBalancerInterval x0 s
  | .i3cRefresh x0 x1 x2 x3 x4 x5 => Sys2Proof.Machine.execI3cRefresh x0 x1 x2 x3 x4 x5 s
  | .pickerDecision x0 => Sys2Proof.Machine.execPickerDecision x0 s
  | .runIssue x0 => Sys2Proof.Machine.execRunIssue x0 s
  | .resultLands x0 => Sys2Proof.Machine.execResultLands x0 s
  | .teamPlace x0 => Sys2Proof.Machine.execTeamPlace x0 s
  | .handoverComplete x0 x1 => Sys2Proof.Machine.execHandoverComplete x0 x1 s
  | .teamFinishComplete x0 => Sys2Proof.Machine.execTeamFinishComplete x0 s
  | .barrierRelease x0 x1 x2 => Sys2Proof.Machine.execBarrierRelease x0 x1 x2 s
  | .publicationComplete x0 => Sys2Proof.Machine.execPublicationComplete x0 s
  | .fencescComplete x0 => Sys2Proof.Machine.execFencescComplete x0 s
  | .bankAluBinUpdate x0 => Sys2Proof.Machine.execBankAluBinUpdate x0 s
  | .lutldLoadBegin x0 x1 => Sys2Proof.Machine.execLutldLoadBegin x0 x1 s
  | .lutldLoadComplete x0 x1 => Sys2Proof.Machine.execLutldLoadComplete x0 x1 s
  | .copyCmdIssue x0 x1 => Sys2Proof.Machine.execCopyCmdIssue x0 x1 s
  | .copyCmdComplete x0 x1 => Sys2Proof.Machine.execCopyCmdComplete x0 x1 s
  | .ccopyComplete x0 => Sys2Proof.Machine.execCcopyComplete x0 s
  | .tapeSyncComplete x0 => Sys2Proof.Machine.execTapeSyncComplete x0 s
  | .pipelineResident x0 x1 => Sys2Proof.Machine.execPipelineResident x0 x1 s
  | .coreSave x0 => Sys2Proof.Machine.execCoreSave x0 s
  | .coreRestore x0 => Sys2Proof.Machine.execCoreRestore x0 s
  | .torcStep x0 x1 => Sys2Proof.Machine.execTorcStep x0 x1 s
  | .torcChunkArrival x0 x1 x2 x3 x4 x5 => Sys2Proof.Machine.execTorcChunkArrival x0 x1 x2 x3 x4 x5 s
  | .torcAbortReceive x0 x1 x2 x3 => Sys2Proof.Machine.execTorcAbortReceive x0 x1 x2 x3 s
  | .collTimeout x0 x1 => Sys2Proof.Machine.execCollTimeout x0 x1 s
  | .poolTimeout x0 x1 => Sys2Proof.Machine.execPoolTimeout x0 x1 s
  | .detCommit x0 => Sys2Proof.Machine.execDetCommit x0 s
  | .hostCxlMemAccess x0 x1 x2 => Sys2Proof.Machine.execHostCxlMemAccess x0 x1 x2 s
  | .hostSnoop x0 => Sys2Proof.Machine.execHostSnoop x0 s
  | .eccUncorrectable x0 x1 x2 => Sys2Proof.Machine.execEccUncorrectable x0 x1 x2 s
  | .meshLinkError x0 x1 => Sys2Proof.Machine.execMeshLinkError x0 x1 s
  | .hostPortDown => Sys2Proof.Machine.execHostPortDown s
  | .hostPortRetrained => Sys2Proof.Machine.execHostPortRetrained s
  | .hostRetrainTimeout => Sys2Proof.Machine.execHostRetrainTimeout s
  | .ualinkPortDown x0 x1 => Sys2Proof.Machine.execUalinkPortDown x0 x1 s
  | .poolPortDown => Sys2Proof.Machine.execPoolPortDown s
  | .mailboxWatchdog => Sys2Proof.Machine.execMailboxWatchdog s
  | .overrunClear => Sys2Proof.Machine.execOverrunClear s
  | .mailboxWrite x0 x1 => Sys2Proof.Machine.execMailboxWrite x0 x1 s
  | .ident => Sys2Proof.Machine.execIdent s
  | .resync => Sys2Proof.Machine.execResync s
  | .ctxnew => Sys2Proof.Machine.execCtxnew s
  | .ctxdel => Sys2Proof.Machine.execCtxdel s
  | .resume => Sys2Proof.Machine.execResume s
  | .ctxmapDieShared => Sys2Proof.Machine.execCtxmapDieShared s
  | .ctxmapQueueBind => Sys2Proof.Machine.execCtxmapQueueBind s
  | .ctxmapCounters => Sys2Proof.Machine.execCtxmapCounters s
  | .ctxmapSemGrant => Sys2Proof.Machine.execCtxmapSemGrant s
  | .ctxmapInvalidate => Sys2Proof.Machine.execCtxmapInvalidate s
  | .cmdstart => Sys2Proof.Machine.execCmdstart s
  | .cmdstop => Sys2Proof.Machine.execCmdstop s
  | .preempt => Sys2Proof.Machine.execPreempt s
  | .poolcfg => Sys2Proof.Machine.execPoolcfg s
  | .attest => Sys2Proof.Machine.execAttest s
  | .measureRead => Sys2Proof.Machine.execMeasureRead s
  | .measureExtend => Sys2Proof.Machine.execMeasureExtend s
  | .fwlog => Sys2Proof.Machine.execFwlog s
  | .degrade => Sys2Proof.Machine.execDegrade s
  | .reset => Sys2Proof.Machine.execReset s
  | .nop => Sys2Proof.Machine.execNop s
  | .add x0 x1 x2 x3 => Sys2Proof.Machine.execAdd x0 x1 x2 x3 s
  | .sub x0 x1 x2 x3 => Sys2Proof.Machine.execSub x0 x1 x2 x3 s
  | .addi x0 x1 x2 x3 => Sys2Proof.Machine.execAddi x0 x1 x2 x3 s
  | .mul x0 x1 x2 x3 => Sys2Proof.Machine.execMul x0 x1 x2 x3 s
  | .mulh x0 x1 x2 x3 => Sys2Proof.Machine.execMulh x0 x1 x2 x3 s
  | .mad x0 x1 x2 x3 => Sys2Proof.Machine.execMad x0 x1 x2 x3 s
  | .and x0 x1 x2 x3 => Sys2Proof.Machine.execAnd x0 x1 x2 x3 s
  | .or x0 x1 x2 x3 => Sys2Proof.Machine.execOr x0 x1 x2 x3 s
  | .xor x0 x1 x2 x3 => Sys2Proof.Machine.execXor x0 x1 x2 x3 s
  | .andi x0 x1 x2 x3 => Sys2Proof.Machine.execAndi x0 x1 x2 x3 s
  | .ori x0 x1 x2 x3 => Sys2Proof.Machine.execOri x0 x1 x2 x3 s
  | .xori x0 x1 x2 x3 => Sys2Proof.Machine.execXori x0 x1 x2 x3 s
  | .shl x0 x1 x2 x3 => Sys2Proof.Machine.execShl x0 x1 x2 x3 s
  | .shr x0 x1 x2 x3 => Sys2Proof.Machine.execShr x0 x1 x2 x3 s
  | .sar x0 x1 x2 x3 => Sys2Proof.Machine.execSar x0 x1 x2 x3 s
  | .rot x0 x1 x2 x3 => Sys2Proof.Machine.execRot x0 x1 x2 x3 s
  | .bfx x0 x1 x2 x3 => Sys2Proof.Machine.execBfx x0 x1 x2 x3 s
  | .bfi x0 x1 x2 x3 => Sys2Proof.Machine.execBfi x0 x1 x2 x3 s
  | .bitc x0 x1 x2 x3 => Sys2Proof.Machine.execBitc x0 x1 x2 x3 s
  | .min x0 x1 x2 x3 x4 x5 => Sys2Proof.Machine.execMin x0 x1 x2 x3 x4 x5 s
  | .max x0 x1 x2 x3 x4 x5 => Sys2Proof.Machine.execMax x0 x1 x2 x3 x4 x5 s
  | .cmp x0 x1 x2 x3 x4 x5 => Sys2Proof.Machine.execCmp x0 x1 x2 x3 x4 x5 s
  | .cmpi x0 x1 x2 x3 x4 => Sys2Proof.Machine.execCmpi x0 x1 x2 x3 x4 s
  | .sel x0 x1 x2 x3 => Sys2Proof.Machine.execSel x0 x1 x2 x3 s
  | .mov x0 x1 x2 => Sys2Proof.Machine.execMov x0 x1 x2 s
  | .movi x0 x1 x2 x3 x4 => Sys2Proof.Machine.execMovi x0 x1 x2 x3 x4 s
  | .div x0 x1 x2 x3 => Sys2Proof.Machine.execDiv x0 x1 x2 x3 s
  | .rem x0 x1 x2 x3 => Sys2Proof.Machine.execRem x0 x1 x2 x3 s
  | .lea x0 x1 x2 x3 x4 => Sys2Proof.Machine.execLea x0 x1 x2 x3 x4 s
  | .leaLs x0 x1 x2 => Sys2Proof.Machine.execLeaLs x0 x1 x2 s
  | .plog x0 x1 x2 x3 => Sys2Proof.Machine.execPlog x0 x1 x2 x3 s
  | .br x0 x1 x2 => Sys2Proof.Machine.execBr x0 x1 x2 s
  | .bri x0 x1 x2 => Sys2Proof.Machine.execBri x0 x1 x2 s
  | .call x0 x1 x2 => Sys2Proof.Machine.execCall x0 x1 x2 s
  | .calli x0 x1 x2 => Sys2Proof.Machine.execCalli x0 x1 x2 s
  | .ret x0 x1 => Sys2Proof.Machine.execRet x0 x1 s
  | .exit x0 x1 => Sys2Proof.Machine.execExit x0 x1 s
  | .yield x0 x1 => Sys2Proof.Machine.execYield x0 x1 s
  | .winb x0 x1 => Sys2Proof.Machine.execWinb x0 x1 s
  | .lshuf x0 x1 x2 x3 x4 x5 => Sys2Proof.Machine.execLshuf x0 x1 x2 x3 x4 x5 s
  | .lpush x0 x1 x2 x3 => Sys2Proof.Machine.execLpush x0 x1 x2 x3 s
  | .lrot x0 x1 x2 x3 x4 => Sys2Proof.Machine.execLrot x0 x1 x2 x3 x4 s
  | .lred x0 x1 x2 => Sys2Proof.Machine.execLred x0 x1 x2 s
  | .lscan x0 x1 x2 x3 => Sys2Proof.Machine.execLscan x0 x1 x2 x3 s
  | .vote x0 x1 x2 x3 => Sys2Proof.Machine.execVote x0 x1 x2 x3 s
  | .lmatch x0 x1 x2 => Sys2Proof.Machine.execLmatch x0 x1 x2 s
  | .fadd x0 x1 x2 x3 x4 => Sys2Proof.Machine.execFadd x0 x1 x2 x3 x4 s
  | .fsub x0 x1 x2 x3 x4 => Sys2Proof.Machine.execFsub x0 x1 x2 x3 x4 s
  | .fmul x0 x1 x2 x3 x4 => Sys2Proof.Machine.execFmul x0 x1 x2 x3 x4 s
  | .ffma x0 x1 x2 x3 x4 => Sys2Proof.Machine.execFfma x0 x1 x2 x3 x4 s
  | .ffmat x0 x1 x2 x3 x4 => Sys2Proof.Machine.execFfmat x0 x1 x2 x3 x4 s
  | .fmin x0 x1 x2 x3 => Sys2Proof.Machine.execFmin x0 x1 x2 x3 s
  | .fmax x0 x1 x2 x3 => Sys2Proof.Machine.execFmax x0 x1 x2 x3 s
  | .fcmp x0 x1 x2 x3 x4 => Sys2Proof.Machine.execFcmp x0 x1 x2 x3 x4 s
  | .fcvt x0 x1 x2 x3 x4 x5 x6 => Sys2Proof.Machine.execFcvt x0 x1 x2 x3 x4 x5 x6 s
  | .frnd x0 x1 x2 x3 => Sys2Proof.Machine.execFrnd x0 x1 x2 x3 s
  | .fdiv x0 x1 x2 x3 x4 => Sys2Proof.Machine.execFdiv x0 x1 x2 x3 x4 s
  | .fsqrt x0 x1 x2 x3 => Sys2Proof.Machine.execFsqrt x0 x1 x2 x3 s
  | .fsfu x0 x1 x2 => Sys2Proof.Machine.execFsfu x0 x1 x2 s
  | .fsgn x0 x1 x2 x3 x4 => Sys2Proof.Machine.execFsgn x0 x1 x2 x3 x4 s
  | .fclass x0 x1 x2 => Sys2Proof.Machine.execFclass x0 x1 x2 s
  | .lut x0 x1 x2 => Sys2Proof.Machine.execLut x0 x1 x2 s
  | .lutld x0 x1 x2 => Sys2Proof.Machine.execLutld x0 x1 x2 s
  | .ld x0 x1 x2 x3 => Sys2Proof.Machine.execLd x0 x1 x2 x3 s
  | .st x0 x1 x2 x3 => Sys2Proof.Machine.execSt x0 x1 x2 x3 s
  | .lds x0 x1 x2 x3 x4 => Sys2Proof.Machine.execLds x0 x1 x2 x3 x4 s
  | .sts x0 x1 x2 x3 x4 => Sys2Proof.Machine.execSts x0 x1 x2 x3 x4 s
  | .ldx x0 x1 x2 x3 x4 => Sys2Proof.Machine.execLdx x0 x1 x2 x3 x4 s
  | .stx x0 x1 x2 x3 x4 => Sys2Proof.Machine.execStx x0 x1 x2 x3 x4 s
  | .atom x0 x1 x2 x3 x4 x5 x6 => Sys2Proof.Machine.execAtom x0 x1 x2 x3 x4 x5 x6 s
  | .acas x0 x1 x2 x3 x4 x5 x6 x7 => Sys2Proof.Machine.execAcas x0 x1 x2 x3 x4 x5 x6 x7 s
  | .fatom x0 x1 x2 x3 x4 x5 x6 => Sys2Proof.Machine.execFatom x0 x1 x2 x3 x4 x5 x6 s
  | .gadd x0 x1 x2 x3 x4 => Sys2Proof.Machine.execGadd x0 x1 x2 x3 x4 s
  | .phase x0 => Sys2Proof.Machine.execPhase x0 s
  | .phasePub x0 => Sys2Proof.Machine.execPhasePub x0 s
  | .phaseAcq x0 => Sys2Proof.Machine.execPhaseAcq x0 s
  | .fencesc => Sys2Proof.Machine.execFencesc s
  | .gset x0 x1 x2 x3 x4 x5 => Sys2Proof.Machine.execGset x0 x1 x2 x3 x4 x5 s
  | .gadv x0 x1 x2 x3 => Sys2Proof.Machine.execGadv x0 x1 x2 x3 s
  | .gget x0 x1 x2 => Sys2Proof.Machine.execGget x0 x1 x2 s
  | .gptr x0 x1 => Sys2Proof.Machine.execGptr x0 x1 s
  | .barSync x0 x1 => Sys2Proof.Machine.execBarSync x0 x1 s
  | .barArrive x0 x1 => Sys2Proof.Machine.execBarArrive x0 x1 s
  | .barWait x0 x1 => Sys2Proof.Machine.execBarWait x0 x1 s
  | .slwait x0 x1 => Sys2Proof.Machine.execSlwait x0 x1 s
  | .slrel x0 x1 => Sys2Proof.Machine.execSlrel x0 x1 s
  | .slfree x0 x1 => Sys2Proof.Machine.execSlfree x0 x1 s
  | .slcommit x0 x1 => Sys2Proof.Machine.execSlcommit x0 x1 s
  | .mmq x0 x1 x2 x3 x4 x5 x6 => Sys2Proof.Machine.execMmq x0 x1 x2 x3 x4 x5 x6 s
  | .accz x0 x1 x2 => Sys2Proof.Machine.execAccz x0 x1 x2 s
  | .accdr x0 x1 x2 x3 x4 x5 x6 x7 x8 x9 => Sys2Proof.Machine.execAccdr x0 x1 x2 x3 x4 x5 x6 x7 x8 x9 s
  | .accsvSave x0 x1 => Sys2Proof.Machine.execAccsvSave x0 x1 s
  | .accsvLoad x0 x1 => Sys2Proof.Machine.execAccsvLoad x0 x1 s
  | .tld x0 x1 x2 => Sys2Proof.Machine.execTld x0 x1 x2 s
  | .tst x0 x1 x2 => Sys2Proof.Machine.execTst x0 x1 x2 s
  | .accrd x0 x1 x2 x3 => Sys2Proof.Machine.execAccrd x0 x1 x2 x3 s
  | .binctlDecl x0 x1 => Sys2Proof.Machine.execBinctlDecl x0 x1 s
  | .binctlFin x0 x1 x2 => Sys2Proof.Machine.execBinctlFin x0 x1 x2 s
  | .binctlFinclr x0 x1 x2 => Sys2Proof.Machine.execBinctlFinclr x0 x1 x2 s
  | .binctlFree x0 => Sys2Proof.Machine.execBinctlFree x0 s
  | .rast x0 x1 x2 x3 x4 x5 => Sys2Proof.Machine.execRast x0 x1 x2 x3 x4 x5 s
  | .rastg x0 x1 x2 x3 x4 x5 x6 => Sys2Proof.Machine.execRastg x0 x1 x2 x3 x4 x5 x6 s
  | .edgs x0 x1 x2 x3 x4 => Sys2Proof.Machine.execEdgs x0 x1 x2 x3 x4 s
  | .tex x0 x1 x2 x3 => Sys2Proof.Machine.execTex x0 x1 x2 x3 s
  | .texg x0 x1 x2 x3 x4 => Sys2Proof.Machine.execTexg x0 x1 x2 x3 x4 s
  | .texl x0 x1 x2 => Sys2Proof.Machine.execTexl x0 x1 x2 s
  | .texb x0 x1 x2 x3 x4 => Sys2Proof.Machine.execTexb x0 x1 x2 x3 x4 s
  | .rrecDim x0 x1 x2 => Sys2Proof.Machine.execRrecDim x0 x1 x2 s
  | .rrecFmt x0 x1 => Sys2Proof.Machine.execRrecFmt x0 x1 s
  | .rrecInv => Sys2Proof.Machine.execRrecInv s
  | .rqinit x0 x1 x2 x3 x4 x5 x6 => Sys2Proof.Machine.execRqinit x0 x1 x2 x3 x4 x5 x6 s
  | .rqproc x0 x1 x2 => Sys2Proof.Machine.execRqproc x0 x1 x2 s
  | .rqcand x0 x1 x2 x3 => Sys2Proof.Machine.execRqcand x0 x1 x2 x3 s
  | .rqcommit x0 x1 x2 => Sys2Proof.Machine.execRqcommit x0 x1 x2 s
  | .rqabort x0 => Sys2Proof.Machine.execRqabort x0 s
  | .rqres x0 x1 x2 x3 => Sys2Proof.Machine.execRqres x0 x1 x2 x3 s
  | .rqgrad x0 x1 x2 x3 x4 x5 x6 => Sys2Proof.Machine.execRqgrad x0 x1 x2 x3 x4 x5 x6 s
  | .rqtri x0 x1 x2 x3 x4 x5 => Sys2Proof.Machine.execRqtri x0 x1 x2 x3 x4 x5 s
  | .trec x0 x1 x2 => Sys2Proof.Machine.execTrec x0 x1 x2 s
  | .tpop x0 x1 => Sys2Proof.Machine.execTpop x0 x1 s
  | .tmarkOpen x0 x1 => Sys2Proof.Machine.execTmarkOpen x0 x1 s
  | .tmarkClose => Sys2Proof.Machine.execTmarkClose s
  | .tctlBind x0 => Sys2Proof.Machine.execTctlBind x0 s
  | .tctlStat x0 => Sys2Proof.Machine.execTctlStat x0 s
  | .tctlSeek x0 => Sys2Proof.Machine.execTctlSeek x0 s
  | .tctlSync => Sys2Proof.Machine.execTctlSync s
  | .rsvupd x0 x1 x2 => Sys2Proof.Machine.execRsvupd x0 x1 x2 s
  | .rsvmrg x0 x1 x2 x3 => Sys2Proof.Machine.execRsvmrg x0 x1 x2 x3 s
  | .rsvinit x0 => Sys2Proof.Machine.execRsvinit x0 s
  | .rsvfin x0 x1 => Sys2Proof.Machine.execRsvfin x0 x1 s
  | .rsvget x0 x1 x2 => Sys2Proof.Machine.execRsvget x0 x1 x2 s
  | .rsvset x0 x1 x2 => Sys2Proof.Machine.execRsvset x0 x1 x2 s
  | .clove x0 x1 x2 x3 x4 => Sys2Proof.Machine.execClove x0 x1 x2 x3 x4 s
  | .spawn x0 x1 x2 x3 => Sys2Proof.Machine.execSpawn x0 x1 x2 x3 s
  | .tqadd x0 x1 x2 x3 => Sys2Proof.Machine.execTqadd x0 x1 x2 x3 s
  | .tqget x0 x1 => Sys2Proof.Machine.execTqget x0 x1 s
  | .depopSet x0 x1 x2 => Sys2Proof.Machine.execDepopSet x0 x1 x2 s
  | .depopAdd x0 x1 x2 => Sys2Proof.Machine.execDepopAdd x0 x1 x2 s
  | .depopGet x0 x1 => Sys2Proof.Machine.execDepopGet x0 x1 s
  | .spush x0 x1 x2 => Sys2Proof.Machine.execSpush x0 x1 x2 s
  | .spop x0 x1 => Sys2Proof.Machine.execSpop x0 x1 s
  | .sctlClose x0 => Sys2Proof.Machine.execSctlClose x0 s
  | .sctlStat x0 x1 => Sys2Proof.Machine.execSctlStat x0 x1 s
  | .sysr x0 x1 x2 x3 => Sys2Proof.Machine.execSysr x0 x1 x2 x3 s
  | .sysw x0 x1 x2 x3 => Sys2Proof.Machine.execSysw x0 x1 x2 x3 s
  | .trap x0 => Sys2Proof.Machine.execTrap x0 s
  | .icinv => Sys2Proof.Machine.execIcinv s
  | .sleep x0 x1 x2 => Sys2Proof.Machine.execSleep x0 x1 x2 s
  | .fwret => Sys2Proof.Machine.execFwret s
  | .cpxLaunch x0 x1 x2 x3 x4 x5 => Sys2Proof.Machine.execCpxLaunch x0 x1 x2 x3 x4 x5 s
  | .cpxSemwait x0 x1 x2 x3 => Sys2Proof.Machine.execCpxSemwait x0 x1 x2 x3 s
  | .cpxSemsig x0 x1 => Sys2Proof.Machine.execCpxSemsig x0 x1 s
  | .cpxSemadd x0 x1 x2 => Sys2Proof.Machine.execCpxSemadd x0 x1 x2 s
  | .cpxCcopy x0 x1 x2 x3 x4 x5 x6 => Sys2Proof.Machine.execCpxCcopy x0 x1 x2 x3 x4 x5 x6 s
  | .cpxIrq x0 => Sys2Proof.Machine.execCpxIrq x0 s
  | .cpxChalt => Sys2Proof.Machine.execCpxChalt s
  | .submit x0 => Sys2Proof.Machine.execSubmit x0 s
  | .msixVectorUnmask x0 => Sys2Proof.Machine.execMsixVectorUnmask x0 s

end Sys2Proof.Machine
end

