-- ==== Sys2Proof/Machine/Step.lean ====
section
/-! DEFINITION. One step of the package: the next thing due, an event of the agenda or a move of an issuer. -/

namespace Sys2Proof.Machine

/-- An issuer becomes the one that acts, at its clk; the fixed-latency results due land. -/
def State.begin (s : State) (t iss : Nat) : State := State.landFixed { s with clk := Nat.max s.clk t, cur := iss }

/-- One word of a run: decoded, performed, and passed. -/
def State.word (s : State) (iss : Nat) (r : Run) : Host.Outcome State Fault Refusal :=
  match decode (r.words.drop (r.pos - 1)) with
  | .error e => .next (s.undecoded (r.words.getD (r.pos - 1) 0) e)
  | .ok (i, n) =>
    match exec i s with
    | .next t => .next (t.advance iss n)
    | .fault f => .fault f
    | .refused f => .refused f

/-- A move of an issuer: a word of its run, the start of a run, or a decision of its picker. -/
def State.moveIssuer (s : State) (t iss : Nat) : Host.Outcome State Fault Refusal :=
  match (s.slot iss).phase with
  | .running _ => (s.begin t iss).word iss (s.begin t iss).run
  | .chosen _ _ _ _ => exec (.runIssue iss) { s with clk := Nat.max s.clk t, cur := iss }
  | .idle => exec (.pickerDecision iss) { s with clk := Nat.max s.clk t, cur := iss }

/-- What one step does, before the turns of deterministic tasks pass: the event due first, or the issuer that moves before it; with
nothing to do the package stays as it is. An event comes before the moves of its clk (DEDUCED, log entry 21). -/
def State.act (s : State) : Host.Outcome State Fault Refusal :=
  match s.agenda, s.firstMove with
  | [], none => .next s
  | [], some (t, i) => s.moveIssuer t i
  | (t, e) :: r, none => exec e { s with clk := Nat.max s.clk t, agenda := r }
  | (t, e) :: r, some (u, i) =>
    if t ≤ u then exec e { s with clk := Nat.max s.clk t, agenda := r } else s.moveIssuer u i

/-- One step: the next thing due, the turns of R313 that pass with it, and with the last thing of a clk the requests for chunks that are
served then (R271). -/
def step (s : State) : Host.Outcome State Fault Refusal :=
  match s.act with
  | .next t => .next t.passTurns.endClk
  | .fault f => .fault f
  | .refused f => .refused f

-- An instruction laid where the next step performs it.

/-- The words of an instruction given by its bits: the first word is the low 32 bits. -/
def wordsOf (nbits w : Nat) : List Word :=
  let a : Word := BitVec.ofNat 32 w
  if 32 < nbits ∨ isDouble (opcOf a.toNat) then [a, BitVec.ofNat 32 (w / 2 ^ 32)] else [a]

/-- A thread that issues the instruction: lane 0 of slot 0 of core 0, or command context 0 for a CPX. -/
def hostThread (ws : List Word) : Nat := if opcOf (ws.headD 0).toNat = 125 then cmdBase else 0

/-- The thread, group, team and grid that the instruction runs in, as a launch of one eight-thread team would make
them, and its run with the one instruction as its only one. -/
def State.withFetchWord (s : State) (nbits w : Nat) : State :=
  let ws := wordsOf nbits w
  let k := hostThread ws
  let cmd := isCmd k
  let r : Run := { id := s.nextId, pc := 0x1000, words := ws, stalls := ws.map fun _ => 0, pos := 1, clk := s.clk, threads := [k] }
  let th : Thread := { live := true, uid := s.nextId + 1, grp := k, team := if cmd then 0 else 1, alloc := if cmd then 128 else 256
                       laneSz := 512, csp := 512, pc := 0x1000, wait := .issued }
  { s with
    agenda := []
    nextId := s.nextId + 2
    threads := [(k, th)]
    groups := [(k, { live := true, team := 1, width := if cmd then 1 else 8, tiles := 8, accC := 16 })]
    teams := if cmd then [] else [(1, { live := true, phase := .resident, grid := 1, ctx := 1, cores := [0], nthreads := 8 })]
    grids := if cmd then [] else [(1, { live := true, ctx := 1, dies := [0] })]
    cmds := if cmd then [(0, { st := .ready, ctx := 1 })] else []
    cores := if cmd then [] else [(0, { ctx := 1 })]
    ctxs := [(1, { reg := true })]
    slots := [(issuerOfThread k, { phase := .running r })]
    cur := issuerOfThread k }

end Sys2Proof.Machine
end

