-- ==== Sys2Proof/Safety.lean ====
section
/-! DEFINITION. What counts as a safe run: the state stays well formed, and no step ends in a refusal; and
under which conditions a word passes its checks, in the terms the statements use. -/

namespace Sys2Proof.Safety

open Sys2Proof.Machine

/-- A step answers a next state. -/
def Goes (s : State) : Prop := ∃ t, step s = .next t

/-- The first `n` steps all answer next states. -/
def SafeFor : Nat → State → Prop
  | 0, _ => True
  | n + 1, s => ∃ t, step s = .next t ∧ SafeFor n t

end Sys2Proof.Safety

namespace Sys2Proof.Machine

-- Tidy states: every table's keys rise, so that a key has one entry. An invariant of the model, of no rule of the spec.

/-- The register tables of a thread. -/
def Thread.tidy (t : Thread) : Bool := Tab.risingFrom 0 t.v && Tab.risingFrom 0 t.tm && Tab.risingFrom 0 t.rsv && Tab.risingFrom 0 t.ptr

/-- The register, tile and barrier tables of a group. -/
def Group.tidy (g : Group) : Bool := Tab.risingFrom 0 g.w && Tab.risingFrom 0 g.g && Tab.risingFrom 0 g.tile && Tab.risingFrom 0 g.bars

/-- What a core holds for later: stores to go home, and tables. -/
def Core.tidy (c : Core) : Bool := Tab.risingFrom 0 c.pend && Tab.risingFrom 0 c.tables && c.pubs.all (Tab.risingFrom 0)

/-- What a save leaves of a core. -/
def SavedCore.tidy (v : SavedCore) : Bool :=
  v.threads.all (fun e => e.2.tidy) && v.groups.all (fun e => e.2.tidy) && Tab.risingFrom 0 v.tables

/-- Every table that a statement reads has rising keys. -/
def State.tidy (s : State) : Bool :=
  Tab.risingFrom 0 s.threads && Tab.risingFrom 0 s.groups && Tab.risingFrom 0 s.teams && Tab.risingFrom 0 s.cores
    && Tab.risingFrom 0 s.slots && Tab.risingFrom 0 s.owned
    && s.threads.all (fun e => e.2.tidy) && s.groups.all (fun e => e.2.tidy) && s.teams.all (fun e => Tab.risingFrom 0 e.2.bars)
    && s.cores.all (fun e => e.2.tidy)
    && s.ctxs.all (fun e => e.2.saved.all fun x => match x.2 with | none => true | some v => v.tidy)

-- When a word issues (R44 to R46, R60, R61, R118, R119, R371, R373, R388).

/-- Whether a register operand counts for a thread of the issue set. -/
def Opd.countsFor (o : Opd) (k : Nat) : Bool := match o.only with | none => true | some l => l.contains k

/-- A register operand that a thread may use: inside its class and the thread's allocation, a temporary it reads written
in this run, no hazard that the thread's sr.chk asks to catch, and no poisoned source. -/
abbrev State.Usable (s : State) (k : Nat) (o : Opd) : Prop :=
  s.outOfRange k o = false ∧ s.tempUndef k o = false ∧ s.breaksStall k o = false ∧ s.breaksAwait k o = false
    ∧ s.poisoned k o = false

/-- The word executes where it stands. -/
abbrev State.InPlace (s : State) (w : Where) : Prop :=
  w = .both ∨ (w = .compute ∧ s.onCommand = false) ∨ (w = .command ∧ s.onCommand = true)

/-- The conditions on the state and the operands alone under which a word executes normally. -/
abbrev State.Passes (s : State) (r : Req) : Prop :=
  s.InPlace r.place ∧ r.instr.wf = true ∧ (∀ n ∈ r.instr.lateDst, n.toNat < 122)
    ∧ (∀ o ∈ r.ops, ∀ k ∈ s.issue, o.countsFor k = true → s.Usable k o)
    ∧ (r.det ≠ none → ∀ k ∈ s.issue, s.isDet k = false)

-- Several in turn.

/-- Something holds of each element in turn, in the state that those before it leave. -/
def InTurn {α : Type} (ok : State → α → Prop) (eff : State → α → State) : State → List α → Prop
  | _, [] => True
  | s, x :: r => ok s x ∧ InTurn ok eff (eff s x) r

/-- A check passes. -/
abbrev Fine {ε α : Type} (x : Except ε α) : Prop := ∃ a, x = .ok a

/-- What a check answers, or else another value. -/
def got {ε α : Type} (x : Except ε α) (d : α) : α := match x with | .ok a => a | .error _ => d

end Sys2Proof.Machine
end

