-- ==== Sys2Proof/Certificates/Slice0/Obligations.lean ====
section
/-! DEFINITION. The statements for the provers. Before them stand the words they are written in: the rules of the
spec written as plain arithmetic on bit vectors, beside and apart from the meanings. -/

namespace Sys2Proof.Machine

-- Integer rules (R65, R131 to R135) on bit vectors.

/-- The shape of an integer operation: width, signedness, a, b and d. -/
abbrev BvOp := (n : Nat) → Bool → BitVec n → BitVec n → BitVec n → BitVec n

/-- The high half of the exact product. -/
def bvMulh : BvOp := fun n sg a b _ =>
  if sg then BitVec.ofInt n (a.toInt * b.toInt / 2 ^ n) else BitVec.ofNat n (a.toNat * b.toNat / 2 ^ n)

/-- The smaller, or the larger, of two numbers. -/
def bvMin : BvOp := fun _ sg a b _ => if (if sg then b.slt a else b.ult a) then b else a
def bvMax : BvOp := fun _ sg a b _ => if (if sg then a.slt b else a.ult b) then b else a

/-- Division truncates; by zero it gives the largest or the smallest signed number, or all ones. -/
def bvDiv : BvOp := fun n sg a b _ =>
  if b = 0 then (if sg then (if 0 ≤ a.toInt then BitVec.intMax n else BitVec.intMin n) else BitVec.allOnes n)
  else if sg then a.sdiv b else a.udiv b

/-- The remainder a - b * q. -/
def bvRem : BvOp := fun _ sg a b _ => if b = 0 then a else if sg then a.srem b else a.umod b

/-- Position and length of a bit field: B [5:0] modulo the width, and B [14:8], cut at the width (R133). -/
def bvField (n : Nat) (b : BitVec n) : Nat × Nat :=
  (b.toNat % 64 % n, Nat.min (b.toNat / 256 % 128) (n - b.toNat % 64 % n))

/-- The field of a, zero- or sign-extended. -/
def bvBfx : BvOp := fun n sg a b _ =>
  let (p, l) := bvField n b
  let top := (a >>> p) <<< (n - l)
  if sg then top.sshiftRight (n - l) else top >>> (n - l)

/-- d with the low bits of a in the field. -/
def bvBfi : BvOp := fun n _ a b d =>
  let (p, l) := bvField n b
  let m := (BitVec.allOnes n >>> (n - l)) <<< p
  (d &&& ~~~m) ||| ((a <<< p) &&& m)

/-- The word of an RRR instruction: opcode, FN, D, A and B (R112). -/
def rrrWord (opc : BitVec 7) (f : BitVec 4) (d a b : BitVec 7) : Word := opc ++ f ++ d ++ a ++ b

/-- A three-register integer constructor with what it computes: whether D is read, and whether B is a pair in a 64-bit
form. -/
structure IntRow where
  make : BitVec 4 → BitVec 7 → BitVec 7 → BitVec 7 → Instr
  rdD : Bool
  wideB : Bool
  op : BvOp

/-- The fixed-latency rows of R131 and R133 whose FN has its four bits. -/
def intRows : List IntRow :=
  [⟨.add, false, true, fun _ _ a b _ => a + b⟩,
   ⟨.sub, false, true, fun _ _ a b _ => a - b⟩,
   ⟨.mul, false, true, fun _ _ a b _ => a * b⟩,
   ⟨.mulh, false, true, bvMulh⟩,
   ⟨.mad, true, true, fun _ _ a b d => a * b + d⟩,
   ⟨.and, false, true, fun _ _ a b _ => a &&& b⟩,
   ⟨.or, false, true, fun _ _ a b _ => a ||| b⟩,
   ⟨.xor, false, true, fun _ _ a b _ => a ^^^ b⟩,
   ⟨.shl, false, false, fun n _ a b _ => a <<< (b.toNat % n)⟩,
   ⟨.shr, false, false, fun n _ a b _ => a >>> (b.toNat % n)⟩,
   ⟨.sar, false, false, fun n _ a b _ => a.sshiftRight (b.toNat % n)⟩,
   ⟨.rot, false, false, fun n _ a b _ => a.rotateLeft (b.toNat % n)⟩,
   ⟨.bfx, false, false, bvBfx⟩]

/-- What an integer row writes: FN [3] uniform, FN [2] B uniform, FN [1] 64 bits, FN [0] signed (R112, R129). -/
def State.bvWrites (s : State) (f : BitVec 4) (d a b : BitVec 7) (wideB : Bool) (op : BvOp) (k : Nat) : List RegWrite :=
  let u := f.getLsbD 3
  let w := f.getLsbD 1
  let n := if w then 64 else 32
  let x := BitVec.ofNat n (s.intSrc k u w a.toNat)
  let y := BitVec.ofNat n (s.intSrc k (u || f.getLsbD 2) (w && wideB) b.toNat)
  let z := BitVec.ofNat n (s.intSrc k u w d.toNat)
  s.intDst k u w d.toNat (op n (f.getLsbD 0) x y z).toNat

/-- The ten conditions of R114 on two numbers of one width. -/
def bvCond (c : Nat) {n : Nat} (a b : BitVec n) : Bool :=
  if c = 0 then a == b else if c = 1 then a != b
  else if c = 2 then a.slt b else if c = 3 then a.sle b else if c = 4 then b.slt a else if c = 5 then b.sle a
  else if c = 6 then a.ult b else if c = 7 then a.ule b else if c = 8 then b.ult a else b.ule a

/-- An 11-bit immediate, alone sign-extended, or under a LIT's 25 bits, at 64 bits (R116, R132). -/
def bvImm11 (i : BitVec 11) (hi : Option (BitVec 25)) : DWord :=
  match hi with | none => i.signExtend 64 | some h => (h ++ i : BitVec 36).signExtend 64

/-- A 10-bit immediate likewise. -/
def bvImm10 (i : BitVec 10) (hi : Option (BitVec 25)) : DWord :=
  match hi with | none => i.signExtend 64 | some h => (h ++ i : BitVec 35).signExtend 64

end Sys2Proof.Machine

open Sys2Proof Sys2Proof.Machine

-- Encoding.

/-- R111 to R117: decoding the encoded words of any well-formed instruction word gives that instruction back, with
every operand, whatever words follow it. -/
def Obligations.DecodeOfEncodeIsTheInstruction : Prop :=
  ∀ (i : Instr) (rest : List Word), i.wf = true → encode i ≠ [] →
    decode (encode i ++ rest) = .ok (i, (encode i).length)

/-- R111 to R119: what decodes is well formed, and its encoding is the words it was read from: no bit of a word is
ignored. -/
def Obligations.DecodedWordsEncodeBack : Prop :=
  ∀ (ws : List Word) (i : Instr) (n : Nat), decode ws = .ok (i, n) → i.wf = true ∧ encode i = ws.take n

/-- The worked encodings of the spec decode to the instructions they stand for. -/
def Obligations.WorkedEncodingsDecode : Prop :=
  decode [0x08210205] = .ok (.add 1 4 4 5, 1)
  ∧ decode [0x04000002, 0x324213B8] = .ok (.cmpi 2 1 4 952 (some 2), 2)
  ∧ decode [0x421FFFFB] = .ok (.br 0 1 0xFFFFB, 1)
  ∧ decode [0x4803C200] = .ok (.calli 0 15 4, 1)
  ∧ decode [0x66A28104] = .ok (.ffma 1 1 10 2 4, 1)
  ∧ decode [0x8882461E] = .ok (.ldx 4 9 3 7 2, 1)
  ∧ decode [0x8C010300, 0x28900000] = .ok (.atom 0 4 6 5 0 2 1, 2)
  ∧ decode [0xA0248205, 0x28B00000] = .ok (.mmq 1 2 1 4 5 10 11, 2)
  ∧ decode [0xD4000307] = .ok (.tmarkOpen 6 7, 1)
  ∧ decode [0xF40007FF] = .ok (.trap 2047, 1)
  ∧ decode [0xFAA00000, 0x00A00000] = .ok (.cpxIrq 5, 2)

-- One step.

/-- With a run in progress on the issuer that moves first and no event due by then, a step performs exec of the
instruction that the words at the run's position decode to, in the state where that issuer acts and its due results
have landed, then passes the words of the instruction, then the turns of deterministic tasks that pass with it (R313),
and, with the last thing of a clk, serves the waiting chunk requests of the dies whose queues have changed (R271). -/
def Obligations.StepRunsTheDecodedWord : Prop :=
  ∀ (s t : State) (clk iss n : Nat) (r : Run) (i : Instr),
    (∀ e ∈ s.agenda, clk < e.1) → s.firstMove = some (clk, iss) → (s.slot iss).phase = .running r →
    decode ((s.begin clk iss).run.words.drop ((s.begin clk iss).run.pos - 1)) = .ok (i, n) →
    exec i (s.begin clk iss) = .next t → step s = .next (t.advance iss n).passTurns.endClk

/-- An event due no later than any issuer's move is performed first: a step is exec of it, at its clk, with the event
off the agenda; then the turns that pass with it pass, and a clk that ends with it is ended. That an event of the same
clk as a move goes ahead of it is the model's choice (log entry 21; log entry 112 for a heartbeat among them). -/
def Obligations.StepPerformsTheDueEvent : Prop :=
  ∀ (s : State) (due : Nat) (e : Instr) (rest : List (Nat × Instr)), s.agenda = (due, e) :: rest →
    (∀ u i, s.firstMove = some (u, i) → due ≤ u) →
    let out := exec e { s with clk := Nat.max s.clk due, agenda := rest }
    (∀ t, out = .next t → step s = .next t.passTurns.endClk) ∧ (∀ f, out = .fault f → step s = .fault f)
      ∧ ∀ r, out = .refused r → step s = .refused r

-- The checks of a word, and faults.

namespace Sys2Proof.Machine

/-- The first operand of a word, in order, that an issued thread which it counts for fails a check on. -/
def State.FirstOn (s : State) (bad : Nat → Opd → Bool) (ops : List Opd) (o : Opd) : Prop :=
  ∃ before after, ops = before ++ o :: after ∧ (∃ k ∈ s.issue, o.countsFor k = true ∧ bad k o = true)
    ∧ ∀ x ∈ before, ∀ k ∈ s.issue, x.countsFor k = true → bad k x = false

/-- No operand of a word fails a check in an issued thread which it counts for. -/
def State.NoneOn (s : State) (bad : Nat → Opd → Bool) (ops : List Opd) : Prop :=
  ∀ x ∈ ops, ∀ k ∈ s.issue, x.countsFor k = true → bad k x = false

end Sys2Proof.Machine

/-- R119: a word with an opcode of no instruction raises ILLEGAL_OPCODE (0x01), and a word of an instruction that
executes where it stands and that has a reserved field raises RESERVED_FIELD (0x02). R371: the checks come in order:
where the word executes, then reserved fields with a late destination among the temporaries, then register ranges,
then whether a deterministic task may use the opcode, then undefined temporaries, then registers read or written too
soon (STALL_SHORT), then poison; the first that fails names the fault, with the first operand that fails it, and a
word that fails none has no fault. -/
def Obligations.FirstFailingCheckNamesTheFault : Prop :=
  (∀ (s : State) (iss : Nat) (r : Run) (w : Word) (rest : List Word), r.words.drop (r.pos - 1) = w :: rest →
      (opcOf w.toNat ∈ [0, 1, 0x77, 0x7F] → s.word iss r = .next (s.takeFault { code := 0x01 }))
      ∧ (decode (w :: rest) = .error .reservedField → s.InPlace (whereOf w.toNat) →
          s.word iss r = .next (s.takeFault { code := 0x02 })))
  ∧ (∀ (s : State) (r : Req),
      let plain := s.InPlace r.place ∧ r.instr.wf = true
      let named := plain ∧ ∀ n ∈ r.instr.lateDst, n.toNat < 122
      let ranged := named ∧ s.NoneOn s.outOfRange r.ops
      let allowed := ranged ∧ (r.det = none ∨ ∀ k ∈ s.issue, s.isDet k = false)
      let defined := allowed ∧ s.NoneOn s.tempUndef r.ops
      let landed := defined ∧ s.NoneOn s.breaksStall r.ops
      let awaited := landed ∧ s.NoneOn s.breaksAwait r.ops
      (r.place = .command → s.onCommand = false → s.issueFault r = some { code := 0x20 })
      ∧ (r.place = .compute → s.onCommand = true → s.issueFault r = some { code := 0x01 })
      ∧ (s.InPlace r.place → r.instr.wf = false → s.issueFault r = some { code := 0x02 })
      ∧ (∀ before d after, plain → r.instr.lateDst = before ++ d :: after → (∀ n ∈ before, n.toNat < 122) → 122 ≤ d.toNat →
          s.issueFault r = some { code := 0x02, info := d.toNat + 256 * 7 })
      ∧ (∀ o, named → s.FirstOn s.outOfRange r.ops o → s.issueFault r = some { code := 0x03, info := o.info })
      ∧ (∀ opc, ranged → r.det = some opc → (∃ k ∈ s.issue, s.isDet k = true) → s.issueFault r = some { code := 0x0D, info := opc })
      ∧ (∀ o, allowed → s.FirstOn s.tempUndef r.ops o → s.issueFault r = some { code := 0x04, info := o.n % 128 + 256 * 7 })
      ∧ (∀ o, defined → s.FirstOn s.breaksStall r.ops o → s.issueFault r = some { code := 0x05, info := o.info })
      ∧ (∀ o, landed → s.FirstOn s.breaksAwait r.ops o → s.issueFault r = some { code := 0x05, info := o.info + 2 ^ 12 })
      ∧ (∀ o, awaited → s.FirstOn s.poisoned r.ops o → s.issueFault r = some { code := 0x1C, cls := 2, info := o.info })
      ∧ (awaited → s.NoneOn s.poisoned r.ops → s.issueFault r = none))

-- Registers.

namespace Sys2Proof.Machine

/-- A write to a row of a tile register holds the 32 elements of a row (R49). -/
def RegWrite.cellsFit : RegWrite → Prop
  | .tile _ _ cells _ => cells.length = 32
  | _ => True

end Sys2Proof.Machine

/-- R43 to R48: what is written to a vector window register, a temporary, a uniform register, a predicate other than
p15, a pointer, the group fields of an address register, a reservoir register or a row of a tile register is what a
later read gives, with no variable-latency write to it pending. R48: p15 reads as 1 in every thread and ignores
writes. -/
def Obligations.RegistersReadBackWhatWasWritten : Prop :=
  (∀ (s : State) (k n : Nat), s.tidy = true →
      (∀ x, n < 122 → s.pendingTo (.vreg k ((s.thr k).winb + n)) = none →
        (s.setReg (s.toV k n x)).v k n = x)
      ∧ (∀ x, 122 ≤ n → (s.setReg (s.toV k n x)).v k n = x)
      ∧ (∀ x, s.pendingTo (.ureg (s.thr k).grp n) = none →
        (s.setReg (.ureg (s.thr k).grp n x)).wOf k n = x)
      ∧ (∀ b, n < 15 → s.pendingTo (.pred k n) = none → (s.setReg (.pred k n b)).p k n = b)
      ∧ (∀ x, (s.setReg (.ptr k n x)).ptrOf k n = x)
      ∧ (∀ f, (s.setReg (.gfield (s.thr k).grp n f)).gf k n = f)
      ∧ (∀ x, s.pendingTo (.rsv k n) = none → (s.setReg (.rsv k n x)).q k n = x)
      ∧ (∀ (cells : List (BitVec 16)) (bad : Bool) (i : Nat), cells.length = 32 → i < 32 → s.pendingTo (.tile (s.thr k).grp n) = none →
        ∀ j < 32, ((s.setReg (.tile (s.thr k).grp (32 * n + i) cells bad)).tileReg (s.thr k).grp n).get 0 (1024 * n + 32 * i + j)
          = cells.getD j 0))
  ∧ (∀ (s : State) (k : Nat) (b : Bool), s.p k 15 = true ∧ s.setReg (.pred k 15 b) = s)

/-- A register write changes nothing but its register: every other vector register, temporary, uniform register,
predicate, pointer, reservoir register and tile-register row reads as before, and memory, the teams, the cores and the
contexts stay. -/
def Obligations.RegisterWritesChangeOneRegister : Prop :=
  ∀ (s : State) (w : RegWrite), s.tidy = true →
    (∀ k n, w.id ≠ .vreg k n → ((s.setReg w).thr k).v.get 0 n = (s.thr k).v.get 0 n)
    ∧ (∀ k n, w.id ≠ .temp k n → ((s.setReg w).thr k).tm.get 0 n = (s.thr k).tm.get 0 n)
    ∧ (∀ g n, w.id ≠ .ureg g n → ((s.setReg w).grp g).w.get 0 n = (s.grp g).w.get 0 n)
    ∧ (∀ k n, n < 16 → w.id ≠ .pred k n → ((s.setReg w).thr k).preds.getLsbD n = (s.thr k).preds.getLsbD n)
    ∧ (∀ k n, w.id ≠ .ptr k n → (s.setReg w).ptrOf k n = s.ptrOf k n)
    ∧ (∀ g n, w.id ≠ .gfield g n → ((s.setReg w).grp g).g.get {} n = (s.grp g).g.get {} n)
    ∧ (∀ k n, w.id ≠ .rsv k n → ((s.setReg w).thr k).rsv.get 0 n = (s.thr k).rsv.get 0 n)
    ∧ (∀ g row, (∀ cells bad, w ≠ .tile g row cells bad) → w.cellsFit → ∀ j < 32,
      ((s.setReg w).grp g).tile.get 0 (32 * row + j) = (s.grp g).tile.get 0 (32 * row + j))
    ∧ (s.setReg w).mem = s.mem ∧ (s.setReg w).teams = s.teams ∧ (s.setReg w).cores = s.cores ∧ (s.setReg w).ctxs = s.ctxs
    ∧ (s.setReg w).slots = s.slots ∧ (s.setReg w).pend = s.pend

/-- R58: a fixed-latency result is written when its latency has passed, not before: landing performs the results due,
in issue order, but for one that a later due result to the same register has overtaken, and keeps the others in
flight. R58: putting results in flight writes no register: each result waits in the run until this word's clk plus the
latency; only the run and the threads' masks of temporaries written change. -/
def Obligations.FixedResultsWaitAndLandWhenDue : Prop :=
  (∀ (s : State) (r : Run), s.tidy = true → (s.slot s.cur).phase = .running r → s.poisonReg = [] →
      ∃ due later : List FixedWrite,
        s.landFixed = (s.setRun { r with fixed := later }).writeRegs (due.map (·.write))
        ∧ due = r.fixed.filter (fun f => decide (f.due ≤ s.clk))
        ∧ (∀ f ∈ later, s.clk < f.due ∧ f ∈ r.fixed)
        ∧ (∀ f ∈ r.fixed, s.clk < f.due → f ∈ later ∨ ∃ g ∈ due, g.write.id = f.write.id))
  ∧ (∀ (s : State) (lat : Nat) (ws : List RegWrite) (r : Run), s.tidy = true →
      (s.slot s.cur).phase = .running r →
      (s.fixed lat ws).run = { r with fixed := r.fixed ++ ws.map fun w => { due := s.clk + lat, write := w } }
      ∧ (∀ k, { (s.fixed lat ws).thr k with tmMask := 0 } = { s.thr k with tmMask := 0 })
      ∧ (∀ k n x, RegWrite.temp k n x ∈ ws → n < 6 → ((s.fixed lat ws).thr k).tmMask.getLsbD n = true)
      ∧ { s.fixed lat ws with slots := s.slots, threads := s.threads } = s)

/-- R59: a variable-latency result leaves its instruction as one pending entry of its thread, with one event to land
it, after a free latency of at least one clk; the run remembers that it issued the write, and nothing else changes but
the model's counters. R55, R59, R158: RESULT_LANDS takes the result out of those pending and performs its writes in
the registers named, raises its flags, and frees what drained; for a thread that has exited only its group's registers
are written, and for a thread whose place another has taken nothing is. Of a result no longer pending it changes
nothing. -/
def Obligations.VariableResultsStayPendingAndLand : Prop :=
  (∀ (s : State) (k : Nat) (ws : List RegWrite) (fl : Flags), ws ≠ [] →
      ∃ p t, s.clk < t ∧ p.id = s.nextId ∧ p.th = k ∧ p.writes = ws ∧ p.flags = fl ∧ p.uid = (s.thr k).uid
        ∧ p.bad = false ∧ p.run = s.run.id ∧ p.pc = s.run.pc ∧ p.pos = s.run.pos
        ∧ s.variable k ws fl = { s.setRun { s.run with late := s.run.late ++ ws.map (·.id) } with
                                        pend := s.pend ++ [p], agenda := insertEvent t (.resultLands s.nextId) s.agenda,
                                        nextId := s.nextId + 1, free := s.free + 1 })
  ∧ (∀ (s : State) (id : Nat) (p : Pending),
      ((∀ q ∈ s.pend, q.id ≠ id) → exec (.resultLands id) s = .next s)
      ∧ (p ∈ s.pend → p.id = id → (∀ q ∈ s.pend, q.id = id → q = p) → (∀ w ∈ p.writes, w.isBad p.bad = false) →
          let u : State := { s with pend := s.pend.filter fun q => q.id != id }
          let c := coreOfThread p.th
          ((s.thr p.th).live = true → (s.thr p.th).uid = p.uid →
            ((s.thr p.th).wait ≠ .exited → exec (.resultLands id) s = .next (((u.writeRegs p.writes).landFlags p).freeDrains c))
            ∧ ((s.thr p.th).wait = .exited → exec (.resultLands id) s = .next ((u.writeRegs (p.writes.filter RegWrite.ofGroup)).freeDrains c)))
          ∧ ((s.thr p.th).uid ≠ p.uid → exec (.resultLands id) s = .next (u.freeDrains c))))

-- Integer instructions.

/-- R65 and R131: DIV and REM put one variable-latency result for each thread they execute for in flight: the
truncated quotient or its remainder, with the results R65 gives for a divisor of zero. -/
def Obligations.DivisionGivesQuotientAndRemainder : Prop :=
  ∀ (s : State) (f : BitVec 4) (d a b : BitVec 7),
    (s.Passes { instr := .div f d a b, place := .both, ops := rrrOpds f d a b false true } →
      exec (.div f d a b) s = .next ((s.actors (f.getLsbD 3)).foldl (fun t k => t.variable k (s.bvWrites f d a b true bvDiv k)) s))
    ∧ (s.Passes { instr := .rem f d a b, place := .both, ops := rrrOpds f d a b false true } →
      exec (.rem f d a b) s = .next ((s.actors (f.getLsbD 3)).foldl (fun t k => t.variable k (s.bvWrites f d a b true bvRem k)) s))

/-- R131 and R133: every fixed-latency three-register integer instruction puts in flight, for each thread it executes
for, the result its row gives, at the width, signedness and register context that FN names, 4 clk away (R58). R134:
BITC counts leading zeros, trailing zeros or ones into a single register, or reverses the bits at the operand's width.
R116, R132: ADDI, ANDI, ORI, XORI and MOVI take an immediate of 11 bits sign-extended, or of 36 bits with the high
part in a LIT. -/
def Obligations.IntegerInstructionsGiveTheirResults : Prop :=
  (∀ (s : State) (f : BitVec 4) (d a b : BitVec 7),
      (∀ r ∈ intRows, s.Passes { instr := r.make f d a b, place := .both, ops := rrrOpds f d a b r.rdD r.wideB } →
        exec (r.make f d a b) s = .next (s.fixed 4 ((s.actors (f.getLsbD 3)).flatMap (s.bvWrites f d a b r.wideB r.op))))
      ∧ (∀ (g : BitVec 3), s.Passes { instr := .bfi g d a b, place := .both, ops := rrrOpds (g ++ 0#1) d a b true false } →
        exec (.bfi g d a b) s = .next (s.fixed 4 ((s.actors (g.getLsbD 2)).flatMap (s.bvWrites (g ++ 0#1) d a b false bvBfi))))
      ∧ (∀ (u w sg : BitVec 1), s.Passes { instr := .min u w sg d a b, place := .both, ops := rrrOpds (u ++ 0#1 ++ w ++ sg) d a b false true } →
        exec (.min u w sg d a b) s = .next (s.fixed 4 ((s.actors (u == 1)).flatMap (s.bvWrites (u ++ 0#1 ++ w ++ sg) d a b true bvMin))))
      ∧ (∀ (u w sg : BitVec 1), s.Passes { instr := .max u w sg d a b, place := .both, ops := rrrOpds (u ++ 0#1 ++ w ++ sg) d a b false true } →
        exec (.max u w sg d a b) s = .next (s.fixed 4 ((s.actors (u == 1)).flatMap (s.bvWrites (u ++ 0#1 ++ w ++ sg) d a b true bvMax)))))
  ∧ (∀ (s : State) (f : BitVec 2) (w : BitVec 1) (d a : BitVec 7),
      s.Passes { instr := .bitc f w d a, place := .both, ops := [.dst d (w == 1 && f == 3), .src a (w == 1)] } →
      exec (.bitc f w d a) s = .next (s.fixed 4 (s.issue.flatMap fun k =>
        let n := if w = 1 then 64 else 32
        let x := BitVec.ofNat n (s.intSrc k false (w == 1) a.toNat)
        let r := if f = 0 then x.clz else if f = 1 then x.ctz else if f = 2 then x.cpop else x.reverse
        s.intDst k false (w == 1 && f == 3) d.toNat r.toNat)))
  ∧ (∀ (s : State) (d a : BitVec 7) (i : BitVec 11) (hi : Option (BitVec 25)) (u w : BitVec 1),
      (∀ r ∈ ([(Instr.addi, fun x y => x + y), (Instr.andi, fun x y => x &&& y), (Instr.ori, fun x y => x ||| y),
          (Instr.xori, fun x y => x ^^^ y)] : List ((BitVec 7 → BitVec 7 → BitVec 11 → Option (BitVec 25) → Instr) × (Word → Word → Word))),
        s.Passes { instr := r.1 d a i hi, place := .both, ops := [.dst d, .src a] } →
        exec (r.1 d a i hi) s = .next (s.fixed 4 (s.issue.map fun k =>
          s.toV k d.toNat (r.2 (s.v k a.toNat) ((bvImm11 i hi).setWidth 32)))))
      ∧ (s.Passes { instr := .movi d u w i hi, place := .both, ops := [intOpd (u == 1) (w == 1) d false true] } →
        exec (.movi d u w i hi) s = .next (s.fixed 4 ((s.actors (u == 1)).flatMap fun k =>
          s.intDst k (u == 1) (w == 1) d.toNat (bvImm11 i hi).toNat))))

/-- R136: SEL, opcode 0x1A, writes to the 32-bit vector register D of each thread its A where the predicate that FN
names is 1, and its B elsewhere. -/
def Obligations.SelectTakesTheOperandItsPredicateNames : Prop :=
  ∀ (s : State) (p : BitVec 4) (d a b : BitVec 7),
    decode [rrrWord 0x1A p d a b] = .ok (.sel p d a b, 1)
    ∧ (s.Passes { instr := .sel p d a b, place := .both, ops := [.psrc p.toNat, .dst d, .src a, .src b] } →
      exec (.sel p d a b) s = .next (s.fixed 4 (s.issue.map fun k =>
        s.toV k d.toNat (if s.p k p.toNat then s.v k a.toNat else s.v k b.toNat))))

/-- R114, R135, R138: CMP and CMPI write the condition's truth to a predicate; PLOG writes its table's entry for the
two predicates. R137, R139: MOV moves a register to another class or a pair; LEA adds an index, sign- or zero-extended
and scaled, to a pointer, or to the lane-store address of the call-stack pointer. -/
def Obligations.ComparesMovesAndAddressesGiveTheirResults : Prop :=
  (∀ (s : State) (c p : BitVec 4) (a b : BitVec 7),
      (∀ v w : BitVec 1, s.Passes { instr := .cmp c v w p a b, place := .both, ops := [.pdst p.toNat, .src a (w == 1), intOpd (v == 1) (w == 1) b true false] } →
        exec (.cmp c v w p a b) s = .next (s.fixed 4 (s.issue.map fun k =>
          let n := if w = 1 then 64 else 32
          .pred k p.toNat (bvCond c.toNat (BitVec.ofNat n (s.intSrc k false (w == 1) a.toNat)) (BitVec.ofNat n (s.intSrc k (v == 1) (w == 1) b.toNat))))))
      ∧ (∀ (i : BitVec 10) (hi : Option (BitVec 25)), s.Passes { instr := .cmpi c p a i hi, place := .both, ops := [.pdst p.toNat, .src a] } →
        exec (.cmpi c p a i hi) s = .next (s.fixed 4 (s.issue.map fun k =>
          .pred k p.toNat (bvCond c.toNat (s.v k a.toNat) ((bvImm10 i hi).setWidth 32)))))
      ∧ (∀ e x y : BitVec 4, s.Passes { instr := .plog c e x y, place := .both, ops := [.pdst e.toNat, .psrc x.toNat, .psrc y.toNat] } →
        exec (.plog c e x y) s = .next (s.fixed 4 (s.issue.map fun k =>
          .pred k e.toNat (c.getLsbD ((if s.p k x.toNat then 2 else 0) + (if s.p k y.toNat then 1 else 0)))))))
  ∧ (∀ (s : State) (f : BitVec 4) (d a : BitVec 7) (n : BitVec 1) (sc : BitVec 2) (g : BitVec 5),
      (s.Passes { instr := .mov f d a, place := .both, ops := movOpds f.toNat d a } →
        exec (.mov f d a) s = .next (s.fixed 4 ((s.actors (f == 2 || f == 3 || f == 7)).flatMap fun k =>
          let u := (s.thr k).grp
          if f = 0 then [s.toV k d.toNat (s.v k a.toNat)]
          else if f = 1 then [s.toV k d.toNat (s.w u a.toNat)]
          else if f = 2 then [.ureg u d.toNat (s.v k a.toNat)]
          else if f = 3 then [.ureg u d.toNat (s.w u a.toNat)]
          else if f = 4 then [s.toV k d.toNat (if s.p k a.toNat then 1 else 0)]
          else if f = 5 then [.pred k d.toNat (s.v k a.toNat != 0)]
          else if f = 6 then s.toV64 k d.toNat (s.v64 k a.toNat)
          else toW64 u d.toNat (s.w64 u a.toNat))))
      ∧ (s.Passes { instr := .lea n sc d a g, place := .both, ops := [.dst d true, .src a, .g g] } →
        exec (.lea n sc d a g) s = .next (s.fixed 4 (s.issue.flatMap fun k =>
          let x := s.v k a.toNat
          s.toV64 k d.toNat (s.ptrOf k g.toNat + (if n = 1 then x.setWidth 64 else x.signExtend 64) <<< sc.toNat))))
      ∧ (s.Passes { instr := .leaLs sc d a, ops := [.dst d true, .src a] } →
        exec (.leaLs sc d a) s = .next (s.fixed 4 (s.issue.flatMap fun k =>
          s.toV64 k d.toNat (BitVec.ofNat 64 (laneBase + (s.thr k).csp) + ((s.v k a.toNat).signExtend 64) <<< sc.toNat)))))

-- Cross-lane instructions.

namespace Sys2Proof.Machine

/-- A source operand of lane i of a group: that of the issued thread with index i, and 0 where it is not issued (R145). -/
def State.fromLane (s : State) (g : Nat) (wide : Bool) (n i : Nat) : Nat :=
  match (s.issuedOf g).find? fun k => (s.thr k).idx == i with
  | some k => s.intSrc k false wide n
  | none => 0

/-- The value v of LSHUF and LROT (R146). -/
def State.laneShift (s : State) (k : Nat) (f : BitVec 2) (b : BitVec 7) : Int :=
  if f = 0 then (s.v k b.toNat).toNat else if f = 1 then (s.wOf k b.toNat).toNat
  else if f = 2 then b.toInt else ((s.grp (s.thr k).grp).width / 2 ^ (b.toNat % 8) : Nat)

/-- Two lanes' values, either of which may be absent (R148). -/
def redJoin (c : Nat → Nat → Nat × Flags) : Option Nat → Option Nat → Option Nat × Flags
  | some x, some y => (some (c x y).1, (c x y).2)
  | some x, none => (some x, 0)
  | none, y => (y, 0)

/-- The steps of R148 for k = `from`, `from` + 1, …: the values of the lanes and the flags raised so far. -/
def redSteps (c : Nat → Nat → Nat × Flags) (w : Nat) : Nat → Nat → (Nat → Option Nat) → Flags → Option Nat × Flags
  | _, 0, val, fl => (val 0, fl)
  | k, m + 1, val, fl =>
    redSteps c w (k + 1) m (fun j => if j % 2 ^ (k + 1) = 0 then (redJoin c (val j) (val (j + 2 ^ k))).1 else val j)
      ((List.range w).foldl (fun a j => if j % 2 ^ (k + 1) = 0 then a ||| (redJoin c (val j) (val (j + 2 ^ k))).2 else a) fl)

/-- The integer combines 0 to 7 of R148. -/
def bvCombine (f : Nat) (x y : Word) : Word :=
  if f = 0 then x + y else if f = 1 then bvMin 32 true x y 0 else if f = 2 then bvMax 32 true x y 0
  else if f = 3 then bvMin 32 false x y 0 else if f = 4 then bvMax 32 false x y 0
  else if f = 5 then x &&& y else if f = 6 then x ||| y else x ^^^ y

/-- The combines of R148 on register values. -/
def specCombine (f x y : Nat) : Nat × Flags :=
  if f < 8 then ((bvCombine f (BitVec.ofNat 32 x) (BitVec.ofNat 32 y)).toNat, 0)
  else if f = 8 then fAdd f32 .rne (f32.decode x) (f32.decode y)
  else if f = 9 then fMinMax f32 false x y
  else if f = 10 then fMinMax f32 true x y
  else if f = 11 then fAdd f64 .rne (f64.decode x) (f64.decode y)
  else ((BitVec.ofNat 64 x + BitVec.ofNat 64 y).toNat, 0)

/-- The identities of R149. -/
def bvIdentity (f : Nat) : Word :=
  if f = 1 then 0x7FFFFFFF else if f = 2 then 0x80000000 else if f = 3 ∨ f = 5 then 0xFFFFFFFF else 0

/-- The groups of the issue set are of widths 1, 2, 4, … 64, and each issued thread has an index below its group's width. -/
abbrev State.GroupsInOrder (s : State) : Prop :=
  (∀ e ∈ s.issueGroups, ∃ m, m ≤ 6 ∧ (s.grp e.1).width = 2 ^ m)
    ∧ (∀ k ∈ s.issue, (s.thr k).idx < (s.grp (s.thr k).grp).width)

end Sys2Proof.Machine

/-- R145, R146: LSHUF and LROT give each issued lane the source of the lane that its operand names, and 0 where that
lane is not issued, 6 clk away (R58). -/
def Obligations.ShufflesReadTheNamedLane : Prop :=
  ∀ (s : State) (f : BitVec 2) (w x : BitVec 1) (d a b : BitVec 7),
    (let ok := f = 3 → b.toNat < 7 ∧ b ≠ 0;
      decode [rrrWord 0x29 (f ++ w ++ x) d a b] = (if ok then .ok (.lshuf f w x d a b, 1) else .error .reservedField)
      ∧ decode [rrrWord 0x2B (f ++ w ++ x) d a b] = (if x = 0 ∧ ok then .ok (.lrot f w d a b, 1) else .error .reservedField))
    ∧ (s.GroupsInOrder → s.Passes { instr := .lshuf f w x d a b, ops := shufOpds f (w == 1) d a b } →
      exec (.lshuf f w x d a b) s = .next (s.fixed 6 (s.issueGroups.flatMap fun e => (s.issuedOf e.1).flatMap fun k =>
        let n := (s.grp e.1).width
        let v := (s.laneShift k f b % n).toNat
        s.intDst k false (w == 1) d.toNat (s.fromLane e.1 (w == 1) a.toNat (if x = 1 then ((s.thr k).idx ^^^ v) % n else v)))))
    ∧ (s.GroupsInOrder → s.Passes { instr := .lrot f w d a b, ops := shufOpds f (w == 1) d a b } →
      exec (.lrot f w d a b) s = .next (s.fixed 6 (s.issueGroups.flatMap fun e => (s.issuedOf e.1).flatMap fun k =>
        let n := (s.grp e.1).width
        s.intDst k false (w == 1) d.toNat (s.fromLane e.1 (w == 1) a.toNat (((s.thr k).idx + s.laneShift k f b) % n).toNat))))

/-- R147: LPUSH gives each issued lane the value of the lowest lane that names it, and tells in a predicate whether
more than one did; a lane that none names keeps its register. -/
def Obligations.PushesTakeTheLowestSender : Prop :=
  ∀ (s : State) (p : BitVec 4) (d a b : BitVec 7),
    decode [rrrWord 0x2A p d a b] = .ok (.lpush p d a b, 1)
    ∧ (s.GroupsInOrder → s.Passes { instr := .lpush p d a b, ops := [.pdst p.toNat, .dst d, .src a, .src b] } →
    exec (.lpush p d a b) s = .next (s.fixed 6 (s.issueGroups.flatMap fun e => (s.issuedOf e.1).flatMap fun t =>
      let senders := (s.issuedOf e.1).filter fun k => (s.v k b.toNat).toNat % (s.grp e.1).width == (s.thr t).idx
      match senders.head? with
      | none => [.pred t p.toNat false]
      | some k => [s.toV t d.toNat (s.v k a.toNat), .pred t p.toNat (decide (2 ≤ senders.length))])))

/-- R148: LRED gives every issued lane the value that the steps of R148 leave in lane 0, whichever lanes are issued,
and raises in every issued lane the flags of every step. R149: LSCAN gives each issued lane the combination of the
issued lanes up to it, or below it in the exclusive form, in ascending lane order, and the identity where there is
none. -/
def Obligations.ReductionsAndScansCombineInTheirOrder : Prop :=
  (∀ (s : State) (f : BitVec 4) (d a b : BitVec 7),
      decode [rrrWord 0x2C f d a b] = (if f.toNat < 13 ∧ b = 0 then .ok (.lred f d a, 1) else .error .reservedField)
      ∧ (s.GroupsInOrder → s.tidy = true → (∀ k ∈ s.issue, (s.thr k).enables = 0) →
      let wide := f == 11 || f == 12
      s.Passes { instr := .lred f d a, ops := [.dst d wide, .src a wide] } →
      let res := fun (g : Nat) =>
        redSteps (specCombine f.toNat) (s.grp g).width 0 (Nat.log2 (s.grp g).width)
          (fun j => ((s.issuedOf g).find? fun k => (s.thr k).idx == j).map fun k => s.intSrc k false wide a.toNat) 0
      exec (.lred f d a) s = .next ((s.fixed 6 (s.issueGroups.flatMap fun e => (s.issuedOf e.1).flatMap fun k =>
          s.intDst k false wide d.toNat ((res e.1).1.getD 0))).raiseAll
        (s.issueGroups.flatMap fun e => (s.issuedOf e.1).map fun k => (k, (res e.1).2)))))
  ∧ (∀ (s : State) (e : BitVec 1) (f : BitVec 3) (d a b : BitVec 7),
      decode [rrrWord 0x2D (e ++ f) d a b] = (if b = 0 then .ok (.lscan e f d a, 1) else .error .reservedField)
      ∧ (s.GroupsInOrder → s.Passes { instr := .lscan e f d a, ops := [.dst d, .src a] } →
      exec (.lscan e f d a) s = .next (s.fixed 6 (s.issueGroups.flatMap fun g => (s.issuedOf g.1).map fun k =>
        let upTo := if e = 1 then (s.thr k).idx else (s.thr k).idx + 1
        let xs := (List.range upTo).filterMap fun i => ((s.issuedOf g.1).find? fun m => (s.thr m).idx == i).map fun m => s.v m a.toNat
        s.toV k d.toNat (match xs with
          | [] => bvIdentity f.toNat
          | x :: r => r.foldl (bvCombine f.toNat) x)))))

/-- R150, R151: VOTE and LMATCH give every issued lane of a group what the issued lanes hold: any, all, the ballot,
whether all are equal, and the lanes whose value equals its own. -/
def Obligations.VotesAndMatchesReadTheIssuedLanes : Prop :=
  ∀ (s : State) (w r : BitVec 1) (f : BitVec 2) (d a b : BitVec 7),
    decode [rrrWord 0x2E (w ++ r ++ f) d a b]
      = (if r = 0 ∧ b = 0 ∧ (f ≠ 3 → w = 0 ∧ a.toNat < 16) ∧ (f ≠ 2 → d.toNat < 16) then .ok (.vote w f d a, 1) else .error .reservedField)
    ∧ decode [rrrWord 0x2F (f ++ w ++ r) d a b] = (if f = 0 ∧ r = 0 ∧ b = 0 then .ok (.lmatch w d a, 1) else .error .reservedField)
    ∧ (s.GroupsInOrder →
    let mask := fun (g : Nat) (p : Nat → Bool) => ((s.issuedOf g).filter p).foldl (fun (m : DWord) k => m ||| BitVec.twoPow 64 (s.thr k).idx) 0
    (s.Passes { instr := .vote w f d a, ops := voteOpds w f d a } →
      exec (.vote w f d a) s = .next (s.fixed 6 (s.issueGroups.flatMap fun e => (s.issuedOf e.1).flatMap fun k =>
        if f = 0 then [.pred k d.toNat ((s.issuedOf e.1).any fun j => s.p j a.toNat)]
        else if f = 1 then [.pred k d.toNat ((s.issuedOf e.1).all fun j => s.p j a.toNat)]
        else if f = 2 then s.toV64 k d.toNat (mask e.1 fun j => s.p j a.toNat)
        else [.pred k d.toNat ((s.issuedOf e.1).all fun j => (s.issuedOf e.1).all fun m =>
          s.intSrc j false (w == 1) a.toNat == s.intSrc m false (w == 1) a.toNat)])))
    ∧ (s.Passes { instr := .lmatch w d a, ops := [.dst d true, .src a (w == 1)] } →
      exec (.lmatch w d a) s = .next (s.fixed 6 (s.issueGroups.flatMap fun e => (s.issuedOf e.1).flatMap fun k =>
        s.toV64 k d.toNat (mask e.1 fun j => s.intSrc j false (w == 1) a.toNat == s.intSrc k false (w == 1) a.toNat)))))

-- Control.

namespace Sys2Proof.Machine

/-- The threads whose predicate, inverted by NEG, is 1 (R140). -/
def State.taking (s : State) (n : BitVec 1) (p : BitVec 4) : List Nat := s.issue.filter fun k => xor (s.p k p.toNat) (n == 1)

/-- The address of the word being performed: the words of a run follow its two header words. -/
def State.hereAddr (s : State) : DWord := s.run.pc + BitVec.ofNat 64 (4 * (s.run.pos + 1))

/-- The fall-through address: past the header, the words and the trailer. -/
def State.pastRun (s : State) : DWord := s.run.pc + BitVec.ofNat 64 (4 * (s.run.words.length + 3))

/-- A target that may be branched to (R143). -/
abbrev TargetOk (t : DWord) : Prop := t.extractLsb' 0 2 = 0 ∧ t.extractLsb' 57 7 = 0

/-- Threads that go to a target at the end of the run. -/
def State.sent (s : State) (ks : List Nat) (target : Nat → DWord) : State :=
  ks.foldl (fun t k => t.updThr k fun x => { x with nextPc := some (target k) }) s

/-- The frame that a calling thread pushes (R142). -/
def State.callFrame (s : State) (k : Nat) : DWord :=
  (s.pastRun &&& 0x01FFFFFFFFFFFFFF) + BitVec.ofNat 64 ((s.thr k).winb / 16 % 16) <<< 57

/-- Calling threads push their frames, downward in their lane store (R142). -/
def State.called (s : State) (ks : List Nat) : State :=
  ks.foldl (fun t k => (t.storeHomes (t.laneHome k ((t.thr k).csp - 8)) (leBytes 8 (t.callFrame k).toNat)).updThr k
    fun x => { x with csp := (t.thr k).csp - 8 }) s

end Sys2Proof.Machine

/-- R140, R141, R143: BR and BRI send every thread that takes them to the branch word plus 4 * OFF20, or to the pair
A, at the end of the run, and the others fall through; a target of BRI that is not aligned or has a bit above 56
raises ALIGN with the lowest such thread's target. -/
def Obligations.BranchesSendTheTakingThreads : Prop :=
  ∀ (s : State) (n : BitVec 1) (p : BitVec 4) (o : BitVec 20) (a : BitVec 7),
    s.run.pc.toNat + 4 * (s.run.words.length + 3) < 2 ^ 56 → s.run.pos ≤ s.run.words.length →
    (s.Passes { instr := .br n p o, place := .both, ops := [.psrc p.toNat] } →
      TargetOk (s.hereAddr + (o.signExtend 64) <<< 2) →
      exec (.br n p o) s = .next (s.sent (s.taking n p) fun _ => s.hereAddr + (o.signExtend 64) <<< 2))
    ∧ (s.Passes { instr := .bri n p a, place := .both, ops := [.psrc p.toNat, .src a true] } →
      ((∀ k ∈ s.taking n p, TargetOk (s.v64 k a.toNat)) →
        exec (.bri n p a) s = .next (s.sent (s.taking n p) fun k => s.v64 k a.toNat))
      ∧ (∀ k ∈ s.taking n p, ¬ TargetOk (s.v64 k a.toNat) → (∀ j ∈ (s.taking n p).takeWhile (· != k), TargetOk (s.v64 j a.toNat)) →
        exec (.bri n p a) s = .next (s.takeFault { code := 0x06, addr := s.v64 k a.toNat })))

/-- R141 to R143: CALL and CALLI push for each taking thread a frame of the fall-through address and its window base,
8 bytes below its call-stack pointer, and send it to the target. Of the taking threads that cannot, the lowest
decides: a target that may not be branched to raises ALIGN with it, and else fewer than 8 bytes left raise
CALL_STACK_OVF; nothing is pushed. That ALIGN comes first within a thread is the model's choice (log entry 126). R141
to R143, R388: RET pops 8 bytes of each taking thread's call stack: the address of the frame is its next PC, and the
window base of the frame comes back with the next run. Of the taking threads that cannot, the lowest decides: fewer
than 8 bytes above the pointer raise CALL_STACK_OVF, a poisoned frame ECC_UNCORR, and a return address that is not
aligned ALIGN, in this order within a thread, which is the model's choice (log entry 126). -/
def Obligations.CallsPushAndReturnsPopFrames : Prop :=
  (∀ (s : State) (n : BitVec 1) (p : BitVec 4) (o : BitVec 20) (a : BitVec 7),
      s.run.pc.toNat + 4 * (s.run.words.length + 3) < 2 ^ 56 → s.run.pos ≤ s.run.words.length → s.issue.Nodup →
      s.tidy = true →
      ∀ e ∈ ([(Instr.call n p o, [], fun _ => s.hereAddr + (o.signExtend 64) <<< 2), (.calli n p a, [.src a true], fun k => s.v64 k a.toNat)] :
          List (Instr × List Opd × (Nat → DWord))),
        s.Passes { instr := e.1, place := .both, ops := .psrc p.toNat :: e.2.1 } →
        let mayCall := fun k => TargetOk (e.2.2 k) ∧ 8 ≤ (s.thr k).csp
        ((∀ k ∈ s.taking n p, mayCall k) → exec e.1 s = .next ((s.called (s.taking n p)).sent (s.taking n p) e.2.2))
        ∧ (∀ k ∈ s.taking n p, (∀ j ∈ (s.taking n p).takeWhile (· != k), mayCall j) →
          (¬ TargetOk (e.2.2 k) → exec e.1 s = .next (s.takeFault { code := 0x06, addr := e.2.2 k }))
          ∧ (TargetOk (e.2.2 k) → (s.thr k).csp < 8 →
            exec e.1 s = .next (s.takeFault { code := 0x0C, addr := BitVec.ofNat 64 (laneBase + (s.thr k).csp) - 8 }))))
  ∧ (∀ (s : State) (n : BitVec 1) (p : BitVec 4),
      s.Passes { instr := .ret n p, place := .both, ops := [.psrc p.toNat] } → s.issue.Nodup → s.tidy = true →
      let top := fun k => s.laneHome k (s.thr k).csp
      let frame := fun k => BitVec.ofNat 64 (leNat (s.readHomes (top k) 8))
      let addr := fun k => BitVec.ofNat 64 (laneBase + (s.thr k).csp)
      let room := fun k => (s.thr k).csp + 8 ≤ (s.thr k).laneSz
      let mayReturn := fun k => room k ∧ s.isPoisoned (top k) 8 = false ∧ (frame k).extractLsb' 0 2 = 0
      ((∀ k ∈ s.taking n p, mayReturn k) →
        exec (.ret n p) s = .next ((s.taking n p).foldl (fun t k => t.updThr k fun x =>
          { x with csp := (s.thr k).csp + 8, nextPc := some (frame k &&& 0x01FFFFFFFFFFFFFF)
                   nextWinb := some (16 * ((frame k).extractLsb' 57 4).toNat) }) s))
      ∧ (∀ k ∈ s.taking n p, (∀ j ∈ (s.taking n p).takeWhile (· != k), mayReturn j) →
        (¬ room k → exec (.ret n p) s = .next (s.takeFault { code := 0x0C, addr := addr k }))
        ∧ (room k → s.isPoisoned (top k) 8 = true → exec (.ret n p) s = .next (s.takeFault { code := 0x1C, cls := 2, addr := addr k }))
        ∧ (room k → s.isPoisoned (top k) 8 = false → (frame k).extractLsb' 0 2 ≠ 0 →
          exec (.ret n p) s = .next (s.takeFault { code := 0x06, addr := frame k &&& 0x01FFFFFFFFFFFFFF }))))

/-- R24, R31, R141, R152 to R154, R310, R420: EXIT, where the tapes of the threads that take it find room in their
tasks' windows, and YIELD and SLEEP mark each thread concerned, NOP leaves the state as it is, and ICINV empties the
instruction lines of the core and the loop buffers of its slots. R144: WINB gives each thread of the issue set the
base imm, or its base plus imm, when that is a multiple of 16 from 0 to 240; else it raises REG_RANGE and changes no
base. -/
def Obligations.ExitsSleepsAndWindowBasesMarkTheThreads : Prop :=
  (∀ (s : State) (n : BitVec 1) (p : BitVec 4) (v : BitVec 1) (a : BitVec 7) (i : BitVec 11),
      (s.Passes { instr := .exit n p, place := .both, ops := [.psrc p.toNat] } →
        let room := s.checkWindow ((s.taking n p).map fun k => (k, s.headerHomes k))
        (room = .ok () → exec (.exit n p) s = .next ((s.taking n p).foldl (fun t k => t.updThr k fun x => { x with nextWait := some .exited }) s))
        ∧ (room ≠ .ok () → ∃ g, exec (.exit n p) s = .next (s.takeFault { code := 0x22, grid := some g })))
      ∧ (s.Passes { instr := .yield n p, place := .both, ops := [.psrc p.toNat] } →
        exec (.yield n p) s = .next ((s.taking n p).foldl (fun t k => t.updThr k fun x => { x with yielded := true }) s))
      ∧ (s.Passes { instr := .sleep v a i, place := .both, ops := if v == 1 then [.src a] else [] } →
        let count := fun k => Nat.min (i.toNat + (if v = 1 then (s.v k a.toNat).toNat else 0)) 65535
        exec (.sleep v a i) s = .next ((s.issue.filter fun k => count k ≠ 0).foldl (fun t k =>
          t.updThr k fun x => { x with nextWait := some (.asleep (count k)) }) s))
      ∧ (s.Passes { instr := .nop, place := .both } → exec .nop s = .next s)
      ∧ (s.Passes { instr := .icinv } → exec .icinv s = .next ([0, 1, 2, 3].foldl (fun t j =>
        t.updSlot (4 * (s.cur / 4) + j) fun x => { x with loop := [] }) (s.updCore (s.cur / 4) fun c => { c with code := [] }))))
  ∧ (∀ (s : State) (rel : BitVec 1) (i : BitVec 11), s.Passes { instr := .winb rel i } → s.tidy = true → s.issue.Nodup →
      let base := fun k => i.toInt + (if rel = 1 then ((s.thr k).winb : Int) else 0)
      ((∀ k ∈ s.issue, 0 ≤ base k ∧ base k ≤ 240 ∧ base k % 16 = 0) →
        exec (.winb rel i) s = .next (s.issue.foldl (fun t k => t.updThr k fun x => { x with winb := (base k).toNat }) s))
      ∧ ((∃ k ∈ s.issue, ¬ (0 ≤ base k ∧ base k ≤ 240 ∧ base k % 16 = 0)) →
        exec (.winb rel i) s = .next (s.takeFault { code := 0x03, info := i.toNat % 128 })))

-- Status registers and system instructions.

/-- R62: SYSR puts the status registers it names in flight, 4 clk away, to a vector register of each thread or a
uniform register of each group, as one word or two; SYSW gives each thread the new value from its next run on, and
raises PRIV for a register that its writer may not write. R63, R322: what the status registers of a compute thread
hold, by selector; that of a tile without an owner keeps the last owner's number under bit 31. R63: on a command
context the width reads 1, the die 4, the allocation 128, the grid extents 1 and the tape top all ones, and the
selectors without a meaning there read 0. -/
def Obligations.StatusRegistersHoldAndTakeTheirValues : Prop :=
  (∀ (s : State) (d a : BitVec 7) (c w : BitVec 1) (sel : BitVec 11),
      (s.Passes { instr := .sysr d c w sel, place := .both, ops := [intOpd (c == 1) (w == 1) d false true] } →
        exec (.sysr d c w sel) s = .next (s.fixed 4 ((s.actors (c == 1)).flatMap fun k =>
          s.intDst k (c == 1) (w == 1) d.toNat (s.status k sel.toNat + (if w = 1 then 2 ^ 32 * s.status k (sel.toNat + 1) else 0)))))
      ∧ (let src := fun k => if c = 1 then s.wOf k a.toNat else s.v k a.toNat
        (s.Passes { instr := .sysw c 0 a 0x20, place := .both, ops := [intOpd (c == 1) false a true false] } →
          exec (.sysw c 0 a 0x20) s = .next (s.issue.foldl (fun t k => t.updThr k fun x => { x with nextFpcsr := some (src k &&& 0x1F1F) }) s))
        ∧ (s.Passes { instr := .sysw c 0 a 0x21, place := .both, ops := [intOpd (c == 1) false a true false] } →
          exec (.sysw c 0 a 0x21) s = .next (s.issue.foldl (fun t k => t.updThr k fun x => { x with nextChk := some (src k &&& 3) }) s))
        ∧ (s.onCommand = true → 0x40 ≤ sel.toNat → sel.toNat ≤ 0x43 →
          s.Passes { instr := .sysw c 0 a sel, place := .both, ops := [intOpd (c == 1) false a true false] } →
          exec (.sysw c 0 a sel) s = .next (s.issue.foldl (fun t k => t.updThr k fun x =>
            { x with nextHeap := x.nextHeap.filter (fun e => e.1 != sel.toNat) ++ [(sel.toNat, src k)] }) s)))
      ∧ (s.Passes { instr := .sysw c w a sel, place := .both } → s.onCommand = false → sel.toNat ≠ 0x20 → sel.toNat ≠ 0x21 →
        exec (.sysw c w a sel) s = .next (s.takeFault { code := 0x20 })))
  ∧ (∀ (s : State) (k : Nat), isCmd k = false →
      let t := s.thr k
      let m := s.team t.team
      let g := s.grid m.grid
      s.status k 0x00 = 64 ∧ s.status k 0x01 = k % 64 ∧ s.status k 0x02 = k / 64 % 8 ∧ s.status k 0x03 = k / 512 % 4
      ∧ s.status k 0x05 = k / 2048 / 96 ∧ s.status k 0x06 = (s.grp t.grp).width ∧ s.status k 0x07 = k / 2048 % 96
      ∧ s.status k 0x08 = t.tid ∧ s.status k 0x09 = m.x ∧ s.status k 0x0A = m.y ∧ s.status k 0x0B = m.z
      ∧ s.status k 0x0C = g.desc.ex ∧ s.status k 0x0D = g.desc.ey ∧ s.status k 0x0E = g.desc.ez ∧ s.status k 0x0F = g.depth
      ∧ s.status k 0x10 + 2 ^ 32 * s.status k 0x11 = s.clk % 2 ^ 64
      ∧ s.status k 0x12 + 2 ^ 32 * s.status k 0x13 = s.clk % 2 ^ 64 / 64
      ∧ s.status k 0x20 = t.fpcsr.toNat ∧ s.status k 0x21 = t.chk.toNat ∧ s.status k 0x22 = t.winb ∧ s.status k 0x23 = t.alloc
      ∧ s.status k 0x24 = t.csp ∧ s.status k 0x25 = (s.grp t.grp).accB + 16 * (s.grp t.grp).accC
      ∧ s.status k 0x40 + 2 ^ 32 * s.status k 0x41 = (s.cx m.ctx).rheap.toNat
      ∧ s.status k 0x42 + 2 ^ 32 * s.status k 0x43 = (s.cx m.ctx).sheap.toNat
      ∧ s.status k 0x60 = m.ctx
      ∧ (t.tape.bound = false → s.status k 0x70 = 0xFFFFFFFF) ∧ (t.tape.bound = true → s.status k 0x70 = t.tape.top)
      ∧ (∀ n < 16, s.status k (0x30 + n) = match ((s.core (k / 2048)).acc.get {} n).owner with
          | some c => c
          | none => 2 ^ 31 + ((s.core (k / 2048)).acc.get {} n).was))
  ∧ (∀ (s : State) (c : Nat), c < 64 →
      let k := cmdBase + c
      s.status k 0x00 = 1 ∧ s.status k 0x05 = 4 ∧ s.status k 0x07 = c / 16 ∧ s.status k 0x23 = 128
      ∧ s.status k 0x70 = 0xFFFFFFFF ∧ s.status k 0x60 = (s.cmd c).ctx ∧ s.status k 0x20 = (s.thr k).fpcsr.toNat
      ∧ (∀ n ∈ [0x0C, 0x0D, 0x0E], s.status k n = 1)
      ∧ (∀ n ∈ [0x01, 0x02, 0x03, 0x04, 0x06, 0x08, 0x09, 0x0A, 0x0B, 0x0F, 0x22, 0x25, 0x50], s.status k n = 0)
      ∧ (∀ n < 16, s.status k (0x30 + n) = 0) ∧ (∀ n < 8, s.status k (0x80 + n) = 0))

-- Taking a fault, and returning.

/-- R119, R152, R155: TRAP raises TRAP_INSN (0x1F) with its immediate, to go on past the TRAP, for every immediate but
the 2047 that a compute thread returns from a handler with; FWRET raises PRIV on a compute core and ILLEGAL_OPCODE on
a command core. R363, R365, R366, R368, R369: a fault that no handler may take, of class 1 or 2 or marked for the
supervisor, is logged once, behind the records of the clks before: the record holds its code, class, INFO and address,
the PC and run position of the faulting word, and the stopped threads' lanes; they wait there, and the context is to
be saved on the die: where it runs there it is now being saved, and so is every core of the die that runs it. -/
def Obligations.TrapsAndFaultsOfNoHandlerAreTaken : Prop :=
  (∀ (s : State) (i : BitVec 11),
      (s.Passes { instr := .trap i, place := .both } → (i ≠ 2047 ∨ s.onCommand = true) →
        exec (.trap i) s = .next (s.takeFault { code := 0x1F, info := i.toNat, skip := 1 }))
      ∧ (s.onCommand = false → exec .fwret s = .next (s.takeFault { code := 0x20 }))
      ∧ (s.onCommand = true → exec .fwret s = .next (s.takeFault { code := 0x01 })))
  ∧ (∀ (s : State) (r : Run) (f : Flt), s.tidy = true →
      (s.slot s.cur).phase = .running r → r.threads ≠ [] → r.threads.Nodup → f.stops = none → f.code ≠ 0 → f.code ≠ 0x22 → f.skip = 0 →
      (∀ k ∈ r.threads, isCmd k = false) → (f.cls ≠ 0 ∨ f.sup = true) → f.lanes = none → s.log.length < 4096 → s.freshRecords = 0 →
      let t := s.takeFault f
      ∃ rec : Record, t.log = s.log ++ [rec] ∧ rec.code = f.code ∧ rec.cls = f.cls ∧ rec.info = f.info ∧ rec.addr = f.addr
        ∧ rec.pc = r.pc ∧ rec.runpos = r.pos ∧ rec.seq = s.logSeq % 2 ^ 32 ∧ rec.hbt = s.clk % 2 ^ 64 / 64
        ∧ rec.lanes = r.threads.foldl (fun m k => m ||| BitVec.twoPow 64 (k % 64)) 0
        ∧ (t.slot s.cur).phase = .idle
        ∧ (let c := s.ctxOf (r.threads.headD 0)
          let d := dieOfThread (r.threads.headD 0)
          (s.cx c).dies.get .running d = .running → (t.cx c).dies.get .running d = .saving
            ∧ ∀ n, dieOfCore n = d → (s.core n).ctx = c → (t.core n).saving = true)
        ∧ ∀ k ∈ r.threads, (t.thr k).wait = .rejoining ∧ (t.thr k).pc = r.pc ∧ (t.thr k).pos = r.pos)

/-- R367: a thread sent to the handler of its context enters at the handler's address, at position 0, with window base
0 and ready, and the 128 bytes of its slot, at the slot's address, hold the record with its DELIVERED flag and the
resumption point. R367: the 128 bytes of a handler slot that delivery writes are the record with its DELIVERED flag,
then the resumption PC and run position, the window base divided by 16, ACTIVE = 1, and the six temporaries. R367:
trap 2047 in a thread whose handler slot is ACTIVE and holds a point of a run is the return from the handler: it gives
the thread the PC, run position, window base and temporaries that the slot holds, and its own mask of temporaries, to
go on when the other threads of its fault are back; one that is of no fault goes on at once. R363: threads resume
together: those of one fault that are all back from it become ready again, in issue sets that share a resumption
point, which their slot takes up ahead of its picker's choice; while one is not back, or is stopped by a later fault,
none resumes. -/
def Obligations.HandlersAreEnteredAndReturnedFrom : Prop :=
  (∀ (s : State) (t : TrapTable) (r : Record) (rpc : DWord) (rpos k : Nat), s.tidy = true →
      let u := s.deliverTo t r rpc rpos k
      let x := u.thr k
      x.pc = t.pc ∧ x.pos = 0 ∧ x.winb = 0 ∧ x.wait = .ready ∧ x.tmKept = (s.thr k).tmMask
      ∧ (∀ j, j ≠ k → u.thr j = s.thr j) ∧ u.groups = s.groups ∧ u.teams = s.teams ∧ u.log = s.log
      ∧ (∀ p, s.engineSpot { unit := k, ctx := s.ctxOf k } { w := true } (t.slotOf (s.thr k).lid) 128 = .ok p → t.slotOf (s.thr k).lid % 128 = 0 →
        p.home + 128 ≤ 2 ^ 110 → Memory.wf s.mem = true →
        ∀ j < 128, u.readHome (p.home + j) = (({ r with flags := r.flags + 2 } : Record).bytes ++ s.slotTail k rpc rpos).getD j 0))
  ∧ (∀ (s : State) (r : Record) (rpc : DWord) (rpos k : Nat), rpos < 256 → (s.thr k).winb < 4096 →
      let b := ({ r with flags := r.flags + 2 } : Record).bytes ++ s.slotTail k rpc rpos
      r.bytes.length = 64 ∧ b.length = 128
      ∧ BitVec.ofNat 64 (leNat ((b.drop 0x40).take 8)) = rpc
      ∧ b.getD 0x48 0 = BitVec.ofNat 8 rpos ∧ b.getD 0x49 0 = BitVec.ofNat 8 ((s.thr k).winb / 16) ∧ b.getD 0x4A 0 = 1
      ∧ (∀ n < 6, BitVec.ofNat 32 (leNat ((b.drop (0x50 + 4 * n)).take 4)) = (s.thr k).tm.get 0 n)
      ∧ b.getD 0 0 = BitVec.ofNat 8 r.code ∧ leNat ((b.drop 0x1C).take 4) = r.info % 2 ^ 32)
  ∧ (∀ (s : State) (t : TrapTable) (k : Nat) (b : List Byte) (p : Bool), s.tidy = true →
      s.engineRead { unit := k, ctx := s.ctxOf k } (t.slotOf (s.thr k).lid + 0x40) 64 = .ok (b, p) →
      let x := (s.handlerReturn t k).thr k
      x.pc = BitVec.ofNat 64 (leNat (b.take 8)) ∧ x.pos = (b.getD 8 0).toNat ∧ x.winb = 16 * ((b.getD 9 0).toNat % 16)
      ∧ x.tmMask = (s.thr k).tmKept ∧ x.wait = .rejoining
      ∧ (∀ n < 6, x.tm.get 0 n = BitVec.ofNat 32 (leNat ((b.drop (16 + 4 * n)).take 4)))
      ∧ (s.Passes { instr := .trap 2047, place := .both } → s.issue = [k] → isCmd k = false → s.trapTable k = some t → s.slotActive t k = true →
        s.pointOk k (s.slotPoint t k).1 (s.slotPoint t k).2 = true → (s.thr k).live = true →
        ∃ u, exec (.trap 2047) s = .next u ∧ (u.slot s.cur).phase = .idle
          ∧ (let y := u.thr k
            y.pc = BitVec.ofNat 64 (leNat (b.take 8)) ∧ y.pos = (b.getD 8 0).toNat ∧ y.winb = 16 * ((b.getD 9 0).toNat % 16)
            ∧ y.tmMask = (s.thr k).tmKept ∧ (∀ n < 6, y.tm.get 0 n = BitVec.ofNat 32 (leNat ((b.drop (16 + 4 * n)).take 4)))
            ∧ (y.wait = .rejoining ∨ y.wait = .ready) ∧ ((s.thr k).fids = [] → 0 < s.nextId → (∀ e ∈ s.threads, s.nextId ∉ e.2.fids) → y.wait = .ready))))
  ∧ (∀ (s : State) (fid : Nat), fid ≠ 0 →
      let mine := (s.threads.filter fun e => e.2.fids.contains fid && e.2.live && e.2.wait != .exited).map (·.1)
      ((∃ k ∈ mine, (s.thr k).wait ≠ .rejoining ∨ (s.thr k).fids.head? ≠ some fid) → s.rejoin fid = s)
      ∧ (s.tidy = true → mine ≠ [] → (∀ k ∈ mine, (s.thr k).wait = .rejoining ∧ (s.thr k).fids.head? = some fid) →
          ∀ k ∈ mine, ((s.rejoin fid).thr k).wait = .ready ∧ ((s.rejoin fid).thr k).fids = (s.thr k).fids.tail
            ∧ ((s.rejoin fid).thr k).pc = (s.thr k).pc ∧ ((s.rejoin fid).thr k).pos = (s.thr k).pos)
      ∧ (∀ i, s.tidy = true → mine ≠ [] → (∀ k ∈ mine, issuerOfThread k = i ∧ (s.thr k).wait = .rejoining ∧ (s.thr k).fids.head? = some fid) →
          ∃ sets : List (DWord × Nat × List Nat), ((s.rejoin fid).slot i).resume = (s.slot i).resume ++ sets
            ∧ (∀ e ∈ sets, ∀ k, k ∈ e.2.2 ↔ k ∈ mine ∧ (s.thr k).pc = e.1 ∧ (s.thr k).pos = e.2.1)
            ∧ (∀ k ∈ mine, ∃ e ∈ sets, k ∈ e.2.2) ∧ (sets.map fun e => (e.1, e.2.1)).Nodup))

-- Floating point.

namespace Sys2Proof.Machine

/-- The value of a finite encoding (R66): sign, biased exponent, fraction. -/
def fpRat (f : Fmt) (n : Nat) : ℚ :=
  let frac := f.prec - 1
  let e := n / 2 ^ frac % 2 ^ (f.width - f.prec)
  let m := n % 2 ^ frac
  let mag : ℚ := if e = 0 then (m : ℚ) * 2 ^ (1 - (f.bias : ℤ) - (frac : ℤ)) else ((2 ^ frac + m : Nat) : ℚ) * 2 ^ ((e : ℤ) - f.bias - frac)
  if n / 2 ^ (f.width - 1) % 2 = 1 then -mag else mag

/-- Whether an encoding of a format is finite: its exponent field is not all ones. -/
def fpFinite (f : Fmt) (n : Nat) : Bool :=
  decide (n < 2 ^ f.width) && (n / 2 ^ (f.prec - 1) % 2 ^ (f.width - f.prec) != 2 ^ (f.width - f.prec) - 1)

/-- A result rounds an exact value as its mode asks (R67): to a nearest number, of two as near to the one whose last place is even, toward
zero, up or down. -/
def RoundsRight (f : Fmt) (r : Rnd) (x : ℚ) (n : Nat) : Prop :=
  match r with
  | .rne => (∀ y, fpFinite f y = true → |fpRat f n - x| ≤ |fpRat f y - x|)
    ∧ ((∃ y, fpFinite f y = true ∧ fpRat f y ≠ fpRat f n ∧ |fpRat f y - x| = |fpRat f n - x|) → n % 2 = 0)
  | .rtz => |fpRat f n| ≤ |x| ∧ 0 ≤ fpRat f n * x ∧ ∀ y, fpFinite f y = true → |fpRat f y| ≤ |x| → |fpRat f y| ≤ |fpRat f n|
  | .rup => x ≤ fpRat f n ∧ ∀ y, fpFinite f y = true → x ≤ fpRat f y → fpRat f n ≤ fpRat f y
  | .rdn => fpRat f n ≤ x ∧ ∀ y, fpFinite f y = true → fpRat f y ≤ x → fpRat f y ≤ fpRat f n
  | .rsr _ => True

/-- FCMP's conditions on two ordered values (R161): the codes of the unordered forms differ for a NaN alone. -/
def fpCond (c : Nat) (x y : ℚ) : Bool :=
  if c = 0 then decide (x = y) else if c = 1 then decide (x ≠ y)
  else if c = 2 ∨ c = 8 then decide (x < y) else if c = 3 ∨ c = 9 then decide (x ≤ y)
  else if c = 4 ∨ c = 10 then decide (y < x) else if c = 5 ∨ c = 11 then decide (y ≤ x)
  else decide (c = 7)

/-- An operation on the elements of registers: one for .f32 and .f64, two for packed types, whose flags join (R66, R69). -/
def perElem (t : Nat) (op : Fmt → List Nat → Nat × Flags) (xs : List Nat) : Nat × Flags :=
  if t = 0 then op f32 xs
  else if t = 1 then op f64 xs
  else
    let f := if t = 2 then f16 else b16
    let lo := op f (xs.map (· % 65536))
    let hi := op f (xs.map (· / 65536 % 65536))
    (lo.1 + 65536 * hi.1, lo.2 ||| hi.2)

/-- Decoded operand `i`. -/
def arg (f : Fmt) (xs : List Nat) (i : Nat) : FVal := f.decode (xs.getD i 0)

/-- The values of registers of one thread, as words or pairs. -/
def State.regVals (s : State) (k t : Nat) (rs : List (BitVec 7)) : List Nat := rs.map fun r => s.intSrc k false (t == 1) r.toNat

/-- The completed fixed-latency word of a floating-point type: every issued thread's result in flight, 8 clk away for .f64
and 4 for the others (R156), and its flags raised. -/
def State.fpDone (s : State) (t : Nat) (d : BitVec 7) (res : Nat → Nat × Flags) : State :=
  (s.fixed (if t = 1 then 8 else 4) (s.issue.flatMap fun k => s.intDst k false (t == 1) d.toNat (res k).1)).raiseAll
    (s.issue.map fun k => (k, (res k).2))

/-- The completed variable-latency word: each issued thread's result pending with its flags (R158). -/
def State.fpSent (s : State) (t : Nat) (d : BitVec 7) (res : Nat → Nat × Flags) : State :=
  s.issue.foldl (fun u k => u.variable k (s.intDst k false (t == 1) d.toNat (res k).1) (res k).2) s

/-- No issued thread traps on a floating-point flag. -/
abbrev State.NoTraps (s : State) : Prop := ∀ k ∈ s.issue, (s.thr k).enables = 0

/-- FSGN's result on one element (R163): the magnitude of a with a sign made of those of a and b. -/
def signElem (o : Nat) (f : Fmt) (xs : List Nat) : Nat × Flags :=
  let top := 2 ^ (f.width - 1)
  let a := xs.getD 0 0
  let sa := a / top % 2
  let sb := xs.getD 1 0 / top % 2
  (a % top + top * (if o = 0 then sb else if o = 1 then 1 - sb else if o = 2 then (sa + sb) % 2 else 0), 0)

end Sys2Proof.Machine

/-- R67: the result of an addition, subtraction, multiplication or division of finite operands, where it is finite, is
the exact result rounded once by the static mode, ties to even in the nearest one, and NX is raised exactly when it
differs from the exact result. -/
def Obligations.ArithmeticRoundsTheExactResultOnce : Prop :=
  ∀ f ∈ [f16, b16, f32, f64], ∀ r ∈ [Rnd.rne, .rtz, .rup, .rdn], ∀ a b : Nat, fpFinite f a = true → fpFinite f b = true →
    ∀ e ∈ ([(fAdd f r, fpRat f a + fpRat f b), (fSub f r, fpRat f a - fpRat f b), (fMul f r, fpRat f a * fpRat f b)]
        ++ (if fpRat f b = 0 then [] else [(fDiv f r, fpRat f a / fpRat f b)]) : List ((FVal → FVal → Nat × Flags) × ℚ)),
      let out := e.1 (f.decode a) (f.decode b)
      fpFinite f out.1 = true → RoundsRight f r e.2 out.1 ∧ (out.2.getLsbD 0 = true ↔ fpRat f out.1 ≠ e.2)

/-- R67 to R69, R159: the special cases: a NaN operand gives the first NaN made quiet, with NV for a signalling one;
an invalid operation gives the default NaN with NV; a finite non-zero value by zero gives an infinity with DZ; FSQRT
of -0 is -0; equal operands subtracted give +0, or -0 under .rdn. R161, R162, R164: FCMP's twelve conditions compare
the values of finite operands and put each infinity beyond every other value; with a NaN only .ne, .un and the four
unordered ones hold, and NV is raised by .lt, .le, .gt, .ge, or by a signalling NaN; FMIN and FMAX return the other
operand of a NaN, and order -0 below +0; FCLASS sets exactly the one bit of the operand's class. -/
def Obligations.FloatingPointSpecialCasesAndOrder : Prop :=
  (∀ f ∈ [f16, b16, f32, f64], ∀ r ∈ [Rnd.rne, .rtz, .rup, .rdn],
      (∀ neg q pay (b : FVal), ∀ op ∈ [fAdd f r, fMul f r, fDiv f r],
        op (.nan neg q pay) b = (f.quietBits neg pay, if !q || b.isSnan then flNV else 0))
      ∧ (∀ neg q pay (a : FVal), a.isNan = false → ∀ op ∈ [fAdd f r, fMul f r, fDiv f r],
        op a (.nan neg q pay) = (f.quietBits neg pay, if q then 0 else flNV))
      ∧ (∀ x, fAdd f r (.inf x) (.inf (!x)) = (f.nanBits, flNV))
      ∧ (∀ x y e, fMul f r (.inf x) (.fin y 0 e) = (f.nanBits, flNV) ∧ fMul f r (.fin y 0 e) (.inf x) = (f.nanBits, flNV))
      ∧ (∀ x y e g, fDiv f r (.fin x 0 e) (.fin y 0 g) = (f.nanBits, flNV))
      ∧ (∀ x y m e g, m ≠ 0 → fDiv f r (.fin x m e) (.fin y 0 g) = (f.infBits (x != y), flDZ))
      ∧ (∀ m e, m ≠ 0 → fSqrt f r (.fin true m e) = (f.nanBits, flNV))
      ∧ (∀ neg e, fSqrt f r (.fin neg 0 e) = (if neg then 2 ^ (f.width - 1) else 0, 0))
      ∧ (∀ neg m e, m ≠ 0 → fSub f r (.fin neg m e) (.fin neg m e) = (if r = .rdn then 2 ^ (f.width - 1) else 0, 0))
      ∧ [f16.nanBits, b16.nanBits, f32.nanBits, f64.nanBits] = [0x7E00, 0x7FC0, 0x7FC00000, 0x7FF8000000000000])
  ∧ (∀ f ∈ [f16, b16, f32, f64],
      (∀ a b, fpFinite f a = true → fpFinite f b = true →
        (∀ c < 12, fCompare c (f.decode a) (f.decode b) = (fpCond c (fpRat f a) (fpRat f b), 0))
        ∧ fpRat f (fMinMax f false a b).1 = min (fpRat f a) (fpRat f b)
        ∧ fpRat f (fMinMax f true a b).1 = max (fpRat f a) (fpRat f b))
      ∧ (∀ x : FVal, x.isNan = false →
        fCompare 2 x (.inf false) = (decide (x ≠ .inf false), 0) ∧ fCompare 4 x (.inf true) = (decide (x ≠ .inf true), 0)
        ∧ (∀ neg, fCompare 0 x (.inf neg) = (decide (x = .inf neg), 0)) ∧ fCompare 6 x (.inf false) = (false, 0))
      ∧ (∀ x y : FVal, (x.isNan = true ∨ y.isNan = true) → ∀ c < 12,
        fCompare c x y = (decide (c ∈ [1, 6, 8, 9, 10, 11]), if (2 ≤ c ∧ c ≤ 5) ∨ x.isSnan = true ∨ y.isSnan = true then flNV else 0))
      ∧ (∀ a b, (f.decode a).isNan = true → (f.decode b).isNan = false → ∀ m, (fMinMax f m a b).1 = b ∧ (fMinMax f m b a).1 = b)
      ∧ (let z := 2 ^ (f.width - 1); fMinMax f false 0 z = (z, 0) ∧ fMinMax f false z 0 = (z, 0) ∧ fMinMax f true 0 z = (0, 0) ∧ fMinMax f true z 0 = (0, 0))
      ∧ (∀ n < 2 ^ f.width, ∃ i < 10, fClass f n = 2 ^ i
        ∧ (i = 9 ↔ (f.decode n).isNan = true ∧ (f.decode n).isSnan = false) ∧ (i = 8 ↔ (f.decode n).isSnan = true)
        ∧ ((i = 3 ∨ i = 4) ↔ n % 2 ^ (f.width - 1) = 0) ∧ ((i = 0 ∨ i = 7) ↔ ∃ g, f.decode n = .inf g)
        ∧ (i < 4 → 2 ^ (f.width - 1) ≤ n) ∧ (4 ≤ i → i < 8 → n < 2 ^ (f.width - 1))))

/-- R156, R159, R160, R162, R163, R165: the fixed-latency floating-point instructions give each issued thread the
rounded result of its elements and raise the flags; FFMA adds the old destination, FFMAT a temporary or +0. Whether 0
* infinity plus a quiet NaN raises NV is open (assumption log, free values): the statement holds for either. R161,
R164, R166, R167: FCMP writes a predicate of scalar operands, FCLASS one register, FCVT the converted element or pair. -/
def Obligations.FloatingPointInstructionsGiveTheirResults : Prop :=
  (∀ (s : State) (r t : BitVec 2) (d a b : BitVec 7), s.NoTraps → s.tidy = true →
      let R := Rnd.ofCode r.toNat
      let wide := t == 1
      let ops2 : List Opd := [.dst d wide, .src a wide, .src b wide]
      (∀ e ∈ ([(Instr.fadd, fAdd), (.fsub, fSub), (.fmul, fMul)] :
          List ((BitVec 2 → BitVec 2 → BitVec 7 → BitVec 7 → BitVec 7 → Instr) × (Fmt → Rnd → FVal → FVal → Nat × Flags))),
        s.Passes { instr := e.1 r t d a b, ops := ops2 } →
        exec (e.1 r t d a b) s = .next (s.fpDone t.toNat d fun k =>
          perElem t.toNat (fun f xs => e.2 f R (arg f xs 0) (arg f xs 1)) (s.regVals k t.toNat [a, b])))
      ∧ (s.Passes { instr := .ffma r t d a b, ops := ops2 ++ [.src d wide] } →
        ∃ open0 : Nat → Bool, exec (.ffma r t d a b) s = .next (s.fpDone t.toNat d fun k =>
          perElem t.toNat (fun f xs => fFma f R (open0 k) (arg f xs 0) (arg f xs 1) (arg f xs 2)) (s.regVals k t.toNat [a, b, d])))
      ∧ (∀ (c : BitVec 3) (y : BitVec 1), s.Passes { instr := .ffmat c y d a b, ops := [.dst d (y == 1), .src a (y == 1), .src b (y == 1)]
            ++ (if c = 6 then [] else [.src (122 + c.setWidth 7) (y == 1)]) } → c ≠ 7 →
        ∃ open0 : Nat → Bool, exec (.ffmat c y d a b) s = .next (s.fpDone y.toNat d fun k =>
          let f := if y = 1 then f64 else f32
          let z := if c = 6 then 0 else s.intSrc k false (y == 1) (122 + c.toNat)
          fFma f .rne (open0 k) (f.decode (s.intSrc k false (y == 1) a.toNat)) (f.decode (s.intSrc k false (y == 1) b.toNat)) (f.decode z)))
      ∧ (∀ e ∈ ([(Instr.fmin, false), (.fmax, true)] : List ((BitVec 2 → BitVec 7 → BitVec 7 → BitVec 7 → Instr) × Bool)),
        s.Passes { instr := e.1 t d a b, ops := ops2 } →
        exec (e.1 t d a b) s = .next (s.fpDone t.toNat d fun k =>
          perElem t.toNat (fun f xs => fMinMax f e.2 (xs.getD 0 0) (xs.getD 1 0)) (s.regVals k t.toNat [a, b])))
      ∧ (s.Passes { instr := .frnd r t d a, ops := [.dst d wide, .src a wide] } →
        exec (.frnd r t d a) s = .next (s.fpDone t.toNat d fun k =>
          perElem t.toNat (fun f xs => fRound f R (xs.getD 0 0)) (s.regVals k t.toNat [a])))
      ∧ (s.Passes { instr := .fsgn r t d a b, ops := [.dst d wide, .src a wide] ++ (if r = 3 then [] else [.src b wide]) } →
        exec (.fsgn r t d a b) s = .next (s.fpDone t.toNat d fun k =>
          perElem t.toNat (signElem r.toNat) (s.regVals k t.toNat (if r = 3 then [a] else [a, b])))))
  ∧ (∀ (s : State) (t : BitVec 2) (d a b : BitVec 7), s.NoTraps → s.tidy = true →
      let wide := t == 1
      (∀ c p : BitVec 4, s.Passes { instr := .fcmp c t p a b, ops := [.pdst p.toNat, .src a wide, .src b wide] } →
        let f := fmtOf t.toNat
        let val := fun k (n : BitVec 7) => f.decode (s.intSrc k false wide n.toNat % 2 ^ f.width)
        exec (.fcmp c t p a b) s = .next ((s.fixed (if t = 1 then 8 else 4) (s.issue.map fun k =>
            .pred k p.toNat (fCompare c.toNat (val k a) (val k b)).1)).raiseAll
          (s.issue.map fun k => (k, (fCompare c.toNat (val k a) (val k b)).2))))
      ∧ (s.Passes { instr := .fclass t d a, ops := [.dst d, .src a wide] } →
        exec (.fclass t d a) s = .next (s.fixed (if t = 1 then 8 else 4) (s.issue.map fun k =>
          let x := s.intSrc k false wide a.toNat
          s.toV k d.toNat (BitVec.ofNat 32 (perElem t.toNat (fun f xs => (fClass f (xs.getD 0 0), 0)) [x]).1))))
      ∧ (∀ (dt st : BitVec 4) (rnd : BitVec 3) (seed : BitVec 6),
        let wd := dt.toNat ∈ [2, 3, 5] ∨ (dt = 4 ∧ st.toNat ∈ [8, 9])
        let ws := st.toNat ∈ [2, 3, 5] ∨ (st = 4 ∧ dt.toNat ∈ [8, 9])
        s.Passes { instr := .fcvt d a b dt st rnd seed
                   ops := [.dst d (decide wd), .src a (decide ws)] ++ (if rnd = 4 then [.src b, .usrc seed.toNat false 3] else []) } →
        let res := fun k => convert dt.toNat st.toNat (s.cvtRnd k rnd.toNat seed.toNat b) (s.intSrc k false (decide ws) a.toNat)
        exec (.fcvt d a b dt st rnd seed) s = .next ((s.fixed (if dt.toNat ∈ [2, 3, 5] ∨ st.toNat ∈ [2, 3, 5] then 8 else 4)
            (s.issue.flatMap fun k => s.intDst k false (decide wd) d.toNat (res k).1)).raiseAll (s.issue.map fun k => (k, (res k).2)))))

/-- R158, R159, R169: FDIV, FSQRT and FSFU leave each issued thread's result pending, with its flags, which are raised
as it lands. -/
def Obligations.DivisionsAndFunctionsStayPending : Prop :=
  ∀ (s : State) (r t : BitVec 2) (fn : BitVec 3) (d a b : BitVec 7),
    let R := Rnd.ofCode r.toNat
    let wide := t == 1
    (s.Passes { instr := .fdiv r t d a b, ops := [.dst d wide, .src a wide, .src b wide] } →
      exec (.fdiv r t d a b) s = .next (s.fpSent t.toNat d fun k =>
        perElem t.toNat (fun f xs => fDiv f R (arg f xs 0) (arg f xs 1)) (s.regVals k t.toNat [a, b])))
    ∧ (s.Passes { instr := .fsqrt r t d a, ops := [.dst d wide, .src a wide] } →
      exec (.fsqrt r t d a) s = .next (s.fpSent t.toNat d fun k =>
        perElem t.toNat (fun f xs => fSqrt f R (arg f xs 0)) (s.regVals k t.toNat [a])))
    ∧ (s.Passes { instr := .fsfu fn d a, ops := [.dst d, .src a] } →
      ∃ open0 : Nat → Nat, exec (.fsfu fn d a) s = .next (s.fpSent 0 d fun k => sfu fn.toNat (s.v k a.toNat).toNat (open0 k)))

namespace Sys2Proof.Machine

/-- The issued threads that trap on the flags an instruction raises in them (R158). -/
def State.trapped (s : State) (fl : Nat → Flags) : List Nat := s.issue.filter fun k => decide (fl k &&& (s.thr k).enables ≠ 0)

/-- A word of `n` words whose results and flags leave `t`, and then FP_TRAP in the threads that trap, with the union of their flags. -/
def State.thenTraps (s t : State) (n : Nat) (fl : Nat → Flags) : State :=
  t.takeFault { code := 0x11, info := ((s.trapped fl).foldl (fun (f : Flags) k => f ||| fl k) 0).toNat, stops := some (s.trapped fl), skip := n }

end Sys2Proof.Machine

/-- R158: with a flag raised whose enable is set in a thread, before the last word of a run, a fixed-latency
floating-point instruction (FADD, FSUB, FMUL, FFMA, FFMAT, FMIN, FMAX, FRND, FCMP and FCVT) and LRED still write their
results and set their flags; FP_TRAP follows in those threads, with the union of their flags, to go on at the next
word. Whether 0 * infinity plus a quiet NaN raises NV is open (assumption log, free values): the statement holds for
either. -/
def Obligations.EnabledFlagsTrapAfterTheResult : Prop :=
  ∀ (s : State) (r t : BitVec 2) (d a b : BitVec 7), s.tidy = true → s.run.pos + 1 ≤ s.run.words.length → s.issue.Nodup →
    let R := Rnd.ofCode r.toNat
    let wide := t == 1
    let ops2 : List Opd := [.dst d wide, .src a wide, .src b wide]
    let traps := fun (i : Instr) (res : Nat → Nat × Flags) =>
      s.trapped (fun k => (res k).2) ≠ [] → exec i s = .next (s.thenTraps (s.fpDone t.toNat d res) 1 fun k => (res k).2)
    (∀ e ∈ ([(Instr.fadd, fAdd), (.fsub, fSub), (.fmul, fMul)] :
        List ((BitVec 2 → BitVec 2 → BitVec 7 → BitVec 7 → BitVec 7 → Instr) × (Fmt → Rnd → FVal → FVal → Nat × Flags))),
      s.Passes { instr := e.1 r t d a b, ops := ops2 } →
      traps (e.1 r t d a b) fun k => perElem t.toNat (fun f xs => e.2 f R (arg f xs 0) (arg f xs 1)) (s.regVals k t.toNat [a, b]))
    ∧ (s.Passes { instr := .ffma r t d a b, ops := ops2 ++ [.src d wide] } →
      ∃ open0 : Nat → Bool, traps (.ffma r t d a b) fun k =>
        perElem t.toNat (fun f xs => fFma f R (open0 k) (arg f xs 0) (arg f xs 1) (arg f xs 2)) (s.regVals k t.toNat [a, b, d]))
    ∧ (∀ (c : BitVec 3) (y : BitVec 1), s.Passes { instr := .ffmat c y d a b, ops := [.dst d (y == 1), .src a (y == 1), .src b (y == 1)]
          ++ (if c = 6 then [] else [.src (122 + c.setWidth 7) (y == 1)]) } → c ≠ 7 →
      ∃ open0 : Nat → Bool,
        let res := fun k =>
          let f := if y = 1 then f64 else f32
          let z := if c = 6 then 0 else s.intSrc k false (y == 1) (122 + c.toNat)
          fFma f .rne (open0 k) (f.decode (s.intSrc k false (y == 1) a.toNat)) (f.decode (s.intSrc k false (y == 1) b.toNat)) (f.decode z)
        s.trapped (fun k => (res k).2) ≠ [] → exec (.ffmat c y d a b) s = .next (s.thenTraps (s.fpDone y.toNat d res) 1 fun k => (res k).2))
    ∧ (∀ e ∈ ([(Instr.fmin, false), (.fmax, true)] : List ((BitVec 2 → BitVec 7 → BitVec 7 → BitVec 7 → Instr) × Bool)),
      s.Passes { instr := e.1 t d a b, ops := ops2 } →
      traps (e.1 t d a b) fun k => perElem t.toNat (fun f xs => fMinMax f e.2 (xs.getD 0 0) (xs.getD 1 0)) (s.regVals k t.toNat [a, b]))
    ∧ (s.Passes { instr := .frnd r t d a, ops := [.dst d wide, .src a wide] } →
      traps (.frnd r t d a) fun k => perElem t.toNat (fun f xs => fRound f R (xs.getD 0 0)) (s.regVals k t.toNat [a]))
    ∧ (∀ c p : BitVec 4, s.Passes { instr := .fcmp c t p a b, ops := [.pdst p.toNat, .src a wide, .src b wide] } →
      let f := fmtOf t.toNat
      let val := fun k (n : BitVec 7) => f.decode (s.intSrc k false wide n.toNat % 2 ^ f.width)
      let res := fun k => fCompare c.toNat (val k a) (val k b)
      s.trapped (fun k => (res k).2) ≠ [] →
      exec (.fcmp c t p a b) s = .next (s.thenTraps ((s.fixed (if t = 1 then 8 else 4) (s.issue.map fun k => .pred k p.toNat (res k).1)).raiseAll
        (s.issue.map fun k => (k, (res k).2))) 1 fun k => (res k).2))
    ∧ (∀ (dt st : BitVec 4) (rnd : BitVec 3) (seed : BitVec 6),
      let wd := dt.toNat ∈ [2, 3, 5] ∨ (dt = 4 ∧ st.toNat ∈ [8, 9])
      let ws := st.toNat ∈ [2, 3, 5] ∨ (st = 4 ∧ dt.toNat ∈ [8, 9])
      s.Passes { instr := .fcvt d a b dt st rnd seed
                 ops := [.dst d (decide wd), .src a (decide ws)] ++ (if rnd = 4 then [.src b, .usrc seed.toNat false 3] else []) } →
      let res := fun k => convert dt.toNat st.toNat (s.cvtRnd k rnd.toNat seed.toNat b) (s.intSrc k false (decide ws) a.toNat)
      s.run.pos + 2 ≤ s.run.words.length → s.trapped (fun k => (res k).2) ≠ [] →
      exec (.fcvt d a b dt st rnd seed) s = .next (s.thenTraps ((s.fixed (if dt.toNat ∈ [2, 3, 5] ∨ st.toNat ∈ [2, 3, 5] then 8 else 4)
        (s.issue.flatMap fun k => s.intDst k false (decide wd) d.toNat (res k).1)).raiseAll (s.issue.map fun k => (k, (res k).2))) 2 fun k => (res k).2))
    ∧ (∀ f : BitVec 4, s.GroupsInOrder → f.toNat < 13 →
      let wide := f == 11 || f == 12
      s.Passes { instr := .lred f d a, ops := [.dst d wide, .src a wide] } →
      let res := fun (g : Nat) =>
        redSteps (specCombine f.toNat) (s.grp g).width 0 (Nat.log2 (s.grp g).width)
          (fun j => ((s.issuedOf g).find? fun k => (s.thr k).idx == j).map fun k => s.intSrc k false wide a.toNat) 0
      let fl := fun k => (res (s.thr k).grp).2
      s.trapped fl ≠ [] →
      exec (.lred f d a) s = .next (s.thenTraps ((s.fixed 6 (s.issueGroups.flatMap fun e => (s.issuedOf e.1).flatMap fun k =>
          s.intDst k false wide d.toNat ((res e.1).1.getD 0))).raiseAll
        (s.issueGroups.flatMap fun e => (s.issuedOf e.1).map fun k => (k, (res e.1).2))) 1 fl))

/-- R171, R173, R382: LUT latches the table's active bank for each group at its first use, and leaves each issued
thread the value that the latched bank's image gives its operand. That the flags its result raises as it lands make no
trap is the model's choice (log entry 128). R172, R409: LUTLD queues one load for each group of the issue set in turn,
where its descriptor and translation pass and the group latches no bank that it would fill: behind the loads of the
table that wait already, of the bank that is not in use then, and leaves the version that it will have pending in each
of the group's issued threads. -/
def Obligations.TableLookupsAndLoadsComplete : Prop :=
  (∀ (s : State) (t : BitVec 2) (d a : BitVec 7), s.Passes { instr := .lut t d a, ops := [.dst d, .src a] } →
      let u := s.issueGroups.foldl (fun u e => u.latchTable e.1 t.toNat) s
      exec (.lut t d a) s = .next (u.issue.foldl (fun w k =>
        let l := (u.grp (u.thr k).grp).latch.get {} t.toNat
        let x := (u.core (k / 2048)).tables.get {} t.toNat
        let res := lutEval (if l.bank then x.bank1 else x.bank0) (u.v k a.toNat).toNat
        w.variable k [u.toV k d.toNat (BitVec.ofNat 32 res.1)] res.2 (quiet := true)) u))
  ∧ (∀ (s : State) (t : BitVec 2) (d : BitVec 7) (g : BitVec 5), s.Passes { instr := .lutld t d g, ops := [.dst d, .g g], det := some 0x3F } →
      (let load := fun (u : State) (e : Nat × Nat) => got (u.lutldGroup t.toNat d g e.1 e.2) u;
        InTurn (fun u e => Fine (u.lutldGroup t.toNat d g e.1 e.2)) load s s.issueGroups → exec (.lutld t d g) s = .next (s.issueGroups.foldl load s))
      ∧ ∀ gr k : Nat, s.tidy = true → (
        let c := s.core (k / 2048)
        let ahead := c.loads.filter fun l => l.t == t.toNat
        let bank := match ahead.getLast? with | some l => !l.bank | none => !(c.tables.get {} t.toNat).active
        let latch := (s.grp gr).latch.get {} t.toNat
        (∃ p, s.checkAccess k { size := 3088, align := 16, g := g.toNat, perm := 1, noDevice := true } (s.ptrOf k g.toNat) = .ok p) →
        s.engineFault (s.agentOf k) {} (s.ptrOf k g.toNat).toNat 3088 = none →
        (latch.latched = true ∧ latch.bank = bank → s.lutldGroup t.toNat d g gr k = .error { code := 0x02, info := 0x80 + t.toNat })
        ∧ (¬ (latch.latched = true ∧ latch.bank = bank) →
          ∃ u ids, s.lutldGroup t.toNat d g gr k = .ok u
            ∧ (u.core (k / 2048)).loads = c.loads ++ [{ t := t.toNat, grp := gr, ctx := s.ctxOf k, ptr := s.ptrOf k g.toNat, begun := false
                                                        bank := bank, pend := ids, image := [] }]
            ∧ u.pend.take s.pend.length = s.pend ∧ (u.pend.drop s.pend.length).map (·.id) = ids
            ∧ (u.pend.drop s.pend.length).map (fun p => (p.th, p.uid, p.writes)) = (s.issuedOf gr).map (fun m =>
              (m, (s.thr m).uid, [s.toV m d.toNat ((c.tables.get {} t.toNat).version + BitVec.ofNat 32 (ahead.length + 1))]))
            ∧ u.mem = s.mem ∧ u.threads = s.threads)))

-- Memory.

namespace Sys2Proof.Machine

/-- Every lane's access passes the checks of R176, and a read meets no poison (R388). -/
abbrev State.Allowed (s : State) (a : Ask) (rd : Bool) (ks : List (Nat × DWord)) : Prop :=
  ∀ e ∈ ks, ∃ p, s.checkAccess e.1 a e.2 = .ok p ∧ (rd = true → s.isPoisoned p.home a.size = false)

/-- Where the lanes' accesses go: the threads with their spots, in order. -/
def State.spotsOf (s : State) (a : Ask) (ks : List (Nat × DWord)) : List (Nat × Spot) :=
  ks.filterMap fun e => match s.checkAccess e.1 a e.2 with | .ok p => some (e.1, p) | .error _ => none

/-- The bytes of a weak access by size code (R179). -/
def weakSize (z : BitVec 3) : Nat := [1, 1, 2, 2, 4, 8, 16, 16].getD z.toNat 16

/-- The data operand of an access. -/
def dataOf (size : Nat) (d : BitVec 7) (wr : Bool) : Opd :=
  { cls := .vec, n := d.toNat, cnt := if size = 16 then 4 else if size = 8 then 2 else 1, wide := size == 8, quad := size == 16
    rd := !wr, wr := wr }

/-- The registers that loaded bytes fill: one, zero- or sign-extended, or one for each four bytes (R179). -/
def wordsFrom (signed : Bool) : List Byte → List Word
  | [a] => [if signed then a.signExtend 32 else a.setWidth 32]
  | [a, b] => [if signed then (b ++ a : BitVec 16).signExtend 32 else (b ++ a : BitVec 16).setWidth 32]
  | a :: b :: c :: d :: r => (d ++ c ++ b ++ a : BitVec 32) :: (if r = [] then [] else wordsFrom signed r)
  | _ => []

/-- The addresses of LD and ST: the pointer plus a signed offset in units of the size; and of LDX and STX: the pointer
plus the sign-extended index, scaled (R176). -/
def State.offsetEas (s : State) (g : BitVec 5) (o : BitVec 9) (size : Nat) : List (Nat × DWord) :=
  s.issue.map fun k => (k, s.ptrOf k g.toNat + o.signExtend 64 * BitVec.ofNat 64 size)
def State.indexEas (s : State) (g : BitVec 5) (i : BitVec 7) (c : BitVec 2) : List (Nat × DWord) :=
  s.issue.map fun k => (k, s.ptrOf k g.toNat + ((s.v k i.toNat).signExtend 64) <<< c.toNat)
def State.ptrEas (s : State) (g : BitVec 5) : List (Nat × DWord) := s.issue.map fun k => (k, s.ptrOf k g.toNat)

/-- What weak loads and stores ask for. -/
def askWeak (size : Nat) (g : BitVec 5) (wr : Bool) : Ask :=
  { size := size, align := size, g := g.toNat, perm := if wr then 2 else 1, wr := wr, need := { w := wr }, weak := true }

/-- What strong loads and stores, and atomics, ask for (R181, R182). -/
def askStrong (size : Nat) (g : BitVec 5) (wr : Bool) : Ask :=
  { size := size, align := size, g := g.toNat, perm := if wr then 2 else 1, wr := wr, need := { w := wr }, opc := if wr then 0x43 else 0x42 }
def askAtomic (size : Nat) (g : BitVec 5) (op : Nat) : Ask :=
  { size := size, align := size, g := g.toNat, perm := 4, wr := true, need := { w := true, at_ := true }, opc := op, nonBinned := true }

/-- A lane's weak load begins: the fills that come before it land, and the thread's own additions to its bytes (R98, R100). -/
def State.readyToLoad (s : State) (size : Nat) (e : Nat × Spot) : State :=
  let t := (s.landFills (issuerOfThread e.1) (coreOfThread e.1)).ownBins e.1 e.2.home size
  { t with free := t.free + 1 }

/-- A completed weak load: the lanes read in turn, and each lane's bytes, extended, are pending for its registers, to land in
lane order (R92). -/
def State.loaded (s : State) (z : BitVec 3) (d : BitVec 7) (l : List (Nat × Spot)) : State :=
  let r := l.foldl (fun (a : List (Nat × List RegWrite) × State) e =>
    let t := a.2.readyToLoad (weakSize z) e
    (a.1 ++ [(e.1, s.toBlock e.1 d.toNat (wordsFrom (z == 1 || z == 3) (t.weakBytes e.1 e.2 e.2.home (weakSize z))))], t.afterLoad e.1 e.2)) ([], s)
  r.2.variableInOrder r.1

/-- The core of a thread holds neither a pending store nor a copy of the line of a byte. -/
abbrev State.OnlyAtHome (s : State) (k h : Nat) : Prop :=
  (s.core (coreOfThread k)).pending h = none ∧ (s.core (coreOfThread k)).l1.get none (h / 128) = none
    ∧ (s.slot (issuerOfThread k)).l0.get none (h / 128) = none

/-- The core of a thread holds a byte that the thread itself stored and that is still to go home. -/
def State.StoredItself (s : State) (k h : Nat) (b : Byte) : Prop :=
  (s.core (coreOfThread k)).pending h = some b ∧ ∃ w, (s.core (coreOfThread k)).who.get none h = some w ∧ ∃ clk, ((s.thr k).uid, clk) ∈ w.by_

/-- A completed weak store, in ascending lane order; a deterministic task also notes its write. -/
def State.stored (s : State) (z : BitVec 3) (d : BitVec 7) (l : List ((Nat × Spot) × (Nat × DWord))) : State :=
  l.foldl (fun t e =>
    let b := s.dataBytes e.1.1 (weakSize z) d
    ((t.ownBins e.1.1 e.1.2.home (weakSize z)).weakWrite e.1.1 e.1.2 e.1.2.home b e.2.2.toNat).noteWrite (t.viewOfThread e.1.1) e.2.2.toNat (upto e.1.2.home (weakSize z)) b) s

/-- ATOM's operations (R183). -/
def bvAtom (f : Nat) (sg : Bool) {n : Nat} (m a : BitVec n) : BitVec n :=
  if f = 0 then m + a else if f = 1 then m &&& a else if f = 2 then m ||| a else if f = 3 then m ^^^ a
  else if f = 4 then (if (if sg then a.slt m else a.ult m) then a else m)
  else if f = 5 then (if (if sg then m.slt a else m.ult a) then a else m) else a

/-- A byte of memory is outside every stored range. -/
abbrev Outside (h : Nat) (size : Nat) (l : List (Nat × Spot)) : Prop := ∀ e ∈ l, h < e.2.home ∨ e.2.home + size ≤ h

/-- The core of a thread holds no store that is still to go home. -/
abbrev State.NothingPending (s : State) (k : Nat) : Prop := (s.core (coreOfThread k)).pend = [] ∧ (s.core (coreOfThread k)).pubs = []

end Sys2Proof.Machine

/-- A byte read at a home after bytes are written at consecutive homes is the byte written there, or, elsewhere, the
byte read before; the canonical form of memory is kept. -/
def Obligations.MemoryReadsBackWhatWasWritten : Prop :=
  ∀ (s : State) (h : Nat) (bs : List Byte), Memory.wf s.mem = true → s.tidy = true → h + bs.length ≤ 2 ^ 110 →
    (∀ i, i < bs.length → (s.writeHomes h bs).readHome (h + i) = bs.getD i 0)
    ∧ (∀ a, a < h ∨ h + bs.length ≤ a → a < 2 ^ 110 → (s.writeHomes h bs).readHome a = s.readHome a)
    ∧ Memory.wf (s.writeHomes h bs).mem = true

/-- R176, R374: where an access through an address register goes. A misaligned address raises ALIGN; an address
outside base to base + limit raises BOUNDS; a permission that is not set raises ACCESS, in this order; and an aligned
lane-store access inside the register's range and the thread's slice goes to the slice. -/
def Obligations.AccessesAreCheckedInOrder : Prop :=
  ∀ (s : State) (k : Nat) (a : Ask) (ea : DWord),
    let f := s.gf k a.g
    let va := ea.toNat
    let inside := f.base.toNat ≤ va ∧ va + a.size ≤ f.base.toNat + f.limit.toNat
    (va % a.align ≠ 0 → s.checkAccess k a ea = .error { code := 0x06, chk := 1 })
    ∧ (va % a.align = 0 → ¬ inside → s.checkAccess k a ea = .error { code := 0x07, chk := 2 })
    ∧ (va % a.align = 0 → inside → f.perm.toNat &&& a.perm ≠ a.perm → s.checkAccess k a ea = .error { code := 0x08, chk := 3 })
    ∧ (va % a.align = 0 → inside → f.perm.toNat &&& a.perm = a.perm → f.kind = 2 → isCmd k = false →
        laneBase ≤ va → va < laneBase + 2048 →
        s.checkAccess k a ea =
          if va - laneBase + a.size ≤ (s.thr k).laneSz then .ok { home := s.laneHome k (va - laneBase), win := .laneStore }
          else .error { code := 0x0B, chk := 4 })

/-- R92, R100, R176, R179, R180: LD and LDX leave each issued thread's bytes, zero- or sign-extended, pending for its
registers, and ST and STX store the low bytes of its registers, at the pointer plus the offset or the scaled index. A
byte of which the core holds no pending store and no copy is read at its home; pending stores of the thread itself are
what it reads where its slot holds no copy; and the bytes of one aligned 8-byte part come from one of the sources that
R100 allows, for all of them together (R101). -/
def Obligations.WeakLoadsAndStoresComplete : Prop :=
  ∀ (s : State) (z : BitVec 3) (d i : BitVec 7) (g : BitVec 5) (o : BitVec 9) (c : BitVec 2),
    let n := weakSize z
    (∀ e ∈ ([(Instr.ld z d g o, s.offsetEas g o n, []), (.ldx z d g i c, s.indexEas g i c, [.src i])] : List (Instr × List (Nat × DWord) × List Opd)),
      s.Passes { instr := e.1, ops := [dataOf n d true, .g g] ++ e.2.2 } → s.Allowed (askWeak n g false) true e.2.1 →
      exec e.1 s = .next (s.loaded z d (s.spotsOf (askWeak n g false) e.2.1)))
    ∧ (∀ e ∈ ([(Instr.st z d g o, s.offsetEas g o n, []), (.stx z d g i c, s.indexEas g i c, [.src i])] : List (Instr × List (Nat × DWord) × List Opd)),
      s.Passes { instr := e.1, ops := [dataOf n d false, .g g] ++ e.2.2 } → s.Allowed (askWeak n g true) false e.2.1 →
      (let l := s.spotsOf (askWeak n g true) e.2.1; s.checkWindow (l.map fun x => (x.1, upto x.2.home n)) = .ok ()) →
      exec e.1 s = .next (s.stored z d ((s.spotsOf (askWeak n g true) e.2.1).zip e.2.1)))
    ∧ (∀ (k h m : Nat) (p : Spot), (∀ j < m, s.OnlyAtHome k (h + j)) → s.weakBytes k p h m = s.readHomes h m)
    ∧ (∀ (k h : Nat) (p : Spot) (bs : List Byte), p.win ≠ .laneStore →
      (∀ j < bs.length, s.StoredItself k (h + j) (bs.getD j 0) ∧ (s.slot (issuerOfThread k)).l0.get none ((h + j) / 128) = none) →
      s.weakBytes k p h bs.length = bs)
    ∧ (∀ (k h m : Nat) (p : Spot), p.win ≠ .laneStore → h / 8 = (h + m - 1) / 8 → 0 < m →
      s.weakPart k h m p ∈ s.sources k (upto h m) (p.win == .paged && !p.uncached))

/-- R98, R101, R181: LDS leaves each issued thread's bytes, as the homes hold them once the core's own pending bytes
of the line and the thread's own additions to them are there, pending for its registers; an acquire then refreshes
what the thread's core holds. STS releases first where its order says so and then writes each lane's bytes at their
home, in lane order; a 4-byte release at .team or wider may be a notify of a copy ring (R193), and one at .die or
wider a start of a Torc block (R298). That each is performed as its word issues, lane by lane and so in program order,
is the model's choice (log entry 123). -/
def Obligations.StrongLoadsAndStoresComplete : Prop :=
  ∀ (s : State) (o z : BitVec 2) (d : BitVec 7) (g : BitVec 5) (sc : BitVec 3),
    let n := 2 ^ z.toNat
    (s.Passes { instr := .lds o z d g sc, place := .both, ops := [dataOf n d true, .g g] } → s.Allowed (askStrong n g false) true (s.ptrEas g) →
      let u := (s.spotsOf (askStrong n g false) (s.ptrEas g)).foldl (fun t e =>
        let t := (t.beforeStrong e.1 e.2).ownBins e.1 e.2.home n
        t.variable e.1 (t.toBlock e.1 d.toNat (wordsFrom false (t.readDev e.2 n)))) s
      exec (.lds o z d g sc) s = .next (if o.toNat % 2 = 1 then u.issue.foldl (fun t k => t.refresh k sc.toNat) u else u))
    ∧ (s.Passes { instr := .sts o z d g sc, place := .both, ops := [dataOf n d false, .g g] } → s.Allowed (askStrong n g true) false (s.ptrEas g) →
      let l := s.spotsOf (askStrong n g true) (s.ptrEas g)
      s.checkWindow (l.map fun x => (x.1, upto x.2.home n)) = .ok () →
      let u := if 2 ≤ o.toNat then s.issue.foldl (fun t k => t.release k sc.toNat) s else s
      let rel := decide (2 ≤ o.toNat ∧ n = 4)
      exec (.sts o z d g sc) s = .next ((l.zip (s.ptrEas g)).foldl (fun t e =>
        let old := leNat (t.readHomes e.1.2.home 4)
        let t := t.homeStore e.1.1 e.1.2 e.2.2 (s.dataBytes e.1.1 n d)
        let t := if rel = true ∧ 1 ≤ sc.toNat then t.mayNotify e.1.2 else t
        if rel = true ∧ 2 ≤ sc.toNat then t.mayStart e.1.1 e.1.2 old else t) u))

/-- The frame of ST and STX in the lane store: every byte of memory outside the bytes stored, at the addresses that
the checks compute, reads as before; no register, group, team, core or issuer changes. R97, R99: the frame of ST and
STX, in any number of lanes of a core, where the core keeps what they store: in team-local and die-shared memory, and
in paged memory in lines that are dirty already, or in the first dirty one. No byte at any home changes yet. The core
holds the stored bytes as pending, at the addresses that the checks compute, the last lane's where lanes meet, and
every other byte it had pending as before; no register, group, team or context changes, and outside paged memory no
translation is kept. R97, R98: the frame of ST and STX by one thread to a page that is not cached, or from a core with
no L1: the home holds the stored bytes, the core holds none of them as pending, and every other byte of memory reads
as before; the registers, groups, teams and contexts stay. R98: the frame of STS to a page, by one thread whose core
has no store still to go home: the home holds the stored bytes, every other byte of memory reads as before, and the
registers, groups and teams stay. -/
def Obligations.StoresChangeOnlyTheirBytes : Prop :=
  (∀ (s : State) (z : BitVec 3) (d i : BitVec 7) (g : BitVec 5) (o : BitVec 9) (c : BitVec 2), Memory.wf s.mem = true → s.tidy = true →
      let n := weakSize z
      ∀ e ∈ ([(Instr.st z d g o, s.offsetEas g o n, []), (.stx z d g i c, s.indexEas g i c, [.src i])] : List (Instr × List (Nat × DWord) × List Opd)),
        s.Passes { instr := e.1, ops := [dataOf n d false, .g g] ++ e.2.2 } → s.Allowed (askWeak n g true) false e.2.1 →
        let l := s.spotsOf (askWeak n g true) e.2.1
        (∀ x ∈ l, x.2.win = .laneStore ∧ x.2.home + n ≤ 2 ^ 110) → (∀ k ∈ s.issue, s.isDet k = false) → (∀ u ∈ s.bins, u.th ∉ s.issue) →
        ∃ t, exec e.1 s = .next t ∧ (∀ h, h < 2 ^ 110 → Outside h n l → t.readHome h = s.readHome h)
          ∧ t.threads = s.threads ∧ t.groups = s.groups ∧ t.teams = s.teams ∧ t.cores = s.cores ∧ t.slots = s.slots
          ∧ t.dies = s.dies ∧ t.ctxs = s.ctxs ∧ t.pend = s.pend ∧ t.agenda = s.agenda)
  ∧ (∀ (s : State) (n₀ : Nat) (z : BitVec 3) (d i : BitVec 7) (g : BitVec 5) (o : BitVec 9) (c : BitVec 2),
      (∀ k ∈ s.issue, coreOfThread k = n₀ ∧ s.isDet k = false) → s.tidy = true → (∀ u ∈ s.bins, u.th ∉ s.issue) →
      let n := weakSize z
      ∀ e ∈ ([(Instr.st z d g o, s.offsetEas g o n, []), (.stx z d g i c, s.indexEas g i c, [.src i])] : List (Instr × List (Nat × DWord) × List Opd)),
        s.Passes { instr := e.1, ops := [dataOf n d false, .g g] ++ e.2.2 } → s.Allowed (askWeak n g true) false e.2.1 →
        let l := s.spotsOf (askWeak n g true) e.2.1
        let core := s.core n₀
        let keeps := fun (x : Nat × Spot) => x.2.win = .teamLocal ∨ x.2.win = .shared
          ∨ (x.2.win = .paged ∧ x.2.uncached = false ∧ 0 < core.l1Granules
            ∧ (x.2.home / 128 ∈ core.dirtyLines ∨ (core.dirtyLines = [] ∧ ∀ y ∈ l, y.2.home / 128 = x.2.home / 128)))
        (∀ x ∈ l, keeps x) →
        ∃ t, exec e.1 s = .next t ∧ (∀ h, t.readHome h = s.readHome h)
          ∧ (∀ before x after, l = before ++ x :: after → ∀ j, j < n → Outside (x.2.home + j) n after →
            (t.core n₀).pending (x.2.home + j) = some ((s.dataBytes x.1 n d).getD j 0))
          ∧ (∀ h, Outside h n l → (t.core n₀).pending h = core.pending h)
          ∧ t.threads = s.threads ∧ t.groups = s.groups ∧ t.teams = s.teams ∧ t.ctxs = s.ctxs
          ∧ ((∀ x ∈ l, x.2.win ≠ .paged) → t.dies = s.dies))
  ∧ (∀ (s : State) (k : Nat) (z : BitVec 3) (d i : BitVec 7) (g : BitVec 5) (o : BitVec 9) (c : BitVec 2), s.issue = [k] → s.isDet k = false →
      Memory.wf s.mem = true → s.tidy = true → (∀ u ∈ s.bins, u.th ≠ k) →
      let n := weakSize z
      ∀ e ∈ ([(Instr.st z d g o, s.offsetEas g o n, []), (.stx z d g i c, s.indexEas g i c, [.src i])] : List (Instr × List (Nat × DWord) × List Opd)),
        s.Passes { instr := e.1, ops := [dataOf n d false, .g g] ++ e.2.2 } → s.Allowed (askWeak n g true) false e.2.1 →
        ∀ p, s.spotsOf (askWeak n g true) e.2.1 = [(k, p)] → p.win = .paged → (p.uncached = true ∨ (s.core (coreOfThread k)).l1Granules = 0) →
        p.home + n ≤ 2 ^ 110 →
        ∃ t, exec e.1 s = .next t
          ∧ (∀ j, j < n → t.readHome (p.home + j) = (s.dataBytes k n d).getD j 0 ∧ (t.core (coreOfThread k)).pending (p.home + j) = none)
          ∧ (∀ h, h < 2 ^ 110 → (h < p.home ∨ p.home + n ≤ h) → t.readHome h = s.readHome h)
          ∧ t.threads = s.threads ∧ t.groups = s.groups ∧ t.teams = s.teams ∧ t.ctxs = s.ctxs)
  ∧ (∀ (s : State) (k : Nat) (o z : BitVec 2) (d : BitVec 7) (g : BitVec 5) (sc : BitVec 3), s.issue = [k] → isCmd k = false →
      Memory.wf s.mem = true → s.tidy = true → s.NothingPending k → s.isDet k = false → s.bins = [] →
      let n := 2 ^ z.toNat
      s.Passes { instr := .sts o z d g sc, place := .both, ops := [dataOf n d false, .g g] } →
      ∀ p, s.checkAccess k (askStrong n g true) (s.ptrOf k g.toNat) = .ok p → p.win = .paged → p.home + n ≤ 2 ^ 110 →
      ∃ t, exec (.sts o z d g sc) s = .next t
        ∧ (∀ j, j < n → t.readHome (p.home + j) = (s.dataBytes k n d).getD j 0)
        ∧ (∀ h, h < 2 ^ 110 → (h < p.home ∨ p.home + n ≤ h) → t.readHome h = s.readHome h)
        ∧ t.threads = s.threads ∧ t.groups = s.groups ∧ t.teams = s.teams ∧ t.ctxs = s.ctxs ∧ t.pend = s.pend)

/-- R177, R178: GSET gives the group's address register its base, limit, permissions and kind, and each issued
thread's pointer the base; GGET reads a field; GADV and GPTR move the pointers where every new one stays from base to
base + limit, and raise BOUNDS (0x07) otherwise, with the lowest failing lane's new pointer. -/
def Obligations.AddressRegisterInstructionsComplete : Prop :=
  ∀ (s : State) (g : BitVec 5) (d a b : BitVec 7) (u w : BitVec 1) (perm : BitVec 4) (kind f sc : BitVec 2),
    (let opd := (fun n : BitVec 7 => if u = 1 then Opd.usrc n.toNat true else Opd.src n true);
      s.Passes { instr := .gset u g a b perm kind, place := .both, ops := [opd a, opd b, { cls := .addr, n := g.toNat, rd := false, wr := true }] } →
      let pair := fun (gr k : Nat) (n : BitVec 7) => if u = 1 then s.w64 gr n.toNat else s.v64 k n.toNat
      exec (.gset u g a b perm kind) s = .next (s.fixed 4 (s.issueGroups.flatMap fun e =>
        .gfield e.1 g.toNat { base := pair e.1 e.2 a, limit := (pair e.1 e.2 b).setWidth 40, perm := perm, kind := kind }
          :: (s.issuedOf e.1).map fun k => .ptr k g.toNat (pair e.1 e.2 a))))
    ∧ (s.Passes { instr := .gget d g f, place := .both, ops := [.dst d (f != 3), { cls := if f == 0 then .point else .fields, n := g.toNat }] } →
      exec (.gget d g f) s = .next (s.fixed 4 (s.issue.flatMap fun k =>
        let x := s.gf k g.toNat
        if f = 0 then s.toV64 k d.toNat (s.ptrOf k g.toNat) else if f = 1 then s.toV64 k d.toNat x.base
        else if f = 2 then s.toV64 k d.toNat (x.limit.setWidth 64)
        else [s.toV k d.toNat ((x.kind ++ x.perm : BitVec 6).setWidth 32)])))
    ∧ (let new := fun k => s.ptrOf k g.toNat + (if w = 1 then s.v64 k a.toNat else (s.v k a.toNat).signExtend 64) <<< sc.toNat
      let step := fun k => (if w = 1 then (s.v64 k a.toNat).toInt else (s.v k a.toNat).toInt) * 2 ^ sc.toNat
      let out := s.issue.filter fun k => decide ((s.ptrOf k g.toNat).toNat + step k < (s.gf k g.toNat).base.toNat)
        || decide ((s.gf k g.toNat).base.toNat + (s.gf k g.toNat).limit.toNat < (s.ptrOf k g.toNat).toNat + step k)
      s.Passes { instr := .gadv g a w sc, place := .both, ops := [.src a (w == 1), { cls := .point, n := g.toNat, wr := true }, { cls := .fields, n := g.toNat }] } →
      (out = [] → exec (.gadv g a w sc) s = .next (s.fixed 4 (s.issue.map fun k => .ptr k g.toNat (new k))))
      ∧ (∀ k, out.head? = some k →
        exec (.gadv g a w sc) s = .next (s.takeFault { code := 0x07, info := 2, addr := new k, lanes := some out })))
    ∧ (let new := fun k => s.v64 k a.toNat
      let out := s.issue.filter fun k => decide ((new k).toNat < (s.gf k g.toNat).base.toNat)
        || decide ((s.gf k g.toNat).base.toNat + (s.gf k g.toNat).limit.toNat < (new k).toNat)
      s.Passes { instr := .gptr g a, place := .both, ops := [.src a true, { cls := .point, n := g.toNat, rd := false, wr := true }, { cls := .fields, n := g.toNat }] } →
      (out = [] → exec (.gptr g a) s = .next (s.fixed 4 (s.issue.map fun k => .ptr k g.toNat (new k))))
      ∧ (∀ k, out.head? = some k → exec (.gptr g a) s = .next (s.takeFault { code := 0x07, info := 2, addr := new k, lanes := some out })))

/-- R182 to R185: ATOM, ACAS and FATOM read the old value at each lane's home and write the new one, lane by lane in
ascending order, and leave the old value pending for D; ACAS writes only where the old value equals A, and tells so in
a predicate. That all lanes are performed in one act as the word issues, the release before and the acquire after it,
is the model's choice (log entries 122 and 153). R101: a read-modify-write at a home that its core has nothing pending
for answers the old value and leaves the new one there, and leaves every other byte of memory as it was. -/
def Obligations.AtomicsUpdateLaneByLane : Prop :=
  (∀ (s : State) (f : BitVec 4) (d a b : BitVec 7) (g : BitVec 5) (o : BitVec 2) (sc : BitVec 3) (ty : BitVec 2) (p : BitVec 4),
      let after := fun t : State => if o.toNat % 2 = 1 then t.issue.foldl (fun t k => t.refresh k sc.toNat) t else t
      let before := if 2 ≤ o.toNat then s.issue.foldl (fun t k => t.release k sc.toNat) s else s
      let wide := decide (2 ≤ ty.toNat)
      let n := if wide then 8 else 4
      let val := fun (k : Nat) (r : BitVec 7) => if wide then (s.v64 k r.toNat).toNat else (s.v k r.toNat).toNat
      let old := fun (t : State) (k m : Nat) => if wide then t.toV64 k d.toNat (BitVec.ofNat 64 m) else [t.toV k d.toNat (BitVec.ofNat 32 m)]
      (s.Passes { instr := .atom f d a g o sc ty, place := .both, ops := [.dst d wide, .src a wide, .g g] } →
        s.Allowed (askAtomic n g 0x46) true (s.ptrEas g) →
        exec (.atom f d a g o sc ty) s = .next (after (((s.spotsOf (askAtomic n g 0x46) (s.ptrEas g)).zip (s.ptrEas g)).foldl (fun t e =>
          let r := t.rmw e.1.1 e.1.2 e.2.2 n fun m =>
            some (bvAtom f.toNat (ty.toNat % 2 == 0) (BitVec.ofNat (8 * n) m) (BitVec.ofNat (8 * n) (val e.1.1 a))).toNat
          let t := if 2 ≤ o.toNat ∧ 1 ≤ sc.toNat then r.2.mayNotify e.1.2 else r.2
          let t := if 2 ≤ o.toNat ∧ 2 ≤ sc.toNat then t.mayStart e.1.1 e.1.2 (r.1 % 2 ^ 32) else t
          t.variable e.1.1 (old s e.1.1 r.1)) before)))
      ∧ (s.Passes { instr := .acas d a b g o sc ty p, place := .both, ops := [.dst d wide, .src a wide, .src b wide, .g g, .pdst p.toNat] } →
        s.Allowed (askAtomic n g 0x47) true (s.ptrEas g) →
        exec (.acas d a b g o sc ty p) s = .next (after (((s.spotsOf (askAtomic n g 0x47) (s.ptrEas g)).zip (s.ptrEas g)).foldl (fun t e =>
          let r := t.rmw e.1.1 e.1.2 e.2.2 n fun m => if m = val e.1.1 a then some (val e.1.1 b) else none
          r.2.variable e.1.1 (old s e.1.1 r.1 ++ [.pred e.1.1 p.toNat (r.1 == val e.1.1 a)])) before)))
      ∧ (let w1 := ty == 1
        let m1 := if ty = 1 then 8 else 4
        s.Passes { instr := .fatom f d a g o sc ty, ops := [.dst d w1, .src a w1, .g g] } → (∀ k ∈ s.issue, s.isDet k = false) →
        s.Allowed (askAtomic m1 g 0x48) true (s.ptrEas g) →
        exec (.fatom f d a g o sc ty) s = .next (after (((s.spotsOf (askAtomic m1 g 0x48) (s.ptrEas g)).zip (s.ptrEas g)).foldl (fun t e =>
          let r := t.rmw e.1.1 e.1.2 e.2.2 m1 fun m => some (perElem ty.toNat (fun fm xs =>
            if f = 0 then fAdd fm .rne (arg fm xs 0) (arg fm xs 1) else fMinMax fm (f == 2) (xs.getD 0 0) (xs.getD 1 0)) [m, s.intSrc e.1.1 false w1 a.toNat]).1
          r.2.variable e.1.1 (if w1 then s.toV64 e.1.1 d.toNat (BitVec.ofNat 64 r.1) else [s.toV e.1.1 d.toNat (BitVec.ofNat 32 r.1)])) before))))
  ∧ (∀ (s : State) (k : Nat) (p : Spot) (va : DWord) (n x : Nat), isCmd k = false → Memory.wf s.mem = true → s.tidy = true →
      s.NothingPending k → s.isDet k = false → (∀ u ∈ s.bins, u.th ≠ k) → p.win = .paged → p.home + n ≤ 2 ^ 110 →
      let r := s.rmw k p va n fun _ => some x
      r.1 = leNat (s.readHomes p.home n)
      ∧ leNat (r.2.readHomes p.home n) = x % 2 ^ (8 * n)
      ∧ (∀ h, h < 2 ^ 110 → (h < p.home ∨ p.home + n ≤ h) → r.2.readHome h = s.readHome h)
      ∧ (s.rmw k p va n fun _ => none).1 = r.1 ∧ ∀ h, h < 2 ^ 110 → (s.rmw k p va n fun _ => none).2.readHome h = s.readHome h)

/-- R94, R109, R186, R383, R384: GADD sends each lane's addend that passes its checks to the bank ALU, in lane order,
after the release its order asks for; the bank ALU's event performs the thread's updates up to that one, and takes
them off, and with them those at the same shadow that must come before one of them, of lanes of the same word or of
the same thread, and no others; an update of a line that a collective step owns waits for the next clk (R107). R76,
R77: adding an addend below 2^(e + 1) to a shadow's bins adds to the number that the bins denote, in units of the
lowest bin's last place, exactly the addend's magnitude in those units, with its sign. -/
def Obligations.BinnedAdditionsAreExact : Prop :=
  (∀ (s : State) (a : BitVec 7) (g : BitVec 5) (o : BitVec 2) (sc : BitVec 3) (ty : BitVec 1) (xs : List GaddLane) (id : Nat) (u : BinUpd),
      (s.Passes { instr := .gadd a g o sc ty, ops := [.src a (ty == 1), .g g] } →
        s.checkGadds g.toNat ty.toNat 0x49 (s.issue.map fun k => (k, s.ptrOf k g.toNat, s.intSrc k false (ty == 1) a.toNat)) = .ok xs → s.checkGaddWindow xs = .ok () →
        exec (.gadd a g o sc ty) s = .next ((if 2 ≤ o.toNat then s.issue.foldl (fun t k => t.release k sc.toNat) s else s).sendGadds xs))
      ∧ ((∀ v ∈ s.bins, v.id ≠ id) → exec (.bankAluBinUpdate id) s = .next s)
      ∧ (u ∈ s.bins → u.id = id → (∀ v ∈ s.bins, v.id = id → v = u) → s.torcOwns (upto u.shadow (8 * binCount u.f64)) = true →
        ∃ t, exec (.bankAluBinUpdate id) s = .next t ∧ u ∈ t.bins ∧ (s.clk + 1, Instr.bankAluBinUpdate id) ∈ t.agenda)
      ∧ (u ∈ s.bins → u.id = id → (∀ v ∈ s.bins, v.id = id → v = u) → (∀ v ∈ s.bins, s.torcOwns (upto v.shadow (8 * binCount v.f64)) = false) →
        let due := binsAhead (fun v => v.th == u.th && decide (v.id ≤ id)) s.bins
        exec (.bankAluBinUpdate id) s = .next (due.foldl State.binUpdate { s with bins := s.bins.filter fun v => !(due.any fun x => x.id == v.id) })
          ∧ due.Sublist s.bins ∧ u ∈ due ∧ (∀ v ∈ s.bins, v.th = u.th → v.id ≤ id → v ∈ due)
          ∧ ∀ v ∈ due, ∃ x ∈ due, x.th = u.th ∧ x.id ≤ id ∧ v.shadow = x.shadow))
  ∧ (∀ (e : Int) (dbl neg : Bool) (m : Nat) (x : Int) (bins : List Int),
      let n := if dbl then 4 else 3
      let unit := e - 32 * ((n : Int) - 1) - 31
      let t := ⌊(m : ℚ) * (2 : ℚ) ^ (x - unit)⌋
      bins.length = n → (m : ℚ) * (2 : ℚ) ^ x < (2 : ℚ) ^ (e + 1) →
      binValue (binSum neg bins (binParts e dbl m x)) = binValue bins + (if neg then -t else t))

-- Fences, barriers, slot rings and binned regions.

namespace Sys2Proof.Machine

/-- A lane's claim of a slot at its block: the slot's word for D, after an acquire (R191). -/
def State.claimed (s : State) (fill : Bool) (d : BitVec 7) (e : Nat × Spot) : State :=
  let r := ((s.beforeStrong e.1 e.2).dropLine e.1 e.2.home 128).ringClaim e.2.home fill
  (r.2.variable e.1 [r.2.toV e.1 d.toNat (BitVec.ofNat 32 r.1)]).refresh e.1 (if fill then 1 else 2)

/-- The lane can claim. -/
def State.mayClaim (s : State) (fill : Bool) (e : Nat × Spot) : Prop :=
  (s.beforeStrong e.1 e.2).claimable e.2.home fill = true

end Sys2Proof.Machine

/-- R37, R38, R102, R106, R187 to R189: PHASE releases and then acquires at its scope, .pub releases, .acq acquires;
FENCESC releases at .sys and holds its thread and, by the model's choice (log entry 38), its run until heartbeat h +
2, where its end is an acquire; BAR.arrive counts or holds an arrival, BAR.wait waits, BAR.sync does both; a
publication's end leaves the core's stores home. R37 to R39: a release of a phase that nobody holds an arrival for
leaves nobody arrived, counts one phase more, and ends the waits of the barrier's threads; a full barrier of a group,
or of a team on one core, releases its phase at once; the release of a phase of a team on several cores is due 24 clk
after its last arrival. -/
def Obligations.FencesAndBarriersComplete : Prop :=
  (∀ (s : State) (sc : BitVec 3) (b : BitVec 1) (i : BitVec 4) (k h : Nat) (own : BarOf),
      let rel := fun (c : Nat) (t : State) => t.issue.foldl (fun t k => t.release k c) t
      let acq := fun (c : Nat) (t : State) => t.issue.foldl (fun t k => t.refresh k c) t
      let n := 16 * b.toNat + i.toNat
      let wait := fun (t : State) => t.issue.foldl (fun t k => t.updThr k fun x => { x with barWait := some n }) t
      let arr := s.issue.foldl (fun t k => t.arrive k n) s
      (s.Passes { instr := .phase sc } → exec (.phase sc) s = .next (acq sc.toNat (rel sc.toNat s)))
      ∧ (s.Passes { instr := .phasePub sc } → exec (.phasePub sc) s = .next (rel sc.toNat s))
      ∧ (s.Passes { instr := .phaseAcq sc } → exec (.phaseAcq sc) s = .next (acq sc.toNat s))
      ∧ (s.Passes { instr := .fencesc, place := .both } →
        let u := rel 4 s
        let v := u.issue.foldl (fun t k => (t.updThr k fun x => { x with fence := some (s.clk / 64 + 2) }).scheduleAt
          (64 * (s.clk / 64 + 2)) (.fencescComplete k)) u
        exec .fencesc s = .next (v.setRun { v.run with clk := Nat.max v.run.clk (64 * (s.clk / 64 + 2)) }))
      ∧ ((s.thr k).fence = some h → 64 * h ≤ s.clk →
        exec (.fencescComplete k) s = .next ((s.updThr k fun x => { x with fence := none }).refresh k 4))
      ∧ (s.Passes { instr := .barArrive b i } → exec (.barArrive b i) s = .next arr)
      ∧ (s.Passes { instr := .barWait b i } → exec (.barWait b i) s = .next (wait s))
      ∧ (s.Passes { instr := .barSync b i } → exec (.barSync b i) s = .next (wait arr))
      ∧ ((s.hasArrived k n = true ∨ n ∈ (s.thr k).held) → s.arrive k n = s.updThr k fun x => { x with held := x.held ++ [n] })
      ∧ (s.hasArrived k n = false → n ∉ (s.thr k).held → (s.arriveNow k n).barFull (s.barOwner k) n = false →
        s.arrive k n = s.arriveNow k n)
      ∧ (n < 16 → (s.barFull own n = true ↔ s.members own n ≠ [] ∧ ∀ m ∈ s.members own n, s.hasArrived m n = true))
      ∧ exec (.publicationComplete k) s = .next (s.finishPublications k).ringsMoved)
  ∧ (∀ (s : State) (o : BarOf) (b : Nat), b < 32 → s.tidy = true →
      (let u := s.nextPhase o b;
        (b < 16 → ((u.grp o.grp).bars.get {} b).arrived = 0 ∧ ((u.grp o.grp).bars.get {} b).released = ((s.grp o.grp).bars.get {} b).released + 1)
        ∧ (16 ≤ b → ((u.team o.team).bars.get {} (b - 16)).count = 0
          ∧ ((u.team o.team).bars.get {} (b - 16)).released = ((s.team o.team).bars.get {} (b - 16)).released + 1)
        ∧ u.threads = s.threads ∧ u.mem = s.mem)
      ∧ (s.barFull o b = true → s.slowBar o b = false → (∀ m ∈ s.members o b, (s.thr m).held = []) →
        let u := s.checkBarrier o b
        (b < 16 → ((u.grp o.grp).bars.get {} b).arrived = 0 ∧ ((u.grp o.grp).bars.get {} b).released = ((s.grp o.grp).bars.get {} b).released + 1)
        ∧ (16 ≤ b → ((u.team o.team).bars.get {} (b - 16)).count = 0
          ∧ ((u.team o.team).bars.get {} (b - 16)).released = ((s.team o.team).bars.get {} (b - 16)).released + 1)
        ∧ ∀ m ∈ s.members o b, (s.thr m).barWait = some b → (s.thr m).phases.get 0 b ≤ s.released m b + 1 →
          (u.thr m).barWait = none ∧ (u.thr m).atBar = false)
      ∧ (s.barFull o b = true → s.slowBar o b = true → ((s.team o.team).bars.get {} (b - 16)).releasing = false →
        ((s.checkBarrier o b).team o.team).bars.get {} (b - 16) = { (s.team o.team).bars.get {} (b - 16) with releasing := true }
        ∧ (s.clk + 24, Instr.barrierRelease true o.team (b - 16)) ∈ (s.checkBarrier o b).agenda)
      ∧ (16 ≤ b → ((s.team o.team).bars.get {} (b - 16)).releasing = true → o.grp = o.team →
        exec (.barrierRelease true o.team (b - 16)) s = .next (s.releasePhase o b (s.heldFuel o b))))

/-- R190, R191: SLWAIT and SLFREE claim the next slot of a side for each lane that finds one, in lane order; SLREL and
SLCOMMIT hand theirs on, after a release at .team. A claim moves the slot on, takes one off its count, advances the
index, and leaves every other slot. -/
def Obligations.SlotRingsClaimAndHandOn : Prop :=
  ∀ (s : State) (d a : BitVec 7) (g : BitVec 5) (l : List (Nat × Spot)),
    (s.Passes { instr := .slwait d g, ops := [.dst d, .g g] } → s.checkBlocks g.toNat (fun _ => none) = .ok l →
      InTurn (fun t e => t.mayClaim false e) (fun t e => t.claimed false d e) s l →
      exec (.slwait d g) s = .next (l.foldl (fun t e => t.claimed false d e) s).ringsMoved)
    ∧ (s.Passes { instr := .slfree d g, ops := [.dst d, .g g] } → s.checkBlocks g.toNat (fun _ => none) = .ok l →
      InTurn (fun t e => t.mayClaim true e) (fun t e => t.claimed true d e) s l →
      exec (.slfree d g) s = .next (l.foldl (fun t e => t.claimed true d e) s).ringsMoved)
    ∧ (∀ e ∈ ([(Instr.slrel g a, false), (.slcommit g a, true)] : List (Instr × Bool)),
      let slot := fun k => (s.v k a.toNat).toNat % 256
      s.Passes { instr := e.1, ops := [.g g, .src a] } → s.checkBlocks g.toNat (fun k => some (slot k, e.2)) = .ok l →
      exec e.1 s = .next (l.foldl (fun t x =>
        ((((t.release x.1 1).beforeStrong x.1 x.2).dropLine x.1 x.2.home 128).ringPut x.2.home (slot x.1) e.2).runRings) s).ringsMoved)
    ∧ (∀ (h : Nat) (fill : Bool), h + 128 ≤ 2 ^ 110 → Memory.wf s.mem = true → s.tidy = true →
      let off := if fill then 0 else 4
      let w := s.blockNat h off 4
      let r := s.ringClaim h fill
      r.1 = w % 512 ∧ r.2.slotState h (w % 256) = (if fill then 1 else 3)
        ∧ (∀ j, j < 256 → j ≠ w % 256 → r.2.slotState h j = s.slotState h j)
        ∧ (let count := fun (t : State) (filled : Bool) => if filled then t.blockNat h 8 4 / 65536 % 512 else t.blockNat h 8 4 % 512
          (0 < count s (!fill) → count r.2 (!fill) + 1 = count s (!fill)) ∧ count r.2 fill = count s fill)
        ∧ r.2.blockNat h off 4 = (if w % 256 + 1 = s.ringSlots h then (if w / 256 % 2 = 1 then 0 else 256) else w % 512 + 1)
        ∧ r.2.blockNat h 0x0C 4 = s.blockNat h 0x0C 4)

/-- R206, R207, R399: BINCTL.decl enters the region of a descriptor that breaks no rule and meets no other, .free
takes a declared entry out and leaves an undeclared one, each after a release at .pkg; .fin and .finclr put the
rounded value of each element's bins into its primary, in ascending lane order (R109), after the bank updates of the
threads concerned, and .finclr zeroes the bins. That a descriptor needs no alignment, and that the release is that of
the group's lowest issued thread, is the model's choice (log entries 76 and 154). -/
def Obligations.BinnedRegionsComplete : Prop :=
  ∀ (s : State) (id : BitVec 6) (g : BitVec 5) (a b : BitVec 7),
    (let va := fun (t : State) k => (t.ptrOf k g.toNat).toNat;
      let bytes := fun (t : State) k => t.engineBytes k (va t k) 32;
      let put := fun (r : State → Nat → Option Region) (t : State) (e : Nat × Nat) =>
        (t.release e.2 3).updCx (t.ctxOf e.2) fun c => { c with regions := c.regions.put none id.toNat (r t e.2) };
      (s.Passes { instr := .binctlDecl id g, ops := [.g g], det := some 0x57 } →
        InTurn (fun t e => Fine (t.engineChecks e.2 (rowAsk 32 1 g false) false [va t e.2]) ∧ (bytes t e.2).2 = false
            ∧ regionBad (bytes t e.2).1 = false ∧ t.regionMeets (t.ctxOf e.2) id.toNat (regionOf (bytes t e.2).1) = false)
          (put fun t k => some (regionOf (bytes t k).1)) s s.issueGroups →
        exec (.binctlDecl id g) s = .next (s.issueGroups.foldl (put fun t k => some (regionOf (bytes t k).1)) s))
      ∧ (s.Passes { instr := .binctlFree id, det := some 0x57 } →
        exec (.binctlFree id) s = .next (s.issueGroups.foldl (fun t e =>
          if (t.cx (t.ctxOf e.2)).regions.get none id.toNat = none then t
          else (t.release e.2 3).updCx (t.ctxOf e.2) fun c => { c with regions := c.regions.put none id.toNat none }) s)))
    ∧ (∀ e ∈ ([(Instr.binctlFin id a b, false), (.binctlFinclr id a b, true)] : List (Instr × Bool)),
      let region := fun k => (s.cx (s.ctxOf k)).regions.get none id.toNat
      let first := fun k => (s.v k a.toNat).toNat
      let count := fun k => (s.v k b.toNat).toNat
      let elems := fun k (r : Region) => got (s.finElems k r (upto (first k) (count k))) []
      let xs : List (Region × FinElem) := s.issueGroups.flatMap fun x => match region x.2 with
        | none => []
        | some r => (s.issuedOf x.1).flatMap fun k => (elems k r).map fun y => (r, y)
      let lanes := laneOrder (dedup (xs.map fun x => x.2.k))
      s.Passes { instr := e.1, ops := [.src a, .src b], det := some 0x57 } →
      (∀ x ∈ s.issueGroups, ∃ r, region x.2 = some r
          ∧ ∀ k ∈ s.issuedOf x.1, first k + count k ≤ r.count ∧ Fine (s.finElems k r (upto (first k) (count k)))) →
      (∀ x ∈ xs, s.torcOwns (upto x.2.shadow.home 32 ++ upto x.2.primary.home x.1.elem) = false) →
      exec e.1 s = .next ((lanes.flatMap fun k => xs.filter fun x => x.2.k == k).foldl (fun t x => t.finalise x.1 e.2 x.2)
        (s.flushBins fun u => lanes.contains u.th)))

-- Accumulators and tiles.

namespace Sys2Proof.Machine

/-- The state after a tile is taken over for a thread's context (R329). -/
def State.took (s : State) (k : Nat) (acc : BitVec 4) : State := got (s.takeover k (s.tileNo k acc.toNat)) s

/-- The tile that a thread names. -/
def State.tileOf (s : State) (k : Nat) (acc : BitVec 4) : Acc := s.accOf (coreOfThread k) (s.tileNo k acc.toNat)

/-- The rows of a tile operation at a signed stride (R205). -/
def State.rowsOf (s : State) (g : Nat) (k : Nat) (r : BitVec 5) (ws : BitVec 6) : List Nat :=
  strided (s.ptrOf k r.toNat) (s.w g ws.toNat) 32

/-- No element of the tile is poisoned. -/
abbrev State.TileClean (s : State) (k : Nat) (acc : BitVec 4) : Prop :=
  s.elemsPoisoned .acc (coreOfThread k) (1024 * s.tileNo k acc.toNat) 1024 = false

end Sys2Proof.Machine

/-- R75, R201: the arithmetic of the matrix engine. In FIX mode a finite product-block adds the floor of its exact sum
in units of 2^anchor, and saturates only outside the range of 80 bits; a row's update gives each of its elements the
update by its column and leaves every other element. R199 to R205: the tile instructions act once for each group of
the issue set, in order, where their accesses pass, the tile is the context's or is taken over, and no element read is
poisoned. ACCZ zeroes the tile and sets its mode; ACCSV saves and loads its image; ACCRD reads one element for each
lane; TLD leaves 32 rows of 64 bytes pending for a tile register and TST stores those of one; ACCDR drains; MMQ adds
its product-blocks quarter by quarter. -/
def Obligations.AccumulatorsAndTilesComplete : Prop :=
  ((∀ (el : Nat) (anchor n e : Int),
      let r := sgn 80 el + ⌊(n : ℚ) * (2 : ℚ) ^ (e - anchor)⌋
      (-(2 ^ 79 : Int) ≤ r ∧ r ≤ 2 ^ 79 - 1 → sgn 80 (updateFix el anchor (.fin n e)).1 = r ∧ (updateFix el anchor (.fin n e)).2 = false)
      ∧ (r < -(2 ^ 79 : Int) → sgn 80 (updateFix el anchor (.fin n e)).1 = -(2 ^ 79 : Int) ∧ (updateFix el anchor (.fin n e)).2 = true)
      ∧ ((2 ^ 79 : Int) - 1 < r → sgn 80 (updateFix el anchor (.fin n e)).1 = 2 ^ 79 - 1 ∧ (updateFix el anchor (.fin n e)).2 = true))
    ∧ (∀ (a : Acc) (row : Nat) (x : List FVal) (cols : List (List FVal × Bool)), cols.length = 32 → Tab.risingFrom 0 a.el = true →
      (∀ j < 32, ((a.updateRow row x cols).el.get 0 (32 * row + j)) = (a.update (32 * row + j) (blockSum x (cols.getD j ([], false)).1)).el.get 0 (32 * row + j))
      ∧ (∀ i, (i < 32 * row ∨ 32 * row + 32 ≤ i) → (a.updateRow row x cols).el.get 0 i = a.el.get 0 i)
      ∧ (a.updateRow row x cols).fix = a.fix ∧ (a.updateRow row x cols).anchor = a.anchor ∧ (a.updateRow row x cols).owner = a.owner))
  ∧ (∀ (s : State) (acc kind f : BitVec 4) (slot fr : BitVec 2) (m td res scl drop : BitVec 1) (anchor : BitVec 16) (ga gb : BitVec 5)
        (wsa wsb : BitVec 6) (t3 rnd : BitVec 3) (d a : BitVec 7),
      (let z := fun (t : State) (e : Nat × Nat) => (t.took e.2 acc).replaceAcc (coreOfThread e.2) (t.tileNo e.2 acc.toNat)
          { fix := m == 1, anchor := if m = 1 then anchor else 0, owner := some (t.ctxOf e.2) };
        s.Passes { instr := .accz m acc anchor, ops := [.acc acc] } →
        InTurn (fun t e => Fine (t.takeover e.2 (t.tileNo e.2 acc.toNat))) z s s.issueGroups →
        exec (.accz m acc anchor) s = .next (s.issueGroups.foldl z s))
      ∧ (let va := fun (t : State) k => (t.ptrOf k ga.toNat).toNat;
        let save := fun (t : State) (e : Nat × Nat) => ((t.took e.2 acc).keepRows e.2 true 10256 [va t e.2]).engineStore e.2 (va t e.2)
          (((t.took e.2 acc).accOf (coreOfThread e.2) (t.tileNo e.2 acc.toNat)).image 0);
        let load := fun (t : State) (e : Nat × Nat) =>
          let kept := t.keepRows e.2 false 10256 [va t e.2]
          (kept.took e.2 acc).replaceAcc (coreOfThread e.2) (t.tileNo e.2 acc.toNat)
            (accOfImage (t.engineBytes e.2 (va t e.2) 10256).1 (some ((kept.took e.2 acc).ctxOf e.2)));
        (s.Passes { instr := .accsvSave acc ga, ops := [.acc acc, .g ga] } →
          InTurn (fun t e => Fine (t.engineChecks e.2 (rowAsk 10256 16 ga true) false [va t e.2])
              ∧ Fine (t.checkWindow [(e.2, t.storeHomesOf e.2 (va t e.2) 10256)]) ∧ Fine (t.takeover e.2 (t.tileNo e.2 acc.toNat))
              ∧ (t.took e.2 acc).elemsPoisoned .acc (coreOfThread e.2) (1024 * t.tileNo e.2 acc.toNat) 1024 = false) save s s.issueGroups →
          exec (.accsvSave acc ga) s = .next (s.issueGroups.foldl save s))
        ∧ (s.Passes { instr := .accsvLoad acc ga, ops := [.acc acc, .g ga] } →
          InTurn (fun t e => Fine (t.engineChecks e.2 (rowAsk 10256 16 ga false) false [va t e.2])
              ∧ (let b := t.engineBytes e.2 (va t e.2) 10256
                let kept := t.keepRows e.2 false 10256 [va t e.2]
                kept.imageBad (kept.agentOf e.2) (va t e.2) = [] ∧ Fine (kept.takeover e.2 (t.tileNo e.2 acc.toNat)) ∧ (b.1.getD 10240 0).toNat ≤ 1 ∧ ∀ x ∈ b.1.drop 10244, x = 0)) load s s.issueGroups →
          exec (.accsvLoad acc ga) s = .next (s.issueGroups.foldl load s)))
      ∧ (let wide := fr == 1 || fr == 2;
        let elem := fun (t : State) k => 32 * ((t.v k a.toNat).toNat % 32) + (t.v k a.toNat).toNat / 256 % 32;
        let read := fun (t : State) (e : Nat × Nat) =>
          let u := t.took e.2 acc
          (u.issuedOf e.1).foldl (fun w k => w.variable k
            (u.intDst k false wide d.toNat ((u.accOf (coreOfThread e.2) (t.tileNo e.2 acc.toNat)).read fr.toNat (elem u k)))) u
        s.Passes { instr := .accrd fr d a acc, ops := [.dst d wide, .src a, .acc acc] } →
        InTurn (fun t e => Fine (t.takeover e.2 (t.tileNo e.2 acc.toNat))
          ∧ ∀ k ∈ (t.took e.2 acc).issuedOf e.1, (t.took e.2 acc).elemsPoisoned .acc (coreOfThread e.2)
              (1024 * t.tileNo e.2 acc.toNat + elem (t.took e.2 acc) k) 1 = false) read s s.issueGroups →
        exec (.accrd fr d a acc) s = .next (s.issueGroups.foldl read s))
      ∧ (let row := fun (t : State) (e : Nat × Nat) (i : Nat) => (t.engineBytes e.2 ((t.rowsOf e.1 e.2 ga wsa).getD i 0) 64).1;
        let load := fun (t : State) (e : Nat × Nat) => (t.keepRows e.2 false 64 (t.rowsOf e.1 e.2 ga wsa)).variable e.1 ((List.range 32).map fun i =>
          RegWrite.tile e.1 (32 * t3.toNat + i) ((List.range 32).map fun j => BitVec.ofNat 16 (leNat (((row t e i).drop (2 * j)).take 2))) false)
        s.Passes { instr := .tld t3 ga wsa, ops := [.tile t3.toNat, .g ga, .usrc wsa.toNat] } →
        InTurn (fun t e => Fine (t.engineChecks e.2 (rowAsk 64 2 ga false) false (t.rowsOf e.1 e.2 ga wsa))
          ∧ ∀ va ∈ t.rowsOf e.1 e.2 ga wsa, (t.engineBytes e.2 va 64).2 = false) load s s.issueGroups →
        exec (.tld t3 ga wsa) s = .next (s.issueGroups.foldl load s))
      ∧ (let store := fun (t : State) (e : Nat × Nat) => (List.range 32).foldl (fun u i =>
          u.engineStore e.2 ((t.rowsOf e.1 e.2 ga wsa).getD i 0) (((t.tileBytes e.1 t3.toNat).drop (64 * i)).take 64)) (t.keepRows e.2 true 64 (t.rowsOf e.1 e.2 ga wsa));
        s.Passes { instr := .tst t3 ga wsa, ops := [.tile t3.toNat, .g ga, .usrc wsa.toNat] } →
        InTurn (fun t e => Fine (t.engineChecks e.2 (rowAsk 64 2 ga true) false (t.rowsOf e.1 e.2 ga wsa))
          ∧ Fine (t.checkWindow [(e.2, (t.rowsOf e.1 e.2 ga wsa).flatMap fun va => t.storeHomesOf e.2 va 64)])
          ∧ t.tileBad e.1 t3.toNat = false) store s s.issueGroups →
        exec (.tst t3 ga wsa) s = .next (s.issueGroups.foldl store s))
      ∧ (let one := fun (t : State) (e : Nat × Nat) =>
          t.drain (t.drainOf e.1 f rnd scl drop wsa.toNat) acc (td == 1) ga gb (res == 1) (t.w e.1 (wsa.toNat + 1)) (t.w e.1 (wsa.toNat + 2)) e.1 e.2;
        s.Passes { instr := .accdr f acc td ga gb res rnd scl drop wsa,
                   ops := [.acc acc, if td == 1 then .tile ga.toNat else .g ga] ++ (if res == 1 then [.g gb] else []) ++ [.usrc wsa.toNat false 9] } →
        InTurn (fun t e => Fine (one t e)) (fun t e => got (one t e) t) s s.issueGroups →
        exec (.accdr f acc td ga gb res rnd scl drop wsa) s = .next (s.issueGroups.foldl (fun t e => got (one t e) t) s))
      ∧ (let qs := s.quarters acc ga gb wsa wsb;
        let step := fun (t : State) (q : Quarter) => ((got (t.takeover q.k q.tile) t).mmqQuarter kind.toNat ga gb slot.toNat q).1
        s.Passes { instr := .mmq kind acc slot ga gb wsa wsb, ops := [.acc acc, .g ga, .g gb, .usrc wsa.toNat, .usrc wsb.toNat] } →
        Fine (s.mmqChecks kind.toNat ga gb qs) → (∀ q ∈ qs, s.mmqWaits kind.toNat ga gb q = false) →
        InTurn (fun t q => Fine (t.takeover q.k q.tile)
          ∧ (got (t.takeover q.k q.tile) t).elemsPoisoned .acc (coreOfThread q.k) (1024 * q.tile + 256 * slot.toNat) 256 = false
          ∧ ((got (t.takeover q.k q.tile) t).mmqQuarter kind.toNat ga gb slot.toNat q).2 = none) step s qs →
        exec (.mmq kind acc slot ga gb wsa wsb) s = .next (qs.foldl step s)))

-- Triangles.

/-- R209 to R218, R400: RAST gives each issued lane of a group the next covered sample of the group's walk, in lane
order, and the token after it; EDGS gives each lane the next edge sample; RASTG sends twelve additions for each lane
whose predicate is 1. The next sample of a walk is the first covered candidate from its position on, and a point of an
edge that two triangles share, on opposite sides of it, is covered by at most one of them on that edge. -/
def Obligations.RasterInstructionsComplete : Prop :=
  ∀ (s : State) (sc : BitVec 2) (d si a b : BitVec 7) (wv wt wk : BitVec 6) (p : BitVec 4) (g : BitVec 5) (ts : List (Nat × Tri)),
    (s.Passes { instr := .rast sc d wv wt p si,
                ops := [{ cls := .vec, n := d.toNat, cnt := 4, quad := true, rd := false, wr := true }, .usrc wv.toNat false 12,
                        { cls := .uni, n := wt.toNat, wr := true }, .pdst p.toNat, .dst si] } →
      ts.map (·.1) = s.issueGroups.map (·.1) →
      (∀ e ∈ ts, s.triCheck e.1 wv = .ok e.2 ∧ rastToken e.2 sc (s.w e.1 wt.toNat) = true) →
      exec (.rast sc d wv wt p si) s = .next (ts.foldl (fun t e =>
        let tok := t.w e.1 wt.toNat
        let ks := t.issuedOf e.1
        if tok = 0xFFFFFFFF then ks.foldl (fun u k => u.variable k [.pred k p.toNat false]) t
        else
          let r := t.rastLanes e.2 sc d p si ks tok.toNat
          (r.1.foldl (fun u x => u.variable x.1 x.2) t).variable (ks.headD 0)
            [.ureg e.1 wt.toNat (if e.2.next sc r.2 = none then 0xFFFFFFFF else BitVec.ofNat 32 r.2)]) s))
    ∧ (∀ (t : Tri) (w : Nat),
      (∀ v c, t.next sc w = some (v, c) → w ≤ v ∧ t.candidate sc v = some c ∧ ∀ u, w ≤ u → u < v → t.candidate sc u = none)
      ∧ (t.next sc w = none → ∀ u, w ≤ u → t.candidate sc u = none)
      ∧ (∀ v c, t.candidate sc v = some c → t.covers (256 * c.px + (sampleOffset sc c.s).1) (256 * c.py + (sampleOffset sc c.s).2) = true)
      ∧ (∀ u : Tri, ∀ x y : Int, u.v1 = t.v2 → u.v2 = t.v1 → t.a2.sign = u.a2.sign → t.edge 0 x y = 0 → ¬ (t.covers x y = true ∧ u.covers x y = true)))
    ∧ (∀ lanes xs, s.Passes { instr := .rastg sc g a b wv p si, ops := [.g g, .vblock a 3 2, .src b, .usrc wv.toNat false 12, .psrc p.toNat, .src si] } →
      ts.map (·.1) = s.issueGroups.map (·.1) → (∀ e ∈ ts, s.triCheck e.1 wv = .ok e.2) →
      lanes = (s.issue.filter fun k => s.p k p.toNat).flatMap (fun k => (ts.filter fun e => e.1 == (s.thr k).grp).flatMap fun e =>
        ((s.rastgAddends e.2 sc a b si k).zip (List.range 12)).map fun x => (k, s.ptrOf k g.toNat + BitVec.ofNat 64 (4 * x.2), x.1.toNat)) →
      s.checkGadds g.toNat 0 0x59 lanes = .ok xs → Fine (s.checkGaddWindow xs) →
      exec (.rastg sc g a b wv p si) s = .next (State.sendGadds { s with free := s.free + 1 } xs))
    ∧ (s.Passes { instr := .edgs d wv wt p wk,
                  ops := [.block d 10 true true, { cls := .uni, n := wv.toNat, cnt := 12, rd := false, bound := true },
                          .usrc wv.toNat false 2, .usrc (wv.toNat + 4) false 2, .usrc (wv.toNat + 8) false 2,
                          { cls := .uni, n := wt.toNat, wr := true }, .pdst p.toNat, .usrc wk.toNat false 6] } →
      ts.map (·.1) = s.issueGroups.map (·.1) → (∀ e ∈ ts, s.edgeCheck e.1 wv wt wk = .ok e.2) →
      exec (.edgs d wv wt p wk) s = .next (ts.foldl (fun t e =>
        let tok := t.w e.1 wt.toNat
        let par := t.edgePar e.1 wk
        let ks := t.issuedOf e.1
        if tok = 0xFFFFFFFF ∨ e.2.eligible par.mask = [] then
          (ks.foldl (fun u k => u.variable k [.pred k p.toNat false]) t).variable (ks.headD 0) [.ureg e.1 wt.toNat 0xFFFFFFFF]
        else
          let r := t.edgeLanes e.2 par d p ks tok.toNat
          (r.1.foldl (fun u x => u.variable x.1 x.2) t).variable (ks.headD 0)
            [.ureg e.1 wt.toNat (if par.n ≤ r.2 then 0xFFFFFFFF else BitVec.ofNat 32 r.2)]) s))

-- Textures.

/-- R219 to R225, R401, R402: where the records that the lanes name can be read and pass their checks, and each lane's
texels can be read, TEX samples, TEXG gathers and TEXL loads for each lane of the issue set, and leave the result
pending; TEXB also sends its additions, one value of B at a time, ascending, and in each by level, tap, channel and
lane; RREC.dim and .fmt read the record; RREC.inv empties the records that the threads' core holds. Where the level of
detail or an index has no stated value, the colour is a free value (assumption log). -/
def Obligations.TextureInstructionsComplete : Prop :=
  ∀ (s : State) (lz : BitVec 1) (ch : BitVec 2) (d a b gr : BitVec 7),
    let recs := fun (smp texb : Bool) => got (s.laneRecords b smp texb) []
    let recOf := fun (smp texb : Bool) k => (recs smp texb).find? fun t => t.idx == (s.v k b.toNat).toNat
    let cached := fun (smp texb : Bool) => State.keepRecords { s with free := s.free + 1 } (s.issue.headD 0) (recs smp texb)
    let none_ : TexOut := { k := 0, writes := [], poisoned := false }
    (s.Passes { instr := .tex lz d a b, ops := texOpds d a b lz } → Fine (s.laneRecords b true false) →
      (∀ k ∈ s.issue, ∀ t, recOf true false k = some t → Fine (s.texLane d a lz none k t)) →
      exec (.tex lz d a b) s = .next ((s.issue.filterMap fun k => (recOf true false k).map fun t =>
        got (s.texLane d a lz none k t) none_).foldl State.putTex (cached true false)))
    ∧ (s.Passes { instr := .texg lz ch d a b, ops := texOpds d a b lz } → Fine (s.laneRecords b true false) →
      (∀ k ∈ s.issue, ∀ t, recOf true false k = some t → Fine (s.texLane d a lz (some ch.toNat) k t)) →
      exec (.texg lz ch d a b) s = .next ((s.issue.filterMap fun k => (recOf true false k).map fun t =>
        got (s.texLane d a lz (some ch.toNat) k t) none_).foldl State.putTex (cached true false)))
    ∧ (s.Passes { instr := .texl d a b, ops := texOpds d a b 0 } → Fine (s.laneRecords b false false) →
      (let at_ := fun k (i : Nat) => (s.v k (a.toNat + i)).toNat;
      let texel := fun k (t : TexRec) => s.readTexel k t.res (at_ k 2) (at_ k 0) (at_ k 1);
      let inside := fun k (t : TexRec) => at_ k 2 < t.res.levels ∧ at_ k 0 < (t.res.dims (at_ k 2)).1 ∧ at_ k 1 < (t.res.dims (at_ k 2)).2;
      (∀ k ∈ s.issue, ∀ t, recOf false false k = some t → inside k t → Fine (texel k t)) →
      exec (.texl d a b) s = .next ((s.issue.map fun k => match recOf false false k with
        | none => s.texWrites k d [0, 0, 0, 0] false
        | some t => if inside k t then let c := got (texel k t) ([], false)
            { s.texWrites k d c.1 (t.poisoned || c.2) with ways := [(t.res.texelVa (at_ k 2) (at_ k 0) (at_ k 1), texelBytes t.res.fmt)] }
          else s.texWrites k d [0, 0, 0, 0] t.poisoned).foldl State.putTex (cached false false))))
    ∧ (s.Passes { instr := .texb lz d a b gr, ops := [.dst d true, .vblock a (if lz = 1 then 2 else 3) 2, .src b, .vblock gr 4 3] } →
      Fine (s.laneRecords b true true) → (∀ k ∈ s.issue, ∀ t, recOf true true k = some t → Fine (s.texbLane lz d a gr k t)) →
      (let outs := s.issue.filterMap fun k => (recOf true true k).map fun t => got (s.texbLane lz d a gr k t) (none_, []);
      let adds := (recs true true).flatMap fun r => texOrder ((outs.filter fun o => (s.v o.1.k b.toNat).toNat == r.idx).map (·.2));
      Fine (s.checkGaddWindow adds) →
      exec (.texb lz d a b gr) s = .next ((outs.map (·.1)).foldl State.putTex ((cached true true).sendGadds adds))))
    ∧ (∀ e ∈ ([(Instr.rrecDim d a b, [Opd.dst d, .src a, .src b], fun k (r : Resource) =>
            if (s.v k a.toNat).toNat < r.levels then BitVec.ofNat 32 ((r.dims (s.v k a.toNat).toNat).1 + 65536 * (r.dims (s.v k a.toNat).toNat).2) else 0),
          (.rrecFmt d b, [.dst d, .src b], fun _ r => BitVec.ofNat 32 (r.fmt + 256 * r.levels))] : List (Instr × List Opd × (Nat → Resource → Word))),
      s.Passes { instr := e.1, ops := e.2.1 } → Fine (s.laneRecords b false false) →
      exec e.1 s = .next (s.issue.foldl (fun t k => match recOf false false k with
        | some r => t.putTex { k := k, writes := [s.toV k d.toNat (e.2.2 k r.res)], poisoned := r.poisoned }
        | none => t) (s.keepRecords (s.issue.headD 0) (recs false false))))
    ∧ (s.Passes { instr := .rrecInv } →
      exec .rrecInv s = .next (s.issue.foldl (fun t k => t.updCore (coreOfThread k) fun c => { c with records := [] }) s))

-- Ray queries.

namespace Sys2Proof.Machine

/-- The state after the lanes of a query instruction have pushed their log records (R243). -/
def State.logged (s : State) (outs : List RqOut) : State := outs.foldl (fun t o => got (t.pushLog o.k o.recs) t) s

/-- Every lane's log records find room on its tape, and what they hold back its charge (R235, R405). -/
abbrev State.LogsPass (s : State) (outs : List RqOut) : Prop :=
  (∀ o ∈ outs, Fine (s.pushLog o.k o.recs)) ∧ Fine (s.logged outs).checkCharge

end Sys2Proof.Machine

/-- R226 to R246, R403, R404: RQINIT gives each thread a query in phase 1 in its lane store; RQPROC, RQCAND, RQCOMMIT,
RQABORT, RQRES, RQTRI and RQGRAD act where every lane's query, entries and numbers pass their checks and its log
records find room: they push the records, store the query and leave their registers pending; RQGRAD also sends nine
additions for each lane. -/
def Obligations.RayQueryInstructionsComplete : Prop :=
  ∀ (s : State) (q log fp opq fht kind : BitVec 1) (d a b ir gu : BitVec 7) (f : BitVec 3) (p : BitVec 4) (g : BitVec 5),
    let fresh : Query := { ctrl := 1 + 8 * log.toNat + 16 * fp.toNat + 32 * opq.toNat + 64 * fht.toNat, iid := 0xFFFFFFFF, trail := 0, leaf := 0,
                           inst := 0, t := 0, geom := 0xFFFFFFFF, prim := 0xFFFFFFFF, b1 := 0, b2 := 0, root := 0 }
    let finished := fun (t : State) (outs : List RqOut) => outs.foldl State.putQuery (t.logged outs)
    (let outs : List RqOut := s.issue.map fun k => { k := k, q := some (q.toNat, { fresh with root := (s.v64 k d.toNat).toNat % 2 ^ 57 }) };
      s.Passes { instr := .rqinit q d a log fp opq fht, ops := [.src d true, { rayOpd a (fp == 1) none with rd := false }] } →
      (∀ k ∈ s.issue, 64 * q.toNat + 64 ≤ (s.thr k).laneSz) → s.LogsPass outs →
      exec (.rqinit q d a log fp opq fht) s = .next (finished s outs))
    ∧ (let outs : List RqOut := s.issue.map fun k => got (s.rqprocLane q.toNat d.toNat a k) { k := k };
      s.Passes { instr := .rqproc q d a, ops := .dst d :: s.rayOpds q a } →
      (∀ k ∈ s.issue, Fine (s.rqprocLane q.toNat d.toNat a k)) → s.LogsPass outs →
      exec (.rqproc q d a) s = .next (finished s outs))
    ∧ (∀ x : Nat → Query × (Entry × Option Inst × Seen) × (List RegWrite × Seen),
      let outs : List RqOut := s.issue.map fun k => { k := k, writes := (x k).2.2.1, seen := (x k).2.1.2.2.also (x k).2.2.2 };
      s.Passes { instr := .rqcand f q d a, ops := rqDst f d :: (if 1 ≤ f.toNat ∧ f.toNat ≤ 4 then s.rayOpds q a else []) } →
      (∀ k ∈ s.issue, s.useQuery k q.toNat [2, 3] = .ok (x k).1 ∧ s.candidate k (x k).1 = .ok (x k).2.1
        ∧ s.candField k f.toNat d.toNat (x k).1 (s.rayVals k a (x k).1.fp64) (x k).2.1.1 (x k).2.1.2.1 = .ok (x k).2.2) →
      State.LogsPass { s with free := s.free + 1 } outs →
      exec (.rqcand f q d a) s = .next (finished { s with free := s.free + 1 } outs))
    ∧ (let outs : List RqOut := s.issue.map fun k => got (s.rqcommitLane q.toNat a b k) { k := k };
      s.Passes { instr := .rqcommit q a b,
                 ops := s.rayOpds q a ++ [{ Opd.src b true with only := some (s.issue.filter fun k =>
                    match s.peekQuery q.toNat k with | some x => x.phase == 3 | none => false) }] } →
      (∀ k ∈ s.issue, Fine (s.rqcommitLane q.toNat a b k)) → s.LogsPass outs →
      exec (.rqcommit q a b) s = .next (finished s outs))
    ∧ (let x := fun k => got (s.useQuery k q.toNat [1, 2, 3, 4]) fresh;
      let outs : List RqOut := s.issue.map fun k => if (x k).phase = 4 then { k := k } else
        { k := k, q := some (q.toNat, (x k).done), recs := if (x k).log then [(0xE3, [(x k).done.ctrl, (x k).prim, (x k).geom, (x k).iid])] else [] };
      s.Passes { instr := .rqabort q } → (∀ k ∈ s.issue, Fine (s.useQuery k q.toNat [1, 2, 3, 4])) → s.LogsPass outs →
      exec (.rqabort q) s = .next (finished s outs))
    ∧ (let legal := if f = 6 then [0, 1, 2, 3, 4] else [1, 2, 3, 4];
      let outs : List RqOut := s.issue.map fun k => let x := got (s.useQuery k q.toNat legal) fresh
        { k := k, writes := s.resField k f.toNat d.toNat x (s.rayVals k a x.fp64) };
      s.Passes { instr := .rqres f q d a, ops := rqDst f d :: (if f = 1 then s.rayOpds q a else []) } →
      (∀ k ∈ s.issue, Fine (s.useQuery k q.toNat legal)) → s.LogsPass outs →
      exec (.rqres f q d a) s = .next (finished s outs))
    ∧ (∀ x : Nat → Entry × Option Inst × Seen,
      let r := fun k => match triTest f64 f64 f64 (x k).1.vs (objectRay f64 (x k).2.1 (s.rayVals k a true)) with
        | .value h t b1 b2 => (h, [BitVec.ofNat 64 t, BitVec.ofNat 64 b1, BitVec.ofNat 64 b2])
        | _ => (false, [nan64, nan64, nan64]);
      let outs : List RqOut := s.issue.map fun k =>
        { k := k, writes := s.toPairs k d.toNat (r k).2 ++ [.pred k p.toNat (r k).1], seen := (x k).2.2 };
      s.Passes { instr := .rqtri d a b ir p kind, ops := [.vdst d 6 5 true, rayOpd a true none, .src b true, .src ir true, .pdst p.toNat] } →
      (∀ k ∈ s.issue, s.namedEntry k kind b ir = .ok (x k)) → s.LogsPass outs →
      exec (.rqtri d a b ir p kind) s = .next (finished s outs))
    ∧ (let rs := s.issue.map fun k => got (s.rqgradLane d a b ir gu kind k) ({ k := k }, []);
      let lanes := rs.flatMap fun o => (o.2.zip (List.range 9)).map fun e => (o.1.k, s.ptrOf o.1.k g.toNat + BitVec.ofNat 64 (8 * e.2), e.1);
      let xs := got (s.checkGadds g.toNat 1 0x66 lanes) [];
      let t := s.sendGadds ((List.range 9).flatMap fun i => (List.range (xs.length / 9)).filterMap fun l => xs[9 * l + i]?);
      s.Passes {
        instr := .rqgrad d a b ir gu g kind
        ops := [.vdst d 12 11 true, rayOpd a true none, .src b true, .src ir true, { Opd.vblock gu 6 5 with wide := true }, .g g] } →
      (∀ k ∈ s.issue, Fine (s.rqgradLane d a b ir gu kind k)) → Fine (s.checkGadds g.toNat 1 0x66 lanes) → Fine (s.checkGaddWindow xs) →
      t.LogsPass (rs.map (·.1)) →
      exec (.rqgrad d a b ir gu g kind) s = .next (finished t (rs.map (·.1))))

-- Tapes, reservoirs and the generator.

namespace Sys2Proof.Machine

/-- A tape operation of every issued thread, in order. -/
def State.eachTape (s : State) (f : State → Nat → Except Flt State) : State := s.issue.foldl (fun t k => got (f t k) t) s

/-- No Torc step owns a line that the operation may read, from a frame of each thread on; every thread's operation succeeds on its own,
and each in turn, and the memory of a deterministic task suffices. -/
def State.TapesGo (s : State) (f : State → Nat → Except Flt State) (low : Nat → Nat := fun k => (s.thr k).tape.reach) : Prop :=
  (∀ k ∈ s.issue, s.tapeWaits k (low k) = false) ∧ (∀ k ∈ s.issue, Fine (f s k)) ∧ InTurn (fun t k => Fine (f t k)) (fun t k => got (f t k) t) s s.issue ∧ Fine (s.eachTape f).checkCharge

/-- The three seed words and more that a reservoir instruction reads. -/
def State.seedOf (s : State) (k : Nat) (b : BitVec 7) (i : Nat) : Word := s.wOf k (b.toNat + i)

end Sys2Proof.Machine

/-- R250 to R252: the codes and stored bytes of a record give back every slot's previous value from its new one; a
record is 3 bytes longer than what it stores, and no more than 19 bytes. -/
def Obligations.TapeRecordsRecoverTheirSlots : Prop :=
  ∀ (kind : Nat) (prev xs : List Word), prev.length = xs.length →
    recoverSlots ((prev.zip xs).map fun e => (codeSlot e.1 e.2).1) ((prev.zip xs).flatMap fun e => (codeSlot e.1 e.2).2) xs = prev
    ∧ (∀ e ∈ prev.zip xs, (codeSlot e.1 e.2).2.length = codeLen (codeSlot e.1 e.2).1 ∧ (codeSlot e.1 e.2).1 < 4)
    ∧ (recordBytes kind prev xs).length = ((prev.zip xs).map fun e => (codeSlot e.1 e.2).2.length).sum + 3
    ∧ (xs.length ≤ 4 → (recordBytes kind prev xs).length ≤ 19)
    ∧ (1 ≤ xs.length → xs.length ≤ 4 → kind < 256 → ((recordBytes kind prev xs).getLast?) = some (BitVec.ofNat 8 kind))

/-- R252 to R259, R405, R406: TREC and TMARK push in every issued thread and TPOP pops, where no thread's push or pop
fails; a pop's values and status word stay pending for its registers. TCTL.bind binds every issued thread to the area
that its group's descriptor gives it, after a sync of the tapes bound before, where every descriptor, area and header
passes; .stat reads, .seek pops down to a position, .sync writes the header of each bound tape and holds its thread
until the sync's end. That .stat answers 0 in a thread with no bound tape is the model's choice (log entry 60). -/
def Obligations.TapeInstructionsComplete : Prop :=
  ∀ (s : State) (n : BitVec 2) (kind d a b : BitVec 7) (g : BitVec 5) (k : Nat),
    (let push := fun (t : State) j => t.tapePush j kind.toNat ((List.range (n.toNat + 1)).map fun i => s.v j (a.toNat + i));
      s.Passes { instr := .trec n kind a, ops := [.block a (n.toNat + 1)] } → s.TapesGo push →
      exec (.trec n kind a) s = .next (s.eachTape push))
    ∧ (let pop := fun (t : State) j => t.popTo d a j;
      s.Passes { instr := .tpop d a, ops := [.vdst d 4 3, .dst a] } → s.TapesGo pop → exec (.tpop d a) s = .next (s.eachTape pop))
    ∧ (let opens := fun (t : State) j => t.openSpan j (BitVec.ofNat 64 s.fallThrough) (s.v j a.toNat) (s.v j b.toNat);
      s.Passes { instr := .tmarkOpen a b, ops := [.src a, .src b] } → s.TapesGo opens → exec (.tmarkOpen a b) s = .next (s.eachTape opens))
    ∧ (s.Passes { instr := .tmarkClose } → s.TapesGo State.closeSpan → exec .tmarkClose s = .next (s.eachTape State.closeSpan))
    ∧ (let seek := fun (t : State) j => t.tapeSeek j (s.v j a.toNat).toNat ((t.thr j).tape.top + 1);
      s.Passes { instr := .tctlSeek a, ops := [.src a] } → s.TapesGo seek (fun j => Nat.min (s.thr j).tape.reach ((s.v j a.toNat).toNat / 64)) →
      InTurn (fun t j => (t.thr j).tape.bound = true) (fun t j => got (seek t j) t) s s.issue →
      (∀ j ∈ s.issue, (s.thr j).tape.bound = true) → exec (.tctlSeek a) s = .next (s.eachTape seek))
    ∧ (∀ ds : Nat → TapeDesc, s.Passes { instr := .tctlBind g, ops := [.g g] } →
      let va := fun k => (s.ptrOf k g.toNat).toNat
      let synced := s.issue.foldl State.syncThread s
      let mine := fun k => ds (s.thr k).grp
      let kept := s.issue.foldl (fun t k => t.keepWay (t.agentOf k) { w := true } ((mine k).area (s.thr k).lid) (64 + (mine k).budget)) synced
      let bound := s.issue.foldl (fun t k => got (t.bindTape (mine k) k) t) kept
      (∀ e ∈ s.issueGroups, Fine (s.engineChecks e.2 { size := 32, align := 32, g := g.toNat, perm := 1 } false [va e.2])
        ∧ parseTapeDesc (synced.engineBytes e.2 (va e.2) 32).1 = some (ds e.1)) →
      (∀ k ∈ s.issue, synced.enginePartFault (synced.agentOf k) { w := true } (parts ((mine k).area (s.thr k).lid) (64 + (mine k).budget)) = none
        ∧ (∀ hs, synced.engineHomes (synced.agentOf k) {} (parts ((mine k).area (s.thr k).lid) 64) = .ok hs → synced.torcOwns hs = false)
        ∧ Fine (kept.bindTape (mine k) k)) → Fine bound.checkCharge →
      exec (.tctlBind g) s = .next (s.issueGroups.foldl (fun t e => t.tapePoison e.2 (kept.engineBytes e.2 (va e.2) 32).2) bound))
    ∧ (s.Passes { instr := .tctlStat d, ops := [.dst d] } →
      exec (.tctlStat d) s = .next (s.issue.foldl (fun t j => t.variable j [s.toV j d.toNat (if (s.thr j).tape.bound then
        (if (s.thr j).tape.isOpen then 1 else 0) + (if (s.thr j).tape.disc then 2 else 0) + 12 else 0)]) s))
    ∧ (let synced := s.issue.foldl (fun t j => if (t.thr j).tape.bound then
        ((t.tapeSync j).updThr j fun x => { x with syncing := true }).later (.tapeSyncComplete j) else t) s;
      s.Passes { instr := .tctlSync } → Fine synced.checkCharge → exec .tctlSync s = .next synced)
    ∧ exec (.tapeSyncComplete k) s = .next (s.updThr k fun x => { x with syncing := false })

/-- R260 to R263, R408: the reservoir instructions leave each issued thread's new reservoir or value pending: an
update takes the candidate exactly when neither weight sum nor weight is 0 and draw times weight sum is below the
weight times 2^24, and caps the count; CLOVE leaves the generator's word, or its upper 24 bits as a fraction. That
every result, a new reservoir's too, is left pending as one of variable latency is the model's choice (log entry 19). -/
def Obligations.ReservoirsAndTheGeneratorComplete : Prop :=
  ∀ (s : State) (q qs : BitVec 3) (d a b : BitVec 7) (u vk : BitVec 1),
    let t := { s with free := s.free + 1 }
    let put := fun (t : State) (r : Nat → RegWrite) => s.issue.foldl (fun t k => t.variable k [r k]) t
    let cap := fun n : Nat => if n < 2 ^ 32 then n else 2 ^ 32 - 1
    let x := fun k => rsvOf (s.q k q.toNat)
    let y := fun k => rsvOf (s.q k qs.toNat)
    (s.Passes { instr := .rsvupd q a b, ops := [.block a 3, .usrc b.toNat false 3, .q q.toNat true true] } →
      exec (.rsvupd q a b) s = .next (put t fun k =>
        let m := cap ((x k).m + 1)
        let draw := cloveDraw (s.seedOf k b 0) (s.seedOf k b 1) (s.thr k).lid (q.setWidth 32) (BitVec.ofNat 32 m) (s.seedOf k b 2)
        .rsv k q.toNat ((x k).update (s.v k a.toNat) (s.v k (a.toNat + 2)) (s.v k (a.toNat + 1)) m draw).bits))
    ∧ (s.Passes { instr := .rsvmrg qs q a b, ops := [.src a, .usrc b.toNat false 4, .q qs.toNat true false, .q q.toNat true true] } →
      exec (.rsvmrg qs q a b) s = .next (put t fun k =>
        let m := cap ((x k).m + Nat.min (y k).m (s.seedOf k b 3).toNat)
        let draw := cloveDraw (s.seedOf k b 0) (s.seedOf k b 1) (s.thr k).lid (1#1 ++ q.setWidth 31) (BitVec.ofNat 32 m) (s.seedOf k b 2)
        .rsv k q.toNat ((x k).update (y k).sample (s.v k a.toNat) (mergeWeight (s.v k a.toNat) (y k)) m draw).bits))
    ∧ (s.Passes { instr := .rsvinit q, ops := [.q q.toNat false true] } → exec (.rsvinit q) s = .next (put s fun k => .rsv k q.toNat 0))
    ∧ (s.Passes { instr := .rsvfin d q, ops := [.dst d, .q q.toNat true false] } →
      exec (.rsvfin d q) s = .next (put t fun k => s.toV k d.toNat (x k).weight))
    ∧ (s.Passes { instr := .rsvget d q b, ops := [if b = 4 then .vdst d 4 3 else .dst d, .q q.toNat true false] } → b.toNat ≤ 4 →
      exec (.rsvget d q b) s = .next (s.issue.foldl (fun t k => t.variable k
        (if b = 4 then (List.range 4).map fun i => s.toV k (d.toNat + i) ((s.q k q.toNat).extractLsb' (32 * i) 32)
          else [s.toV k d.toNat ((s.q k q.toNat).extractLsb' (32 * b.toNat) 32)])) t))
    ∧ (s.Passes { instr := .rsvset q a b, ops := [if b = 4 then .vblock a 4 3 else .src a, .q q.toNat (b != 4) true] } → b.toNat ≤ 4 →
      exec (.rsvset q a b) s = .next (put t fun k =>
        let keep := fun (i : Nat) => (s.q k q.toNat).extractLsb' (32 * i) 32
        let w := fun i => if b = 4 then s.v k (a.toNat + i) else if b.toNat = i then s.v k a.toNat else keep i
        .rsv k q.toNat (w 3 ++ w 2 ++ w 1 ++ w 0 : BitVec 128)))
    ∧ (∀ (r : Rsv) (c p w : Word) (m v : Nat), fpFinite f32 w.toNat = true → w.getLsbD 31 = false →
      let z := r.update c p w m v
      fpFinite f32 z.wsum.toNat = true → z.m = m
        ∧ (fpRat f32 z.wsum.toNat ≠ 0 ∧ fpRat f32 w.toNat ≠ 0 ∧ v * fpRat f32 z.wsum.toNat < fpRat f32 w.toNat * 2 ^ 24 → z.sample = c ∧ z.phat = p)
        ∧ (¬ (fpRat f32 z.wsum.toNat ≠ 0 ∧ fpRat f32 w.toNat ≠ 0 ∧ v * fpRat f32 z.wsum.toNat < fpRat f32 w.toNat * 2 ^ 24) →
          z.sample = r.sample ∧ z.phat = r.phat))
    ∧ (s.Passes { instr := .clove u vk d a b, ops := [.dst d, .vblock a 4 3, if vk = 1 then .src b true else .usrc b.toNat false 2] } →
      exec (.clove u vk d a b) s = .next (put s fun k =>
        let key := fun i => if vk = 1 then s.v k (b.toNat + i) else s.wOf k (b.toNat + i)
        let o := clove (key 0) (key 1) (s.v k a.toNat) (s.v k (a.toNat + 1)) (s.v k (a.toNat + 2)) (s.v k (a.toNat + 3))
        s.toV k d.toNat (if u = 1 then (if o.toNat < 256 then 0 else unitFloat o) else o)))

-- Tasks and strands.

/-- R264 to R274, R410, R411: SPAWN, in each leader of the issue set alone, reads its descriptor and gives the child
grid to the dies after a release at .pkg; TQADD gives each lane's entry to its queue; TQGET answers each group from
its queue or lets it wait, behind the groups that wait already; DEPOP sets, adds to or reads a counter in each lane in
turn and leaves the old value pending. -/
def Obligations.TaskInstructionsComplete : Prop :=
  ∀ (s : State) (g : BitVec 5) (dm : BitVec 4) (ctr : BitVec 12) (sig xd : BitVec 1) (q : BitVec 6) (die : BitVec 2) (d a b : BitVec 7),
    (s.Passes { instr := .spawn g dm ctr sig, ops := [.g g], det := some 0x70 } →
      ∀ x : Nat → Grid,
      let leaders := s.issue.filter fun k => (s.thr k).tid == 0
      let bytes := fun k => s.engineBytes k (s.ptrOf k g.toNat).toNat 128
      (∀ k ∈ leaders, Fine (s.laneEngine k { size := 128, align := 64, g := g.toNat, perm := 1 }) ∧ (bytes k).2 = false
        ∧ s.childGrid k (bytes k).1 dm ctr sig = .ok (x k)) →
      exec (.spawn g dm ctr sig) s = .next (leaders.foldl (fun t k =>
        (((t.release k 3).updTeam (t.thr k).team fun m => { m with children := m.children + 1 }).acceptGrid (x k)).2) s))
    ∧ (let dest := fun k => if xd = 1 then die.toNat else dieOfThread k;
      let bytes := fun k => s.engineBytes k (s.ptrOf k g.toNat).toNat 32;
      s.Passes { instr := .tqadd g q xd die, ops := [.g g], det := some 0x71 } →
      (∀ k ∈ s.issue, Fine (s.laneEngine k { size := 32, align := 8, g := g.toNat, perm := 1 }) ∧ (bytes k).2 = false
        ∧ s.entryBad (dest k) q.toNat (s.ctxOf k) (bytes k).1 = none) →
      exec (.tqadd g q xd die) s = .next (s.issue.foldl (fun t k =>
        ((t.release k (if xd = 1 then 3 else 2)).addTask (dest k) q.toNat k (bytes k).1 (s.ptrOf k g.toNat)).serveLater (dest k)) s))
    ∧ (s.Passes { instr := .tqget d q, ops := [{ cls := .uni, n := d.toNat, cnt := 8, wide := true, rd := false, wr := true }], det := some 0x72 } →
      (∀ k ∈ s.issue, ((s.die (dieOfThread k)).queues.get {} q.toNat).ctx = s.ctxOf k) →
      exec (.tqget d q) s = .next ((s.issueGroups.foldl (fun t e => t.tqget e.1 e.2 q.toNat d.toNat) s).serveLater (dieOfThread (s.issue.headD 0))))
    ∧ (∀ (t : State) (gr low : Nat) (r : Served) (u : State), (t.grp gr).chunks = [] → t.askedBefore (dieOfThread gr) q.toNat = false → t.serve (coreOfThread gr) q.toNat = (r, u) → r ≠ .wait →
      (t.tqget gr low q.toNat d.toNat).pend.map (·.writes) = u.pend.map (·.writes) ++ [servedRegs gr d.toNat r])
    ∧ (∀ e ∈ ([(Instr.depopSet d a b, [Opd.dst d, .src a, .src b], fun k _ => some (s.v k b.toNat)),
          (.depopAdd d a b, [.dst d, .src a, .src b], fun k o => some (o + s.v k b.toNat)),
          (.depopGet d a, [.dst d, .src a], fun _ _ => none)] : List (Instr × List Opd × (Nat → Word → Option Word))),
      s.Passes { instr := e.1, ops := e.2.1, det := some 0x73 } →
      (let c := fun k => (s.v k a.toNat).toNat % 4096;
      (∀ k ∈ s.issue, s.ownsCtr (dieOfThread k) (c k) (s.ctxOf k) = true) →
      exec e.1 s = .next ((s.issue.foldl (fun t k =>
        let old := t.ctrValue (dieOfThread k) (c k)
        let t := match e.2.2 k old with | some v => (t.release k 2).ctrWrite (dieOfThread k) (c k) v | none => t.refresh k 2
        t.variable k [s.toV k d.toNat old]) s).serveLater (dieOfThread (s.issue.headD 0)))))

/-- R276 to R280, R410: SPUSH and SPOP move a bead for each lane whose strand has room or a bead, in lane order, and
make the lane wait otherwise: a lane whose strand is full, or has no bead while some stage may still push one and the
core is not revoked, moves nothing and waits at the word. SCTL.close is a release in each lane, of which the stage's
first one closes the output and a repeated one does nothing more (that it still releases is the model's choice, log
entry 155); .stat reads a strand. -/
def Obligations.StrandInstructionsComplete : Prop :=
  ∀ (s : State) (d : BitVec 7) (g : BitVec 5) (o : BitVec 1) (o2 : BitVec 2),
    (∀ (t : State) (k : Nat) (w : Wait), t.tidy = true → let x := (t.blockAt k w).thr k
      x.nextWait = some w ∧ x.blkPc = t.run.pc ∧ x.blkPos = t.run.pos ∧ (t.blockAt k w).waiters = t.waiters ++ [k]
        ∧ ∀ i, i ≠ k → (t.blockAt k w).thr i = t.thr i)
    ∧ (∀ outs : Nat → Nat × Pipe × Nat × Nat × Strand, (∀ k ∈ s.issue, s.outStrand k o.toNat = .ok (outs k)) →
      let bead := fun k => (outs k).2.2.2.2
      let push := fun (t : State) k => (t.release k 2).tryPush k o.toNat (s.ptrOf k g.toNat) (s.v k d.toNat) id
      let eff := fun (t : State) k => match push t k with
        | .ok (some u) => u.runStrands
        | _ => (t.release k 2).blockAt k (.push o.toNat (s.ptrOf k g.toNat) (s.v k d.toNat))
      s.Passes { instr := .spush d g o, ops := [.src d, .g g], det := some 0x74 } →
      (∀ k ∈ s.issue, Fine (s.laneEngine k { size := (bead k).bead, align := 16, g := g.toNat, perm := 1 }) ∧ (outs k).2.2.1 ∉ (bead k).closed) →
      exec (.spush d g o) s = .next (s.issue.foldl eff s)
        ∧ (∀ k ∈ s.issue, (bead k).full = true → s.tryPush k o.toNat (s.ptrOf k g.toNat) (s.v k d.toNat) id = .ok none))
    ∧ (∀ ins : Nat → Nat × Pipe × Nat × Strand, (∀ k ∈ s.issue, s.inStrand k = .ok (ins k)) →
      let pop := fun (t : State) k => t.tryPop k (s.ptrOf k g.toNat) d.toNat (fun u ws => u.variable k ws)
      let eff := fun (t : State) k => match pop t k with
        | .ok (some u) => u.runStrands
        | _ => t.blockAt k (.pop (s.ptrOf k g.toNat) d.toNat)
      (s.Passes { instr := .spop d g, ops := [.dst d true, .g g], det := some 0x75 } →
        (∀ k ∈ s.issue, Fine (s.laneEngine k { size := (ins k).2.2.2.bead, align := 16, g := g.toNat, perm := 2, wr := true, need := { w := true } })) →
        exec (.spop d g) s = .next (s.issue.foldl eff s)
          ∧ (∀ k ∈ s.issue, (ins k).2.2.2.beads = [] → (s.core (coreOfThread k)).revoked = false → (ins k).2.1.allClosed (ins k).2.2.1 = false →
            pop s k = .ok none))
      ∧ (s.Passes { instr := .sctlStat d 2, ops := [.dst d], det := some 0x76 } →
        exec (.sctlStat d 2) s = .next (s.issue.foldl (fun t k => t.variable k [s.toV k d.toNat ((ins k).2.1.status (ins k).2.2.1 (ins k).2.2.2)]) s)))
    ∧ (∀ outs : Nat → Nat × Pipe × Nat × Nat × Strand, (∀ k ∈ s.issue, s.outStrand k o2.toNat = .ok (outs k)) → o2.toNat < 2 →
      (s.Passes { instr := .sctlClose o2, det := some 0x76 } →
        (let close := fun (t : State) k => match t.outStrand k o2.toNat with
          | .error _ => t
          | .ok x => if x.2.2.1 ∈ x.2.2.2.2.closed then t else
            (t.updPipe x.1 x.2.1.launch fun p => p.updStrand x.2.2.2.1 fun st => { st with closed := st.closed ++ [x.2.2.1] }).moveBlock
              x.1 x.2.1.launch x.2.2.2.1;
        exec (.sctlClose o2) s = .next (((s.issue.foldl (fun t k => close (t.release k 2) k) s).runStrands).checkPipes
          (dieOfThread (s.issue.headD 0)))))
      ∧ (s.Passes { instr := .sctlStat d o2, ops := [.dst d], det := some 0x76 } →
        exec (.sctlStat d o2) s = .next (s.issue.foldl (fun t k =>
          t.variable k [s.toV k d.toNat ((outs k).2.1.status (outs k).2.2.2.1 (outs k).2.2.2.2)]) s)))

-- The command cores.

/-- R283 to R294, R304, R308, R345, R412: the CPX instructions of the issued command context, where their descriptor,
table and semaphore checks pass, after a release at .sys: LAUNCH gives a grid or a pipeline to its dies; SEMWAIT
leaves the semaphore pending where the comparison holds, and waits where it does not; SEMSIG writes and SEMADD adds;
CCOPY begins a copy, once no collective step owns a line that it reads or writes (R107); IRQ sends a vector; CHALT
halts at the run's end. -/
def Obligations.CommandInstructionsComplete : Prop :=
  ∀ (s : State) (d a b v : BitVec 7) (sem : BitVec 12) (dm : BitVec 4) (sig add ne : BitVec 1) (vec : BitVec 11),
    let k := s.issue.headD 0
    let c := k - 2 ^ 20
    let mine := fun (uses : Bool) => uses = true → s.ownsSem k sem.toNat = true
    let u := s.release k 4
    let signal := fun (r : BitVec 7) => if sig = 1 then Signal.sem c sem.toNat (add == 1) (s.v64 k r.toNat) else .none
    let va := (s.v64 k a.toNat).toNat
    let issued := fun (more : List (Nat × Nat)) => ((s.keepWays (s.agentOf k) ((va, 128) :: more)).release k 4).updCmd c fun m => { m with out := m.out + 1 }
    (s.Passes { instr := .cpxLaunch a b sem dm sig add, place := .command
                ops := [.src a true] ++ (if sig == 1 then [.src b true] else []) } →
      ∀ x : List Byte, va % 64 = 0 → s.cmdRead va 128 = .ok (x, false) → descBad x = false →
        mine (sig == 1) →
        (∀ p, (parseDesc x).kind = 1 → s.readPipe (parseDesc x) (maskDies dm.toNat) (s.ctxOf k) = .ok (p, false) →
          exec (.cpxLaunch a b sem dm sig add) s = .next ((issued (s.pipeWays (parseDesc x))).launchPipe p (maskDies dm.toNat) (signal b) c))
        ∧ (∀ det, (parseDesc x).kind ≠ 1 → (parseDesc x).ctx = s.ctxOf k → (parseDesc x).placeable = true →
          ((parseDesc x).det = 0 ∧ det = none ∨ (parseDesc x).det ≠ 0 ∧ ∃ y, s.readDet (parseDesc x) = .ok (y, false) ∧ det = some y) →
          exec (.cpxLaunch a b sem dm sig add) s = .next ((issued []).launchGrid (parseDesc x) det (maskDies dm.toNat) (signal b) c)))
    ∧ (s.Passes { instr := .cpxSemwait d a sem ne, place := .command, ops := [.dst d true, .src a true] } → mine true →
      (semHolds (ne == 1) (u.v64 k a.toNat) (u.semValue sem.toNat) = true →
        exec (.cpxSemwait d a sem ne) s = .next (u.variable k (u.toV64 k d.toNat (u.semValue sem.toNat))))
      ∧ (semHolds (ne == 1) (u.v64 k a.toNat) (u.semValue sem.toNat) = false →
        exec (.cpxSemwait d a sem ne) s = .next ((u.updThr k fun t =>
          { t with nextWait := some (.sem sem.toNat (ne == 1) (u.v64 k a.toNat) d.toNat), blkPc := u.run.pc, blkPos := u.run.pos }).updCmd c
            fun m => { m with st := .semWait })))
    ∧ (∀ x y : DWord, semHolds false x y = decide (x.toNat ≤ y.toNat) ∧ semHolds true x y = decide (x ≠ y))
    ∧ (s.Passes { instr := .cpxSemsig a sem, place := .command, ops := [.src a true] } → mine true →
      exec (.cpxSemsig a sem) s = .next (u.semWrite sem.toNat (s.v64 k a.toNat)))
    ∧ (s.Passes { instr := .cpxSemadd d a sem, place := .command, ops := [.dst d true, .src a true] } → mine true →
      let w := u.semWrite sem.toNat (u.semValue sem.toNat + u.v64 k a.toNat)
      exec (.cpxSemadd d a sem) s = .next (w.variable k (w.toV64 k d.toNat (u.semValue sem.toNat))))
    ∧ (s.Passes { instr := .cpxCcopy d a b sem sig add v, place := .command
                  ops := [.src d true, .src a true, .src b true] ++ (if sig == 1 then [.src v true] else []) } → mine (sig == 1) →
      let n := (s.v64 k d.toNat).toNat
      0 < n → n ≤ 2 ^ 36 → (s.v64 k a.toNat).toNat + n ≤ teamBase → (s.v64 k b.toNat).toNat + n ≤ teamBase →
      (s.copyWaits k n (s.v64 k a.toNat) (s.v64 k b.toNat) = false →
        exec (.cpxCcopy d a b sem sig add v) s = .next (u.beginCopy k n (s.v64 k a.toNat) (s.v64 k b.toNat) (signal v)))
      ∧ (s.copyWaits k n (s.v64 k a.toNat) (s.v64 k b.toNat) = true →
        exec (.cpxCcopy d a b sem sig add v) s = .next (s.setRun { s.run with held := true })))
    ∧ (s.Passes { instr := .cpxIrq vec, place := .command } → exec (.cpxIrq vec) s = .next (u.msix vec.toNat))
    ∧ (s.Passes { instr := .cpxChalt, place := .command } →
      exec .cpxChalt s = .next (s.issue.foldl (fun t k => (t.release k 4).updThr k fun x => { x with nextWait := some .exited }) s))

-- The machine's own events.

/-- R29 to R34, R284: a picker with no run and no resuming set chooses among its candidates: for a compute slot the PC
and the issue set of R33, for a command core the next context of R284; a set that resumes goes first, and a picker
that has nothing to choose changes nothing. The run it begins, where no trap is due at that boundary and fetch and
checks pass, holds the words between header and trailer, and its threads are issued. -/
def Obligations.PickersChooseAndRunsBegin : Prop :=
  ∀ (s : State) (i : Nat), s.tidy = true →
    let sl := s.slot i
    let cand := s.candidates i
    let pcOf := fun k => (s.thr k).pc
    let age := fun k => (s.thr k).age
    let quarter := fun k : Nat => k % 64 / 8
    let cell := fun (q l : Nat) (pc : DWord) (c : List Nat) => (c.filter fun k => pcOf k == pc && quarter k == q && layerOfThread k == l).length
    let chosen := fun p => State.setSlot s i { sl with phase := p }
    let base := 2 ^ 20 + (if sl.last = 0 then 16 * (i - 1536) + 16 else sl.last)
    let eligible := fun p : DWord => (∀ k ∈ cand, p.toNat ≤ (pcOf k).toNat)
      ∨ ∀ k, cand.find? (fun k => pcOf k == p) = some k → (s.peekCode k p).getLsbD 19 = false
    (sl.phase ≠ .idle → exec (.pickerDecision i) s = .next s)
    ∧ (sl.phase = .idle → sl.resume = [] → cand = [] → exec (.pickerDecision i) s = .next s)
    ∧ (∀ pc pos ks r, sl.phase = .idle → sl.resume = (pc, pos, ks) :: r →
      exec (.pickerDecision i) s = .next (s.setSlot i { sl with resume := r, phase := .chosen pc pos ks [] }))
    ∧ (sl.phase = .idle → sl.resume = [] → cand ≠ [] → i < 1536 →
      exec (.pickerDecision i) s = .next (chosen (.chosen (s.choosePc cand).1 0 (s.issueSet cand (s.choosePc cand).1 (s.choosePc cand).2) cand)))
    ∧ (sl.phase = .idle → sl.resume = [] → cand ≠ [] → 1536 ≤ i → ∃ k ∈ cand, exec (.pickerDecision i) s = .next (chosen (.chosen (pcOf k) 0 [k] cand))
      ∧ ((∃ j ∈ cand, base ≤ j) → base ≤ k ∧ ∀ j ∈ cand, base ≤ j → k ≤ j) ∧ ((∀ j ∈ cand, j < base) → ∀ j ∈ cand, k ≤ j))
    ∧ (∀ k, k ∈ cand ↔ issuerOfThread k = i ∧ s.isReady k = true ∧ s.hasTurn k = true ∧ s.yieldsTo k = false)
    ∧ (cand ≠ [] → (∀ k ∈ cand, age k < 64) → (s.choosePc cand).2 = false ∧ (∃ k ∈ cand, pcOf k = (s.choosePc cand).1) ∧ eligible (s.choosePc cand).1
      ∧ ∀ k ∈ cand, eligible (pcOf k) → population s cand (pcOf k) ≤ population s cand (s.choosePc cand).1
        ∧ (population s cand (pcOf k) = population s cand (s.choosePc cand).1 → (s.choosePc cand).1.toNat ≤ (pcOf k).toNat))
    ∧ ((∃ k ∈ cand, 64 ≤ age k) → (s.choosePc cand).2 = true ∧ ∃ k ∈ cand, pcOf k = (s.choosePc cand).1
      ∧ ∀ j ∈ cand, age j ≤ age k ∧ (age j = age k → (pcOf k).toNat ≤ (pcOf j).toNat))
    ∧ (∀ (c : List Nat) (pc : DWord) (forced : Bool),
      let set := s.issueSet c pc forced
      (∀ k ∈ set, k ∈ c ∧ pcOf k = pc)
      ∧ (∀ j ∈ c, pcOf j = pc → ∃ k ∈ set, quarter k = quarter j)
      ∧ (∀ k ∈ set, ∀ j ∈ c, pcOf j = pc → quarter j = quarter k → (j ∈ set ↔ layerOfThread j = layerOfThread k))
      ∧ (∀ k ∈ set, (forced = false ∨ ∀ j ∈ c, pcOf j = pc → quarter j = quarter k → age j < 64) → ∀ l < 8,
        cell (quarter k) l pc c ≤ cell (quarter k) (layerOfThread k) pc c
        ∧ (cell (quarter k) l pc c = cell (quarter k) (layerOfThread k) pc c → layerOfThread k ≤ l))
      ∧ (∀ k ∈ set, forced = true → (∃ j ∈ c, pcOf j = pc ∧ quarter j = quarter k ∧ 64 ≤ age j) →
        ∃ m ∈ set, layerOfThread m = layerOfThread k ∧ quarter m = quarter k
          ∧ ∀ j ∈ c, pcOf j = pc → quarter j = quarter k → age j ≤ age m ∧ (age j = age m → layerOfThread m ≤ layerOfThread j)))
    ∧ (∀ (pc : DWord) (pos : Nat) (ks cd : List Nat) (fe : Fetched), sl.phase = .chosen pc pos ks cd → ks ≠ [] →
      (∀ k ∈ ks, s.isReady k = true ∧ (pos = 0 → (s.thr k).trapFlags = 0 ∧ (s.thr k).traps = [])) →
      let u := (s.updSlot i fun x => { x with phase := .idle, last := if 1536 ≤ i then ks.headD 0 - 2 ^ 20 + 1 else x.last }).applyAges i ks cd
      u.fetch (ks.headD 0) pc.toNat = .ok fe → checkRun fe.words pc.toNat = none → pos ≤ runLen (fe.words.getD 0 0).toNat →
      ∃ t r, exec (.runIssue i) s = .next t ∧ (t.slot i).phase = .running r ∧ r.pc = pc ∧ r.threads = ks ∧ r.fixed = []
        ∧ r.words = (fe.words.drop 2).take (runLen (fe.words.getD 0 0).toNat) ∧ r.pos = Nat.max pos 1
        ∧ ∀ k ∈ ks, (t.thr k).wait = .issued)
    ∧ ((∀ pc pos ks cd, sl.phase ≠ .chosen pc pos ks cd) → exec (.runIssue i) s = .next s)

/-- R18, R24, R26, R85, R154, R276, R281, R314, R324, R325: the events of the heartbeat, of sleepers, of the work
distributor, of granules in Handover, of pipelines and of saved contexts: what each does where it is due, and that it
changes nothing where it is not. That the deadlock test of an interval comes before the balancer's moves is the
model's choice (log entry 67). R172, R193 to R197, R294, R381: a table load begins where no group of its core latches
the bank it fills, from the clk after the bank's last use and once no collective step owns a line of its image (R107),
and its completion fills that bank, steps the version and makes the bank active; a copy engine goes on with a ring's
waiting command and the entries announced, and completes the oldest issued command; the oldest CCOPY of a command
context writes its bytes, counts down and signals. That an engine goes on with its rings while its core is being saved
is the model's choice (log entry 84). -/
def Obligations.OwnEventsComplete : Prop :=
  (∀ (s : State) (n m : Nat),
      (∀ t, s.placeFirst n (s.die n).grids = some t → exec (.teamPlace n) s = .next ((t.pokePlace n).pokePipes n))
      ∧ (s.placeFirst n (s.die n).grids = none → exec (.teamPlace n) s = .next (s.pokePipes n))
      ∧ (∀ g rest (a : Place) block ps, (s.die n).grids = g :: rest → (s.grid g).det = none → (s.grid g).stage = none →
        (s.grid g).nextTeam n = some a → s.ctxOpen n (s.grid g).ctx = true → s.tagOpen n (s.grid g).desc.shape = true →
        s.firstBlock n (s.grid g).ctx (s.grid g).desc none (upto 0 96) = some (block, ps) →
        exec (.teamPlace n) s = .next ((((s.makeTeam g a block ps).updGrid g fun x =>
          { x with placed := x.placed.put 0 n (x.placed.get 0 n + 1) }).pokePlace n).pokePipes n))
      ∧ ((s.team n).live = true → (s.team n).phase = .finishing → exec (.teamFinishComplete n) s = .next (s.finishTeam n).ringsMoved)
      ∧ (((s.team n).live = false ∨ (s.team n).phase ≠ .finishing) → exec (.teamFinishComplete n) s = .next s)
      ∧ (∃ t, exec .heartbeatTick s = .next t ∧ t.ticks = s.ticks + 1 ∧ t.mem = s.mem
          ∧ (∃ e ∈ t.agenda, e.2 = .heartbeatTick ∧ 64 * (s.clk / 64 + 1) ≤ e.1)
          ∧ (s.clk / 64 % 256 = 0 → ∀ d < 4, ∃ e ∈ t.agenda, e.2 = .balancerInterval d ∧ s.clk ≤ e.1)
          ∧ (s.tidy = true → ∀ x c, (s.thr x).wait = .asleep (c + 1) → (t.thr x).wait = .asleep c
            ∧ (c = 0 → ∃ e ∈ t.agenda, e.2 = .sleepWake x ∧ s.clk ≤ e.1)))
      ∧ ((s.thr n).wait = .asleep 0 → exec (.sleepWake n) s = .next (s.updThr n fun x => { x with wait := .ready }))
      ∧ ((s.thr n).wait ≠ .asleep 0 → exec (.sleepWake n) s = .next s)
      ∧ (∀ g : Nat, (s.core n).gran.get .l1 m = .handover g →
        let u := ((s.finishPublications n).dropClean n).updCore n fun c => { c with gran := c.gran.put .l1 m (.held g) }
        ((u.core n).restoring = false → exec (.handoverComplete n m) s = .next (u.checkHeld g))
        ∧ ((u.core n).restoring = true → ((u.core n).handingOver = true ∨ (u.core n).saving = true) → exec (.handoverComplete n m) s = .next u)
        ∧ ((u.core n).restoring = true → (u.core n).handingOver = false → (u.core n).saving = false →
          exec (.handoverComplete n m) s = .next (u.endRestore n)))
      ∧ ((∀ g, (s.core n).gran.get .l1 m ≠ .handover g) → exec (.handoverComplete n m) s = .next s)
      ∧ (∀ p, (s.die n).pipe m = some p →
        (p.resident = false → s.ctxOpen n p.ctx = true → p.cores ≤ (s.freeCores n p.ctx).length → exec (.pipelineResident n m) s = .next (s.pipeResident n p))
        ∧ ((p.resident = true ∨ s.ctxOpen n p.ctx = false ∨ (s.freeCores n p.ctx).length < p.cores) → exec (.pipelineResident n m) s = .next s))
      ∧ ((s.die n).pipe m = none → exec (.pipelineResident n m) s = .next s)
      ∧ exec (.balancerInterval n) s = .next (((s.die n).pipes.map (·.launch)).foldl (fun t l => t.interval n l) s)
      ∧ (∀ p q, (s.die n).pipe m = some p → p.resident = true → (s.cx p.ctx).dies.get .running n = .running →
        ∀ t, s.strandTest n p = (false, t) → (t.die n).pipe m = some q → s.interval n m = t.balance n q)
      ∧ (∀ d, (s.grid n).live = true → (s.grid n).det = some d →
        (d.failed = true → exec (.detCommit n) s = .next (s.failStep n))
        ∧ (d.failed = false → (∀ x, s.detTask n d.committed = some x → x.finished = false) → exec (.detCommit n) s = .next s)
        ∧ (∀ x, d.failed = false → s.detTask n d.committed = some x → x.finished = true →
          (d.replay = false → exec (.detCommit n) s = .next (((s.tableWrite n (0x40 + 8 * x.p) 8 x.digest.toNat).commitTask n x).afterCommit n x))
          ∧ (d.replay = true → let u := s.tablePoison n (0x40 + 8 * x.p) 8 x.p
            (u.tableRead n (0x40 + 8 * x.p) 8 = some x.digest.toNat → exec (.detCommit n) s = .next ((u.commitTask n x).afterCommit n x))
            ∧ (u.tableRead n (0x40 + 8 * x.p) 8 ≠ some x.digest.toNat → exec (.detCommit n) s = .next (u.mismatch n x)))))
      ∧ (((s.grid n).live = false ∨ (s.grid n).det = none) → exec (.detCommit n) s = .next s)
      ∧ (let d := dieOfCore n
        let c := (s.core n).ctx
        let u := (upto (4 * n) 4).foldl (fun t i => t.updSlot i Slot.dropChosen) s
        ((s.core n).saving = false → exec (.coreSave n) s = .next (s.closeSaves d))
        ∧ ((s.core n).saving = true → (s.cx c).dies.get .running d ≠ .saving → exec (.coreSave n) s = .next s)
        ∧ ((s.core n).saving = true → (s.cx c).dies.get .running d = .saving → s.tidy = true → (s.core n).restoring = false →
          (u.savedCores c d ≠ [] ∨ u.saveFits c d = true) →
          (u.atRest n = true → exec (.coreSave n) s = .next ((u.saveCore n).closeSaves d))
          ∧ (u.atRest n = false → exec (.coreSave n) s = .next (u.poll (u.clk + 1) (.coreSave n)))))
      ∧ (∀ x, (s.core n).reserved = some x → ((s.core n).ctx = 0 ∨ (s.core n).ctx = x) → (s.core n).saving = false → (s.core n).restoring = false →
        (s.cx x).dies.get .running (dieOfCore n) = .running → (x ∈ s.ctxsOn (dieOfCore n) ∨ (s.ctxsOn (dieOfCore n)).length < 64) →
        ((s.cx x).saved.get none n = none → exec (.coreRestore n) s = .next (s.updCore n fun k => { k with reserved := none }))
        ∧ ∀ v, (s.cx x).saved.get none n = some v →
          (s.granNeed v ≤ (s.core n).freeGranules.length → exec (.coreRestore n) s = .next (s.beginRestore x n v))
          ∧ ((s.core n).freeGranules.length < s.granNeed v → exec (.coreRestore n) s = .next s))
      ∧ (∀ x, (s.core n).reserved = some x → (s.cx x).dies.get .running (dieOfCore n) ≠ .running → exec (.coreRestore n) s = .next s)
      ∧ ((s.core n).reserved = none → exec (.coreRestore n) s = .next s))
  ∧ (∀ (s : State) (n m : Nat),
      (let first := (s.core n).loads.find? fun l => l.t == m
      let bank := !((s.core n).tables.get {} m).active
      let busy := ∃ e ∈ s.groups, e.2.live = true ∧ isCmd e.1 = false ∧ coreOfThread e.1 = n
        ∧ (e.2.latch.get {} m).latched = true ∧ (e.2.latch.get {} m).bank = bank
      let me := fun l : TableLoad => ({ unit := l.grp, ctx := l.ctx, team := some (s.grp l.grp).team, view := s.view (s.grp l.grp).team } : Agent)
      let src := fun l : TableLoad => s.engineRead (me l) l.ptr.toNat 3088
      let later := fun l : TableLoad => ((s.core n).tables.get {} m).at_ = some s.clk
        ∨ ∃ hs, s.engineHomes (me l) {} (parts l.ptr.toNat 3088) = .ok hs ∧ s.torcOwns hs = true
      (first = none → exec (.lutldLoadBegin n m) s = .next s)
      ∧ (∀ l, first = some l → (l.begun = true ∨ (s.core n).saving = true ∨ busy) → exec (.lutldLoadBegin n m) s = .next s)
      ∧ (∀ l, first = some l → l.begun = false → (s.core n).saving = false → ¬ busy → later l →
        exec (.lutldLoadBegin n m) s = .next (s.poll (s.clk + 1) (.lutldLoadBegin n m)))
      ∧ (∀ l, first = some l → l.begun = false → (s.core n).saving = false → ¬ busy → ¬ later l →
        (∀ f, src l = .error f → exec (.lutldLoadBegin n m) s = .next (s.failLoad n l f.code f.cls (f.infoWord false)))
        ∧ (∀ bs, src l = .ok (bs, true) → exec (.lutldLoadBegin n m) s = .next (s.failLoad n l 0x1C 2 0))
        ∧ (∀ bs, src l = .ok (bs, false) → exec (.lutldLoadBegin n m) s = .next (((s.keepWay (me l) {} l.ptr.toNat 3088).updCore n fun c =>
          { c with loads := c.loads.map fun x => if x = l then { x with begun := true, bank := bank, image := putBytes [] 0 bs } else x }).later
            (.lutldLoadComplete n m)))))
      ∧ (∀ l, (s.core n).loads.find? (fun l => l.t == m && l.begun) = some l → s.tidy = true →
        ∃ t, exec (.lutldLoadComplete n m) s = .next t ∧ t.mem = s.mem
          ∧ (let old := (s.core n).tables.get {} m
            let new := (t.core n).tables.get {} m
            new.version = old.version + 1 ∧ new.active = l.bank ∧ new.at_ = some s.clk
              ∧ (if l.bank then new.bank1 = l.image ∧ new.bank0 = old.bank0 else new.bank0 = l.image ∧ new.bank1 = old.bank1)))
      ∧ ((s.core n).loads.find? (fun l => l.t == m && l.begun) = none → exec (.lutldLoadComplete n m) s = .next s)
      ∧ (∀ r, s.ringOf n m = some r →
        (n ∈ (s.team r.team).away → exec (.copyCmdIssue n m) s = .next s)
        ∧ (n ∉ (s.team r.team).away →
          ((s.team r.team).phase ≠ .resident →
            exec (.copyCmdIssue n m) s = .next (s.updRing n m fun x => { x with cmds := x.cmds.filter (·.issued) }))
          ∧ ((s.team r.team).phase = .resident →
            (∀ c, r.cmds.find? (fun c => !c.issued) = some c → exec (.copyCmdIssue n m) s = .next ((s.copyTry n r c).acceptAll n m 256))
            ∧ ((∀ c ∈ r.cmds, c.issued = true) → exec (.copyCmdIssue n m) s = .next (s.acceptAll n m 256))))
        ∧ (∀ c cs, r.cmds = c :: cs → c.issued = true → exec (.copyCmdComplete n m) s = .next (s.copyFinish n r c))
        ∧ ((∀ c, r.cmds.head? = some c → c.issued = false) → exec (.copyCmdComplete n m) s = .next s))
      ∧ (s.ringOf n m = none → exec (.copyCmdIssue n m) s = .next s ∧ exec (.copyCmdComplete n m) s = .next s)
      ∧ (∀ x xs, (s.cmd n).copies = x :: xs →
        exec (.ccopyComplete n) s = .next (s.finishCopy n x)
        ∧ (x.fail = none → x.bad = [] → s.finishCopy n x =
          (((s.writeOwned x.dests).updCmd n fun c => { c with copies := c.copies.drop 1 }).cmdDone (some n)).signal x.signal))
      ∧ ((s.cmd n).copies = [] → exec (.ccopyComplete n) s = .next s))

/-- R295, R299 to R302, R384, R415 to R419: a step of an active instance that is to end, is reserved, lies outside the
program or fails ends the instance with its fault; every other is performed by its kind, with its data moved where its
checks pass. A chunk is discarded with a record, takes a slot or a spill place, or is held back; an ABORT, a step that
has waited for 2^24 ticks with no chunk of the instance accepted meanwhile, and a spill write or refetch that has not
completed in 2^20 ticks end an instance. -/
def Obligations.CollectiveEventsComplete : Prop :=
  ∀ (s : State) (die off : Nat),
    (∀ b : TorcBlock, (s.die die).torc.blocks.find? (fun b => b.off == off) = some b → b.active = true →
      let v := s.slotsFreed die
      let i := v.inst die b
      let goes := fun t => exec (.torcStep die off) s = .next t
      (∀ e, v.doomOf i = some e → goes (v.torcFault i e))
      ∧ (v.doomOf i = none →
        (∀ e, v.torcProg i b.step = .error e → goes (v.torcFault i e))
        ∧ ∀ t bad, v.torcProg i b.step = .ok (t, bad) →
          let kept := v.keepWay (torcAgent die i.b.ctx) {} (i.prog + 16 * b.step) 16
          let u := if bad = true ∧ b.begun = false then kept.torcPoison i [0] else kept
          (t.reservedBad = true → goes (u.torcFault i { code := 0x02, info := 0xA0 }))
          ∧ (t.reservedBad = false → t.shapeBad b = true → goes (u.torcFault i { code := 0x02, info := 0xA1 }))
          ∧ (t.reservedBad = false → t.shapeBad b = false →
            let count : Int := if t.w1.testBit 31 = true then (i.n : Int) + sgn 24 (t.w1 % 2 ^ 24) else (t.w1 % 2 ^ 24 : Nat)
            let zero := fun (x : TorcBlock) => { x with loops := x.loops.put 0 t.pl 0 }
            (t.isData = true → (∀ v, u.runData i t = .ok v → goes v) ∧ ∀ e, u.runData i t = .error e → goes (u.torcFault i e))
            ∧ (t.code = 6 → goes (if u.ctrValue die (t.w1 % 2 ^ 12) = 0 then u.stepped i (b.step + 1) id else u.stepWaits i))
            ∧ (t.code = 7 → 0 < count → goes (u.stepped i (b.step + 1) fun x => { zero x with opens := (t.pl, count.toNat, b.step + 1) :: x.opens }))
            ∧ (t.code = 7 → count ≤ 0 → ∀ k, u.matchEndl i t.pl (65536 - b.step) (b.step + 1) [] = .ok k → goes (u.stepped i k zero))
            ∧ (t.code = 8 → goes (u.endlStep i t))
            ∧ (t.code = 9 → t.w1.testBit 12 = true → goes ((u.semWrite (t.w1 % 2 ^ 12) (u.semValue (t.w1 % 2 ^ 12) + 1)).stepped i (b.step + 1) id))
            ∧ (t.code = 9 → t.w1.testBit 12 = false → goes (((u.ctrDec die (t.w1 % 2 ^ 12)).serveLater die).stepped i (b.step + 1) id))
            ∧ (t.code = 15 → goes (u.endStep i))))
      ∧ (b.begun = true →
        (64 * (b.since + 2 ^ 24) ≤ s.clk → exec (.collTimeout die off) s = .next (s.memberLost (s.inst die b) 0x7FF))
        ∧ (s.clk < 64 * (b.since + 2 ^ 24) → exec (.collTimeout die off) s = .next (s.poll (64 * (b.since + 2 ^ 24)) (.collTimeout die off)))))
    ∧ (∀ o : PoolOp, (s.die die).torc.poolOps.find? (fun o => o.off == off && decide (64 * (o.since + 2 ^ 20) ≤ s.clk)) = some o →
      let v := s.updDie die fun x => { x with torc := { x.torc with poolOps := x.torc.poolOps.filter (· != o) } }
      (∀ r, v.running die o.tag = some r → r.seq = o.seq → exec (.poolTimeout die off) s = .next (v.torcFault r { code := 0x1D, cls := 2, info := 1 }))
      ∧ ((∀ r, v.running die o.tag = some r → r.seq ≠ o.seq) →
        exec (.poolTimeout die off) s = .next (v.doom die off { tag := o.tag, seq := o.seq, code := 0x1D, cls := 2, info := 1 })))
    ∧ ((∀ o ∈ (s.die die).torc.poolOps, o.off = off → s.clk < 64 * (o.since + 2 ^ 20)) → exec (.poolTimeout die off) s = .next s)
    ∧ ((∀ b ∈ (s.die die).torc.blocks, b.off ≠ off) → exec (.torcStep die off) s = .next s)
    ∧ (∀ b : TorcBlock, (s.die die).torc.blocks.find? (fun b => b.off == off) = some b → b.active = false →
      exec (.torcStep die off) s = .next (s.slotsFreed die))
    ∧ ((∀ b ∈ (s.die die).torc.blocks, b.off = off → b.active = false ∨ b.begun = false) → exec (.collTimeout die off) s = .next s)
    ∧ (∀ (tag seq : BitVec 32) (src ch : Nat) (data : List (BitVec 8)),
      let v := { s with nextId := s.nextId + 1 }
      let c : Chunk := { id := s.nextId, tag := tag, seq := seq, src := src, ch := ch, loc := false, data := data }
      let goes := fun t => exec (.torcChunkArrival die tag seq src ch data) s = .next t
      (v.blockOfTag die tag = none → goes (v.logEvent 0x1B 1 0 (torcStop die) 6 2 0))
      ∧ ∀ o, v.blockOfTag die tag = some o →
        (atOrBelow seq.toNat (v.torcNat die o 4 4) = true → goes (v.logEvent 0x1B 1 (v.blockCtx die o) (torcStop die) 6 3 0))
        ∧ (atOrBelow seq.toNat (v.torcNat die o 4 4) = false →
          (v.roomFor die o (v.die die).torc.chunks c = none → goes (v.addChunk die { c with place := .waiting }))
          ∧ ∀ p, v.roomFor die o (v.die die).torc.chunks c = some p →
            (v.spillData die o c p = none → goes (v.doom die o { tag := tag, seq := seq, code := 0x1D, cls := 2, info := 1 }))
            ∧ ∀ t, v.spillData die o c p = some t → goes ((t.acceptedAt die o c).addChunk die { c with place := p })))
    ∧ (∀ (tag seq : BitVec 32) (rank : Nat),
      let goes := fun t => exec (.torcAbortReceive die tag seq rank) s = .next t
      (s.blockOfTag die tag = none → goes s)
      ∧ ∀ o, s.blockOfTag die tag = some o →
        (atOrBelow seq.toNat (s.torcNat die o 4 4) = true → goes s)
        ∧ (atOrBelow seq.toNat (s.torcNat die o 4 4) = false →
          (∀ r, s.running die tag = some r → r.seq = seq → goes (s.torcFault r { code := 0x1A, info := rank }))
          ∧ ((∀ r, s.running die tag = some r → r.seq ≠ seq) →
            goes (s.doom die o { tag := tag, seq := seq, code := 0x1A, cls := 1, info := rank }))))

/-- The events from outside and of the always-on logic (R332 to R334, R342, R386, R387, R423, R424, R426, R427): a
host write to an HDM range is stored at home and a read returns what the homes hold, with its poison, once no
collective step owns a line of them (R107); a snoop takes the host's line and leaves every byte of other lines as it
was; a storage error poisons what it strikes or drops the copy; a mesh error resets the package, the loss of the host
port begins a retraining of 2^20 ticks, that of a UALink or pool port is noted; a start that ends with no cause counts
itself and leaves the package up, a failed one notes its cause and is tried again, and the fourth failed one leaves it
in minimal mode. The model's choices among these: how long causes are kept and that the log outlives a reset while clk
begins anew (log entries 7 and 5); that the counter alone decides on minimal mode, but for a watchdog (8); that a
snoop may bring a store of the host, and that accesses outside the HDM ranges or with the port down do nothing (39 and
41); the STOP of the records of UALink and pool ports (99 and 137); what a storage error strikes (110); and what waits
for a line that a collective step owns (142). -/
def Obligations.OutsideEventsComplete : Prop :=
  ∀ (s : State) (pa die port : Nat) (data : List (BitVec 8)),
    (let ok := s.host.port = .up ∧ data ≠ [] ∧ s.part.isHdm pa data.length = true
    (ok → s.torcOwns (upto pa data.length) = false → exec (.hostCxlMemAccess pa true data) s = .next (s.storeHomes pa data)
      ∧ exec (.hostCxlMemAccess pa false data) s = .next { s with host := { s.host with
          answer := s.readHomes pa data.length, answerBad := s.isPoisoned pa data.length } })
    ∧ (ok → s.torcOwns (upto pa data.length) = true →
      ∀ wr, exec (.hostCxlMemAccess pa wr data) s = .next (s.poll (s.clk + 1) (.hostCxlMemAccess pa wr data)))
    ∧ (¬ ok → ∀ wr, exec (.hostCxlMemAccess pa wr data) s = .next s))
    ∧ (let ok := s.host.port = .up ∧ s.part.rangeOf pa = .host
      (ok → s.torcOwns [pa] = false → ∃ t, exec (.hostSnoop pa) s = .next t ∧ t.host.lines = s.host.lines.del (pa / 128) ∧ t.threads = s.threads
        ∧ t.log = s.log ∧ (s.wf = true → ∀ h, h < 2 ^ 110 → h / 128 ≠ pa / 128 → t.readHome h = s.readHome h))
      ∧ (ok → s.torcOwns [pa] = true → exec (.hostSnoop pa) s = .next (s.poll (s.clk + 1) (.hostSnoop pa)))
      ∧ (¬ ok → exec (.hostSnoop pa) s = .next s))
    ∧ exec (.eccUncorrectable .data die pa) s = .next (s.strikeData (pa / 32 * 32) 32)
    ∧ exec (.eccUncorrectable .tags die pa) s = .next (s.strikeData (pa / 128 * 128) 128)
    ∧ (∃ t, exec (.eccUncorrectable .cached die pa) s = .next t ∧ t.mem = s.mem ∧ t.poison = s.poison ∧ t.threads = s.threads
      ∧ (s.tidy = true →
        let k := s.core die
        t.core die = { k with code := [], records := [], tlb := [], l1 := k.l1.del (pa / 128), fills := k.fills.del (pa / 128) }
        ∧ ∀ j < 4, let sl := s.slot (4 * die + j)
          t.slot (4 * die + j) = { sl with l0 := sl.l0.del (pa / 128), fills := sl.fills.del (pa / 128), loop := [] }))
    ∧ (pa < 2 ^ 52 → exec (.eccUncorrectable .scrub die pa) s =
        .next ((s.logEvent 0x1C 2 0 (s.homeStop (pa / 32 * 32)) 9 0 0 (BitVec.ofNat 64 (pa / 32 * 32)) 8).strikeData (pa / 32 * 32) 32))
    ∧ (∀ p ∈ [EccPlace.vreg, .temp, .pred, .ptr, .rsv], (s.thr die).live = true → (p, pa) ≠ (.pred, 15) → (p, die, pa) ∉ s.poisonReg →
      exec (.eccUncorrectable p die pa) s = .next { s with poisonReg := s.poisonReg ++ [(p, die, pa)] })
    ∧ exec (.meshLinkError die port) s = .next ((s.logEvent 0x1D 2 0 port 10 (0x10 + die) 0).resetPackage false)
    ∧ (∀ clear : Bool, let t := s.resetPackage clear
      t.boot.attempts = (if clear then 0 else s.boot.attempts) ∧ t.boot.up = false ∧ t.boot.count = s.boot.count ∧ t.threads = [] ∧ t.log = s.log
        ∧ t.host.doneSeq = s.host.doneSeq ∧ ∃ n, (1, Instr.powerOn n) ∈ t.agenda)
    ∧ (s.host.port = .up → let u := s.logEvent 0x1D 2 0 0x1000 10 0x20 0
      exec .hostPortDown s = .next (State.scheduleAt { u with free := u.free + 1, host := { u.host with port := .retraining (u.clk / 64), downKey := u.free } }
        (64 * (u.clk / 64 + 2 ^ 20)) .hostRetrainTimeout))
    ∧ (s.host.port ≠ .up → exec .hostPortDown s = .next s)
    ∧ (∀ since, s.host.port = .retraining since →
      (∃ t, exec .hostPortRetrained s = .next t ∧ t.host.port = .up ∧ t.host.lines = [] ∧ t.mem = s.mem ∧ t.threads = s.threads
        ∧ (8 ≤ s.host.rate → t.host.rate ≤ s.host.rate ∧ t.host.rate ∈ [8, 16, 32])
        ∧ t.host.sent = s.host.sent ++ (s.host.msixPend.filter fun e => e.2 && !(s.host.msixMask.get false e.1)).map (·.1))
      ∧ (since + 2 ^ 20 ≤ s.clk / 64 → exec .hostRetrainTimeout s = .next { s with host := { s.host with port := .down } })
      ∧ (s.clk / 64 < since + 2 ^ 20 → exec .hostRetrainTimeout s = .next s))
    ∧ (s.host.port = .up → ∃ rate, exec .hostPortRetrained s = .next { s with free := s.free + 1, host := { s.host with rate := rate } }
      ∧ (8 ≤ s.host.rate → rate ≤ s.host.rate ∧ rate ∈ [8, 16, 32]))
    ∧ (s.host.port = .down → exec .hostPortRetrained s = .next s)
    ∧ ((∀ since, s.host.port ≠ .retraining since) → exec .hostRetrainTimeout s = .next s)
    ∧ (die < 4 → port < 4 → s.portDown die port = false →
      let u := s.logEvent 0x1D 2 0 (256 * (8 * (die / 2) + 7) + 16 * (die % 2) + [1, 3, 10, 12].getD port 1) 10 (0x30 + 4 * die + port) 0
      exec (.ualinkPortDown die port) s = .next (State.portLost { u with host := { u.host with ualDown := u.host.ualDown.put false (4 * die + port) true } } die port))
    ∧ ((4 ≤ die ∨ 4 ≤ port ∨ s.portDown die port = true) → exec (.ualinkPortDown die port) s = .next s)
    ∧ (s.host.poolUp = true → let u := s.logEvent 0x1D 2 0 0x1000 10 0x40 0
      exec .poolPortDown s = .next { u with host := { u.host with poolUp := false } })
    ∧ (s.host.poolUp = false → exec .poolPortDown s = .next s)
    ∧ (∀ t0 t1 t2 t3 hub power : BitVec 16, ∃ t, exec (.i3cRefresh t0 t1 t2 t3 hub power) s = .next t
        ∧ t.host.i3c = putBytes [] 0 (s.i3cBytes [t0, t1, t2, t3, hub, power]) ∧ t.mem = s.mem ∧ t.threads = s.threads
        ∧ ∃ a b c d e f, (64 * ((s.clk / 64 / 2 ^ 20 + 1) * 2 ^ 20), Instr.i3cRefresh a b c d e f) ∈ t.agenda)
    ∧ (let causes := if s.boot.up = true then [] else s.boot.causes
      (s.part.startCause = none → s.boot.attempts < 3 →
        (∃ t, exec (.powerOn 0) s = .next t ∧ t.boot.up = true ∧ t.boot.minimal = false ∧ t.boot.attempts = 0 ∧ t.boot.count = s.boot.count + 1
          ∧ t.boot.causes = causes ∧ t.host.ready = true ∧ t.host.port = .up ∧ t.host.rate ≤ s.part.ucie ∧ t.host.rate ∈ [8, 16, 32]
          ∧ t.threads = [] ∧ t.teams = [] ∧ t.ctxs = [] ∧ t.log = s.log)
        ∧ ∀ c : BitVec 8, 1 ≤ c.toNat → c.toNat ≤ 9 → ∃ t, exec (.powerOn c) s = .next t ∧ t.boot.up = false ∧ t.boot.minimal = false
          ∧ t.boot.attempts = s.boot.attempts + 1 ∧ t.boot.count = s.boot.count ∧ t.boot.causes = causes ++ [c.toNat] ∧ t.host.ready = false
          ∧ t.clk = 0 ∧ ∃ n, (1, Instr.powerOn n) ∈ t.agenda)
      ∧ (∀ c, s.part.startCause = some c → s.boot.attempts < 3 → ∃ t, exec (.powerOn 0) s = .next t ∧ t.boot.up = false
        ∧ t.boot.attempts = s.boot.attempts + 1 ∧ t.boot.causes = causes ++ [c]))
    ∧ (∀ c : BitVec 8, 3 ≤ s.boot.attempts → c.toNat ≠ 8 → ∃ t, exec (.powerOn c) s = .next t ∧ t.boot.minimal = true ∧ t.boot.up = false ∧ t.threads = []
      ∧ (s.part.startCause = none → c.toNat ≠ 4 → t.host.ready = true ∧ t.host.port = .up))
    ∧ (s.boot.up = false → s.boot.minimal = false → ∃ t, exec .bootStepWatchdog s = .next t ∧ t.boot.up = false
        ∧ t.boot.minimal = false ∧ t.boot.attempts = Nat.min 255 (s.boot.attempts + 1) ∧ t.boot.causes = s.boot.causes ++ [8]
        ∧ ∃ n, (1, Instr.powerOn n) ∈ t.agenda)
    ∧ ((s.boot.up = true ∨ s.boot.minimal = true) → exec .bootStepWatchdog s = .next s)

-- The management interface.

namespace Sys2Proof.Machine

/-- A management command as the spec gives it: its event, its code, whether the request's fields are legal, whether minimal
mode allows it, the causes that refuse it with their RESULT, and the state it leaves (R338 to R344, R428). -/
structure Management where
  event : Instr
  code : Nat
  legal : Bool
  minimal : Bool := false
  causes : List (Nat × Bool) := []
  after : State

/-- The management commands, on the request being performed. -/
def State.management (s : State) : List Management :=
  let id := s.reqNat 4 2
  let on := s.reqNat 6 2
  let die := s.reqNat 5 1
  let unregistered := [(3, !(s.cx on).reg)]
  let dies := maskDies (s.reqNat 6 1)
  let masked := s.reqPlain 7 && id != 0 && s.reqNat 6 1 != 0 && decide (s.reqNat 6 1 < 16)
  let page := fun (i unit : Nat) => s.payNat (8 * i) 8 % unit == 0
  let w := fun (i : Nat) => BitVec.ofNat 64 (s.payNat (8 * i) 8)
  let report := s.reportBody (s.payBytes 32)
  let hashed := fun y : BitVec 256 => sha3Nat (leBytes 32 y.toNat ++ leBytes 32 (BitVec.ofNat 256 (leNat (s.payBytes 32))).toNat)
  [{ event := .ident, code := 1, legal := s.reqPlain 4, minimal := true, after := s.respond 0 s.identity [] },
   { event := .resync, code := 2, legal := s.reqPlain 4, minimal := true, after := s.respond 0 s.cameo [] },
   { event := .ctxnew, code := 3
     legal := s.reqPlain 6 && id != 0 && page 0 4096 && page 1 4096 && page 2 4096 && page 3 4096 && page 4 16384 && page 5 16
     causes := [(3, (s.cx id).reg), (4, decide (256 ≤ (s.ctxs.filter fun e => e.2.reg).length))]
     after := (s.setCx id { reg := true, slot := s.freeSlot, root := w 0, privB := w 1, privS := w 2, saveB := w 3, saveS := w 4, accb := w 5 }).respond 0 [] [] },
   { event := .ctxdel, code := 4, legal := s.reqPlain 6 && id != 0, causes := [(3, !(s.cx id).reg || s.ctxBusy id)], after := (s.dropCtx id).respond 0 [] [] },
   { event := .resume, code := 5, legal := masked, causes := [(3, !(s.cx id).reg || dies.all fun d => s.dieState id d == .running)], after := s.doResume id (s.reqDies.filter fun d => s.dieState id d != .running) },
   { event := .ctxmapDieShared, code := 6, legal := s.reqPlain 9 && on != 0 && decide (die < 4) && decide (s.reqNat 8 1 < 5)
     causes := [(3, !(s.cx on).reg || s.sharedHeld die)]
     after := ((s.updDie die fun x => { x with gshared := s.reqNat 8 1 }).trimShared die).respond 0 [] [] },
   { event := .ctxmapQueueBind, code := 6
     legal := s.reqPlain 28 && on != 0 && s.reqZero 9 7 && decide (die < 4) && decide (s.reqNat 8 1 < 64) && s.reqNat 24 4 % 32 == 0
     causes := unregistered
     after := (s.updDie die fun x => { x with queues := x.queues.upd {} (s.reqNat 8 1) fun y =>
       { y with ctx := on, spillB := BitVec.ofNat 64 (s.reqNat 16 8), spillS := s.reqNat 24 4 } }).respond 0 [] [] },
   { event := .ctxmapCounters, code := 6, legal := s.reqPlain 12 && on != 0 && decide (die < 4) && decide (s.reqNat 8 2 < 4096) && decide (s.reqNat 8 2 + s.reqNat 10 2 ≤ 4096)
     causes := unregistered
     after := (s.updDie die fun x => { x with ctrCtx := (upto (s.reqNat 8 2) (s.reqNat 10 2)).foldl (fun t i => t.put 0 i on) x.ctrCtx }).respond 0 [] [] },
   { event := .ctxmapSemGrant, code := 6, legal := s.reqPlain 12 && on != 0 && decide (s.reqNat 8 2 < 64) && decide (s.reqNat 8 2 + s.reqNat 10 2 ≤ 64), causes := unregistered
     after := State.respond { s with semOwner := (upto (s.reqNat 8 2) (s.reqNat 10 2)).foldl (fun t i => t.put 0 i (on + 1)) s.semOwner } 0 [] [] },
   { event := .ctxmapInvalidate, code := 6, legal := s.reqPlain 24 && on != 0, causes := unregistered
     after := ((s.settleCtx on).invalidate on (s.reqNat 8 8) (s.reqNat 16 8)).respond 0 [] [] },
   { event := .cmdstart, code := 7
     legal := s.reqPlain 20 && s.reqZero 5 1 && decide (s.reqNat 4 1 < 64) && on != 0 && decide (s.reqNat 16 2 < 64) && decide (s.reqNat 16 2 + s.reqNat 18 2 ≤ 64)
     causes := [(3, !(s.cx on).reg || (s.cmd (s.reqNat 4 1)).st == .ready || (s.cmd (s.reqNat 4 1)).st == .semWait || (s.cmd (s.reqNat 4 1)).out != 0)]
     after := (s.startCommand (s.reqNat 4 1) on (BitVec.ofNat 64 (s.reqNat 8 8)) (s.reqNat 16 2) (s.reqNat 18 2)).respond 0 [] [] },
   { event := .cmdstop, code := 8, legal := s.reqPlain 5 && decide (s.reqNat 4 1 < 64), after := s.stopCommand (s.reqNat 4 1) },
   { event := .preempt, code := 9, legal := masked
     causes := [(3, !(s.cx id).reg), (4, dies.any fun d => s.dieState id d != .saved && !s.saveFits id d)]
     after := (s.startPreempt id).awaitPreempt id },
   { event := .poolcfg, code := 10
     legal := s.reqPlain 16 && s.reqZero 5 3 && decide (s.reqNat 4 1 < 2) && s.reqNat 8 8 % 2 ^ 30 == 0 && decide (s.reqNat 8 8 ≤ 2 ^ 50)
     causes := [(3, (upto 0 4).any fun d => (s.enabledBlocks d).any fun o => s.torcNat d o 0x30 4 != 0)]
     after := State.respond { s with host := { s.host with poolOn := s.reqNat 4 1 == 1, poolSize := BitVec.ofNat 64 (s.reqNat 8 8) } } 0 [] [] },
   { event := .attest, code := 11, legal := s.reqPlain 4, causes := [(5, s.boot.causes.contains 9)]
     after := State.respond { s with free := s.free + 1 } 0 (report ++ (upto 0 2420).map fun i => Config.signature s.part.idSeed s.free report i) [] },
   { event := .measureRead, code := 12, legal := s.reqPlain 5 && s.reqNat 4 1 == 0, minimal := true
     after := s.respond 0 ((upto 0 8).flatMap fun i => leBytes 32 (s.boot.m.get 0 i).toNat) [] },
   { event := .measureExtend, code := 12, legal := s.reqPlain 6 && s.reqNat 4 1 == 1 && decide (4 ≤ die) && decide (die < 8)
     after := State.respond { s with boot := { s.boot with m := s.boot.m.upd 0 die hashed } } 0 [] [] },
   { event := .fwlog, code := 13, legal := s.reqPlain 8, minimal := true
     after := s.respond 0 (((((s.logRecords.drop (s.reqNat 4 4 / 64)).take 61).flatMap Record.bytes).drop (s.reqNat 4 4 % 64)).take 3840)
       (leBytes 4 (64 * s.logRecords.length)) },
   { event := .degrade, code := 14, legal := s.reqPlain 4, after := s.respond 0 s.part.degradeMap [] },
   { event := .reset, code := 15, legal := s.reqPlain 4, minimal := true, after := (s.respond 0 [] []).resetPackage s.boot.minimal }]

end Sys2Proof.Machine

/-- R337 to R344, R427, R428: a request being performed is refused with BADARG for its fields, with STATE in minimal
mode where minimal mode does not allow it, then with its own first cause; else it has its effect. A refused request
changes nothing but its response. RESUME, PREEMPT and CMDSTOP that wait go on from where they wait. Which fields are
illegal where R338 names no result, and which cause comes first, is the model's choice (log entry 88), as are the
empty payload of FWLOG beyond the end (93), what the watchdog undoes (95), that RESUME waits for a die being saved
(96), and what a translation invalidation performs first (97). R335 to R337, R294, R424, R428: a response clears BUSY
and sets DONESEQ; SUBMIT of the request's SEQ accepts it, sets OVERRUN while BUSY and is discarded before READY; a
write of 4 or 8 bytes keeps the request, response and payload bytes and no others, clears OVERRUN with a 1 at bit 29
of STATUS, and submits where it covers SUBMIT whole; a read returns those bytes, and STATUS at 0x040; the watchdog
answers RESOURCE after 2^26 ticks; an unmasked pending vector is sent. That OVERRUN is cleared before one write
submits is the model's choice (log entry 94). -/
def Obligations.ManagementInterfaceCompletes : Prop :=
  (∀ s : State, (∀ r ∈ s.management, s.host.busy = true → s.host.waiting = none → s.reqNat 0 1 = r.code →
      (r.legal = false → exec r.event s = .next (s.respond 2 [] []))
      ∧ (r.legal = true → s.boot.minimal = true → r.minimal = false → exec r.event s = .next (s.respond 3 [] []))
      ∧ (r.legal = true → (s.boot.minimal = true → r.minimal = true) →
        (∀ c, r.causes.find? (fun e => e.2) = some c → exec r.event s = .next (s.respond c.1 [] []))
        ∧ ((∀ e ∈ r.causes, e.2 = false) → exec r.event s = .next r.after)))
      ∧ (∀ r ∈ s.management, s.host.busy = false → exec r.event s = .next s)
      ∧ (∀ m, s.host.busy = true → s.host.waiting = some m →
        (s.reqNat 0 1 = 5 → exec .resume s = .next (s.doResume (s.reqNat 4 2) (maskDies m)))
        ∧ (s.reqNat 0 1 = 9 → exec .preempt s = .next (s.awaitPreempt (s.reqNat 4 2)))
        ∧ (s.reqNat 0 1 = 8 → (s.cmd (s.reqNat 4 1)).st ≠ .ready → exec .cmdstop s = .next (s.respond 0 [] []))
        ∧ (s.reqNat 0 1 = 8 → (s.cmd (s.reqNat 4 1)).st = .ready → exec .cmdstop s = .next s)))
  ∧ (∀ (s : State) (val : BitVec 32) (off vec result : Nat) (data : List (BitVec 8)) (pay extra : List Byte),
      (let t := s.respond result pay extra;
        t.host.busy = false ∧ t.host.waiting = none ∧ t.host.doneSeq = BitVec.ofNat 16 (s.reqNat 2 2) ∧ t.mem = s.mem ∧ t.threads = s.threads)
      ∧ (s.host.ready = false → exec (.submit val) s = .next s)
      ∧ (s.host.ready = true → s.host.busy = true → exec (.submit val) s = .next { s with host := { s.host with overrun := true } })
      ∧ (s.host.ready = true → s.host.busy = false → val.toNat ≠ tabNat s.host.mbox 2 2 → exec (.submit val) s = .next s)
      ∧ (s.host.ready = true → s.host.busy = false → val.toNat = tabNat s.host.mbox 2 2 → exec (.submit val) s = .next s.accept)
      ∧ ((data.length = 4 ∨ data.length = 8) → off + data.length ≤ 4096 → Tab.risingFrom 0 s.host.mbox = true →
        let new := fun o : Nat => off ≤ o ∧ o < off + data.length
        ∃ mbox, (∀ o, Tab.get 0 mbox o = if new o ∧ (o < 0x40 ∨ 0x100 ≤ o) then data.getD (o - off) 0 else s.host.mbox.get 0 o)
          ∧ (let u : State := { s with host := { s.host with
              mbox := mbox, overrun := if new 0x43 ∧ (data.getD (0x43 - off) 0).getLsbD 5 = true then false else s.host.overrun } }
            exec (.mailboxWrite off data) s = if off ≤ 0x44 ∧ 0x48 ≤ off + data.length
              then exec (.submit (BitVec.ofNat 32 (leNat ((data.drop (0x44 - off)).take 4)))) u else .next u))
      ∧ (((data.length ≠ 4 ∧ data.length ≠ 8) ∨ 4096 < off + data.length) → exec (.mailboxWrite off data) s = .next s)
      ∧ (∀ (at_ n : Nat), (s.mailboxRead at_ n).length = n ∧ ∀ j < n, let o := at_ + j
        ((o < 0x40 ∨ 0x100 ≤ o ∧ o < 0x1000) → (s.mailboxRead at_ n)[j]? = some (s.host.mbox.get 0 o))
        ∧ (0x40 ≤ o → o < 0x44 → (s.mailboxRead at_ n)[j]? = some (BitVec.ofNat 8 ((s.host.doneSeq.toNat + (if s.host.overrun then 2 ^ 29 else 0)
          + (if s.host.busy then 2 ^ 30 else 0) + (if s.host.ready then 2 ^ 31 else 0)) / 2 ^ (8 * (o - 0x40))))))
      ∧ exec .overrunClear s = .next { s with host := { s.host with overrun := false } }
      ∧ (s.host.busy = true → 64 * (s.host.busySince + 2 ^ 26) ≤ s.clk →
        exec .mailboxWatchdog s = .next ((s.undoWait.logEvent 0x1E 2 0 0x1000 8 0 0).respond 4 [] []))
      ∧ ((s.host.busy = false ∨ s.clk < 64 * (s.host.busySince + 2 ^ 26)) → exec .mailboxWatchdog s = .next s)
      ∧ (vec < 2048 → let h := s.host
        (h.msixPend.get false vec = true → h.port = .up → exec (.msixVectorUnmask vec) s = .next { s with host := { h with
          msixMask := h.msixMask.put false vec false, msixPend := h.msixPend.put false vec false, sent := h.sent ++ [vec] } })
        ∧ ((h.msixPend.get false vec = false ∨ h.port ≠ .up) →
          exec (.msixVectorUnmask vec) s = .next { s with host := { h with msixMask := h.msixMask.put false vec false } }))
      ∧ (2048 ≤ vec → exec (.msixVectorUnmask vec) s = .next s))

-- Reset, and what every step keeps.

/-- What reset leaves: clk and heartbeat 0 (R18), no thread, team or grid, memory with nothing listed, no context
registered, no semaphore granted, the mailbox neither READY nor BUSY and DONESEQ 0 (R336), no failed start and the
measurement registers zero (R343); only the start is due. Where the rules give no value for reset the model's is zero
(assumption log, reset values), so the clauses that the rules do not state are the model's choice. -/
def Obligations.ResetLeavesTheStart : Prop :=
  let s := State.reset
  s.clk = 0 ∧ s.ticks = 0 ∧ s.mem = [] ∧ s.threads = [] ∧ s.groups = [] ∧ s.teams = [] ∧ s.grids = [] ∧ s.cores = [] ∧ s.ctxs = []
    ∧ s.semOwner = [] ∧ s.pend = [] ∧ s.log = [] ∧ s.host.ready = false ∧ s.host.busy = false ∧ s.host.overrun = false ∧ s.host.doneSeq = 0
    ∧ s.boot.up = false ∧ s.boot.m = [] ∧ s.boot.count = 0 ∧ s.agenda = [(0, .powerOn 0)]
    ∧ (∀ k n, s.v k n = 0 ∧ s.wOf k n = 0 ∧ s.ptrOf k n = 0 ∧ s.q k n = 0 ∧ (s.p k n = true ↔ n = 15)) ∧ (∀ h, s.readHome h = 0)
    ∧ (∀ n, n < 64 → (s.cmd n).st = .halted) ∧ (∀ c t, ((s.core c).tables.get {} t).version = 0 ∧ ((s.core c).tables.get {} t).active = false)

/-- The state after reset is well formed and tidy. -/
def Obligations.ResetIsWellFormed : Prop :=
  State.reset.wf = true ∧ State.reset.tidy = true

/-- Every step that answers a next state keeps memory, the bytes that engine commands own with their poison marks, the
lines that collective steps own and the poisoned granules in their canonical forms: rising home addresses, and no cell
that an unlisted address would read as. An invariant of the model's data, of no rule of the spec. -/
def Obligations.StepKeepsMemoryCanonical : Prop :=
  ∀ s t : State, s.wf = true → step s = .next t → t.wf = true

/-- Every step that answers a next state keeps the tables that the statements read tidy, with rising keys. An
invariant of the model's data, of no rule of the spec. -/
def Obligations.StepKeepsTablesTidy : Prop :=
  ∀ s t : State, s.tidy = true → step s = .next t → t.tidy = true
end

