-- ==== Sys2Proof/Laws/Dispatch.lean ====
section
/-! SUPPORT. exec of each constructor is its meaning: what the proofs rewrite with. -/

namespace Sys2Proof.Machine

variable (s : State)

@[simp] theorem exec_powerOn x0 : exec (.powerOn x0) s = execPowerOn x0 s := rfl
@[simp] theorem exec_bootStepWatchdog : exec (.bootStepWatchdog) s = execBootStepWatchdog s := rfl
@[simp] theorem exec_heartbeatTick : exec (.heartbeatTick) s = execHeartbeatTick s := rfl
@[simp] theorem exec_sleepWake x0 : exec (.sleepWake x0) s = execSleepWake x0 s := rfl
@[simp] theorem exec_balancerInterval x0 : exec (.balancerInterval x0) s = execBalancerInterval x0 s := rfl
@[simp] theorem exec_i3cRefresh x0 x1 x2 x3 x4 x5 : exec (.i3cRefresh x0 x1 x2 x3 x4 x5) s = execI3cRefresh x0 x1 x2 x3 x4 x5 s := rfl
@[simp] theorem exec_pickerDecision x0 : exec (.pickerDecision x0) s = execPickerDecision x0 s := rfl
@[simp] theorem exec_runIssue x0 : exec (.runIssue x0) s = execRunIssue x0 s := rfl
@[simp] theorem exec_resultLands x0 : exec (.resultLands x0) s = execResultLands x0 s := rfl
@[simp] theorem exec_teamPlace x0 : exec (.teamPlace x0) s = execTeamPlace x0 s := rfl
@[simp] theorem exec_handoverComplete x0 x1 : exec (.handoverComplete x0 x1) s = execHandoverComplete x0 x1 s := rfl
@[simp] theorem exec_teamFinishComplete x0 : exec (.teamFinishComplete x0) s = execTeamFinishComplete x0 s := rfl
@[simp] theorem exec_barrierRelease x0 x1 x2 : exec (.barrierRelease x0 x1 x2) s = execBarrierRelease x0 x1 x2 s := rfl
@[simp] theorem exec_publicationComplete x0 : exec (.publicationComplete x0) s = execPublicationComplete x0 s := rfl
@[simp] theorem exec_fencescComplete x0 : exec (.fencescComplete x0) s = execFencescComplete x0 s := rfl
@[simp] theorem exec_bankAluBinUpdate x0 : exec (.bankAluBinUpdate x0) s = execBankAluBinUpdate x0 s := rfl
@[simp] theorem exec_lutldLoadBegin x0 x1 : exec (.lutldLoadBegin x0 x1) s = execLutldLoadBegin x0 x1 s := rfl
@[simp] theorem exec_lutldLoadComplete x0 x1 : exec (.lutldLoadComplete x0 x1) s = execLutldLoadComplete x0 x1 s := rfl
@[simp] theorem exec_copyCmdIssue x0 x1 : exec (.copyCmdIssue x0 x1) s = execCopyCmdIssue x0 x1 s := rfl
@[simp] theorem exec_copyCmdComplete x0 x1 : exec (.copyCmdComplete x0 x1) s = execCopyCmdComplete x0 x1 s := rfl
@[simp] theorem exec_ccopyComplete x0 : exec (.ccopyComplete x0) s = execCcopyComplete x0 s := rfl
@[simp] theorem exec_tapeSyncComplete x0 : exec (.tapeSyncComplete x0) s = execTapeSyncComplete x0 s := rfl
@[simp] theorem exec_pipelineResident x0 x1 : exec (.pipelineResident x0 x1) s = execPipelineResident x0 x1 s := rfl
@[simp] theorem exec_coreSave x0 : exec (.coreSave x0) s = execCoreSave x0 s := rfl
@[simp] theorem exec_coreRestore x0 : exec (.coreRestore x0) s = execCoreRestore x0 s := rfl
@[simp] theorem exec_torcStep x0 x1 : exec (.torcStep x0 x1) s = execTorcStep x0 x1 s := rfl
@[simp] theorem exec_torcChunkArrival x0 x1 x2 x3 x4 x5 : exec (.torcChunkArrival x0 x1 x2 x3 x4 x5) s = execTorcChunkArrival x0 x1 x2 x3 x4 x5 s := rfl
@[simp] theorem exec_torcAbortReceive x0 x1 x2 x3 : exec (.torcAbortReceive x0 x1 x2 x3) s = execTorcAbortReceive x0 x1 x2 x3 s := rfl
@[simp] theorem exec_collTimeout x0 x1 : exec (.collTimeout x0 x1) s = execCollTimeout x0 x1 s := rfl
@[simp] theorem exec_poolTimeout x0 x1 : exec (.poolTimeout x0 x1) s = execPoolTimeout x0 x1 s := rfl
@[simp] theorem exec_detCommit x0 : exec (.detCommit x0) s = execDetCommit x0 s := rfl
@[simp] theorem exec_hostCxlMemAccess x0 x1 x2 : exec (.hostCxlMemAccess x0 x1 x2) s = execHostCxlMemAccess x0 x1 x2 s := rfl
@[simp] theorem exec_hostSnoop x0 : exec (.hostSnoop x0) s = execHostSnoop x0 s := rfl
@[simp] theorem exec_eccUncorrectable x0 x1 x2 : exec (.eccUncorrectable x0 x1 x2) s = execEccUncorrectable x0 x1 x2 s := rfl
@[simp] theorem exec_meshLinkError x0 x1 : exec (.meshLinkError x0 x1) s = execMeshLinkError x0 x1 s := rfl
@[simp] theorem exec_hostPortDown : exec (.hostPortDown) s = execHostPortDown s := rfl
@[simp] theorem exec_hostPortRetrained : exec (.hostPortRetrained) s = execHostPortRetrained s := rfl
@[simp] theorem exec_hostRetrainTimeout : exec (.hostRetrainTimeout) s = execHostRetrainTimeout s := rfl
@[simp] theorem exec_ualinkPortDown x0 x1 : exec (.ualinkPortDown x0 x1) s = execUalinkPortDown x0 x1 s := rfl
@[simp] theorem exec_poolPortDown : exec (.poolPortDown) s = execPoolPortDown s := rfl
@[simp] theorem exec_mailboxWatchdog : exec (.mailboxWatchdog) s = execMailboxWatchdog s := rfl
@[simp] theorem exec_overrunClear : exec (.overrunClear) s = execOverrunClear s := rfl
@[simp] theorem exec_mailboxWrite x0 x1 : exec (.mailboxWrite x0 x1) s = execMailboxWrite x0 x1 s := rfl
@[simp] theorem exec_ident : exec (.ident) s = execIdent s := rfl
@[simp] theorem exec_resync : exec (.resync) s = execResync s := rfl
@[simp] theorem exec_ctxnew : exec (.ctxnew) s = execCtxnew s := rfl
@[simp] theorem exec_ctxdel : exec (.ctxdel) s = execCtxdel s := rfl
@[simp] theorem exec_resume : exec (.resume) s = execResume s := rfl
@[simp] theorem exec_ctxmapDieShared : exec (.ctxmapDieShared) s = execCtxmapDieShared s := rfl
@[simp] theorem exec_ctxmapQueueBind : exec (.ctxmapQueueBind) s = execCtxmapQueueBind s := rfl
@[simp] theorem exec_ctxmapCounters : exec (.ctxmapCounters) s = execCtxmapCounters s := rfl
@[simp] theorem exec_ctxmapSemGrant : exec (.ctxmapSemGrant) s = execCtxmapSemGrant s := rfl
@[simp] theorem exec_ctxmapInvalidate : exec (.ctxmapInvalidate) s = execCtxmapInvalidate s := rfl
@[simp] theorem exec_cmdstart : exec (.cmdstart) s = execCmdstart s := rfl
@[simp] theorem exec_cmdstop : exec (.cmdstop) s = execCmdstop s := rfl
@[simp] theorem exec_preempt : exec (.preempt) s = execPreempt s := rfl
@[simp] theorem exec_poolcfg : exec (.poolcfg) s = execPoolcfg s := rfl
@[simp] theorem exec_attest : exec (.attest) s = execAttest s := rfl
@[simp] theorem exec_measureRead : exec (.measureRead) s = execMeasureRead s := rfl
@[simp] theorem exec_measureExtend : exec (.measureExtend) s = execMeasureExtend s := rfl
@[simp] theorem exec_fwlog : exec (.fwlog) s = execFwlog s := rfl
@[simp] theorem exec_degrade : exec (.degrade) s = execDegrade s := rfl
@[simp] theorem exec_reset : exec (.reset) s = execReset s := rfl
@[simp] theorem exec_nop : exec (.nop) s = execNop s := rfl
@[simp] theorem exec_add x0 x1 x2 x3 : exec (.add x0 x1 x2 x3) s = execAdd x0 x1 x2 x3 s := rfl
@[simp] theorem exec_sub x0 x1 x2 x3 : exec (.sub x0 x1 x2 x3) s = execSub x0 x1 x2 x3 s := rfl
@[simp] theorem exec_addi x0 x1 x2 x3 : exec (.addi x0 x1 x2 x3) s = execAddi x0 x1 x2 x3 s := rfl
@[simp] theorem exec_mul x0 x1 x2 x3 : exec (.mul x0 x1 x2 x3) s = execMul x0 x1 x2 x3 s := rfl
@[simp] theorem exec_mulh x0 x1 x2 x3 : exec (.mulh x0 x1 x2 x3) s = execMulh x0 x1 x2 x3 s := rfl
@[simp] theorem exec_mad x0 x1 x2 x3 : exec (.mad x0 x1 x2 x3) s = execMad x0 x1 x2 x3 s := rfl
@[simp] theorem exec_and x0 x1 x2 x3 : exec (.and x0 x1 x2 x3) s = execAnd x0 x1 x2 x3 s := rfl
@[simp] theorem exec_or x0 x1 x2 x3 : exec (.or x0 x1 x2 x3) s = execOr x0 x1 x2 x3 s := rfl
@[simp] theorem exec_xor x0 x1 x2 x3 : exec (.xor x0 x1 x2 x3) s = execXor x0 x1 x2 x3 s := rfl
@[simp] theorem exec_andi x0 x1 x2 x3 : exec (.andi x0 x1 x2 x3) s = execAndi x0 x1 x2 x3 s := rfl
@[simp] theorem exec_ori x0 x1 x2 x3 : exec (.ori x0 x1 x2 x3) s = execOri x0 x1 x2 x3 s := rfl
@[simp] theorem exec_xori x0 x1 x2 x3 : exec (.xori x0 x1 x2 x3) s = execXori x0 x1 x2 x3 s := rfl
@[simp] theorem exec_shl x0 x1 x2 x3 : exec (.shl x0 x1 x2 x3) s = execShl x0 x1 x2 x3 s := rfl
@[simp] theorem exec_shr x0 x1 x2 x3 : exec (.shr x0 x1 x2 x3) s = execShr x0 x1 x2 x3 s := rfl
@[simp] theorem exec_sar x0 x1 x2 x3 : exec (.sar x0 x1 x2 x3) s = execSar x0 x1 x2 x3 s := rfl
@[simp] theorem exec_rot x0 x1 x2 x3 : exec (.rot x0 x1 x2 x3) s = execRot x0 x1 x2 x3 s := rfl
@[simp] theorem exec_bfx x0 x1 x2 x3 : exec (.bfx x0 x1 x2 x3) s = execBfx x0 x1 x2 x3 s := rfl
@[simp] theorem exec_bfi x0 x1 x2 x3 : exec (.bfi x0 x1 x2 x3) s = execBfi x0 x1 x2 x3 s := rfl
@[simp] theorem exec_bitc x0 x1 x2 x3 : exec (.bitc x0 x1 x2 x3) s = execBitc x0 x1 x2 x3 s := rfl
@[simp] theorem exec_min x0 x1 x2 x3 x4 x5 : exec (.min x0 x1 x2 x3 x4 x5) s = execMin x0 x1 x2 x3 x4 x5 s := rfl
@[simp] theorem exec_max x0 x1 x2 x3 x4 x5 : exec (.max x0 x1 x2 x3 x4 x5) s = execMax x0 x1 x2 x3 x4 x5 s := rfl
@[simp] theorem exec_cmp x0 x1 x2 x3 x4 x5 : exec (.cmp x0 x1 x2 x3 x4 x5) s = execCmp x0 x1 x2 x3 x4 x5 s := rfl
@[simp] theorem exec_cmpi x0 x1 x2 x3 x4 : exec (.cmpi x0 x1 x2 x3 x4) s = execCmpi x0 x1 x2 x3 x4 s := rfl
@[simp] theorem exec_sel x0 x1 x2 x3 : exec (.sel x0 x1 x2 x3) s = execSel x0 x1 x2 x3 s := rfl
@[simp] theorem exec_mov x0 x1 x2 : exec (.mov x0 x1 x2) s = execMov x0 x1 x2 s := rfl
@[simp] theorem exec_movi x0 x1 x2 x3 x4 : exec (.movi x0 x1 x2 x3 x4) s = execMovi x0 x1 x2 x3 x4 s := rfl
@[simp] theorem exec_div x0 x1 x2 x3 : exec (.div x0 x1 x2 x3) s = execDiv x0 x1 x2 x3 s := rfl
@[simp] theorem exec_rem x0 x1 x2 x3 : exec (.rem x0 x1 x2 x3) s = execRem x0 x1 x2 x3 s := rfl
@[simp] theorem exec_lea x0 x1 x2 x3 x4 : exec (.lea x0 x1 x2 x3 x4) s = execLea x0 x1 x2 x3 x4 s := rfl
@[simp] theorem exec_leaLs x0 x1 x2 : exec (.leaLs x0 x1 x2) s = execLeaLs x0 x1 x2 s := rfl
@[simp] theorem exec_plog x0 x1 x2 x3 : exec (.plog x0 x1 x2 x3) s = execPlog x0 x1 x2 x3 s := rfl
@[simp] theorem exec_br x0 x1 x2 : exec (.br x0 x1 x2) s = execBr x0 x1 x2 s := rfl
@[simp] theorem exec_bri x0 x1 x2 : exec (.bri x0 x1 x2) s = execBri x0 x1 x2 s := rfl
@[simp] theorem exec_call x0 x1 x2 : exec (.call x0 x1 x2) s = execCall x0 x1 x2 s := rfl
@[simp] theorem exec_calli x0 x1 x2 : exec (.calli x0 x1 x2) s = execCalli x0 x1 x2 s := rfl
@[simp] theorem exec_ret x0 x1 : exec (.ret x0 x1) s = execRet x0 x1 s := rfl
@[simp] theorem exec_exit x0 x1 : exec (.exit x0 x1) s = execExit x0 x1 s := rfl
@[simp] theorem exec_yield x0 x1 : exec (.yield x0 x1) s = execYield x0 x1 s := rfl
@[simp] theorem exec_winb x0 x1 : exec (.winb x0 x1) s = execWinb x0 x1 s := rfl
@[simp] theorem exec_lshuf x0 x1 x2 x3 x4 x5 : exec (.lshuf x0 x1 x2 x3 x4 x5) s = execLshuf x0 x1 x2 x3 x4 x5 s := rfl
@[simp] theorem exec_lpush x0 x1 x2 x3 : exec (.lpush x0 x1 x2 x3) s = execLpush x0 x1 x2 x3 s := rfl
@[simp] theorem exec_lrot x0 x1 x2 x3 x4 : exec (.lrot x0 x1 x2 x3 x4) s = execLrot x0 x1 x2 x3 x4 s := rfl
@[simp] theorem exec_lred x0 x1 x2 : exec (.lred x0 x1 x2) s = execLred x0 x1 x2 s := rfl
@[simp] theorem exec_lscan x0 x1 x2 x3 : exec (.lscan x0 x1 x2 x3) s = execLscan x0 x1 x2 x3 s := rfl
@[simp] theorem exec_vote x0 x1 x2 x3 : exec (.vote x0 x1 x2 x3) s = execVote x0 x1 x2 x3 s := rfl
@[simp] theorem exec_lmatch x0 x1 x2 : exec (.lmatch x0 x1 x2) s = execLmatch x0 x1 x2 s := rfl
@[simp] theorem exec_fadd x0 x1 x2 x3 x4 : exec (.fadd x0 x1 x2 x3 x4) s = execFadd x0 x1 x2 x3 x4 s := rfl
@[simp] theorem exec_fsub x0 x1 x2 x3 x4 : exec (.fsub x0 x1 x2 x3 x4) s = execFsub x0 x1 x2 x3 x4 s := rfl
@[simp] theorem exec_fmul x0 x1 x2 x3 x4 : exec (.fmul x0 x1 x2 x3 x4) s = execFmul x0 x1 x2 x3 x4 s := rfl
@[simp] theorem exec_ffma x0 x1 x2 x3 x4 : exec (.ffma x0 x1 x2 x3 x4) s = execFfma x0 x1 x2 x3 x4 s := rfl
@[simp] theorem exec_ffmat x0 x1 x2 x3 x4 : exec (.ffmat x0 x1 x2 x3 x4) s = execFfmat x0 x1 x2 x3 x4 s := rfl
@[simp] theorem exec_fmin x0 x1 x2 x3 : exec (.fmin x0 x1 x2 x3) s = execFmin x0 x1 x2 x3 s := rfl
@[simp] theorem exec_fmax x0 x1 x2 x3 : exec (.fmax x0 x1 x2 x3) s = execFmax x0 x1 x2 x3 s := rfl
@[simp] theorem exec_fcmp x0 x1 x2 x3 x4 : exec (.fcmp x0 x1 x2 x3 x4) s = execFcmp x0 x1 x2 x3 x4 s := rfl
@[simp] theorem exec_fcvt x0 x1 x2 x3 x4 x5 x6 : exec (.fcvt x0 x1 x2 x3 x4 x5 x6) s = execFcvt x0 x1 x2 x3 x4 x5 x6 s := rfl
@[simp] theorem exec_frnd x0 x1 x2 x3 : exec (.frnd x0 x1 x2 x3) s = execFrnd x0 x1 x2 x3 s := rfl
@[simp] theorem exec_fdiv x0 x1 x2 x3 x4 : exec (.fdiv x0 x1 x2 x3 x4) s = execFdiv x0 x1 x2 x3 x4 s := rfl
@[simp] theorem exec_fsqrt x0 x1 x2 x3 : exec (.fsqrt x0 x1 x2 x3) s = execFsqrt x0 x1 x2 x3 s := rfl
@[simp] theorem exec_fsfu x0 x1 x2 : exec (.fsfu x0 x1 x2) s = execFsfu x0 x1 x2 s := rfl
@[simp] theorem exec_fsgn x0 x1 x2 x3 x4 : exec (.fsgn x0 x1 x2 x3 x4) s = execFsgn x0 x1 x2 x3 x4 s := rfl
@[simp] theorem exec_fclass x0 x1 x2 : exec (.fclass x0 x1 x2) s = execFclass x0 x1 x2 s := rfl
@[simp] theorem exec_lut x0 x1 x2 : exec (.lut x0 x1 x2) s = execLut x0 x1 x2 s := rfl
@[simp] theorem exec_lutld x0 x1 x2 : exec (.lutld x0 x1 x2) s = execLutld x0 x1 x2 s := rfl
@[simp] theorem exec_ld x0 x1 x2 x3 : exec (.ld x0 x1 x2 x3) s = execLd x0 x1 x2 x3 s := rfl
@[simp] theorem exec_st x0 x1 x2 x3 : exec (.st x0 x1 x2 x3) s = execSt x0 x1 x2 x3 s := rfl
@[simp] theorem exec_lds x0 x1 x2 x3 x4 : exec (.lds x0 x1 x2 x3 x4) s = execLds x0 x1 x2 x3 x4 s := rfl
@[simp] theorem exec_sts x0 x1 x2 x3 x4 : exec (.sts x0 x1 x2 x3 x4) s = execSts x0 x1 x2 x3 x4 s := rfl
@[simp] theorem exec_ldx x0 x1 x2 x3 x4 : exec (.ldx x0 x1 x2 x3 x4) s = execLdx x0 x1 x2 x3 x4 s := rfl
@[simp] theorem exec_stx x0 x1 x2 x3 x4 : exec (.stx x0 x1 x2 x3 x4) s = execStx x0 x1 x2 x3 x4 s := rfl
@[simp] theorem exec_atom x0 x1 x2 x3 x4 x5 x6 : exec (.atom x0 x1 x2 x3 x4 x5 x6) s = execAtom x0 x1 x2 x3 x4 x5 x6 s := rfl
@[simp] theorem exec_acas x0 x1 x2 x3 x4 x5 x6 x7 : exec (.acas x0 x1 x2 x3 x4 x5 x6 x7) s = execAcas x0 x1 x2 x3 x4 x5 x6 x7 s := rfl
@[simp] theorem exec_fatom x0 x1 x2 x3 x4 x5 x6 : exec (.fatom x0 x1 x2 x3 x4 x5 x6) s = execFatom x0 x1 x2 x3 x4 x5 x6 s := rfl
@[simp] theorem exec_gadd x0 x1 x2 x3 x4 : exec (.gadd x0 x1 x2 x3 x4) s = execGadd x0 x1 x2 x3 x4 s := rfl
@[simp] theorem exec_phase x0 : exec (.phase x0) s = execPhase x0 s := rfl
@[simp] theorem exec_phasePub x0 : exec (.phasePub x0) s = execPhasePub x0 s := rfl
@[simp] theorem exec_phaseAcq x0 : exec (.phaseAcq x0) s = execPhaseAcq x0 s := rfl
@[simp] theorem exec_fencesc : exec (.fencesc) s = execFencesc s := rfl
@[simp] theorem exec_gset x0 x1 x2 x3 x4 x5 : exec (.gset x0 x1 x2 x3 x4 x5) s = execGset x0 x1 x2 x3 x4 x5 s := rfl
@[simp] theorem exec_gadv x0 x1 x2 x3 : exec (.gadv x0 x1 x2 x3) s = execGadv x0 x1 x2 x3 s := rfl
@[simp] theorem exec_gget x0 x1 x2 : exec (.gget x0 x1 x2) s = execGget x0 x1 x2 s := rfl
@[simp] theorem exec_gptr x0 x1 : exec (.gptr x0 x1) s = execGptr x0 x1 s := rfl
@[simp] theorem exec_barSync x0 x1 : exec (.barSync x0 x1) s = execBarSync x0 x1 s := rfl
@[simp] theorem exec_barArrive x0 x1 : exec (.barArrive x0 x1) s = execBarArrive x0 x1 s := rfl
@[simp] theorem exec_barWait x0 x1 : exec (.barWait x0 x1) s = execBarWait x0 x1 s := rfl
@[simp] theorem exec_slwait x0 x1 : exec (.slwait x0 x1) s = execSlwait x0 x1 s := rfl
@[simp] theorem exec_slrel x0 x1 : exec (.slrel x0 x1) s = execSlrel x0 x1 s := rfl
@[simp] theorem exec_slfree x0 x1 : exec (.slfree x0 x1) s = execSlfree x0 x1 s := rfl
@[simp] theorem exec_slcommit x0 x1 : exec (.slcommit x0 x1) s = execSlcommit x0 x1 s := rfl
@[simp] theorem exec_mmq x0 x1 x2 x3 x4 x5 x6 : exec (.mmq x0 x1 x2 x3 x4 x5 x6) s = execMmq x0 x1 x2 x3 x4 x5 x6 s := rfl
@[simp] theorem exec_accz x0 x1 x2 : exec (.accz x0 x1 x2) s = execAccz x0 x1 x2 s := rfl
@[simp] theorem exec_accdr x0 x1 x2 x3 x4 x5 x6 x7 x8 x9 : exec (.accdr x0 x1 x2 x3 x4 x5 x6 x7 x8 x9) s = execAccdr x0 x1 x2 x3 x4 x5 x6 x7 x8 x9 s := rfl
@[simp] theorem exec_accsvSave x0 x1 : exec (.accsvSave x0 x1) s = execAccsvSave x0 x1 s := rfl
@[simp] theorem exec_accsvLoad x0 x1 : exec (.accsvLoad x0 x1) s = execAccsvLoad x0 x1 s := rfl
@[simp] theorem exec_tld x0 x1 x2 : exec (.tld x0 x1 x2) s = execTld x0 x1 x2 s := rfl
@[simp] theorem exec_tst x0 x1 x2 : exec (.tst x0 x1 x2) s = execTst x0 x1 x2 s := rfl
@[simp] theorem exec_accrd x0 x1 x2 x3 : exec (.accrd x0 x1 x2 x3) s = execAccrd x0 x1 x2 x3 s := rfl
@[simp] theorem exec_binctlDecl x0 x1 : exec (.binctlDecl x0 x1) s = execBinctlDecl x0 x1 s := rfl
@[simp] theorem exec_binctlFin x0 x1 x2 : exec (.binctlFin x0 x1 x2) s = execBinctlFin x0 x1 x2 s := rfl
@[simp] theorem exec_binctlFinclr x0 x1 x2 : exec (.binctlFinclr x0 x1 x2) s = execBinctlFinclr x0 x1 x2 s := rfl
@[simp] theorem exec_binctlFree x0 : exec (.binctlFree x0) s = execBinctlFree x0 s := rfl
@[simp] theorem exec_rast x0 x1 x2 x3 x4 x5 : exec (.rast x0 x1 x2 x3 x4 x5) s = execRast x0 x1 x2 x3 x4 x5 s := rfl
@[simp] theorem exec_rastg x0 x1 x2 x3 x4 x5 x6 : exec (.rastg x0 x1 x2 x3 x4 x5 x6) s = execRastg x0 x1 x2 x3 x4 x5 x6 s := rfl
@[simp] theorem exec_edgs x0 x1 x2 x3 x4 : exec (.edgs x0 x1 x2 x3 x4) s = execEdgs x0 x1 x2 x3 x4 s := rfl
@[simp] theorem exec_tex x0 x1 x2 x3 : exec (.tex x0 x1 x2 x3) s = execTex x0 x1 x2 x3 s := rfl
@[simp] theorem exec_texg x0 x1 x2 x3 x4 : exec (.texg x0 x1 x2 x3 x4) s = execTexg x0 x1 x2 x3 x4 s := rfl
@[simp] theorem exec_texl x0 x1 x2 : exec (.texl x0 x1 x2) s = execTexl x0 x1 x2 s := rfl
@[simp] theorem exec_texb x0 x1 x2 x3 x4 : exec (.texb x0 x1 x2 x3 x4) s = execTexb x0 x1 x2 x3 x4 s := rfl
@[simp] theorem exec_rrecDim x0 x1 x2 : exec (.rrecDim x0 x1 x2) s = execRrecDim x0 x1 x2 s := rfl
@[simp] theorem exec_rrecFmt x0 x1 : exec (.rrecFmt x0 x1) s = execRrecFmt x0 x1 s := rfl
@[simp] theorem exec_rrecInv : exec (.rrecInv) s = execRrecInv s := rfl
@[simp] theorem exec_rqinit x0 x1 x2 x3 x4 x5 x6 : exec (.rqinit x0 x1 x2 x3 x4 x5 x6) s = execRqinit x0 x1 x2 x3 x4 x5 x6 s := rfl
@[simp] theorem exec_rqproc x0 x1 x2 : exec (.rqproc x0 x1 x2) s = execRqproc x0 x1 x2 s := rfl
@[simp] theorem exec_rqcand x0 x1 x2 x3 : exec (.rqcand x0 x1 x2 x3) s = execRqcand x0 x1 x2 x3 s := rfl
@[simp] theorem exec_rqcommit x0 x1 x2 : exec (.rqcommit x0 x1 x2) s = execRqcommit x0 x1 x2 s := rfl
@[simp] theorem exec_rqabort x0 : exec (.rqabort x0) s = execRqabort x0 s := rfl
@[simp] theorem exec_rqres x0 x1 x2 x3 : exec (.rqres x0 x1 x2 x3) s = execRqres x0 x1 x2 x3 s := rfl
@[simp] theorem exec_rqgrad x0 x1 x2 x3 x4 x5 x6 : exec (.rqgrad x0 x1 x2 x3 x4 x5 x6) s = execRqgrad x0 x1 x2 x3 x4 x5 x6 s := rfl
@[simp] theorem exec_rqtri x0 x1 x2 x3 x4 x5 : exec (.rqtri x0 x1 x2 x3 x4 x5) s = execRqtri x0 x1 x2 x3 x4 x5 s := rfl
@[simp] theorem exec_trec x0 x1 x2 : exec (.trec x0 x1 x2) s = execTrec x0 x1 x2 s := rfl
@[simp] theorem exec_tpop x0 x1 : exec (.tpop x0 x1) s = execTpop x0 x1 s := rfl
@[simp] theorem exec_tmarkOpen x0 x1 : exec (.tmarkOpen x0 x1) s = execTmarkOpen x0 x1 s := rfl
@[simp] theorem exec_tmarkClose : exec (.tmarkClose) s = execTmarkClose s := rfl
@[simp] theorem exec_tctlBind x0 : exec (.tctlBind x0) s = execTctlBind x0 s := rfl
@[simp] theorem exec_tctlStat x0 : exec (.tctlStat x0) s = execTctlStat x0 s := rfl
@[simp] theorem exec_tctlSeek x0 : exec (.tctlSeek x0) s = execTctlSeek x0 s := rfl
@[simp] theorem exec_tctlSync : exec (.tctlSync) s = execTctlSync s := rfl
@[simp] theorem exec_rsvupd x0 x1 x2 : exec (.rsvupd x0 x1 x2) s = execRsvupd x0 x1 x2 s := rfl
@[simp] theorem exec_rsvmrg x0 x1 x2 x3 : exec (.rsvmrg x0 x1 x2 x3) s = execRsvmrg x0 x1 x2 x3 s := rfl
@[simp] theorem exec_rsvinit x0 : exec (.rsvinit x0) s = execRsvinit x0 s := rfl
@[simp] theorem exec_rsvfin x0 x1 : exec (.rsvfin x0 x1) s = execRsvfin x0 x1 s := rfl
@[simp] theorem exec_rsvget x0 x1 x2 : exec (.rsvget x0 x1 x2) s = execRsvget x0 x1 x2 s := rfl
@[simp] theorem exec_rsvset x0 x1 x2 : exec (.rsvset x0 x1 x2) s = execRsvset x0 x1 x2 s := rfl
@[simp] theorem exec_clove x0 x1 x2 x3 x4 : exec (.clove x0 x1 x2 x3 x4) s = execClove x0 x1 x2 x3 x4 s := rfl
@[simp] theorem exec_spawn x0 x1 x2 x3 : exec (.spawn x0 x1 x2 x3) s = execSpawn x0 x1 x2 x3 s := rfl
@[simp] theorem exec_tqadd x0 x1 x2 x3 : exec (.tqadd x0 x1 x2 x3) s = execTqadd x0 x1 x2 x3 s := rfl
@[simp] theorem exec_tqget x0 x1 : exec (.tqget x0 x1) s = execTqget x0 x1 s := rfl
@[simp] theorem exec_depopSet x0 x1 x2 : exec (.depopSet x0 x1 x2) s = execDepopSet x0 x1 x2 s := rfl
@[simp] theorem exec_depopAdd x0 x1 x2 : exec (.depopAdd x0 x1 x2) s = execDepopAdd x0 x1 x2 s := rfl
@[simp] theorem exec_depopGet x0 x1 : exec (.depopGet x0 x1) s = execDepopGet x0 x1 s := rfl
@[simp] theorem exec_spush x0 x1 x2 : exec (.spush x0 x1 x2) s = execSpush x0 x1 x2 s := rfl
@[simp] theorem exec_spop x0 x1 : exec (.spop x0 x1) s = execSpop x0 x1 s := rfl
@[simp] theorem exec_sctlClose x0 : exec (.sctlClose x0) s = execSctlClose x0 s := rfl
@[simp] theorem exec_sctlStat x0 x1 : exec (.sctlStat x0 x1) s = execSctlStat x0 x1 s := rfl
@[simp] theorem exec_sysr x0 x1 x2 x3 : exec (.sysr x0 x1 x2 x3) s = execSysr x0 x1 x2 x3 s := rfl
@[simp] theorem exec_sysw x0 x1 x2 x3 : exec (.sysw x0 x1 x2 x3) s = execSysw x0 x1 x2 x3 s := rfl
@[simp] theorem exec_trap x0 : exec (.trap x0) s = execTrap x0 s := rfl
@[simp] theorem exec_icinv : exec (.icinv) s = execIcinv s := rfl
@[simp] theorem exec_sleep x0 x1 x2 : exec (.sleep x0 x1 x2) s = execSleep x0 x1 x2 s := rfl
@[simp] theorem exec_fwret : exec (.fwret) s = execFwret s := rfl
@[simp] theorem exec_cpxLaunch x0 x1 x2 x3 x4 x5 : exec (.cpxLaunch x0 x1 x2 x3 x4 x5) s = execCpxLaunch x0 x1 x2 x3 x4 x5 s := rfl
@[simp] theorem exec_cpxSemwait x0 x1 x2 x3 : exec (.cpxSemwait x0 x1 x2 x3) s = execCpxSemwait x0 x1 x2 x3 s := rfl
@[simp] theorem exec_cpxSemsig x0 x1 : exec (.cpxSemsig x0 x1) s = execCpxSemsig x0 x1 s := rfl
@[simp] theorem exec_cpxSemadd x0 x1 x2 : exec (.cpxSemadd x0 x1 x2) s = execCpxSemadd x0 x1 x2 s := rfl
@[simp] theorem exec_cpxCcopy x0 x1 x2 x3 x4 x5 x6 : exec (.cpxCcopy x0 x1 x2 x3 x4 x5 x6) s = execCpxCcopy x0 x1 x2 x3 x4 x5 x6 s := rfl
@[simp] theorem exec_cpxIrq x0 : exec (.cpxIrq x0) s = execCpxIrq x0 s := rfl
@[simp] theorem exec_cpxChalt : exec (.cpxChalt) s = execCpxChalt s := rfl
@[simp] theorem exec_submit x0 : exec (.submit x0) s = execSubmit x0 s := rfl
@[simp] theorem exec_msixVectorUnmask x0 : exec (.msixVectorUnmask x0) s = execMsixVectorUnmask x0 s := rfl

end Sys2Proof.Machine
end

