-- ==== Sys2Proof/Laws/Issue.lean ====
section
/-! SUPPORT. What the issue checks answer, once: a word meets no fault exactly when it passes (R371), and what the four
ways of performing a word answer then. -/

namespace Sys2Proof.Machine

theorem firstThat_none {α : Type} {p : α → Bool} : ∀ {l : List α}, firstThat p l = none ↔ ∀ x ∈ l, p x = false
  | [] => by simp [firstThat]
  | a :: r => by
    rw [firstThat]
    cases h : p a
    · simp [h, firstThat_none (l := r)]
    · simp [h]

theorem classFault_none {s : State} {w : Where} : s.classFault w = none ↔ s.InPlace w := by
  cases w <;> cases h : s.onCommand <;> simp [State.classFault, State.InPlace, h]

theorem firstBad_none {s : State} {bad : Nat → Opd → Bool} {ops : List Opd} :
    s.firstBad bad ops = none ↔ ∀ o ∈ ops, ∀ k ∈ s.issue, o.countsFor k = true → bad k o = false := by
  rw [State.firstBad, firstThat_none]
  refine forall₂_congr fun o _ => ?_
  rw [List.any_eq_false]
  refine forall₂_congr fun k _ => ?_
  show (¬ (o.countsFor k && bad k o) = true) ↔ _
  cases o.countsFor k <;> cases bad k o <;> simp

theorem hazardFault_none {s : State} {ops : List Opd} :
    s.hazardFault ops = none ↔ s.firstBad s.tempUndef ops = none ∧ s.firstBad s.breaksStall ops = none
      ∧ s.firstBad s.breaksAwait ops = none ∧ s.firstBad s.poisoned ops = none := by
  rw [State.hazardFault]
  cases s.firstBad s.tempUndef ops <;> cases s.firstBad s.breaksStall ops <;> cases s.firstBad s.breaksAwait ops
    <;> cases s.firstBad s.poisoned ops <;> simp

theorem issueFault_none {s : State} {r : Req} : s.issueFault r = none ↔ s.Passes r := by
  rw [State.issueFault, State.Passes, ← classFault_none]
  cases hc : s.classFault r.place with
  | some f => simp
  | none =>
  cases hw : r.instr.wf with
  | false => simp
  | true =>
  simp only [Bool.not_true, Bool.false_eq_true, if_false, true_and]
  cases hl : firstThat (fun (n : BitVec 7) => decide (122 ≤ n.toNat)) r.instr.lateDst with
  | some d =>
    simp only
    constructor
    · intro h; cases h
    · rintro ⟨h, -⟩
      have := (firstThat_none (l := r.instr.lateDst) (p := fun (n : BitVec 7) => decide (122 ≤ n.toNat))).2
        (by intro x hx; have := h x hx; simpa using this)
      rw [this] at hl; cases hl
  | none =>
  have hl' := firstThat_none.1 hl
  have hl'' : ∀ n ∈ r.instr.lateDst, n.toNat < 122 := by
    intro n hn; simpa using hl' n hn
  simp only
  have key : (∀ o ∈ r.ops, ∀ k ∈ s.issue, o.countsFor k = true → s.Usable k o) ↔
      s.firstBad s.outOfRange r.ops = none ∧ s.hazardFault r.ops = none := by
    rw [hazardFault_none, firstBad_none, firstBad_none, firstBad_none, firstBad_none, firstBad_none]
    constructor
    · intro h
      exact ⟨fun o ho k hk hc => (h o ho k hk hc).1, fun o ho k hk hc => (h o ho k hk hc).2.1, fun o ho k hk hc => (h o ho k hk hc).2.2.1,
        fun o ho k hk hc => (h o ho k hk hc).2.2.2.1, fun o ho k hk hc => (h o ho k hk hc).2.2.2.2⟩
    · rintro ⟨a, b, c, d, e⟩ o ho k hk hc
      exact ⟨a o ho k hk hc, b o ho k hk hc, c o ho k hk hc, d o ho k hk hc, e o ho k hk hc⟩
  rw [key, State.rangeFault]
  cases s.firstBad s.outOfRange r.ops with
  | some o => simp
  | none =>
    cases hd : r.det with
    | none => simp; intro _; exact hl''
    | some o =>
      cases hi : s.issue.any s.isDet
      · have := List.any_eq_false.1 hi
        simp
        constructor
        · intro h; exact ⟨hl'', h, fun k hk => by simpa using this k hk⟩
        · rintro ⟨_, h, _⟩; exact h
      · obtain ⟨k, hk, hk'⟩ := List.any_eq_true.1 hi
        simp
        intro _ _
        exact ⟨k, hk, hk'⟩

theorem issuePlain_of {s : State} {r : Req} {body : State → State} (h : s.Passes r) : s.issuePlain r body = .next (body s) := by
  rw [State.issuePlain, issueFault_none.2 h]

theorem issueWord_of {s : State} {r : Req} {body : State → Except Flt State} {t : State} (h : s.Passes r) (hb : body s = .ok t) :
    s.issueWord r body = .next t := by
  rw [State.issueWord, issueFault_none.2 h]; simp only [hb]

theorem issueMany_of {s : State} {r : Req} {body : State → Except Flt (State × List Flt)} {t : State} {fs : List Flt} (h : s.Passes r)
    (hb : body s = .ok (t, fs)) : s.issueMany r body = .next (fs.foldl State.takeFault t) := by
  rw [State.issueMany, issueFault_none.2 h]; simp only [hb]

/-- A word that meets a fault at issue takes it, and does nothing else. -/
theorem issuePlain_fault {s : State} {r : Req} {body : State → State} {f : Flt} (h : s.issueFault r = some f) :
    s.issuePlain r body = .next (s.takeFault f) := by
  rw [State.issuePlain, h]

theorem issueWord_fault {s : State} {r : Req} {body : State → Except Flt State} {f : Flt} (h : s.issueFault r = some f) :
    s.issueWord r body = .next (s.takeFault f) := by
  rw [State.issueWord, h]

theorem issueMany_fault {s : State} {r : Req} {body : State → Except Flt (State × List Flt)} {f : Flt} (h : s.issueFault r = some f) :
    s.issueMany r body = .next (s.takeFault f) := by
  rw [State.issueMany, h]

/-- A word answers a next state whatever its checks and its body find. -/
theorem issuePlain_next (s : State) (r : Req) (body : State → State) : ∃ t, s.issuePlain r body = .next t := by
  rw [State.issuePlain]; split <;> exact ⟨_, rfl⟩

theorem issueMany_next (s : State) (r : Req) (body : State → Except Flt (State × List Flt)) : ∃ t, s.issueMany r body = .next t := by
  rw [State.issueMany]; split
  · exact ⟨_, rfl⟩
  · split <;> exact ⟨_, rfl⟩

theorem got_of {ε α : Type} {x : Except ε α} (h : Fine x) (d : α) : x = .ok (got x d) := by
  obtain ⟨a, rfl⟩ := h; rfl

/-- Where no lane fails, the lanes' results stand in their order. -/
theorem lanesOf_of {α κ : Type} {l : List κ} {f : κ → Except Flt α} {g : κ → α} (h : ∀ k ∈ l, f k = .ok (g k)) :
    lanesOf (l.map f) = .ok (l.map g) := by
  have : ∀ l : List κ, (∀ k ∈ l, f k = .ok (g k)) →
      (l.map f).filterMap (fun e => match e with | .error x => some x | .ok _ => none) = []
      ∧ (l.map f).filterMap (fun e => match e with | .ok x => some x | .error _ => none) = l.map g := by
    intro l
    induction l with
    | nil => intro _; exact ⟨rfl, rfl⟩
    | cons k l ih =>
      intro h
      have hk := h k (by simp)
      obtain ⟨a, b⟩ := ih fun k hk => h k (by simp [hk])
      exact ⟨by simp [hk] at a ⊢; simpa using a, by simp [hk] at b ⊢; simpa using b⟩
  obtain ⟨a, b⟩ := this l h
  unfold lanesOf; erw [a]; simp only [mergeLanes, List.filter_nil, List.head?_nil]; erw [b]

theorem perGroup_of {f : State → Nat → Nat → Except Flt State} {ok : State → Nat × Nat → Prop} {eff : State → Nat × Nat → State}
    {s : State} (hf : ∀ t e, ok t e → f t e.1 e.2 = .ok (eff t e)) (h : InTurn ok eff s s.issueGroups) :
    s.perGroup f = .ok (s.issueGroups.foldl eff s, []) := by
  have : ∀ (l : List (Nat × Nat)) (t : State), InTurn ok eff t l →
    l.foldl (fun (a : State × List (Nat × Flt)) e => match f a.1 e.1 e.2 with
      | .ok t => (t, a.2)
      | .error x => (a.1, a.2 ++ [(e.1, x)])) (t, []) = (l.foldl eff t, []) := by
    intro l
    induction l with
    | nil => intro t _; rfl
    | cons e l ih => intro t ⟨h1, h2⟩; simp only [List.foldl_cons, hf t e h1]; exact ih _ h2
  unfold State.perGroup; erw [this _ _ h]; rfl

end Sys2Proof.Machine
end

