-- ==== Sys2Proof/Laws/Tab.lean ====
section
/-! SUPPORT. Tables: what is read after a write, and that every operation keeps rising keys and the canonical form. -/

namespace Sys2Proof.Machine

variable {α : Type}

theorem Tab.risingFrom_mono {lo hi : Nat} (h : lo ≤ hi) : ∀ {t : Tab α}, Tab.risingFrom hi t = true → Tab.risingFrom lo t = true
  | [], _ => rfl
  | (k, v) :: t, ht => by
    simp only [Tab.risingFrom, Bool.and_eq_true, decide_eq_true_eq] at ht ⊢
    exact ⟨h.trans ht.1, ht.2⟩

theorem Tab.get_below (d : α) {n : Nat} : ∀ {t : Tab α}, Tab.risingFrom (n + 1) t = true → Tab.get d t n = d
  | [], _ => rfl
  | (k, v) :: t, ht => by
    simp only [Tab.risingFrom, Bool.and_eq_true, decide_eq_true_eq] at ht
    rw [Tab.get, if_neg (by omega), if_pos (by omega)]

theorem Tab.get_ins_self (d v : α) (n : Nat) : ∀ t : Tab α, Tab.get d (Tab.ins t n v) n = v
  | [] => by simp [Tab.ins, Tab.get]
  | (k, w) :: t => by
    rw [Tab.ins]
    by_cases h : n = k
    · simp [h, Tab.get]
    · by_cases h' : n < k
      · simp [h, h', Tab.get]
      · simp only [h, h', if_false, Tab.get]; exact Tab.get_ins_self d v n t

theorem Tab.get_ins_ne (d v : α) {n m : Nat} (hm : m ≠ n) : ∀ {lo : Nat} {t : Tab α}, Tab.risingFrom lo t = true →
    Tab.get d (Tab.ins t n v) m = Tab.get d t m
  | _, [], _ => by
    show (if m = n then v else if m < n then d else d) = d
    rw [if_neg hm, ite_self]
  | _, (k, w) :: t, ht => by
    simp only [Tab.risingFrom, Bool.and_eq_true, decide_eq_true_eq] at ht
    rw [Tab.ins]
    split
    · subst_vars; simp [Tab.get, hm]
    · split
      · rename_i h1 h2
        simp only [Tab.get, if_neg hm]
        split
        · rw [if_neg (by omega), if_pos (by omega)]
        · rfl
      · simp only [Tab.get]; rw [Tab.get_ins_ne d v hm ht.2]

theorem Tab.get_del_self (d : α) {n : Nat} : ∀ {lo : Nat} {t : Tab α}, Tab.risingFrom lo t = true → Tab.get d (Tab.del t n) n = d
  | _, [], _ => rfl
  | _, (k, w) :: t, ht => by
    simp only [Tab.risingFrom, Bool.and_eq_true, decide_eq_true_eq] at ht
    rw [Tab.del]
    split
    · subst_vars; exact Tab.get_below d ht.2
    · split
      · rename_i h1 h2; rw [Tab.get, if_neg h1, if_pos h2]
      · rename_i h1 h2; rw [Tab.get, if_neg h1, if_neg h2]; exact Tab.get_del_self d ht.2

theorem Tab.get_del_ne (d : α) {n m : Nat} (hm : m ≠ n) : ∀ {lo : Nat} {t : Tab α}, Tab.risingFrom lo t = true →
    Tab.get d (Tab.del t n) m = Tab.get d t m
  | _, [], _ => rfl
  | _, (k, w) :: t, ht => by
    simp only [Tab.risingFrom, Bool.and_eq_true, decide_eq_true_eq] at ht
    rw [Tab.del]
    split
    · subst_vars
      rw [Tab.get, if_neg hm]
      split
      · exact Tab.get_below d (Tab.risingFrom_mono (by omega) ht.2)
      · rfl
    · split
      · rfl
      · simp only [Tab.get]; rw [Tab.get_del_ne d hm ht.2]

theorem Tab.rising_ins (v : α) {n : Nat} : ∀ {lo : Nat} {t : Tab α}, lo ≤ n → Tab.risingFrom lo t = true → Tab.risingFrom lo (Tab.ins t n v) = true
  | lo, [], h, _ => by simp [Tab.ins, Tab.risingFrom, h]
  | lo, (k, w) :: t, h, ht => by
    simp only [Tab.risingFrom, Bool.and_eq_true, decide_eq_true_eq] at ht
    rw [Tab.ins]
    split
    · simp [Tab.risingFrom, ht]
    · split
      · simp only [Tab.risingFrom, Bool.and_eq_true, decide_eq_true_eq]; exact ⟨h, by omega, ht.2⟩
      · simp only [Tab.risingFrom, Bool.and_eq_true, decide_eq_true_eq]; exact ⟨ht.1, Tab.rising_ins v (by omega) ht.2⟩

theorem Tab.rising_del {n : Nat} : ∀ {lo : Nat} {t : Tab α}, Tab.risingFrom lo t = true → Tab.risingFrom lo (Tab.del t n) = true
  | _, [], _ => rfl
  | lo, (k, w) :: t, ht => by
    have ht' := ht
    simp only [Tab.risingFrom, Bool.and_eq_true, decide_eq_true_eq] at ht
    rw [Tab.del]
    split
    · exact Tab.risingFrom_mono (by omega) ht.2
    · split
      · exact ht'
      · simp only [Tab.risingFrom, Bool.and_eq_true, decide_eq_true_eq]; exact ⟨ht.1, Tab.rising_del ht.2⟩

theorem Tab.rising_keep (p : Nat → Bool) : ∀ {lo : Nat} {t : Tab α}, Tab.risingFrom lo t = true → Tab.risingFrom lo (Tab.keep t p) = true
  | _, [], _ => rfl
  | lo, (k, w) :: t, ht => by
    simp only [Tab.risingFrom, Bool.and_eq_true, decide_eq_true_eq] at ht
    have ih := Tab.rising_keep p ht.2
    rw [Tab.keep] at ih ⊢
    rw [List.filter_cons]
    split
    · simp only [Tab.risingFrom, Bool.and_eq_true, decide_eq_true_eq]; exact ⟨ht.1, ih⟩
    · exact Tab.risingFrom_mono (by omega) ih

theorem Tab.mem_ins {v : α} {n : Nat} {e : Nat × α} : ∀ {t : Tab α}, e ∈ Tab.ins t n v → e = (n, v) ∨ e ∈ t
  | [], h => by simpa [Tab.ins] using h
  | (k, w) :: t, h => by
    rw [Tab.ins] at h
    split at h
    · subst_vars; rcases List.mem_cons.1 h with h | h
      · exact .inl h
      · exact .inr (List.mem_cons_of_mem _ h)
    · split at h
      · exact List.mem_cons.1 h
      · rcases List.mem_cons.1 h with h | h
        · exact .inr (h ▸ List.mem_cons_self)
        · exact (Tab.mem_ins h).imp_right (List.mem_cons_of_mem _)

theorem Tab.mem_del {n : Nat} {e : Nat × α} : ∀ {t : Tab α}, e ∈ Tab.del t n → e ∈ t
  | [], h => h
  | (k, w) :: t, h => by
    rw [Tab.del] at h
    split at h
    · exact List.mem_cons_of_mem _ h
    · split at h
      · exact h
      · rcases List.mem_cons.1 h with h | h
        · exact h ▸ List.mem_cons_self
        · exact List.mem_cons_of_mem _ (Tab.mem_del h)

theorem Tab.get_mem (d : α) {n : Nat} : ∀ {t : Tab α}, Tab.get d t n = d ∨ (n, Tab.get d t n) ∈ t
  | [] => .inl rfl
  | (k, v) :: t => by
    rw [Tab.get]
    split
    · subst_vars; exact .inr List.mem_cons_self
    · split
      · exact .inl rfl
      · exact (Tab.get_mem d (t := t)).imp_right (List.mem_cons_of_mem _)

/-- What holds of every entry and of the default holds of what is read. -/
theorem Tab.all_get {d : α} {t : Tab α} {p : α → Bool} (n : Nat) (hd : p d = true) (h : t.all (fun e => p e.2) = true) :
    p (Tab.get d t n) = true := by
  rcases Tab.get_mem d (t := t) (n := n) with e | e
  · rw [e, hd]
  · exact List.all_eq_true.1 h _ e

variable [DecidableEq α]

/-- What a table with rising keys reads after a write. -/
theorem Tab.get_put (d v : α) {t : Tab α} {n m lo : Nat} (ht : Tab.risingFrom lo t = true) :
    Tab.get d (Tab.put d t n v) m = if m = n then v else Tab.get d t m := by
  rw [Tab.put]
  by_cases h : m = n
  · subst h; split
    · rename_i h; rw [h]; simpa using Tab.get_del_self d ht
    · simpa using Tab.get_ins_self d v m t
  · rw [if_neg h]; split
    · exact Tab.get_del_ne d h ht
    · exact Tab.get_ins_ne d v h ht

theorem Tab.rising_put (d v : α) {t : Tab α} {n : Nat} (ht : Tab.risingFrom 0 t = true) : Tab.risingFrom 0 (Tab.put d t n v) = true := by
  rw [Tab.put]; split
  · exact Tab.rising_del ht
  · exact Tab.rising_ins v (Nat.zero_le _) ht

theorem Tab.mem_put {d v : α} {t : Tab α} {n : Nat} {e : Nat × α} (h : e ∈ Tab.put d t n v) : e = (n, v) ∨ e ∈ t := by
  rw [Tab.put] at h; split at h
  · exact .inr (Tab.mem_del h)
  · exact Tab.mem_ins h

theorem Tab.wf_put (d v : α) {t : Tab α} {n : Nat} (ht : Tab.wf d t = true) : Tab.wf d (Tab.put d t n v) = true := by
  simp only [Tab.wf, Bool.and_eq_true, List.all_eq_true, decide_eq_true_eq] at ht ⊢
  refine ⟨Tab.rising_put d v ht.1, fun e he => ?_⟩
  rw [Tab.put] at he
  split at he
  · exact ht.2 e (Tab.mem_del he)
  · rename_i h
    rcases Tab.mem_ins he with rfl | he
    · exact h
    · exact ht.2 e he

theorem Tab.wf_del (d : α) {t : Tab α} {n : Nat} (ht : Tab.wf d t = true) : Tab.wf d (Tab.del t n) = true := by
  simp only [Tab.wf, Bool.and_eq_true, List.all_eq_true, decide_eq_true_eq] at ht ⊢
  exact ⟨Tab.rising_del ht.1, fun e he => ht.2 e (Tab.mem_del he)⟩

theorem Tab.wf_keep (d : α) {t : Tab α} (p : Nat → Bool) (ht : Tab.wf d t = true) : Tab.wf d (Tab.keep t p) = true := by
  simp only [Tab.wf, Bool.and_eq_true, List.all_eq_true, decide_eq_true_eq] at ht ⊢
  exact ⟨Tab.rising_keep p ht.1, fun e he => ht.2 e (List.mem_filter.1 he).1⟩

theorem Tab.rising_of_wf {d : α} {t : Tab α} (ht : Tab.wf d t = true) : Tab.risingFrom 0 t = true := by
  simp only [Tab.wf, Bool.and_eq_true] at ht; exact ht.1

/-- A write of an entry that has a property keeps it true of every entry. -/
theorem Tab.all_put {d v : α} {t : Tab α} {p : α → Bool} {n : Nat} (hv : p v = true) (h : t.all (fun e => p e.2) = true) :
    (Tab.put d t n v).all (fun e => p e.2) = true := by
  rw [List.all_eq_true] at h ⊢
  intro e he
  rcases Tab.mem_put he with rfl | he
  · exact hv
  · exact h e he

-- Lists.

theorem upto_eq (lo n : Nat) : upto lo n = List.range' lo n := by
  induction n generalizing lo with
  | zero => rfl
  | succ n ih => rw [upto, ih, List.range'_succ]

theorem firstThat_eq {β : Type} {p : β → Bool} : ∀ l : List β, firstThat p l = l.find? p
  | [] => rfl
  | a :: r => by rw [firstThat, List.find?_cons, firstThat_eq r]; cases p a <;> rfl

end Sys2Proof.Machine
end

