-- ==== Sys2Proof/Laws/State.lean ====
section
/-! SUPPORT. State: one small lemma per field per update, so that no later proof unfolds a record update; what a unit
reads after it is set; and what tidy states say of their tables. -/

namespace Sys2Proof.Machine

variable (s : State) (k : Nat)

-- Thread.

@[simp] theorem updThr_eq (f : Thread → Thread) : s.updThr k f = s.setThr k (f (s.thr k)) := rfl
@[simp] theorem setThr_clk (x : Thread) : (s.setThr k x).clk = s.clk := rfl
@[simp] theorem setThr_ticks (x : Thread) : (s.setThr k x).ticks = s.ticks := rfl
@[simp] theorem setThr_agenda (x : Thread) : (s.setThr k x).agenda = s.agenda := rfl
@[simp] theorem setThr_cur (x : Thread) : (s.setThr k x).cur = s.cur := rfl
@[simp] theorem setThr_mem (x : Thread) : (s.setThr k x).mem = s.mem := rfl
@[simp] theorem setThr_owned (x : Thread) : (s.setThr k x).owned = s.owned := rfl
@[simp] theorem setThr_ownedBad (x : Thread) : (s.setThr k x).ownedBad = s.ownedBad := rfl
@[simp] theorem setThr_torcHeld (x : Thread) : (s.setThr k x).torcHeld = s.torcHeld := rfl
@[simp] theorem setThr_torcOver (x : Thread) : (s.setThr k x).torcOver = s.torcOver := rfl
@[simp] theorem setThr_poison (x : Thread) : (s.setThr k x).poison = s.poison := rfl
@[simp] theorem setThr_poisonReg (x : Thread) : (s.setThr k x).poisonReg = s.poisonReg := rfl
@[simp] theorem setThr_groups (x : Thread) : (s.setThr k x).groups = s.groups := rfl
@[simp] theorem setThr_teams (x : Thread) : (s.setThr k x).teams = s.teams := rfl
@[simp] theorem setThr_grids (x : Thread) : (s.setThr k x).grids = s.grids := rfl
@[simp] theorem setThr_cores (x : Thread) : (s.setThr k x).cores = s.cores := rfl
@[simp] theorem setThr_slots (x : Thread) : (s.setThr k x).slots = s.slots := rfl
@[simp] theorem setThr_dies (x : Thread) : (s.setThr k x).dies = s.dies := rfl
@[simp] theorem setThr_ctxs (x : Thread) : (s.setThr k x).ctxs = s.ctxs := rfl
@[simp] theorem setThr_cmds (x : Thread) : (s.setThr k x).cmds = s.cmds := rfl
@[simp] theorem setThr_launches (x : Thread) : (s.setThr k x).launches = s.launches := rfl
@[simp] theorem setThr_semOwner (x : Thread) : (s.setThr k x).semOwner = s.semOwner := rfl
@[simp] theorem setThr_pend (x : Thread) : (s.setThr k x).pend = s.pend := rfl
@[simp] theorem setThr_bins (x : Thread) : (s.setThr k x).bins = s.bins := rfl
@[simp] theorem setThr_serving (x : Thread) : (s.setThr k x).serving = s.serving := rfl
@[simp] theorem setThr_waiters (x : Thread) : (s.setThr k x).waiters = s.waiters := rfl
@[simp] theorem setThr_log (x : Thread) : (s.setThr k x).log = s.log := rfl
@[simp] theorem setThr_logSeq (x : Thread) : (s.setThr k x).logSeq = s.logSeq := rfl
@[simp] theorem setThr_faults (x : Thread) : (s.setThr k x).faults = s.faults := rfl
@[simp] theorem setThr_truncated (x : Thread) : (s.setThr k x).truncated = s.truncated := rfl
@[simp] theorem setThr_host (x : Thread) : (s.setThr k x).host = s.host := rfl
@[simp] theorem setThr_boot (x : Thread) : (s.setThr k x).boot = s.boot := rfl
@[simp] theorem setThr_part (x : Thread) : (s.setThr k x).part = s.part := rfl
@[simp] theorem setThr_free (x : Thread) : (s.setThr k x).free = s.free := rfl
@[simp] theorem setThr_nextId (x : Thread) : (s.setThr k x).nextId = s.nextId := rfl
@[simp] theorem setThr_grp (x : Thread) (j : Nat) : (s.setThr k x).grp j = s.grp j := rfl
@[simp] theorem setThr_team (x : Thread) (j : Nat) : (s.setThr k x).team j = s.team j := rfl
@[simp] theorem setThr_grid (x : Thread) (j : Nat) : (s.setThr k x).grid j = s.grid j := rfl
@[simp] theorem setThr_core (x : Thread) (j : Nat) : (s.setThr k x).core j = s.core j := rfl
@[simp] theorem setThr_slot (x : Thread) (j : Nat) : (s.setThr k x).slot j = s.slot j := rfl
@[simp] theorem setThr_die (x : Thread) (j : Nat) : (s.setThr k x).die j = s.die j := rfl
@[simp] theorem setThr_cx (x : Thread) (j : Nat) : (s.setThr k x).cx j = s.cx j := rfl
@[simp] theorem setThr_cmd (x : Thread) (j : Nat) : (s.setThr k x).cmd j = s.cmd j := rfl
theorem thr_setThr {s : State} (h : Tab.risingFrom 0 s.threads = true) (k j : Nat) (x : Thread) :
    (s.setThr k x).thr j = if j = k then x else s.thr j := Tab.get_put _ _ h
theorem setThr_rising {s : State} (h : Tab.risingFrom 0 s.threads = true) (k : Nat) (x : Thread) : Tab.risingFrom 0 (s.setThr k x).threads = true :=
  Tab.rising_put _ _ h

-- Group.

@[simp] theorem updGrp_eq (f : Group → Group) : s.updGrp k f = s.setGrp k (f (s.grp k)) := rfl
@[simp] theorem setGrp_clk (x : Group) : (s.setGrp k x).clk = s.clk := rfl
@[simp] theorem setGrp_ticks (x : Group) : (s.setGrp k x).ticks = s.ticks := rfl
@[simp] theorem setGrp_agenda (x : Group) : (s.setGrp k x).agenda = s.agenda := rfl
@[simp] theorem setGrp_cur (x : Group) : (s.setGrp k x).cur = s.cur := rfl
@[simp] theorem setGrp_mem (x : Group) : (s.setGrp k x).mem = s.mem := rfl
@[simp] theorem setGrp_owned (x : Group) : (s.setGrp k x).owned = s.owned := rfl
@[simp] theorem setGrp_ownedBad (x : Group) : (s.setGrp k x).ownedBad = s.ownedBad := rfl
@[simp] theorem setGrp_torcHeld (x : Group) : (s.setGrp k x).torcHeld = s.torcHeld := rfl
@[simp] theorem setGrp_torcOver (x : Group) : (s.setGrp k x).torcOver = s.torcOver := rfl
@[simp] theorem setGrp_poison (x : Group) : (s.setGrp k x).poison = s.poison := rfl
@[simp] theorem setGrp_poisonReg (x : Group) : (s.setGrp k x).poisonReg = s.poisonReg := rfl
@[simp] theorem setGrp_threads (x : Group) : (s.setGrp k x).threads = s.threads := rfl
@[simp] theorem setGrp_teams (x : Group) : (s.setGrp k x).teams = s.teams := rfl
@[simp] theorem setGrp_grids (x : Group) : (s.setGrp k x).grids = s.grids := rfl
@[simp] theorem setGrp_cores (x : Group) : (s.setGrp k x).cores = s.cores := rfl
@[simp] theorem setGrp_slots (x : Group) : (s.setGrp k x).slots = s.slots := rfl
@[simp] theorem setGrp_dies (x : Group) : (s.setGrp k x).dies = s.dies := rfl
@[simp] theorem setGrp_ctxs (x : Group) : (s.setGrp k x).ctxs = s.ctxs := rfl
@[simp] theorem setGrp_cmds (x : Group) : (s.setGrp k x).cmds = s.cmds := rfl
@[simp] theorem setGrp_launches (x : Group) : (s.setGrp k x).launches = s.launches := rfl
@[simp] theorem setGrp_semOwner (x : Group) : (s.setGrp k x).semOwner = s.semOwner := rfl
@[simp] theorem setGrp_pend (x : Group) : (s.setGrp k x).pend = s.pend := rfl
@[simp] theorem setGrp_bins (x : Group) : (s.setGrp k x).bins = s.bins := rfl
@[simp] theorem setGrp_serving (x : Group) : (s.setGrp k x).serving = s.serving := rfl
@[simp] theorem setGrp_waiters (x : Group) : (s.setGrp k x).waiters = s.waiters := rfl
@[simp] theorem setGrp_log (x : Group) : (s.setGrp k x).log = s.log := rfl
@[simp] theorem setGrp_logSeq (x : Group) : (s.setGrp k x).logSeq = s.logSeq := rfl
@[simp] theorem setGrp_faults (x : Group) : (s.setGrp k x).faults = s.faults := rfl
@[simp] theorem setGrp_truncated (x : Group) : (s.setGrp k x).truncated = s.truncated := rfl
@[simp] theorem setGrp_host (x : Group) : (s.setGrp k x).host = s.host := rfl
@[simp] theorem setGrp_boot (x : Group) : (s.setGrp k x).boot = s.boot := rfl
@[simp] theorem setGrp_part (x : Group) : (s.setGrp k x).part = s.part := rfl
@[simp] theorem setGrp_free (x : Group) : (s.setGrp k x).free = s.free := rfl
@[simp] theorem setGrp_nextId (x : Group) : (s.setGrp k x).nextId = s.nextId := rfl
@[simp] theorem setGrp_thr (x : Group) (j : Nat) : (s.setGrp k x).thr j = s.thr j := rfl
@[simp] theorem setGrp_team (x : Group) (j : Nat) : (s.setGrp k x).team j = s.team j := rfl
@[simp] theorem setGrp_grid (x : Group) (j : Nat) : (s.setGrp k x).grid j = s.grid j := rfl
@[simp] theorem setGrp_core (x : Group) (j : Nat) : (s.setGrp k x).core j = s.core j := rfl
@[simp] theorem setGrp_slot (x : Group) (j : Nat) : (s.setGrp k x).slot j = s.slot j := rfl
@[simp] theorem setGrp_die (x : Group) (j : Nat) : (s.setGrp k x).die j = s.die j := rfl
@[simp] theorem setGrp_cx (x : Group) (j : Nat) : (s.setGrp k x).cx j = s.cx j := rfl
@[simp] theorem setGrp_cmd (x : Group) (j : Nat) : (s.setGrp k x).cmd j = s.cmd j := rfl
theorem grp_setGrp {s : State} (h : Tab.risingFrom 0 s.groups = true) (k j : Nat) (x : Group) :
    (s.setGrp k x).grp j = if j = k then x else s.grp j := Tab.get_put _ _ h
theorem setGrp_rising {s : State} (h : Tab.risingFrom 0 s.groups = true) (k : Nat) (x : Group) : Tab.risingFrom 0 (s.setGrp k x).groups = true :=
  Tab.rising_put _ _ h

-- Team.

@[simp] theorem updTeam_eq (f : Team → Team) : s.updTeam k f = s.setTeam k (f (s.team k)) := rfl
@[simp] theorem setTeam_clk (x : Team) : (s.setTeam k x).clk = s.clk := rfl
@[simp] theorem setTeam_ticks (x : Team) : (s.setTeam k x).ticks = s.ticks := rfl
@[simp] theorem setTeam_agenda (x : Team) : (s.setTeam k x).agenda = s.agenda := rfl
@[simp] theorem setTeam_cur (x : Team) : (s.setTeam k x).cur = s.cur := rfl
@[simp] theorem setTeam_mem (x : Team) : (s.setTeam k x).mem = s.mem := rfl
@[simp] theorem setTeam_owned (x : Team) : (s.setTeam k x).owned = s.owned := rfl
@[simp] theorem setTeam_ownedBad (x : Team) : (s.setTeam k x).ownedBad = s.ownedBad := rfl
@[simp] theorem setTeam_torcHeld (x : Team) : (s.setTeam k x).torcHeld = s.torcHeld := rfl
@[simp] theorem setTeam_torcOver (x : Team) : (s.setTeam k x).torcOver = s.torcOver := rfl
@[simp] theorem setTeam_poison (x : Team) : (s.setTeam k x).poison = s.poison := rfl
@[simp] theorem setTeam_poisonReg (x : Team) : (s.setTeam k x).poisonReg = s.poisonReg := rfl
@[simp] theorem setTeam_threads (x : Team) : (s.setTeam k x).threads = s.threads := rfl
@[simp] theorem setTeam_groups (x : Team) : (s.setTeam k x).groups = s.groups := rfl
@[simp] theorem setTeam_grids (x : Team) : (s.setTeam k x).grids = s.grids := rfl
@[simp] theorem setTeam_cores (x : Team) : (s.setTeam k x).cores = s.cores := rfl
@[simp] theorem setTeam_slots (x : Team) : (s.setTeam k x).slots = s.slots := rfl
@[simp] theorem setTeam_dies (x : Team) : (s.setTeam k x).dies = s.dies := rfl
@[simp] theorem setTeam_ctxs (x : Team) : (s.setTeam k x).ctxs = s.ctxs := rfl
@[simp] theorem setTeam_cmds (x : Team) : (s.setTeam k x).cmds = s.cmds := rfl
@[simp] theorem setTeam_launches (x : Team) : (s.setTeam k x).launches = s.launches := rfl
@[simp] theorem setTeam_semOwner (x : Team) : (s.setTeam k x).semOwner = s.semOwner := rfl
@[simp] theorem setTeam_pend (x : Team) : (s.setTeam k x).pend = s.pend := rfl
@[simp] theorem setTeam_bins (x : Team) : (s.setTeam k x).bins = s.bins := rfl
@[simp] theorem setTeam_serving (x : Team) : (s.setTeam k x).serving = s.serving := rfl
@[simp] theorem setTeam_waiters (x : Team) : (s.setTeam k x).waiters = s.waiters := rfl
@[simp] theorem setTeam_log (x : Team) : (s.setTeam k x).log = s.log := rfl
@[simp] theorem setTeam_logSeq (x : Team) : (s.setTeam k x).logSeq = s.logSeq := rfl
@[simp] theorem setTeam_faults (x : Team) : (s.setTeam k x).faults = s.faults := rfl
@[simp] theorem setTeam_truncated (x : Team) : (s.setTeam k x).truncated = s.truncated := rfl
@[simp] theorem setTeam_host (x : Team) : (s.setTeam k x).host = s.host := rfl
@[simp] theorem setTeam_boot (x : Team) : (s.setTeam k x).boot = s.boot := rfl
@[simp] theorem setTeam_part (x : Team) : (s.setTeam k x).part = s.part := rfl
@[simp] theorem setTeam_free (x : Team) : (s.setTeam k x).free = s.free := rfl
@[simp] theorem setTeam_nextId (x : Team) : (s.setTeam k x).nextId = s.nextId := rfl
@[simp] theorem setTeam_thr (x : Team) (j : Nat) : (s.setTeam k x).thr j = s.thr j := rfl
@[simp] theorem setTeam_grp (x : Team) (j : Nat) : (s.setTeam k x).grp j = s.grp j := rfl
@[simp] theorem setTeam_grid (x : Team) (j : Nat) : (s.setTeam k x).grid j = s.grid j := rfl
@[simp] theorem setTeam_core (x : Team) (j : Nat) : (s.setTeam k x).core j = s.core j := rfl
@[simp] theorem setTeam_slot (x : Team) (j : Nat) : (s.setTeam k x).slot j = s.slot j := rfl
@[simp] theorem setTeam_die (x : Team) (j : Nat) : (s.setTeam k x).die j = s.die j := rfl
@[simp] theorem setTeam_cx (x : Team) (j : Nat) : (s.setTeam k x).cx j = s.cx j := rfl
@[simp] theorem setTeam_cmd (x : Team) (j : Nat) : (s.setTeam k x).cmd j = s.cmd j := rfl
theorem team_setTeam {s : State} (h : Tab.risingFrom 0 s.teams = true) (k j : Nat) (x : Team) :
    (s.setTeam k x).team j = if j = k then x else s.team j := Tab.get_put _ _ h
theorem setTeam_rising {s : State} (h : Tab.risingFrom 0 s.teams = true) (k : Nat) (x : Team) : Tab.risingFrom 0 (s.setTeam k x).teams = true :=
  Tab.rising_put _ _ h

-- Grid.

@[simp] theorem updGrid_eq (f : Grid → Grid) : s.updGrid k f = s.setGrid k (f (s.grid k)) := rfl
@[simp] theorem setGrid_clk (x : Grid) : (s.setGrid k x).clk = s.clk := rfl
@[simp] theorem setGrid_ticks (x : Grid) : (s.setGrid k x).ticks = s.ticks := rfl
@[simp] theorem setGrid_agenda (x : Grid) : (s.setGrid k x).agenda = s.agenda := rfl
@[simp] theorem setGrid_cur (x : Grid) : (s.setGrid k x).cur = s.cur := rfl
@[simp] theorem setGrid_mem (x : Grid) : (s.setGrid k x).mem = s.mem := rfl
@[simp] theorem setGrid_owned (x : Grid) : (s.setGrid k x).owned = s.owned := rfl
@[simp] theorem setGrid_ownedBad (x : Grid) : (s.setGrid k x).ownedBad = s.ownedBad := rfl
@[simp] theorem setGrid_torcHeld (x : Grid) : (s.setGrid k x).torcHeld = s.torcHeld := rfl
@[simp] theorem setGrid_torcOver (x : Grid) : (s.setGrid k x).torcOver = s.torcOver := rfl
@[simp] theorem setGrid_poison (x : Grid) : (s.setGrid k x).poison = s.poison := rfl
@[simp] theorem setGrid_poisonReg (x : Grid) : (s.setGrid k x).poisonReg = s.poisonReg := rfl
@[simp] theorem setGrid_threads (x : Grid) : (s.setGrid k x).threads = s.threads := rfl
@[simp] theorem setGrid_groups (x : Grid) : (s.setGrid k x).groups = s.groups := rfl
@[simp] theorem setGrid_teams (x : Grid) : (s.setGrid k x).teams = s.teams := rfl
@[simp] theorem setGrid_cores (x : Grid) : (s.setGrid k x).cores = s.cores := rfl
@[simp] theorem setGrid_slots (x : Grid) : (s.setGrid k x).slots = s.slots := rfl
@[simp] theorem setGrid_dies (x : Grid) : (s.setGrid k x).dies = s.dies := rfl
@[simp] theorem setGrid_ctxs (x : Grid) : (s.setGrid k x).ctxs = s.ctxs := rfl
@[simp] theorem setGrid_cmds (x : Grid) : (s.setGrid k x).cmds = s.cmds := rfl
@[simp] theorem setGrid_launches (x : Grid) : (s.setGrid k x).launches = s.launches := rfl
@[simp] theorem setGrid_semOwner (x : Grid) : (s.setGrid k x).semOwner = s.semOwner := rfl
@[simp] theorem setGrid_pend (x : Grid) : (s.setGrid k x).pend = s.pend := rfl
@[simp] theorem setGrid_bins (x : Grid) : (s.setGrid k x).bins = s.bins := rfl
@[simp] theorem setGrid_serving (x : Grid) : (s.setGrid k x).serving = s.serving := rfl
@[simp] theorem setGrid_waiters (x : Grid) : (s.setGrid k x).waiters = s.waiters := rfl
@[simp] theorem setGrid_log (x : Grid) : (s.setGrid k x).log = s.log := rfl
@[simp] theorem setGrid_logSeq (x : Grid) : (s.setGrid k x).logSeq = s.logSeq := rfl
@[simp] theorem setGrid_faults (x : Grid) : (s.setGrid k x).faults = s.faults := rfl
@[simp] theorem setGrid_truncated (x : Grid) : (s.setGrid k x).truncated = s.truncated := rfl
@[simp] theorem setGrid_host (x : Grid) : (s.setGrid k x).host = s.host := rfl
@[simp] theorem setGrid_boot (x : Grid) : (s.setGrid k x).boot = s.boot := rfl
@[simp] theorem setGrid_part (x : Grid) : (s.setGrid k x).part = s.part := rfl
@[simp] theorem setGrid_free (x : Grid) : (s.setGrid k x).free = s.free := rfl
@[simp] theorem setGrid_nextId (x : Grid) : (s.setGrid k x).nextId = s.nextId := rfl
@[simp] theorem setGrid_thr (x : Grid) (j : Nat) : (s.setGrid k x).thr j = s.thr j := rfl
@[simp] theorem setGrid_grp (x : Grid) (j : Nat) : (s.setGrid k x).grp j = s.grp j := rfl
@[simp] theorem setGrid_team (x : Grid) (j : Nat) : (s.setGrid k x).team j = s.team j := rfl
@[simp] theorem setGrid_core (x : Grid) (j : Nat) : (s.setGrid k x).core j = s.core j := rfl
@[simp] theorem setGrid_slot (x : Grid) (j : Nat) : (s.setGrid k x).slot j = s.slot j := rfl
@[simp] theorem setGrid_die (x : Grid) (j : Nat) : (s.setGrid k x).die j = s.die j := rfl
@[simp] theorem setGrid_cx (x : Grid) (j : Nat) : (s.setGrid k x).cx j = s.cx j := rfl
@[simp] theorem setGrid_cmd (x : Grid) (j : Nat) : (s.setGrid k x).cmd j = s.cmd j := rfl
theorem grid_setGrid {s : State} (h : Tab.risingFrom 0 s.grids = true) (k j : Nat) (x : Grid) :
    (s.setGrid k x).grid j = if j = k then x else s.grid j := Tab.get_put _ _ h
theorem setGrid_rising {s : State} (h : Tab.risingFrom 0 s.grids = true) (k : Nat) (x : Grid) : Tab.risingFrom 0 (s.setGrid k x).grids = true :=
  Tab.rising_put _ _ h

-- Core.

@[simp] theorem updCore_eq (f : Core → Core) : s.updCore k f = s.setCore k (f (s.core k)) := rfl
@[simp] theorem setCore_clk (x : Core) : (s.setCore k x).clk = s.clk := rfl
@[simp] theorem setCore_ticks (x : Core) : (s.setCore k x).ticks = s.ticks := rfl
@[simp] theorem setCore_agenda (x : Core) : (s.setCore k x).agenda = s.agenda := rfl
@[simp] theorem setCore_cur (x : Core) : (s.setCore k x).cur = s.cur := rfl
@[simp] theorem setCore_mem (x : Core) : (s.setCore k x).mem = s.mem := rfl
@[simp] theorem setCore_owned (x : Core) : (s.setCore k x).owned = s.owned := rfl
@[simp] theorem setCore_ownedBad (x : Core) : (s.setCore k x).ownedBad = s.ownedBad := rfl
@[simp] theorem setCore_torcHeld (x : Core) : (s.setCore k x).torcHeld = s.torcHeld := rfl
@[simp] theorem setCore_torcOver (x : Core) : (s.setCore k x).torcOver = s.torcOver := rfl
@[simp] theorem setCore_poison (x : Core) : (s.setCore k x).poison = s.poison := rfl
@[simp] theorem setCore_poisonReg (x : Core) : (s.setCore k x).poisonReg = s.poisonReg := rfl
@[simp] theorem setCore_threads (x : Core) : (s.setCore k x).threads = s.threads := rfl
@[simp] theorem setCore_groups (x : Core) : (s.setCore k x).groups = s.groups := rfl
@[simp] theorem setCore_teams (x : Core) : (s.setCore k x).teams = s.teams := rfl
@[simp] theorem setCore_grids (x : Core) : (s.setCore k x).grids = s.grids := rfl
@[simp] theorem setCore_slots (x : Core) : (s.setCore k x).slots = s.slots := rfl
@[simp] theorem setCore_dies (x : Core) : (s.setCore k x).dies = s.dies := rfl
@[simp] theorem setCore_ctxs (x : Core) : (s.setCore k x).ctxs = s.ctxs := rfl
@[simp] theorem setCore_cmds (x : Core) : (s.setCore k x).cmds = s.cmds := rfl
@[simp] theorem setCore_launches (x : Core) : (s.setCore k x).launches = s.launches := rfl
@[simp] theorem setCore_semOwner (x : Core) : (s.setCore k x).semOwner = s.semOwner := rfl
@[simp] theorem setCore_pend (x : Core) : (s.setCore k x).pend = s.pend := rfl
@[simp] theorem setCore_bins (x : Core) : (s.setCore k x).bins = s.bins := rfl
@[simp] theorem setCore_serving (x : Core) : (s.setCore k x).serving = s.serving := rfl
@[simp] theorem setCore_waiters (x : Core) : (s.setCore k x).waiters = s.waiters := rfl
@[simp] theorem setCore_log (x : Core) : (s.setCore k x).log = s.log := rfl
@[simp] theorem setCore_logSeq (x : Core) : (s.setCore k x).logSeq = s.logSeq := rfl
@[simp] theorem setCore_faults (x : Core) : (s.setCore k x).faults = s.faults := rfl
@[simp] theorem setCore_truncated (x : Core) : (s.setCore k x).truncated = s.truncated := rfl
@[simp] theorem setCore_host (x : Core) : (s.setCore k x).host = s.host := rfl
@[simp] theorem setCore_boot (x : Core) : (s.setCore k x).boot = s.boot := rfl
@[simp] theorem setCore_part (x : Core) : (s.setCore k x).part = s.part := rfl
@[simp] theorem setCore_free (x : Core) : (s.setCore k x).free = s.free := rfl
@[simp] theorem setCore_nextId (x : Core) : (s.setCore k x).nextId = s.nextId := rfl
@[simp] theorem setCore_thr (x : Core) (j : Nat) : (s.setCore k x).thr j = s.thr j := rfl
@[simp] theorem setCore_grp (x : Core) (j : Nat) : (s.setCore k x).grp j = s.grp j := rfl
@[simp] theorem setCore_team (x : Core) (j : Nat) : (s.setCore k x).team j = s.team j := rfl
@[simp] theorem setCore_grid (x : Core) (j : Nat) : (s.setCore k x).grid j = s.grid j := rfl
@[simp] theorem setCore_slot (x : Core) (j : Nat) : (s.setCore k x).slot j = s.slot j := rfl
@[simp] theorem setCore_die (x : Core) (j : Nat) : (s.setCore k x).die j = s.die j := rfl
@[simp] theorem setCore_cx (x : Core) (j : Nat) : (s.setCore k x).cx j = s.cx j := rfl
@[simp] theorem setCore_cmd (x : Core) (j : Nat) : (s.setCore k x).cmd j = s.cmd j := rfl
theorem core_setCore {s : State} (h : Tab.risingFrom 0 s.cores = true) (k j : Nat) (x : Core) :
    (s.setCore k x).core j = if j = k then x else s.core j := Tab.get_put _ _ h
theorem setCore_rising {s : State} (h : Tab.risingFrom 0 s.cores = true) (k : Nat) (x : Core) : Tab.risingFrom 0 (s.setCore k x).cores = true :=
  Tab.rising_put _ _ h

-- Slot.

@[simp] theorem updSlot_eq (f : Slot → Slot) : s.updSlot k f = s.setSlot k (f (s.slot k)) := rfl
@[simp] theorem setSlot_clk (x : Slot) : (s.setSlot k x).clk = s.clk := rfl
@[simp] theorem setSlot_ticks (x : Slot) : (s.setSlot k x).ticks = s.ticks := rfl
@[simp] theorem setSlot_agenda (x : Slot) : (s.setSlot k x).agenda = s.agenda := rfl
@[simp] theorem setSlot_cur (x : Slot) : (s.setSlot k x).cur = s.cur := rfl
@[simp] theorem setSlot_mem (x : Slot) : (s.setSlot k x).mem = s.mem := rfl
@[simp] theorem setSlot_owned (x : Slot) : (s.setSlot k x).owned = s.owned := rfl
@[simp] theorem setSlot_ownedBad (x : Slot) : (s.setSlot k x).ownedBad = s.ownedBad := rfl
@[simp] theorem setSlot_torcHeld (x : Slot) : (s.setSlot k x).torcHeld = s.torcHeld := rfl
@[simp] theorem setSlot_torcOver (x : Slot) : (s.setSlot k x).torcOver = s.torcOver := rfl
@[simp] theorem setSlot_poison (x : Slot) : (s.setSlot k x).poison = s.poison := rfl
@[simp] theorem setSlot_poisonReg (x : Slot) : (s.setSlot k x).poisonReg = s.poisonReg := rfl
@[simp] theorem setSlot_threads (x : Slot) : (s.setSlot k x).threads = s.threads := rfl
@[simp] theorem setSlot_groups (x : Slot) : (s.setSlot k x).groups = s.groups := rfl
@[simp] theorem setSlot_teams (x : Slot) : (s.setSlot k x).teams = s.teams := rfl
@[simp] theorem setSlot_grids (x : Slot) : (s.setSlot k x).grids = s.grids := rfl
@[simp] theorem setSlot_cores (x : Slot) : (s.setSlot k x).cores = s.cores := rfl
@[simp] theorem setSlot_dies (x : Slot) : (s.setSlot k x).dies = s.dies := rfl
@[simp] theorem setSlot_ctxs (x : Slot) : (s.setSlot k x).ctxs = s.ctxs := rfl
@[simp] theorem setSlot_cmds (x : Slot) : (s.setSlot k x).cmds = s.cmds := rfl
@[simp] theorem setSlot_launches (x : Slot) : (s.setSlot k x).launches = s.launches := rfl
@[simp] theorem setSlot_semOwner (x : Slot) : (s.setSlot k x).semOwner = s.semOwner := rfl
@[simp] theorem setSlot_pend (x : Slot) : (s.setSlot k x).pend = s.pend := rfl
@[simp] theorem setSlot_bins (x : Slot) : (s.setSlot k x).bins = s.bins := rfl
@[simp] theorem setSlot_serving (x : Slot) : (s.setSlot k x).serving = s.serving := rfl
@[simp] theorem setSlot_waiters (x : Slot) : (s.setSlot k x).waiters = s.waiters := rfl
@[simp] theorem setSlot_log (x : Slot) : (s.setSlot k x).log = s.log := rfl
@[simp] theorem setSlot_logSeq (x : Slot) : (s.setSlot k x).logSeq = s.logSeq := rfl
@[simp] theorem setSlot_faults (x : Slot) : (s.setSlot k x).faults = s.faults := rfl
@[simp] theorem setSlot_truncated (x : Slot) : (s.setSlot k x).truncated = s.truncated := rfl
@[simp] theorem setSlot_host (x : Slot) : (s.setSlot k x).host = s.host := rfl
@[simp] theorem setSlot_boot (x : Slot) : (s.setSlot k x).boot = s.boot := rfl
@[simp] theorem setSlot_part (x : Slot) : (s.setSlot k x).part = s.part := rfl
@[simp] theorem setSlot_free (x : Slot) : (s.setSlot k x).free = s.free := rfl
@[simp] theorem setSlot_nextId (x : Slot) : (s.setSlot k x).nextId = s.nextId := rfl
@[simp] theorem setSlot_thr (x : Slot) (j : Nat) : (s.setSlot k x).thr j = s.thr j := rfl
@[simp] theorem setSlot_grp (x : Slot) (j : Nat) : (s.setSlot k x).grp j = s.grp j := rfl
@[simp] theorem setSlot_team (x : Slot) (j : Nat) : (s.setSlot k x).team j = s.team j := rfl
@[simp] theorem setSlot_grid (x : Slot) (j : Nat) : (s.setSlot k x).grid j = s.grid j := rfl
@[simp] theorem setSlot_core (x : Slot) (j : Nat) : (s.setSlot k x).core j = s.core j := rfl
@[simp] theorem setSlot_die (x : Slot) (j : Nat) : (s.setSlot k x).die j = s.die j := rfl
@[simp] theorem setSlot_cx (x : Slot) (j : Nat) : (s.setSlot k x).cx j = s.cx j := rfl
@[simp] theorem setSlot_cmd (x : Slot) (j : Nat) : (s.setSlot k x).cmd j = s.cmd j := rfl
theorem slot_setSlot {s : State} (h : Tab.risingFrom 0 s.slots = true) (k j : Nat) (x : Slot) :
    (s.setSlot k x).slot j = if j = k then x else s.slot j := Tab.get_put _ _ h
theorem setSlot_rising {s : State} (h : Tab.risingFrom 0 s.slots = true) (k : Nat) (x : Slot) : Tab.risingFrom 0 (s.setSlot k x).slots = true :=
  Tab.rising_put _ _ h

-- Die.

@[simp] theorem updDie_eq (f : Die → Die) : s.updDie k f = s.setDie k (f (s.die k)) := rfl
@[simp] theorem setDie_clk (x : Die) : (s.setDie k x).clk = s.clk := rfl
@[simp] theorem setDie_ticks (x : Die) : (s.setDie k x).ticks = s.ticks := rfl
@[simp] theorem setDie_agenda (x : Die) : (s.setDie k x).agenda = s.agenda := rfl
@[simp] theorem setDie_cur (x : Die) : (s.setDie k x).cur = s.cur := rfl
@[simp] theorem setDie_mem (x : Die) : (s.setDie k x).mem = s.mem := rfl
@[simp] theorem setDie_owned (x : Die) : (s.setDie k x).owned = s.owned := rfl
@[simp] theorem setDie_ownedBad (x : Die) : (s.setDie k x).ownedBad = s.ownedBad := rfl
@[simp] theorem setDie_torcHeld (x : Die) : (s.setDie k x).torcHeld = s.torcHeld := rfl
@[simp] theorem setDie_torcOver (x : Die) : (s.setDie k x).torcOver = s.torcOver := rfl
@[simp] theorem setDie_poison (x : Die) : (s.setDie k x).poison = s.poison := rfl
@[simp] theorem setDie_poisonReg (x : Die) : (s.setDie k x).poisonReg = s.poisonReg := rfl
@[simp] theorem setDie_threads (x : Die) : (s.setDie k x).threads = s.threads := rfl
@[simp] theorem setDie_groups (x : Die) : (s.setDie k x).groups = s.groups := rfl
@[simp] theorem setDie_teams (x : Die) : (s.setDie k x).teams = s.teams := rfl
@[simp] theorem setDie_grids (x : Die) : (s.setDie k x).grids = s.grids := rfl
@[simp] theorem setDie_cores (x : Die) : (s.setDie k x).cores = s.cores := rfl
@[simp] theorem setDie_slots (x : Die) : (s.setDie k x).slots = s.slots := rfl
@[simp] theorem setDie_ctxs (x : Die) : (s.setDie k x).ctxs = s.ctxs := rfl
@[simp] theorem setDie_cmds (x : Die) : (s.setDie k x).cmds = s.cmds := rfl
@[simp] theorem setDie_launches (x : Die) : (s.setDie k x).launches = s.launches := rfl
@[simp] theorem setDie_semOwner (x : Die) : (s.setDie k x).semOwner = s.semOwner := rfl
@[simp] theorem setDie_pend (x : Die) : (s.setDie k x).pend = s.pend := rfl
@[simp] theorem setDie_bins (x : Die) : (s.setDie k x).bins = s.bins := rfl
@[simp] theorem setDie_serving (x : Die) : (s.setDie k x).serving = s.serving := rfl
@[simp] theorem setDie_waiters (x : Die) : (s.setDie k x).waiters = s.waiters := rfl
@[simp] theorem setDie_log (x : Die) : (s.setDie k x).log = s.log := rfl
@[simp] theorem setDie_logSeq (x : Die) : (s.setDie k x).logSeq = s.logSeq := rfl
@[simp] theorem setDie_faults (x : Die) : (s.setDie k x).faults = s.faults := rfl
@[simp] theorem setDie_truncated (x : Die) : (s.setDie k x).truncated = s.truncated := rfl
@[simp] theorem setDie_host (x : Die) : (s.setDie k x).host = s.host := rfl
@[simp] theorem setDie_boot (x : Die) : (s.setDie k x).boot = s.boot := rfl
@[simp] theorem setDie_part (x : Die) : (s.setDie k x).part = s.part := rfl
@[simp] theorem setDie_free (x : Die) : (s.setDie k x).free = s.free := rfl
@[simp] theorem setDie_nextId (x : Die) : (s.setDie k x).nextId = s.nextId := rfl
@[simp] theorem setDie_thr (x : Die) (j : Nat) : (s.setDie k x).thr j = s.thr j := rfl
@[simp] theorem setDie_grp (x : Die) (j : Nat) : (s.setDie k x).grp j = s.grp j := rfl
@[simp] theorem setDie_team (x : Die) (j : Nat) : (s.setDie k x).team j = s.team j := rfl
@[simp] theorem setDie_grid (x : Die) (j : Nat) : (s.setDie k x).grid j = s.grid j := rfl
@[simp] theorem setDie_core (x : Die) (j : Nat) : (s.setDie k x).core j = s.core j := rfl
@[simp] theorem setDie_slot (x : Die) (j : Nat) : (s.setDie k x).slot j = s.slot j := rfl
@[simp] theorem setDie_cx (x : Die) (j : Nat) : (s.setDie k x).cx j = s.cx j := rfl
@[simp] theorem setDie_cmd (x : Die) (j : Nat) : (s.setDie k x).cmd j = s.cmd j := rfl
theorem die_setDie {s : State} (h : Tab.risingFrom 0 s.dies = true) (k j : Nat) (x : Die) :
    (s.setDie k x).die j = if j = k then x else s.die j := Tab.get_put _ _ h
theorem setDie_rising {s : State} (h : Tab.risingFrom 0 s.dies = true) (k : Nat) (x : Die) : Tab.risingFrom 0 (s.setDie k x).dies = true :=
  Tab.rising_put _ _ h

-- Ctx.

@[simp] theorem updCx_eq (f : Ctx → Ctx) : s.updCx k f = s.setCx k (f (s.cx k)) := rfl
@[simp] theorem setCx_clk (x : Ctx) : (s.setCx k x).clk = s.clk := rfl
@[simp] theorem setCx_ticks (x : Ctx) : (s.setCx k x).ticks = s.ticks := rfl
@[simp] theorem setCx_agenda (x : Ctx) : (s.setCx k x).agenda = s.agenda := rfl
@[simp] theorem setCx_cur (x : Ctx) : (s.setCx k x).cur = s.cur := rfl
@[simp] theorem setCx_mem (x : Ctx) : (s.setCx k x).mem = s.mem := rfl
@[simp] theorem setCx_owned (x : Ctx) : (s.setCx k x).owned = s.owned := rfl
@[simp] theorem setCx_ownedBad (x : Ctx) : (s.setCx k x).ownedBad = s.ownedBad := rfl
@[simp] theorem setCx_torcHeld (x : Ctx) : (s.setCx k x).torcHeld = s.torcHeld := rfl
@[simp] theorem setCx_torcOver (x : Ctx) : (s.setCx k x).torcOver = s.torcOver := rfl
@[simp] theorem setCx_poison (x : Ctx) : (s.setCx k x).poison = s.poison := rfl
@[simp] theorem setCx_poisonReg (x : Ctx) : (s.setCx k x).poisonReg = s.poisonReg := rfl
@[simp] theorem setCx_threads (x : Ctx) : (s.setCx k x).threads = s.threads := rfl
@[simp] theorem setCx_groups (x : Ctx) : (s.setCx k x).groups = s.groups := rfl
@[simp] theorem setCx_teams (x : Ctx) : (s.setCx k x).teams = s.teams := rfl
@[simp] theorem setCx_grids (x : Ctx) : (s.setCx k x).grids = s.grids := rfl
@[simp] theorem setCx_cores (x : Ctx) : (s.setCx k x).cores = s.cores := rfl
@[simp] theorem setCx_slots (x : Ctx) : (s.setCx k x).slots = s.slots := rfl
@[simp] theorem setCx_dies (x : Ctx) : (s.setCx k x).dies = s.dies := rfl
@[simp] theorem setCx_cmds (x : Ctx) : (s.setCx k x).cmds = s.cmds := rfl
@[simp] theorem setCx_launches (x : Ctx) : (s.setCx k x).launches = s.launches := rfl
@[simp] theorem setCx_semOwner (x : Ctx) : (s.setCx k x).semOwner = s.semOwner := rfl
@[simp] theorem setCx_pend (x : Ctx) : (s.setCx k x).pend = s.pend := rfl
@[simp] theorem setCx_bins (x : Ctx) : (s.setCx k x).bins = s.bins := rfl
@[simp] theorem setCx_serving (x : Ctx) : (s.setCx k x).serving = s.serving := rfl
@[simp] theorem setCx_waiters (x : Ctx) : (s.setCx k x).waiters = s.waiters := rfl
@[simp] theorem setCx_log (x : Ctx) : (s.setCx k x).log = s.log := rfl
@[simp] theorem setCx_logSeq (x : Ctx) : (s.setCx k x).logSeq = s.logSeq := rfl
@[simp] theorem setCx_faults (x : Ctx) : (s.setCx k x).faults = s.faults := rfl
@[simp] theorem setCx_truncated (x : Ctx) : (s.setCx k x).truncated = s.truncated := rfl
@[simp] theorem setCx_host (x : Ctx) : (s.setCx k x).host = s.host := rfl
@[simp] theorem setCx_boot (x : Ctx) : (s.setCx k x).boot = s.boot := rfl
@[simp] theorem setCx_part (x : Ctx) : (s.setCx k x).part = s.part := rfl
@[simp] theorem setCx_free (x : Ctx) : (s.setCx k x).free = s.free := rfl
@[simp] theorem setCx_nextId (x : Ctx) : (s.setCx k x).nextId = s.nextId := rfl
@[simp] theorem setCx_thr (x : Ctx) (j : Nat) : (s.setCx k x).thr j = s.thr j := rfl
@[simp] theorem setCx_grp (x : Ctx) (j : Nat) : (s.setCx k x).grp j = s.grp j := rfl
@[simp] theorem setCx_team (x : Ctx) (j : Nat) : (s.setCx k x).team j = s.team j := rfl
@[simp] theorem setCx_grid (x : Ctx) (j : Nat) : (s.setCx k x).grid j = s.grid j := rfl
@[simp] theorem setCx_core (x : Ctx) (j : Nat) : (s.setCx k x).core j = s.core j := rfl
@[simp] theorem setCx_slot (x : Ctx) (j : Nat) : (s.setCx k x).slot j = s.slot j := rfl
@[simp] theorem setCx_die (x : Ctx) (j : Nat) : (s.setCx k x).die j = s.die j := rfl
@[simp] theorem setCx_cmd (x : Ctx) (j : Nat) : (s.setCx k x).cmd j = s.cmd j := rfl
theorem cx_setCx {s : State} (h : Tab.risingFrom 0 s.ctxs = true) (k j : Nat) (x : Ctx) :
    (s.setCx k x).cx j = if j = k then x else s.cx j := Tab.get_put _ _ h
theorem setCx_rising {s : State} (h : Tab.risingFrom 0 s.ctxs = true) (k : Nat) (x : Ctx) : Tab.risingFrom 0 (s.setCx k x).ctxs = true :=
  Tab.rising_put _ _ h

-- Cmd.

@[simp] theorem updCmd_eq (f : Cmd → Cmd) : s.updCmd k f = s.setCmd k (f (s.cmd k)) := rfl
@[simp] theorem setCmd_clk (x : Cmd) : (s.setCmd k x).clk = s.clk := rfl
@[simp] theorem setCmd_ticks (x : Cmd) : (s.setCmd k x).ticks = s.ticks := rfl
@[simp] theorem setCmd_agenda (x : Cmd) : (s.setCmd k x).agenda = s.agenda := rfl
@[simp] theorem setCmd_cur (x : Cmd) : (s.setCmd k x).cur = s.cur := rfl
@[simp] theorem setCmd_mem (x : Cmd) : (s.setCmd k x).mem = s.mem := rfl
@[simp] theorem setCmd_owned (x : Cmd) : (s.setCmd k x).owned = s.owned := rfl
@[simp] theorem setCmd_ownedBad (x : Cmd) : (s.setCmd k x).ownedBad = s.ownedBad := rfl
@[simp] theorem setCmd_torcHeld (x : Cmd) : (s.setCmd k x).torcHeld = s.torcHeld := rfl
@[simp] theorem setCmd_torcOver (x : Cmd) : (s.setCmd k x).torcOver = s.torcOver := rfl
@[simp] theorem setCmd_poison (x : Cmd) : (s.setCmd k x).poison = s.poison := rfl
@[simp] theorem setCmd_poisonReg (x : Cmd) : (s.setCmd k x).poisonReg = s.poisonReg := rfl
@[simp] theorem setCmd_threads (x : Cmd) : (s.setCmd k x).threads = s.threads := rfl
@[simp] theorem setCmd_groups (x : Cmd) : (s.setCmd k x).groups = s.groups := rfl
@[simp] theorem setCmd_teams (x : Cmd) : (s.setCmd k x).teams = s.teams := rfl
@[simp] theorem setCmd_grids (x : Cmd) : (s.setCmd k x).grids = s.grids := rfl
@[simp] theorem setCmd_cores (x : Cmd) : (s.setCmd k x).cores = s.cores := rfl
@[simp] theorem setCmd_slots (x : Cmd) : (s.setCmd k x).slots = s.slots := rfl
@[simp] theorem setCmd_dies (x : Cmd) : (s.setCmd k x).dies = s.dies := rfl
@[simp] theorem setCmd_ctxs (x : Cmd) : (s.setCmd k x).ctxs = s.ctxs := rfl
@[simp] theorem setCmd_launches (x : Cmd) : (s.setCmd k x).launches = s.launches := rfl
@[simp] theorem setCmd_semOwner (x : Cmd) : (s.setCmd k x).semOwner = s.semOwner := rfl
@[simp] theorem setCmd_pend (x : Cmd) : (s.setCmd k x).pend = s.pend := rfl
@[simp] theorem setCmd_bins (x : Cmd) : (s.setCmd k x).bins = s.bins := rfl
@[simp] theorem setCmd_serving (x : Cmd) : (s.setCmd k x).serving = s.serving := rfl
@[simp] theorem setCmd_waiters (x : Cmd) : (s.setCmd k x).waiters = s.waiters := rfl
@[simp] theorem setCmd_log (x : Cmd) : (s.setCmd k x).log = s.log := rfl
@[simp] theorem setCmd_logSeq (x : Cmd) : (s.setCmd k x).logSeq = s.logSeq := rfl
@[simp] theorem setCmd_faults (x : Cmd) : (s.setCmd k x).faults = s.faults := rfl
@[simp] theorem setCmd_truncated (x : Cmd) : (s.setCmd k x).truncated = s.truncated := rfl
@[simp] theorem setCmd_host (x : Cmd) : (s.setCmd k x).host = s.host := rfl
@[simp] theorem setCmd_boot (x : Cmd) : (s.setCmd k x).boot = s.boot := rfl
@[simp] theorem setCmd_part (x : Cmd) : (s.setCmd k x).part = s.part := rfl
@[simp] theorem setCmd_free (x : Cmd) : (s.setCmd k x).free = s.free := rfl
@[simp] theorem setCmd_nextId (x : Cmd) : (s.setCmd k x).nextId = s.nextId := rfl
@[simp] theorem setCmd_thr (x : Cmd) (j : Nat) : (s.setCmd k x).thr j = s.thr j := rfl
@[simp] theorem setCmd_grp (x : Cmd) (j : Nat) : (s.setCmd k x).grp j = s.grp j := rfl
@[simp] theorem setCmd_team (x : Cmd) (j : Nat) : (s.setCmd k x).team j = s.team j := rfl
@[simp] theorem setCmd_grid (x : Cmd) (j : Nat) : (s.setCmd k x).grid j = s.grid j := rfl
@[simp] theorem setCmd_core (x : Cmd) (j : Nat) : (s.setCmd k x).core j = s.core j := rfl
@[simp] theorem setCmd_slot (x : Cmd) (j : Nat) : (s.setCmd k x).slot j = s.slot j := rfl
@[simp] theorem setCmd_die (x : Cmd) (j : Nat) : (s.setCmd k x).die j = s.die j := rfl
@[simp] theorem setCmd_cx (x : Cmd) (j : Nat) : (s.setCmd k x).cx j = s.cx j := rfl
theorem cmd_setCmd {s : State} (h : Tab.risingFrom 0 s.cmds = true) (k j : Nat) (x : Cmd) :
    (s.setCmd k x).cmd j = if j = k then x else s.cmd j := Tab.get_put _ _ h
theorem setCmd_rising {s : State} (h : Tab.risingFrom 0 s.cmds = true) (k : Nat) (x : Cmd) : Tab.risingFrom 0 (s.setCmd k x).cmds = true :=
  Tab.rising_put _ _ h

-- The agenda.

@[simp] theorem scheduleAt_clk (t : Nat) (e : Instr) : (s.scheduleAt t e).clk = s.clk := rfl
@[simp] theorem scheduleAt_ticks (t : Nat) (e : Instr) : (s.scheduleAt t e).ticks = s.ticks := rfl
@[simp] theorem scheduleAt_cur (t : Nat) (e : Instr) : (s.scheduleAt t e).cur = s.cur := rfl
@[simp] theorem scheduleAt_mem (t : Nat) (e : Instr) : (s.scheduleAt t e).mem = s.mem := rfl
@[simp] theorem scheduleAt_owned (t : Nat) (e : Instr) : (s.scheduleAt t e).owned = s.owned := rfl
@[simp] theorem scheduleAt_ownedBad (t : Nat) (e : Instr) : (s.scheduleAt t e).ownedBad = s.ownedBad := rfl
@[simp] theorem scheduleAt_torcHeld (t : Nat) (e : Instr) : (s.scheduleAt t e).torcHeld = s.torcHeld := rfl
@[simp] theorem scheduleAt_torcOver (t : Nat) (e : Instr) : (s.scheduleAt t e).torcOver = s.torcOver := rfl
@[simp] theorem scheduleAt_poison (t : Nat) (e : Instr) : (s.scheduleAt t e).poison = s.poison := rfl
@[simp] theorem scheduleAt_poisonReg (t : Nat) (e : Instr) : (s.scheduleAt t e).poisonReg = s.poisonReg := rfl
@[simp] theorem scheduleAt_threads (t : Nat) (e : Instr) : (s.scheduleAt t e).threads = s.threads := rfl
@[simp] theorem scheduleAt_groups (t : Nat) (e : Instr) : (s.scheduleAt t e).groups = s.groups := rfl
@[simp] theorem scheduleAt_teams (t : Nat) (e : Instr) : (s.scheduleAt t e).teams = s.teams := rfl
@[simp] theorem scheduleAt_grids (t : Nat) (e : Instr) : (s.scheduleAt t e).grids = s.grids := rfl
@[simp] theorem scheduleAt_cores (t : Nat) (e : Instr) : (s.scheduleAt t e).cores = s.cores := rfl
@[simp] theorem scheduleAt_slots (t : Nat) (e : Instr) : (s.scheduleAt t e).slots = s.slots := rfl
@[simp] theorem scheduleAt_dies (t : Nat) (e : Instr) : (s.scheduleAt t e).dies = s.dies := rfl
@[simp] theorem scheduleAt_ctxs (t : Nat) (e : Instr) : (s.scheduleAt t e).ctxs = s.ctxs := rfl
@[simp] theorem scheduleAt_cmds (t : Nat) (e : Instr) : (s.scheduleAt t e).cmds = s.cmds := rfl
@[simp] theorem scheduleAt_launches (t : Nat) (e : Instr) : (s.scheduleAt t e).launches = s.launches := rfl
@[simp] theorem scheduleAt_semOwner (t : Nat) (e : Instr) : (s.scheduleAt t e).semOwner = s.semOwner := rfl
@[simp] theorem scheduleAt_pend (t : Nat) (e : Instr) : (s.scheduleAt t e).pend = s.pend := rfl
@[simp] theorem scheduleAt_bins (t : Nat) (e : Instr) : (s.scheduleAt t e).bins = s.bins := rfl
@[simp] theorem scheduleAt_serving (t : Nat) (e : Instr) : (s.scheduleAt t e).serving = s.serving := rfl
@[simp] theorem scheduleAt_waiters (t : Nat) (e : Instr) : (s.scheduleAt t e).waiters = s.waiters := rfl
@[simp] theorem scheduleAt_log (t : Nat) (e : Instr) : (s.scheduleAt t e).log = s.log := rfl
@[simp] theorem scheduleAt_logSeq (t : Nat) (e : Instr) : (s.scheduleAt t e).logSeq = s.logSeq := rfl
@[simp] theorem scheduleAt_faults (t : Nat) (e : Instr) : (s.scheduleAt t e).faults = s.faults := rfl
@[simp] theorem scheduleAt_truncated (t : Nat) (e : Instr) : (s.scheduleAt t e).truncated = s.truncated := rfl
@[simp] theorem scheduleAt_host (t : Nat) (e : Instr) : (s.scheduleAt t e).host = s.host := rfl
@[simp] theorem scheduleAt_boot (t : Nat) (e : Instr) : (s.scheduleAt t e).boot = s.boot := rfl
@[simp] theorem scheduleAt_part (t : Nat) (e : Instr) : (s.scheduleAt t e).part = s.part := rfl
@[simp] theorem scheduleAt_free (t : Nat) (e : Instr) : (s.scheduleAt t e).free = s.free := rfl
@[simp] theorem scheduleAt_nextId (t : Nat) (e : Instr) : (s.scheduleAt t e).nextId = s.nextId := rfl
@[simp] theorem later_clk (e : Instr) : (s.later e).clk = s.clk := rfl
@[simp] theorem later_ticks (e : Instr) : (s.later e).ticks = s.ticks := rfl
@[simp] theorem later_cur (e : Instr) : (s.later e).cur = s.cur := rfl
@[simp] theorem later_mem (e : Instr) : (s.later e).mem = s.mem := rfl
@[simp] theorem later_owned (e : Instr) : (s.later e).owned = s.owned := rfl
@[simp] theorem later_ownedBad (e : Instr) : (s.later e).ownedBad = s.ownedBad := rfl
@[simp] theorem later_torcHeld (e : Instr) : (s.later e).torcHeld = s.torcHeld := rfl
@[simp] theorem later_torcOver (e : Instr) : (s.later e).torcOver = s.torcOver := rfl
@[simp] theorem later_poison (e : Instr) : (s.later e).poison = s.poison := rfl
@[simp] theorem later_poisonReg (e : Instr) : (s.later e).poisonReg = s.poisonReg := rfl
@[simp] theorem later_threads (e : Instr) : (s.later e).threads = s.threads := rfl
@[simp] theorem later_groups (e : Instr) : (s.later e).groups = s.groups := rfl
@[simp] theorem later_teams (e : Instr) : (s.later e).teams = s.teams := rfl
@[simp] theorem later_grids (e : Instr) : (s.later e).grids = s.grids := rfl
@[simp] theorem later_cores (e : Instr) : (s.later e).cores = s.cores := rfl
@[simp] theorem later_slots (e : Instr) : (s.later e).slots = s.slots := rfl
@[simp] theorem later_dies (e : Instr) : (s.later e).dies = s.dies := rfl
@[simp] theorem later_ctxs (e : Instr) : (s.later e).ctxs = s.ctxs := rfl
@[simp] theorem later_cmds (e : Instr) : (s.later e).cmds = s.cmds := rfl
@[simp] theorem later_launches (e : Instr) : (s.later e).launches = s.launches := rfl
@[simp] theorem later_semOwner (e : Instr) : (s.later e).semOwner = s.semOwner := rfl
@[simp] theorem later_pend (e : Instr) : (s.later e).pend = s.pend := rfl
@[simp] theorem later_bins (e : Instr) : (s.later e).bins = s.bins := rfl
@[simp] theorem later_serving (e : Instr) : (s.later e).serving = s.serving := rfl
@[simp] theorem later_waiters (e : Instr) : (s.later e).waiters = s.waiters := rfl
@[simp] theorem later_log (e : Instr) : (s.later e).log = s.log := rfl
@[simp] theorem later_logSeq (e : Instr) : (s.later e).logSeq = s.logSeq := rfl
@[simp] theorem later_faults (e : Instr) : (s.later e).faults = s.faults := rfl
@[simp] theorem later_truncated (e : Instr) : (s.later e).truncated = s.truncated := rfl
@[simp] theorem later_host (e : Instr) : (s.later e).host = s.host := rfl
@[simp] theorem later_boot (e : Instr) : (s.later e).boot = s.boot := rfl
@[simp] theorem later_part (e : Instr) : (s.later e).part = s.part := rfl
@[simp] theorem later_nextId (e : Instr) : (s.later e).nextId = s.nextId := rfl
@[simp] theorem unschedule_clk (p : Instr → Bool) : (s.unschedule p).clk = s.clk := rfl
@[simp] theorem unschedule_ticks (p : Instr → Bool) : (s.unschedule p).ticks = s.ticks := rfl
@[simp] theorem unschedule_cur (p : Instr → Bool) : (s.unschedule p).cur = s.cur := rfl
@[simp] theorem unschedule_mem (p : Instr → Bool) : (s.unschedule p).mem = s.mem := rfl
@[simp] theorem unschedule_owned (p : Instr → Bool) : (s.unschedule p).owned = s.owned := rfl
@[simp] theorem unschedule_ownedBad (p : Instr → Bool) : (s.unschedule p).ownedBad = s.ownedBad := rfl
@[simp] theorem unschedule_torcHeld (p : Instr → Bool) : (s.unschedule p).torcHeld = s.torcHeld := rfl
@[simp] theorem unschedule_torcOver (p : Instr → Bool) : (s.unschedule p).torcOver = s.torcOver := rfl
@[simp] theorem unschedule_poison (p : Instr → Bool) : (s.unschedule p).poison = s.poison := rfl
@[simp] theorem unschedule_poisonReg (p : Instr → Bool) : (s.unschedule p).poisonReg = s.poisonReg := rfl
@[simp] theorem unschedule_threads (p : Instr → Bool) : (s.unschedule p).threads = s.threads := rfl
@[simp] theorem unschedule_groups (p : Instr → Bool) : (s.unschedule p).groups = s.groups := rfl
@[simp] theorem unschedule_teams (p : Instr → Bool) : (s.unschedule p).teams = s.teams := rfl
@[simp] theorem unschedule_grids (p : Instr → Bool) : (s.unschedule p).grids = s.grids := rfl
@[simp] theorem unschedule_cores (p : Instr → Bool) : (s.unschedule p).cores = s.cores := rfl
@[simp] theorem unschedule_slots (p : Instr → Bool) : (s.unschedule p).slots = s.slots := rfl
@[simp] theorem unschedule_dies (p : Instr → Bool) : (s.unschedule p).dies = s.dies := rfl
@[simp] theorem unschedule_ctxs (p : Instr → Bool) : (s.unschedule p).ctxs = s.ctxs := rfl
@[simp] theorem unschedule_cmds (p : Instr → Bool) : (s.unschedule p).cmds = s.cmds := rfl
@[simp] theorem unschedule_launches (p : Instr → Bool) : (s.unschedule p).launches = s.launches := rfl
@[simp] theorem unschedule_semOwner (p : Instr → Bool) : (s.unschedule p).semOwner = s.semOwner := rfl
@[simp] theorem unschedule_pend (p : Instr → Bool) : (s.unschedule p).pend = s.pend := rfl
@[simp] theorem unschedule_bins (p : Instr → Bool) : (s.unschedule p).bins = s.bins := rfl
@[simp] theorem unschedule_serving (p : Instr → Bool) : (s.unschedule p).serving = s.serving := rfl
@[simp] theorem unschedule_waiters (p : Instr → Bool) : (s.unschedule p).waiters = s.waiters := rfl
@[simp] theorem unschedule_log (p : Instr → Bool) : (s.unschedule p).log = s.log := rfl
@[simp] theorem unschedule_logSeq (p : Instr → Bool) : (s.unschedule p).logSeq = s.logSeq := rfl
@[simp] theorem unschedule_faults (p : Instr → Bool) : (s.unschedule p).faults = s.faults := rfl
@[simp] theorem unschedule_truncated (p : Instr → Bool) : (s.unschedule p).truncated = s.truncated := rfl
@[simp] theorem unschedule_host (p : Instr → Bool) : (s.unschedule p).host = s.host := rfl
@[simp] theorem unschedule_boot (p : Instr → Bool) : (s.unschedule p).boot = s.boot := rfl
@[simp] theorem unschedule_part (p : Instr → Bool) : (s.unschedule p).part = s.part := rfl
@[simp] theorem unschedule_free (p : Instr → Bool) : (s.unschedule p).free = s.free := rfl
@[simp] theorem unschedule_nextId (p : Instr → Bool) : (s.unschedule p).nextId = s.nextId := rfl

-- Tidy states.

variable {s}

theorem tidy_threads (h : s.tidy = true) : Tab.risingFrom 0 s.threads = true := by simp only [State.tidy, Bool.and_eq_true] at h; tauto
theorem tidy_groups (h : s.tidy = true) : Tab.risingFrom 0 s.groups = true := by simp only [State.tidy, Bool.and_eq_true] at h; tauto
theorem tidy_teams (h : s.tidy = true) : Tab.risingFrom 0 s.teams = true := by simp only [State.tidy, Bool.and_eq_true] at h; tauto
theorem tidy_cores (h : s.tidy = true) : Tab.risingFrom 0 s.cores = true := by simp only [State.tidy, Bool.and_eq_true] at h; tauto
theorem tidy_slots (h : s.tidy = true) : Tab.risingFrom 0 s.slots = true := by simp only [State.tidy, Bool.and_eq_true] at h; tauto
theorem tidy_owned (h : s.tidy = true) : Tab.risingFrom 0 s.owned = true := by simp only [State.tidy, Bool.and_eq_true] at h; tauto
theorem tidy_thr (h : s.tidy = true) (k : Nat) : (s.thr k).tidy = true :=
  Tab.all_get (p := Thread.tidy) k rfl (by simp only [State.tidy, Bool.and_eq_true] at h; tauto)
theorem tidy_grp (h : s.tidy = true) (k : Nat) : (s.grp k).tidy = true :=
  Tab.all_get (p := Group.tidy) k rfl (by simp only [State.tidy, Bool.and_eq_true] at h; tauto)
theorem tidy_team (h : s.tidy = true) (k : Nat) : Tab.risingFrom 0 (s.team k).bars = true :=
  Tab.all_get (p := fun t : Team => Tab.risingFrom 0 t.bars) k rfl (by simp only [State.tidy, Bool.and_eq_true] at h; tauto)
theorem tidy_core (h : s.tidy = true) (k : Nat) : (s.core k).tidy = true :=
  Tab.all_get (p := Core.tidy) k rfl (by simp only [State.tidy, Bool.and_eq_true] at h; tauto)

/-- A thread whose register tables are tidy may be put into a tidy state. -/
theorem setThr_tidy (h : s.tidy = true) (k : Nat) {x : Thread} (hx : x.tidy = true) : (s.setThr k x).tidy = true := by
  have h0 := h
  simp only [State.tidy, Bool.and_eq_true] at h0 ⊢
  have := Tab.rising_put {} x (n := k) (tidy_threads h)
  have h7 := Tab.all_put (p := Thread.tidy) (d := {}) (n := k) hx h0.1.1.1.1.2
  simp only [setThr_groups, setThr_teams, setThr_cores, setThr_slots, setThr_owned, setThr_ctxs]
  exact ⟨⟨⟨⟨⟨⟨⟨⟨⟨⟨this, tidy_groups h⟩, tidy_teams h⟩, tidy_cores h⟩, tidy_slots h⟩, tidy_owned h⟩, h7⟩, h0.1.1.1.2⟩, h0.1.1.2⟩, h0.1.2⟩, h0.2⟩

/-- A group whose tables are tidy may be put into a tidy state. -/
theorem setGrp_tidy (h : s.tidy = true) (k : Nat) {x : Group} (hx : x.tidy = true) : (s.setGrp k x).tidy = true := by
  have h0 := h
  simp only [State.tidy, Bool.and_eq_true] at h0 ⊢
  have := Tab.rising_put {} x (n := k) (tidy_groups h)
  have h7 := Tab.all_put (p := Group.tidy) (d := {}) (n := k) hx h0.1.1.1.2
  simp only [setGrp_threads, setGrp_teams, setGrp_cores, setGrp_slots, setGrp_owned, setGrp_ctxs]
  exact ⟨⟨⟨⟨⟨⟨⟨⟨⟨⟨tidy_threads h, this⟩, tidy_teams h⟩, tidy_cores h⟩, tidy_slots h⟩, tidy_owned h⟩, h0.1.1.1.1.2⟩, h7⟩, h0.1.1.2⟩, h0.1.2⟩, h0.2⟩

end Sys2Proof.Machine
end

