-- ==== Sys2Proof/Laws/Memory.lean ====
section
/-! SUPPORT. Memory: every memory operation keeps the canonical form; what a byte reads after a byte is written; and what
a write at a home leaves as it was. -/

namespace Sys2Proof.Machine

theorem reset_memory : Memory.wf State.reset.mem = true := rfl

theorem Memory.wf_put {m : List Host.Cell} (h : Memory.wf m = true) (a : Nat) (b : Byte) : Memory.wf (Tab.put 0 m a b) = true := Tab.wf_put _ _ h

theorem Memory.wf_keep {m : List Host.Cell} (h : Memory.wf m = true) (p : Nat → Bool) : Memory.wf (Tab.keep m p) = true := Tab.wf_keep _ _ h

theorem putAll_wf {d v : Bool} : ∀ {l : List Nat} {t : Tab Bool}, Tab.wf d t = true → Tab.wf d (l.foldl (fun t g => Tab.put d t g v) t) = true
  | [], _, h => h
  | _ :: l, _, h => putAll_wf (l := l) (Tab.wf_put _ _ h)

theorem wf_parts {s : State} : s.wf = true ↔ Memory.wf s.mem = true ∧ Tab.wf none s.owned = true ∧ Tab.wf false s.poison = true
    ∧ Tab.wf false s.ownedBad = true ∧ Tab.wf false s.torcHeld = true := by
  simp only [State.wf, Bool.and_eq_true, and_assoc]

/-- Holding a host line changes the host's lines and the poison only, and keeps the canonical forms. -/
theorem holdHostLine_spec (s : State) (h : Nat) : ∃ host poison, s.holdHostLine h = { s with host := host, poison := poison }
    ∧ (Tab.wf false s.poison = true → Tab.wf false poison = true) := by
  rw [State.holdHostLine]
  split
  · exact ⟨s.host, s.poison, rfl, id⟩
  · dsimp only
    split
    · exact ⟨_, _, rfl, fun w => putAll_wf w⟩
    · exact ⟨_, s.poison, rfl, id⟩

/-- Recalling a byte takes it from any engine that owns it, with the engine's mark, and keeps the canonical forms. -/
theorem recall_spec (s : State) (h : Nat) : ∃ poison owned ownedBad,
    s.recall h = { s with poison := poison, owned := owned, ownedBad := ownedBad }
      ∧ (Tab.wf false s.poison = true → Tab.wf false poison = true) ∧ (Tab.wf none s.owned = true → Tab.wf none owned = true)
      ∧ (Tab.wf false s.ownedBad = true → Tab.wf false ownedBad = true)
      ∧ (Tab.risingFrom 0 s.owned = true → owned.get none h = none ∧ ∀ a, a ≠ h → owned.get none a = s.owned.get none a) := by
  rw [State.recall]
  split
  next e => exact ⟨s.poison, s.owned, s.ownedBad, rfl, id, id, id, fun _ => ⟨e, fun _ _ => rfl⟩⟩
  next => exact ⟨_, _, _, rfl, Tab.wf_put _ _, Tab.wf_del _, Tab.wf_del _, fun r => ⟨Tab.get_del_self none r, fun a x => Tab.get_del_ne none x r⟩⟩

/-- A write at a real home puts its byte into memory and takes the home from any engine that owns it; besides, it may change the
host's lines and the poison. -/
theorem writeHome_spec (s : State) {h : Nat} (b : Byte) (hh : h < 2 ^ 110) : ∃ host poison owned ownedBad,
    s.writeHome h b = { s with host := host, poison := poison, mem := Tab.put 0 s.mem h b, owned := owned, ownedBad := ownedBad }
      ∧ (Tab.wf false s.poison = true → Tab.wf false poison = true) ∧ (Tab.wf none s.owned = true → Tab.wf none owned = true)
      ∧ (Tab.wf false s.ownedBad = true → Tab.wf false ownedBad = true)
      ∧ (Tab.risingFrom 0 s.owned = true → owned.get none h = none ∧ ∀ a, a ≠ h → owned.get none a = s.owned.get none a) := by
  obtain ⟨host, p, e, w⟩ := holdHostLine_spec s h
  obtain ⟨poison, owned, ownedBad, e', w1, w2, w3, w4⟩ := recall_spec { s with host := host, poison := p } h
  refine ⟨host, poison, owned, ownedBad, ?_, fun x => w1 (w x), w2, w3, w4⟩
  rw [State.writeHome, if_pos hh, e]
  simp only [e']

/-- A write through a deterministic task's view leaves the real memory as it is. -/
theorem writeHome_view (s : State) {h : Nat} (b : Byte) (hh : ¬ h < 2 ^ 110) :
    (s.writeHome h b).mem = s.mem ∧ (s.writeHome h b).owned = s.owned ∧ (s.writeHome h b).poison = s.poison
      ∧ (s.writeHome h b).ownedBad = s.ownedBad ∧ (s.writeHome h b).torcHeld = s.torcHeld := by
  rw [State.writeHome, if_neg hh]; exact ⟨rfl, rfl, rfl, rfl, rfl⟩

theorem writeHome_wf {s : State} (w : s.wf = true) (h : Nat) (b : Byte) : (s.writeHome h b).wf = true := by
  rw [wf_parts] at w ⊢
  by_cases hh : h < 2 ^ 110
  · obtain ⟨host, poison, owned, ownedBad, e, k1, k2, k3, -⟩ := writeHome_spec s b hh
    rw [e]; exact ⟨Memory.wf_put w.1 h b, k2 w.2.1, k1 w.2.2.1, k3 w.2.2.2.1, w.2.2.2.2⟩
  · obtain ⟨a, b', c, d, e⟩ := writeHome_view s b hh
    rw [a, b', c, d, e]; exact w

theorem writeHomes_wf : ∀ {bs : List Byte} {s : State} (_ : s.wf = true) (h : Nat), (s.writeHomes h bs).wf = true
  | [], _, w, _ => w
  | _ :: bs, _, w, h => writeHomes_wf (bs := bs) (writeHome_wf w h _) (h + 1)

theorem readHome_real (s : State) {a : Nat} (ha : a < 2 ^ 110) : s.readHome a = (s.owned.get none a).getD (s.mem.get 0 a) := by
  rw [State.readHome, if_pos ha, State.realHome]

/-- What a real home reads after a byte is written at a real home. -/
theorem readHome_writeHome {s : State} (hm : Tab.risingFrom 0 s.mem = true) (ho : Tab.risingFrom 0 s.owned = true) {h a : Nat} (b : Byte)
    (hh : h < 2 ^ 110) (ha : a < 2 ^ 110) : (s.writeHome h b).readHome a = if a = h then b else s.readHome a := by
  obtain ⟨host, poison, owned, ownedBad, e, -, -, -, k⟩ := writeHome_spec s b hh
  rw [readHome_real _ ha, readHome_real _ ha, e]
  simp only
  rw [Tab.get_put 0 b hm]
  by_cases x : a = h
  · subst x; rw [(k ho).1]; simp
  · rw [(k ho).2 a x, if_neg x, if_neg x]

theorem clearPoison_wf {s : State} (w : s.wf = true) (h n : Nat) : (s.clearPoison h n).wf = true := by
  rw [State.clearPoison]
  split
  · exact w
  · rw [wf_parts] at w ⊢; exact ⟨w.1, w.2.1, putAll_wf w.2.2.1, w.2.2.2⟩

end Sys2Proof.Machine
end

