-- ==== Sys2Proof/Laws/PerInstr.lean ====
section
/-! SUPPORT. Statements made per instruction: the words of an instruction begin with its opcode (R111, R112), under a LIT where
it has a long immediate (R116), and an event has none. -/

namespace Sys2Proof.Laws

/-- The opcode that an encoded word holds for an instruction; 0 for an event. -/
def opcodeOf : Instr → Nat
  | .powerOn _ => 0
  | .bootStepWatchdog => 0
  | .heartbeatTick => 0
  | .sleepWake _ => 0
  | .balancerInterval _ => 0
  | .i3cRefresh _ _ _ _ _ _ => 0
  | .pickerDecision _ => 0
  | .runIssue _ => 0
  | .resultLands _ => 0
  | .teamPlace _ => 0
  | .handoverComplete _ _ => 0
  | .teamFinishComplete _ => 0
  | .barrierRelease _ _ _ => 0
  | .publicationComplete _ => 0
  | .fencescComplete _ => 0
  | .bankAluBinUpdate _ => 0
  | .lutldLoadBegin _ _ => 0
  | .lutldLoadComplete _ _ => 0
  | .copyCmdIssue _ _ => 0
  | .copyCmdComplete _ _ => 0
  | .ccopyComplete _ => 0
  | .tapeSyncComplete _ => 0
  | .pipelineResident _ _ => 0
  | .coreSave _ => 0
  | .coreRestore _ => 0
  | .torcStep _ _ => 0
  | .torcChunkArrival _ _ _ _ _ _ => 0
  | .torcAbortReceive _ _ _ _ => 0
  | .collTimeout _ _ => 0
  | .poolTimeout _ _ => 0
  | .detCommit _ => 0
  | .hostCxlMemAccess _ _ _ => 0
  | .hostSnoop _ => 0
  | .eccUncorrectable _ _ _ => 0
  | .meshLinkError _ _ => 0
  | .hostPortDown => 0
  | .hostPortRetrained => 0
  | .hostRetrainTimeout => 0
  | .ualinkPortDown _ _ => 0
  | .poolPortDown => 0
  | .mailboxWatchdog => 0
  | .overrunClear => 0
  | .mailboxWrite _ _ => 0
  | .ident => 0
  | .resync => 0
  | .ctxnew => 0
  | .ctxdel => 0
  | .resume => 0
  | .ctxmapDieShared => 0
  | .ctxmapQueueBind => 0
  | .ctxmapCounters => 0
  | .ctxmapSemGrant => 0
  | .ctxmapInvalidate => 0
  | .cmdstart => 0
  | .cmdstop => 0
  | .preempt => 0
  | .poolcfg => 0
  | .attest => 0
  | .measureRead => 0
  | .measureExtend => 0
  | .fwlog => 0
  | .degrade => 0
  | .reset => 0
  | .nop => 3
  | .add _ _ _ _ => 4
  | .sub _ _ _ _ => 5
  | .addi _ _ _ _ => 6
  | .mul _ _ _ _ => 7
  | .mulh _ _ _ _ => 8
  | .mad _ _ _ _ => 9
  | .and _ _ _ _ => 10
  | .or _ _ _ _ => 11
  | .xor _ _ _ _ => 12
  | .andi _ _ _ _ => 13
  | .ori _ _ _ _ => 14
  | .xori _ _ _ _ => 15
  | .shl _ _ _ _ => 16
  | .shr _ _ _ _ => 17
  | .sar _ _ _ _ => 18
  | .rot _ _ _ _ => 19
  | .bfx _ _ _ _ => 20
  | .bfi _ _ _ _ => 21
  | .bitc _ _ _ _ => 22
  | .min _ _ _ _ _ _ => 23
  | .max _ _ _ _ _ _ => 23
  | .cmp _ _ _ _ _ _ => 24
  | .cmpi _ _ _ _ _ => 25
  | .sel _ _ _ _ => 26
  | .mov _ _ _ => 27
  | .movi _ _ _ _ _ => 28
  | .div _ _ _ _ => 29
  | .rem _ _ _ _ => 30
  | .lea _ _ _ _ _ => 31
  | .leaLs _ _ _ => 31
  | .plog _ _ _ _ => 32
  | .br _ _ _ => 33
  | .bri _ _ _ => 34
  | .call _ _ _ => 35
  | .calli _ _ _ => 36
  | .ret _ _ => 37
  | .exit _ _ => 38
  | .yield _ _ => 39
  | .winb _ _ => 40
  | .lshuf _ _ _ _ _ _ => 41
  | .lpush _ _ _ _ => 42
  | .lrot _ _ _ _ _ => 43
  | .lred _ _ _ => 44
  | .lscan _ _ _ _ => 45
  | .vote _ _ _ _ => 46
  | .lmatch _ _ _ => 47
  | .fadd _ _ _ _ _ => 48
  | .fsub _ _ _ _ _ => 49
  | .fmul _ _ _ _ _ => 50
  | .ffma _ _ _ _ _ => 51
  | .ffmat _ _ _ _ _ => 52
  | .fmin _ _ _ _ => 53
  | .fmax _ _ _ _ => 53
  | .fcmp _ _ _ _ _ => 54
  | .fcvt _ _ _ _ _ _ _ => 55
  | .frnd _ _ _ _ => 56
  | .fdiv _ _ _ _ _ => 57
  | .fsqrt _ _ _ _ => 58
  | .fsfu _ _ _ => 59
  | .fsgn _ _ _ _ _ => 60
  | .fclass _ _ _ => 61
  | .lut _ _ _ => 62
  | .lutld _ _ _ => 63
  | .ld _ _ _ _ => 64
  | .st _ _ _ _ => 65
  | .lds _ _ _ _ _ => 66
  | .sts _ _ _ _ _ => 67
  | .ldx _ _ _ _ _ => 68
  | .stx _ _ _ _ _ => 69
  | .atom _ _ _ _ _ _ _ => 70
  | .acas _ _ _ _ _ _ _ _ => 71
  | .fatom _ _ _ _ _ _ _ => 72
  | .gadd _ _ _ _ _ => 73
  | .phase _ => 74
  | .phasePub _ => 74
  | .phaseAcq _ => 74
  | .fencesc => 75
  | .gset _ _ _ _ _ _ => 76
  | .gadv _ _ _ _ => 77
  | .gget _ _ _ => 77
  | .gptr _ _ => 77
  | .barSync _ _ => 78
  | .barArrive _ _ => 78
  | .barWait _ _ => 78
  | .slwait _ _ => 79
  | .slrel _ _ => 79
  | .slfree _ _ => 79
  | .slcommit _ _ => 79
  | .mmq _ _ _ _ _ _ _ => 80
  | .accz _ _ _ => 81
  | .accdr _ _ _ _ _ _ _ _ _ _ => 82
  | .accsvSave _ _ => 83
  | .accsvLoad _ _ => 83
  | .tld _ _ _ => 84
  | .tst _ _ _ => 85
  | .accrd _ _ _ _ => 86
  | .binctlDecl _ _ => 87
  | .binctlFin _ _ _ => 87
  | .binctlFinclr _ _ _ => 87
  | .binctlFree _ => 87
  | .rast _ _ _ _ _ _ => 88
  | .rastg _ _ _ _ _ _ _ => 89
  | .edgs _ _ _ _ _ => 90
  | .tex _ _ _ _ => 91
  | .texg _ _ _ _ _ => 92
  | .texl _ _ _ => 93
  | .texb _ _ _ _ _ => 94
  | .rrecDim _ _ _ => 95
  | .rrecFmt _ _ => 95
  | .rrecInv => 95
  | .rqinit _ _ _ _ _ _ _ => 96
  | .rqproc _ _ _ => 97
  | .rqcand _ _ _ _ => 98
  | .rqcommit _ _ _ => 99
  | .rqabort _ => 100
  | .rqres _ _ _ _ => 101
  | .rqgrad _ _ _ _ _ _ _ => 102
  | .rqtri _ _ _ _ _ _ => 103
  | .trec _ _ _ => 104
  | .tpop _ _ => 105
  | .tmarkOpen _ _ => 106
  | .tmarkClose => 106
  | .tctlBind _ => 107
  | .tctlStat _ => 107
  | .tctlSeek _ => 107
  | .tctlSync => 107
  | .rsvupd _ _ _ => 108
  | .rsvmrg _ _ _ _ => 109
  | .rsvinit _ => 110
  | .rsvfin _ _ => 110
  | .rsvget _ _ _ => 110
  | .rsvset _ _ _ => 110
  | .clove _ _ _ _ _ => 111
  | .spawn _ _ _ _ => 112
  | .tqadd _ _ _ _ => 113
  | .tqget _ _ => 114
  | .depopSet _ _ _ => 115
  | .depopAdd _ _ _ => 115
  | .depopGet _ _ => 115
  | .spush _ _ _ => 116
  | .spop _ _ => 117
  | .sctlClose _ => 118
  | .sctlStat _ _ => 118
  | .sysr _ _ _ _ => 120
  | .sysw _ _ _ _ => 121
  | .trap _ => 122
  | .icinv => 123
  | .sleep _ _ _ => 124
  | .fwret => 126
  | .cpxLaunch _ _ _ _ _ _ => 125
  | .cpxSemwait _ _ _ _ => 125
  | .cpxSemsig _ _ => 125
  | .cpxSemadd _ _ _ => 125
  | .cpxCcopy _ _ _ _ _ _ _ => 125
  | .cpxIrq _ => 125
  | .cpxChalt => 125
  | .submit _ => 0
  | .msixVectorUnmask _ => 0

theorem opcOf_encWord {opc : Nat} {r : List Nat} (ho : opc < 128) (h : total r < 2 ^ 25) : opcOf (encWord opc r).toNat = opc := by
  rw [encWord, opcOf, BitVec.toNat_ofNat]
  omega

/-- One or two words, the first with the opcode, or a LIT first and then one word with the opcode; no word for an event. -/
def Opcode.Statement (i : Instr) : Prop :=
  encode i = [] ∨ (∃ w r, encode i = w :: r ∧ r.length ≤ 1 ∧ opcOf w.toNat = opcodeOf i)
    ∨ ∃ h w, encode i = encLit (some h) ++ [w] ∧ opcOf w.toNat = opcodeOf i

theorem Opcode.one {i : Instr} {opc : Nat} {r : List Nat} (x : List Word) (e : encode i = encWord opc r :: x) (hx : x.length ≤ 1)
    (ho : opc < 128) (hi : opcodeOf i = opc) (h : total r < 2 ^ 25) : Opcode.Statement i :=
  .inr (.inl ⟨_, x, e, hx, by rw [hi, opcOf_encWord ho h]⟩)

theorem Opcode.lit {i : Instr} {opc : Nat} {r : List Nat} (hi : Option (BitVec 25)) (e : encode i = encLit hi ++ [encWord opc r])
    (ho : opc < 128) (hc : opcodeOf i = opc) (h : total r < 2 ^ 25) : Opcode.Statement i := by
  cases hi with
  | none => exact .inr (.inl ⟨_, [], e, by simp, by rw [hc, opcOf_encWord ho h]⟩)
  | some x => exact .inr (.inr ⟨x, _, e, by rw [hc, opcOf_encWord ho h]⟩)

theorem Opcode.powerOn (cause : BitVec 8) : Opcode.Statement (.powerOn cause) := .inl rfl
theorem Opcode.bootStepWatchdog : Opcode.Statement (.bootStepWatchdog) := .inl rfl
theorem Opcode.heartbeatTick : Opcode.Statement (.heartbeatTick) := .inl rfl
theorem Opcode.sleepWake (th : Nat) : Opcode.Statement (.sleepWake th) := .inl rfl
theorem Opcode.balancerInterval (die : Nat) : Opcode.Statement (.balancerInterval die) := .inl rfl
theorem Opcode.i3cRefresh (t0 t1 t2 t3 hub power : BitVec 16) : Opcode.Statement (.i3cRefresh t0 t1 t2 t3 hub power) := .inl rfl
theorem Opcode.pickerDecision (iss : Nat) : Opcode.Statement (.pickerDecision iss) := .inl rfl
theorem Opcode.runIssue (iss : Nat) : Opcode.Statement (.runIssue iss) := .inl rfl
theorem Opcode.resultLands (id : Nat) : Opcode.Statement (.resultLands id) := .inl rfl
theorem Opcode.teamPlace (die : Nat) : Opcode.Statement (.teamPlace die) := .inl rfl
theorem Opcode.handoverComplete (core gran : Nat) : Opcode.Statement (.handoverComplete core gran) := .inl rfl
theorem Opcode.teamFinishComplete (team : Nat) : Opcode.Statement (.teamFinishComplete team) := .inl rfl
theorem Opcode.barrierRelease (isTeam : Bool) (owner bar : Nat) : Opcode.Statement (.barrierRelease isTeam owner bar) := .inl rfl
theorem Opcode.publicationComplete (core : Nat) : Opcode.Statement (.publicationComplete core) := .inl rfl
theorem Opcode.fencescComplete (th : Nat) : Opcode.Statement (.fencescComplete th) := .inl rfl
theorem Opcode.bankAluBinUpdate (id : Nat) : Opcode.Statement (.bankAluBinUpdate id) := .inl rfl
theorem Opcode.lutldLoadBegin (core t : Nat) : Opcode.Statement (.lutldLoadBegin core t) := .inl rfl
theorem Opcode.lutldLoadComplete (core t : Nat) : Opcode.Statement (.lutldLoadComplete core t) := .inl rfl
theorem Opcode.copyCmdIssue (core ring : Nat) : Opcode.Statement (.copyCmdIssue core ring) := .inl rfl
theorem Opcode.copyCmdComplete (core ring : Nat) : Opcode.Statement (.copyCmdComplete core ring) := .inl rfl
theorem Opcode.ccopyComplete (c : Nat) : Opcode.Statement (.ccopyComplete c) := .inl rfl
theorem Opcode.tapeSyncComplete (th : Nat) : Opcode.Statement (.tapeSyncComplete th) := .inl rfl
theorem Opcode.pipelineResident (die pipe : Nat) : Opcode.Statement (.pipelineResident die pipe) := .inl rfl
theorem Opcode.coreSave (core : Nat) : Opcode.Statement (.coreSave core) := .inl rfl
theorem Opcode.coreRestore (core : Nat) : Opcode.Statement (.coreRestore core) := .inl rfl
theorem Opcode.torcStep (die block : Nat) : Opcode.Statement (.torcStep die block) := .inl rfl
theorem Opcode.torcChunkArrival (die : Nat) (tag seq : BitVec 32) (src ch : Nat) (data : List (BitVec 8)) : Opcode.Statement (.torcChunkArrival die tag seq src ch data) := .inl rfl
theorem Opcode.torcAbortReceive (die : Nat) (tag seq : BitVec 32) (rank : Nat) : Opcode.Statement (.torcAbortReceive die tag seq rank) := .inl rfl
theorem Opcode.collTimeout (die block : Nat) : Opcode.Statement (.collTimeout die block) := .inl rfl
theorem Opcode.poolTimeout (die block : Nat) : Opcode.Statement (.poolTimeout die block) := .inl rfl
theorem Opcode.detCommit (grid : Nat) : Opcode.Statement (.detCommit grid) := .inl rfl
theorem Opcode.hostCxlMemAccess (pa : Nat) (wr : Bool) (data : List (BitVec 8)) : Opcode.Statement (.hostCxlMemAccess pa wr data) := .inl rfl
theorem Opcode.hostSnoop (pa : Nat) : Opcode.Statement (.hostSnoop pa) := .inl rfl
theorem Opcode.eccUncorrectable (kind : EccPlace) (unit index : Nat) : Opcode.Statement (.eccUncorrectable kind unit index) := .inl rfl
theorem Opcode.meshLinkError (die stop : Nat) : Opcode.Statement (.meshLinkError die stop) := .inl rfl
theorem Opcode.hostPortDown : Opcode.Statement (.hostPortDown) := .inl rfl
theorem Opcode.hostPortRetrained : Opcode.Statement (.hostPortRetrained) := .inl rfl
theorem Opcode.hostRetrainTimeout : Opcode.Statement (.hostRetrainTimeout) := .inl rfl
theorem Opcode.ualinkPortDown (die port : Nat) : Opcode.Statement (.ualinkPortDown die port) := .inl rfl
theorem Opcode.poolPortDown : Opcode.Statement (.poolPortDown) := .inl rfl
theorem Opcode.mailboxWatchdog : Opcode.Statement (.mailboxWatchdog) := .inl rfl
theorem Opcode.overrunClear : Opcode.Statement (.overrunClear) := .inl rfl
theorem Opcode.mailboxWrite (off : Nat) (data : List (BitVec 8)) : Opcode.Statement (.mailboxWrite off data) := .inl rfl
theorem Opcode.ident : Opcode.Statement (.ident) := .inl rfl
theorem Opcode.resync : Opcode.Statement (.resync) := .inl rfl
theorem Opcode.ctxnew : Opcode.Statement (.ctxnew) := .inl rfl
theorem Opcode.ctxdel : Opcode.Statement (.ctxdel) := .inl rfl
theorem Opcode.resume : Opcode.Statement (.resume) := .inl rfl
theorem Opcode.ctxmapDieShared : Opcode.Statement (.ctxmapDieShared) := .inl rfl
theorem Opcode.ctxmapQueueBind : Opcode.Statement (.ctxmapQueueBind) := .inl rfl
theorem Opcode.ctxmapCounters : Opcode.Statement (.ctxmapCounters) := .inl rfl
theorem Opcode.ctxmapSemGrant : Opcode.Statement (.ctxmapSemGrant) := .inl rfl
theorem Opcode.ctxmapInvalidate : Opcode.Statement (.ctxmapInvalidate) := .inl rfl
theorem Opcode.cmdstart : Opcode.Statement (.cmdstart) := .inl rfl
theorem Opcode.cmdstop : Opcode.Statement (.cmdstop) := .inl rfl
theorem Opcode.preempt : Opcode.Statement (.preempt) := .inl rfl
theorem Opcode.poolcfg : Opcode.Statement (.poolcfg) := .inl rfl
theorem Opcode.attest : Opcode.Statement (.attest) := .inl rfl
theorem Opcode.measureRead : Opcode.Statement (.measureRead) := .inl rfl
theorem Opcode.measureExtend : Opcode.Statement (.measureExtend) := .inl rfl
theorem Opcode.fwlog : Opcode.Statement (.fwlog) := .inl rfl
theorem Opcode.degrade : Opcode.Statement (.degrade) := .inl rfl
theorem Opcode.reset : Opcode.Statement (.reset) := .inl rfl
theorem Opcode.nop : Opcode.Statement (.nop) :=
  Opcode.one _ rfl (by simp) (by decide) rfl (by decide)
theorem Opcode.add (f : BitVec 4) (d : BitVec 7) (a : BitVec 7) (b : BitVec 7) : Opcode.Statement (.add f d a b) :=
  Opcode.one _ rfl (by simp) (by decide) rfl (by simp only [total, at_]; omega)
theorem Opcode.sub (f : BitVec 4) (d : BitVec 7) (a : BitVec 7) (b : BitVec 7) : Opcode.Statement (.sub f d a b) :=
  Opcode.one _ rfl (by simp) (by decide) rfl (by simp only [total, at_]; omega)
theorem Opcode.addi (d : BitVec 7) (a : BitVec 7) (i : BitVec 11) (hi : Option (BitVec 25)) : Opcode.Statement (.addi d a i hi) :=
  Opcode.lit hi rfl (by decide) rfl (by simp only [total, at_]; omega)
theorem Opcode.mul (f : BitVec 4) (d : BitVec 7) (a : BitVec 7) (b : BitVec 7) : Opcode.Statement (.mul f d a b) :=
  Opcode.one _ rfl (by simp) (by decide) rfl (by simp only [total, at_]; omega)
theorem Opcode.mulh (f : BitVec 4) (d : BitVec 7) (a : BitVec 7) (b : BitVec 7) : Opcode.Statement (.mulh f d a b) :=
  Opcode.one _ rfl (by simp) (by decide) rfl (by simp only [total, at_]; omega)
theorem Opcode.mad (f : BitVec 4) (d : BitVec 7) (a : BitVec 7) (b : BitVec 7) : Opcode.Statement (.mad f d a b) :=
  Opcode.one _ rfl (by simp) (by decide) rfl (by simp only [total, at_]; omega)
theorem Opcode.and (f : BitVec 4) (d : BitVec 7) (a : BitVec 7) (b : BitVec 7) : Opcode.Statement (.and f d a b) :=
  Opcode.one _ rfl (by simp) (by decide) rfl (by simp only [total, at_]; omega)
theorem Opcode.or (f : BitVec 4) (d : BitVec 7) (a : BitVec 7) (b : BitVec 7) : Opcode.Statement (.or f d a b) :=
  Opcode.one _ rfl (by simp) (by decide) rfl (by simp only [total, at_]; omega)
theorem Opcode.xor (f : BitVec 4) (d : BitVec 7) (a : BitVec 7) (b : BitVec 7) : Opcode.Statement (.xor f d a b) :=
  Opcode.one _ rfl (by simp) (by decide) rfl (by simp only [total, at_]; omega)
theorem Opcode.andi (d : BitVec 7) (a : BitVec 7) (i : BitVec 11) (hi : Option (BitVec 25)) : Opcode.Statement (.andi d a i hi) :=
  Opcode.lit hi rfl (by decide) rfl (by simp only [total, at_]; omega)
theorem Opcode.ori (d : BitVec 7) (a : BitVec 7) (i : BitVec 11) (hi : Option (BitVec 25)) : Opcode.Statement (.ori d a i hi) :=
  Opcode.lit hi rfl (by decide) rfl (by simp only [total, at_]; omega)
theorem Opcode.xori (d : BitVec 7) (a : BitVec 7) (i : BitVec 11) (hi : Option (BitVec 25)) : Opcode.Statement (.xori d a i hi) :=
  Opcode.lit hi rfl (by decide) rfl (by simp only [total, at_]; omega)
theorem Opcode.shl (f : BitVec 4) (d : BitVec 7) (a : BitVec 7) (b : BitVec 7) : Opcode.Statement (.shl f d a b) :=
  Opcode.one _ rfl (by simp) (by decide) rfl (by simp only [total, at_]; omega)
theorem Opcode.shr (f : BitVec 4) (d : BitVec 7) (a : BitVec 7) (b : BitVec 7) : Opcode.Statement (.shr f d a b) :=
  Opcode.one _ rfl (by simp) (by decide) rfl (by simp only [total, at_]; omega)
theorem Opcode.sar (f : BitVec 4) (d : BitVec 7) (a : BitVec 7) (b : BitVec 7) : Opcode.Statement (.sar f d a b) :=
  Opcode.one _ rfl (by simp) (by decide) rfl (by simp only [total, at_]; omega)
theorem Opcode.rot (f : BitVec 4) (d : BitVec 7) (a : BitVec 7) (b : BitVec 7) : Opcode.Statement (.rot f d a b) :=
  Opcode.one _ rfl (by simp) (by decide) rfl (by simp only [total, at_]; omega)
theorem Opcode.bfx (f : BitVec 4) (d : BitVec 7) (a : BitVec 7) (b : BitVec 7) : Opcode.Statement (.bfx f d a b) :=
  Opcode.one _ rfl (by simp) (by decide) rfl (by simp only [total, at_]; omega)
theorem Opcode.bfi (f : BitVec 3) (d : BitVec 7) (a : BitVec 7) (b : BitVec 7) : Opcode.Statement (.bfi f d a b) :=
  Opcode.one _ rfl (by simp) (by decide) rfl (by simp only [total, at_]; omega)
theorem Opcode.bitc (f : BitVec 2) (w : BitVec 1) (d : BitVec 7) (a : BitVec 7) : Opcode.Statement (.bitc f w d a) :=
  Opcode.one _ rfl (by simp) (by decide) rfl (by simp only [total, at_]; omega)
theorem Opcode.min (u : BitVec 1) (w : BitVec 1) (s : BitVec 1) (d : BitVec 7) (a : BitVec 7) (b : BitVec 7) : Opcode.Statement (.min u w s d a b) :=
  Opcode.one _ rfl (by simp) (by decide) rfl (by simp only [total, at_]; omega)
theorem Opcode.max (u : BitVec 1) (w : BitVec 1) (s : BitVec 1) (d : BitVec 7) (a : BitVec 7) (b : BitVec 7) : Opcode.Statement (.max u w s d a b) :=
  Opcode.one _ rfl (by simp) (by decide) rfl (by simp only [total, at_]; omega)
theorem Opcode.cmp (c : BitVec 4) (v : BitVec 1) (w : BitVec 1) (p : BitVec 4) (a : BitVec 7) (b : BitVec 7) : Opcode.Statement (.cmp c v w p a b) :=
  Opcode.one _ rfl (by simp) (by decide) rfl (by simp only [total, at_]; omega)
theorem Opcode.cmpi (c : BitVec 4) (p : BitVec 4) (a : BitVec 7) (i : BitVec 10) (hi : Option (BitVec 25)) : Opcode.Statement (.cmpi c p a i hi) :=
  Opcode.lit hi rfl (by decide) rfl (by simp only [total, at_]; omega)
theorem Opcode.sel (p : BitVec 4) (d : BitVec 7) (a : BitVec 7) (b : BitVec 7) : Opcode.Statement (.sel p d a b) :=
  Opcode.one _ rfl (by simp) (by decide) rfl (by simp only [total, at_]; omega)
theorem Opcode.mov (f : BitVec 4) (d : BitVec 7) (a : BitVec 7) : Opcode.Statement (.mov f d a) :=
  Opcode.one _ rfl (by simp) (by decide) rfl (by simp only [total, at_]; omega)
theorem Opcode.movi (d : BitVec 7) (u : BitVec 1) (w : BitVec 1) (i : BitVec 11) (hi : Option (BitVec 25)) : Opcode.Statement (.movi d u w i hi) :=
  Opcode.lit hi rfl (by decide) rfl (by simp only [total, at_]; omega)
theorem Opcode.div (f : BitVec 4) (d : BitVec 7) (a : BitVec 7) (b : BitVec 7) : Opcode.Statement (.div f d a b) :=
  Opcode.one _ rfl (by simp) (by decide) rfl (by simp only [total, at_]; omega)
theorem Opcode.rem (f : BitVec 4) (d : BitVec 7) (a : BitVec 7) (b : BitVec 7) : Opcode.Statement (.rem f d a b) :=
  Opcode.one _ rfl (by simp) (by decide) rfl (by simp only [total, at_]; omega)
theorem Opcode.lea (n : BitVec 1) (s : BitVec 2) (d : BitVec 7) (a : BitVec 7) (g : BitVec 5) : Opcode.Statement (.lea n s d a g) :=
  Opcode.one _ rfl (by simp) (by decide) rfl (by simp only [total, at_]; omega)
theorem Opcode.leaLs (s : BitVec 2) (d : BitVec 7) (a : BitVec 7) : Opcode.Statement (.leaLs s d a) :=
  Opcode.one _ rfl (by simp) (by decide) rfl (by simp only [total, at_]; omega)
theorem Opcode.plog (t : BitVec 4) (d : BitVec 4) (a : BitVec 4) (b : BitVec 4) : Opcode.Statement (.plog t d a b) :=
  Opcode.one _ rfl (by simp) (by decide) rfl (by simp only [total, at_]; omega)
theorem Opcode.br (n : BitVec 1) (p : BitVec 4) (o : BitVec 20) : Opcode.Statement (.br n p o) :=
  Opcode.one _ rfl (by simp) (by decide) rfl (by simp only [total, at_]; omega)
theorem Opcode.bri (n : BitVec 1) (p : BitVec 4) (a : BitVec 7) : Opcode.Statement (.bri n p a) :=
  Opcode.one _ rfl (by simp) (by decide) rfl (by simp only [total, at_]; omega)
theorem Opcode.call (n : BitVec 1) (p : BitVec 4) (o : BitVec 20) : Opcode.Statement (.call n p o) :=
  Opcode.one _ rfl (by simp) (by decide) rfl (by simp only [total, at_]; omega)
theorem Opcode.calli (n : BitVec 1) (p : BitVec 4) (a : BitVec 7) : Opcode.Statement (.calli n p a) :=
  Opcode.one _ rfl (by simp) (by decide) rfl (by simp only [total, at_]; omega)
theorem Opcode.ret (n : BitVec 1) (p : BitVec 4) : Opcode.Statement (.ret n p) :=
  Opcode.one _ rfl (by simp) (by decide) rfl (by simp only [total, at_]; omega)
theorem Opcode.exit (n : BitVec 1) (p : BitVec 4) : Opcode.Statement (.exit n p) :=
  Opcode.one _ rfl (by simp) (by decide) rfl (by simp only [total, at_]; omega)
theorem Opcode.yield (n : BitVec 1) (p : BitVec 4) : Opcode.Statement (.yield n p) :=
  Opcode.one _ rfl (by simp) (by decide) rfl (by simp only [total, at_]; omega)
theorem Opcode.winb (r : BitVec 1) (i : BitVec 11) : Opcode.Statement (.winb r i) :=
  Opcode.one _ rfl (by simp) (by decide) rfl (by simp only [total, at_]; omega)
theorem Opcode.lshuf (f : BitVec 2) (w : BitVec 1) (x : BitVec 1) (d : BitVec 7) (a : BitVec 7) (b : BitVec 7) : Opcode.Statement (.lshuf f w x d a b) :=
  Opcode.one _ rfl (by simp) (by decide) rfl (by simp only [total, at_]; omega)
theorem Opcode.lpush (p : BitVec 4) (d : BitVec 7) (a : BitVec 7) (b : BitVec 7) : Opcode.Statement (.lpush p d a b) :=
  Opcode.one _ rfl (by simp) (by decide) rfl (by simp only [total, at_]; omega)
theorem Opcode.lrot (f : BitVec 2) (w : BitVec 1) (d : BitVec 7) (a : BitVec 7) (b : BitVec 7) : Opcode.Statement (.lrot f w d a b) :=
  Opcode.one _ rfl (by simp) (by decide) rfl (by simp only [total, at_]; omega)
theorem Opcode.lred (f : BitVec 4) (d : BitVec 7) (a : BitVec 7) : Opcode.Statement (.lred f d a) :=
  Opcode.one _ rfl (by simp) (by decide) rfl (by simp only [total, at_]; omega)
theorem Opcode.lscan (e : BitVec 1) (f : BitVec 3) (d : BitVec 7) (a : BitVec 7) : Opcode.Statement (.lscan e f d a) :=
  Opcode.one _ rfl (by simp) (by decide) rfl (by simp only [total, at_]; omega)
theorem Opcode.vote (w : BitVec 1) (f : BitVec 2) (d : BitVec 7) (a : BitVec 7) : Opcode.Statement (.vote w f d a) :=
  Opcode.one _ rfl (by simp) (by decide) rfl (by simp only [total, at_]; omega)
theorem Opcode.lmatch (w : BitVec 1) (d : BitVec 7) (a : BitVec 7) : Opcode.Statement (.lmatch w d a) :=
  Opcode.one _ rfl (by simp) (by decide) rfl (by simp only [total, at_]; omega)
theorem Opcode.fadd (r : BitVec 2) (t : BitVec 2) (d : BitVec 7) (a : BitVec 7) (b : BitVec 7) : Opcode.Statement (.fadd r t d a b) :=
  Opcode.one _ rfl (by simp) (by decide) rfl (by simp only [total, at_]; omega)
theorem Opcode.fsub (r : BitVec 2) (t : BitVec 2) (d : BitVec 7) (a : BitVec 7) (b : BitVec 7) : Opcode.Statement (.fsub r t d a b) :=
  Opcode.one _ rfl (by simp) (by decide) rfl (by simp only [total, at_]; omega)
theorem Opcode.fmul (r : BitVec 2) (t : BitVec 2) (d : BitVec 7) (a : BitVec 7) (b : BitVec 7) : Opcode.Statement (.fmul r t d a b) :=
  Opcode.one _ rfl (by simp) (by decide) rfl (by simp only [total, at_]; omega)
theorem Opcode.ffma (r : BitVec 2) (t : BitVec 2) (d : BitVec 7) (a : BitVec 7) (b : BitVec 7) : Opcode.Statement (.ffma r t d a b) :=
  Opcode.one _ rfl (by simp) (by decide) rfl (by simp only [total, at_]; omega)
theorem Opcode.ffmat (c : BitVec 3) (y : BitVec 1) (d : BitVec 7) (a : BitVec 7) (b : BitVec 7) : Opcode.Statement (.ffmat c y d a b) :=
  Opcode.one _ rfl (by simp) (by decide) rfl (by simp only [total, at_]; omega)
theorem Opcode.fmin (t : BitVec 2) (d : BitVec 7) (a : BitVec 7) (b : BitVec 7) : Opcode.Statement (.fmin t d a b) :=
  Opcode.one _ rfl (by simp) (by decide) rfl (by simp only [total, at_]; omega)
theorem Opcode.fmax (t : BitVec 2) (d : BitVec 7) (a : BitVec 7) (b : BitVec 7) : Opcode.Statement (.fmax t d a b) :=
  Opcode.one _ rfl (by simp) (by decide) rfl (by simp only [total, at_]; omega)
theorem Opcode.fcmp (c : BitVec 4) (t : BitVec 2) (p : BitVec 4) (a : BitVec 7) (b : BitVec 7) : Opcode.Statement (.fcmp c t p a b) :=
  Opcode.one _ rfl (by simp) (by decide) rfl (by simp only [total, at_]; omega)
theorem Opcode.fcvt (d : BitVec 7) (a : BitVec 7) (b : BitVec 7) (dt : BitVec 4) (st : BitVec 4) (rnd : BitVec 3) (seed : BitVec 6) : Opcode.Statement (.fcvt d a b dt st rnd seed) :=
  Opcode.one _ rfl (by simp) (by decide) rfl (by simp only [total, at_]; omega)
theorem Opcode.frnd (r : BitVec 2) (t : BitVec 2) (d : BitVec 7) (a : BitVec 7) : Opcode.Statement (.frnd r t d a) :=
  Opcode.one _ rfl (by simp) (by decide) rfl (by simp only [total, at_]; omega)
theorem Opcode.fdiv (r : BitVec 2) (t : BitVec 2) (d : BitVec 7) (a : BitVec 7) (b : BitVec 7) : Opcode.Statement (.fdiv r t d a b) :=
  Opcode.one _ rfl (by simp) (by decide) rfl (by simp only [total, at_]; omega)
theorem Opcode.fsqrt (r : BitVec 2) (t : BitVec 2) (d : BitVec 7) (a : BitVec 7) : Opcode.Statement (.fsqrt r t d a) :=
  Opcode.one _ rfl (by simp) (by decide) rfl (by simp only [total, at_]; omega)
theorem Opcode.fsfu (f : BitVec 3) (d : BitVec 7) (a : BitVec 7) : Opcode.Statement (.fsfu f d a) :=
  Opcode.one _ rfl (by simp) (by decide) rfl (by simp only [total, at_]; omega)
theorem Opcode.fsgn (o : BitVec 2) (t : BitVec 2) (d : BitVec 7) (a : BitVec 7) (b : BitVec 7) : Opcode.Statement (.fsgn o t d a b) :=
  Opcode.one _ rfl (by simp) (by decide) rfl (by simp only [total, at_]; omega)
theorem Opcode.fclass (t : BitVec 2) (d : BitVec 7) (a : BitVec 7) : Opcode.Statement (.fclass t d a) :=
  Opcode.one _ rfl (by simp) (by decide) rfl (by simp only [total, at_]; omega)
theorem Opcode.lut (t : BitVec 2) (d : BitVec 7) (a : BitVec 7) : Opcode.Statement (.lut t d a) :=
  Opcode.one _ rfl (by simp) (by decide) rfl (by simp only [total, at_]; omega)
theorem Opcode.lutld (t : BitVec 2) (d : BitVec 7) (g : BitVec 5) : Opcode.Statement (.lutld t d g) :=
  Opcode.one _ rfl (by simp) (by decide) rfl (by simp only [total, at_]; omega)
theorem Opcode.ld (s : BitVec 3) (d : BitVec 7) (g : BitVec 5) (o : BitVec 9) : Opcode.Statement (.ld s d g o) :=
  Opcode.one _ rfl (by simp) (by decide) rfl (by simp only [total, at_]; omega)
theorem Opcode.st (s : BitVec 3) (d : BitVec 7) (g : BitVec 5) (o : BitVec 9) : Opcode.Statement (.st s d g o) :=
  Opcode.one _ rfl (by simp) (by decide) rfl (by simp only [total, at_]; omega)
theorem Opcode.lds (o : BitVec 2) (z : BitVec 2) (d : BitVec 7) (g : BitVec 5) (s : BitVec 3) : Opcode.Statement (.lds o z d g s) :=
  Opcode.one _ rfl (by simp) (by decide) rfl (by simp only [total, at_]; omega)
theorem Opcode.sts (o : BitVec 2) (z : BitVec 2) (d : BitVec 7) (g : BitVec 5) (s : BitVec 3) : Opcode.Statement (.sts o z d g s) :=
  Opcode.one _ rfl (by simp) (by decide) rfl (by simp only [total, at_]; omega)
theorem Opcode.ldx (s : BitVec 3) (d : BitVec 7) (g : BitVec 5) (i : BitVec 7) (c : BitVec 2) : Opcode.Statement (.ldx s d g i c) :=
  Opcode.one _ rfl (by simp) (by decide) rfl (by simp only [total, at_]; omega)
theorem Opcode.stx (s : BitVec 3) (d : BitVec 7) (g : BitVec 5) (i : BitVec 7) (c : BitVec 2) : Opcode.Statement (.stx s d g i c) :=
  Opcode.one _ rfl (by simp) (by decide) rfl (by simp only [total, at_]; omega)
theorem Opcode.atom (f : BitVec 4) (d : BitVec 7) (a : BitVec 7) (g : BitVec 5) (o : BitVec 2) (sc : BitVec 3) (ty : BitVec 2) : Opcode.Statement (.atom f d a g o sc ty) :=
  Opcode.one _ rfl (by simp) (by decide) rfl (by simp only [total, at_]; omega)
theorem Opcode.acas (d : BitVec 7) (a : BitVec 7) (b : BitVec 7) (g : BitVec 5) (o : BitVec 2) (sc : BitVec 3) (ty : BitVec 2) (p : BitVec 4) : Opcode.Statement (.acas d a b g o sc ty p) :=
  Opcode.one _ rfl (by simp) (by decide) rfl (by simp only [total, at_]; omega)
theorem Opcode.fatom (f : BitVec 4) (d : BitVec 7) (a : BitVec 7) (g : BitVec 5) (o : BitVec 2) (sc : BitVec 3) (ty : BitVec 2) : Opcode.Statement (.fatom f d a g o sc ty) :=
  Opcode.one _ rfl (by simp) (by decide) rfl (by simp only [total, at_]; omega)
theorem Opcode.gadd (a : BitVec 7) (g : BitVec 5) (o : BitVec 2) (sc : BitVec 3) (ty : BitVec 1) : Opcode.Statement (.gadd a g o sc ty) :=
  Opcode.one _ rfl (by simp) (by decide) rfl (by simp only [total, at_]; omega)
theorem Opcode.phase (s : BitVec 3) : Opcode.Statement (.phase s) :=
  Opcode.one _ rfl (by simp) (by decide) rfl (by simp only [total, at_]; omega)
theorem Opcode.phasePub (s : BitVec 3) : Opcode.Statement (.phasePub s) :=
  Opcode.one _ rfl (by simp) (by decide) rfl (by simp only [total, at_]; omega)
theorem Opcode.phaseAcq (s : BitVec 3) : Opcode.Statement (.phaseAcq s) :=
  Opcode.one _ rfl (by simp) (by decide) rfl (by simp only [total, at_]; omega)
theorem Opcode.fencesc : Opcode.Statement (.fencesc) :=
  Opcode.one _ rfl (by simp) (by decide) rfl (by decide)
theorem Opcode.gset (u : BitVec 1) (g : BitVec 5) (a : BitVec 7) (b : BitVec 7) (perm : BitVec 4) (kind : BitVec 2) : Opcode.Statement (.gset u g a b perm kind) :=
  Opcode.one _ rfl (by simp) (by decide) rfl (by simp only [total, at_]; omega)
theorem Opcode.gadv (g : BitVec 5) (a : BitVec 7) (w : BitVec 1) (s : BitVec 2) : Opcode.Statement (.gadv g a w s) :=
  Opcode.one _ rfl (by simp) (by decide) rfl (by simp only [total, at_]; omega)
theorem Opcode.gget (d : BitVec 7) (g : BitVec 5) (f : BitVec 2) : Opcode.Statement (.gget d g f) :=
  Opcode.one _ rfl (by simp) (by decide) rfl (by simp only [total, at_]; omega)
theorem Opcode.gptr (g : BitVec 5) (a : BitVec 7) : Opcode.Statement (.gptr g a) :=
  Opcode.one _ rfl (by simp) (by decide) rfl (by simp only [total, at_]; omega)
theorem Opcode.barSync (s : BitVec 1) (i : BitVec 4) : Opcode.Statement (.barSync s i) :=
  Opcode.one _ rfl (by simp) (by decide) rfl (by simp only [total, at_]; omega)
theorem Opcode.barArrive (s : BitVec 1) (i : BitVec 4) : Opcode.Statement (.barArrive s i) :=
  Opcode.one _ rfl (by simp) (by decide) rfl (by simp only [total, at_]; omega)
theorem Opcode.barWait (s : BitVec 1) (i : BitVec 4) : Opcode.Statement (.barWait s i) :=
  Opcode.one _ rfl (by simp) (by decide) rfl (by simp only [total, at_]; omega)
theorem Opcode.slwait (d : BitVec 7) (g : BitVec 5) : Opcode.Statement (.slwait d g) :=
  Opcode.one _ rfl (by simp) (by decide) rfl (by simp only [total, at_]; omega)
theorem Opcode.slrel (g : BitVec 5) (b : BitVec 7) : Opcode.Statement (.slrel g b) :=
  Opcode.one _ rfl (by simp) (by decide) rfl (by simp only [total, at_]; omega)
theorem Opcode.slfree (d : BitVec 7) (g : BitVec 5) : Opcode.Statement (.slfree d g) :=
  Opcode.one _ rfl (by simp) (by decide) rfl (by simp only [total, at_]; omega)
theorem Opcode.slcommit (g : BitVec 5) (b : BitVec 7) : Opcode.Statement (.slcommit g b) :=
  Opcode.one _ rfl (by simp) (by decide) rfl (by simp only [total, at_]; omega)
theorem Opcode.mmq (k : BitVec 4) (acc : BitVec 4) (s : BitVec 2) (ga : BitVec 5) (gb : BitVec 5) (wsa : BitVec 6) (wsb : BitVec 6) : Opcode.Statement (.mmq k acc s ga gb wsa wsb) :=
  Opcode.one _ rfl (by simp) (by decide) rfl (by simp only [total, at_]; omega)
theorem Opcode.accz (m : BitVec 1) (acc : BitVec 4) (anchor : BitVec 16) : Opcode.Statement (.accz m acc anchor) :=
  Opcode.one _ rfl (by simp) (by decide) rfl (by simp only [total, at_]; omega)
theorem Opcode.accdr (f : BitVec 4) (acc : BitVec 4) (td : BitVec 1) (a : BitVec 5) (rg : BitVec 5) (res : BitVec 1) (rnd : BitVec 3) (scl : BitVec 1) (drop : BitVec 1) (wu : BitVec 6) : Opcode.Statement (.accdr f acc td a rg res rnd scl drop wu) :=
  Opcode.one _ rfl (by simp) (by decide) rfl (by simp only [total, at_]; omega)
theorem Opcode.accsvSave (acc : BitVec 4) (g : BitVec 5) : Opcode.Statement (.accsvSave acc g) :=
  Opcode.one _ rfl (by simp) (by decide) rfl (by simp only [total, at_]; omega)
theorem Opcode.accsvLoad (acc : BitVec 4) (g : BitVec 5) : Opcode.Statement (.accsvLoad acc g) :=
  Opcode.one _ rfl (by simp) (by decide) rfl (by simp only [total, at_]; omega)
theorem Opcode.tld (t : BitVec 3) (g : BitVec 5) (ws : BitVec 6) : Opcode.Statement (.tld t g ws) :=
  Opcode.one _ rfl (by simp) (by decide) rfl (by simp only [total, at_]; omega)
theorem Opcode.tst (t : BitVec 3) (g : BitVec 5) (ws : BitVec 6) : Opcode.Statement (.tst t g ws) :=
  Opcode.one _ rfl (by simp) (by decide) rfl (by simp only [total, at_]; omega)
theorem Opcode.accrd (f : BitVec 2) (d : BitVec 7) (a : BitVec 7) (c : BitVec 4) : Opcode.Statement (.accrd f d a c) :=
  Opcode.one _ rfl (by simp) (by decide) rfl (by simp only [total, at_]; omega)
theorem Opcode.binctlDecl (id : BitVec 6) (g : BitVec 5) : Opcode.Statement (.binctlDecl id g) :=
  Opcode.one _ rfl (by simp) (by decide) rfl (by decide)
theorem Opcode.binctlFin (id : BitVec 6) (a : BitVec 7) (b : BitVec 7) : Opcode.Statement (.binctlFin id a b) :=
  Opcode.one _ rfl (by simp) (by decide) rfl (by simp only [total, at_]; omega)
theorem Opcode.binctlFinclr (id : BitVec 6) (a : BitVec 7) (b : BitVec 7) : Opcode.Statement (.binctlFinclr id a b) :=
  Opcode.one _ rfl (by simp) (by decide) rfl (by simp only [total, at_]; omega)
theorem Opcode.binctlFree (id : BitVec 6) : Opcode.Statement (.binctlFree id) :=
  Opcode.one _ rfl (by simp) (by decide) rfl (by decide)
theorem Opcode.rast (sc : BitVec 2) (d : BitVec 7) (wv : BitVec 6) (wt : BitVec 6) (p : BitVec 4) (si : BitVec 7) : Opcode.Statement (.rast sc d wv wt p si) :=
  Opcode.one _ rfl (by simp) (by decide) rfl (by simp only [total, at_]; omega)
theorem Opcode.rastg (sc : BitVec 2) (g : BitVec 5) (a : BitVec 7) (b : BitVec 7) (wv : BitVec 6) (p : BitVec 4) (si : BitVec 7) : Opcode.Statement (.rastg sc g a b wv p si) :=
  Opcode.one _ rfl (by simp) (by decide) rfl (by simp only [total, at_]; omega)
theorem Opcode.edgs (d : BitVec 7) (wv : BitVec 6) (wt : BitVec 6) (p : BitVec 4) (wk : BitVec 6) : Opcode.Statement (.edgs d wv wt p wk) :=
  Opcode.one _ rfl (by simp) (by decide) rfl (by simp only [total, at_]; omega)
theorem Opcode.tex (lz : BitVec 1) (d : BitVec 7) (a : BitVec 7) (b : BitVec 7) : Opcode.Statement (.tex lz d a b) :=
  Opcode.one _ rfl (by simp) (by decide) rfl (by simp only [total, at_]; omega)
theorem Opcode.texg (lz : BitVec 1) (ch : BitVec 2) (d : BitVec 7) (a : BitVec 7) (b : BitVec 7) : Opcode.Statement (.texg lz ch d a b) :=
  Opcode.one _ rfl (by simp) (by decide) rfl (by simp only [total, at_]; omega)
theorem Opcode.texl (d : BitVec 7) (a : BitVec 7) (b : BitVec 7) : Opcode.Statement (.texl d a b) :=
  Opcode.one _ rfl (by simp) (by decide) rfl (by simp only [total, at_]; omega)
theorem Opcode.texb (lz : BitVec 1) (d : BitVec 7) (a : BitVec 7) (b : BitVec 7) (gr : BitVec 7) : Opcode.Statement (.texb lz d a b gr) :=
  Opcode.one _ rfl (by simp) (by decide) rfl (by simp only [total, at_]; omega)
theorem Opcode.rrecDim (d : BitVec 7) (a : BitVec 7) (b : BitVec 7) : Opcode.Statement (.rrecDim d a b) :=
  Opcode.one _ rfl (by simp) (by decide) rfl (by simp only [total, at_]; omega)
theorem Opcode.rrecFmt (d : BitVec 7) (b : BitVec 7) : Opcode.Statement (.rrecFmt d b) :=
  Opcode.one _ rfl (by simp) (by decide) rfl (by simp only [total, at_]; omega)
theorem Opcode.rrecInv : Opcode.Statement (.rrecInv) :=
  Opcode.one _ rfl (by simp) (by decide) rfl (by decide)
theorem Opcode.rqinit (q : BitVec 1) (d : BitVec 7) (a : BitVec 7) (log : BitVec 1) (fp : BitVec 1) (opq : BitVec 1) (fht : BitVec 1) : Opcode.Statement (.rqinit q d a log fp opq fht) :=
  Opcode.one _ rfl (by simp) (by decide) rfl (by simp only [total, at_]; omega)
theorem Opcode.rqproc (q : BitVec 1) (d : BitVec 7) (a : BitVec 7) : Opcode.Statement (.rqproc q d a) :=
  Opcode.one _ rfl (by simp) (by decide) rfl (by simp only [total, at_]; omega)
theorem Opcode.rqcand (f : BitVec 3) (q : BitVec 1) (d : BitVec 7) (a : BitVec 7) : Opcode.Statement (.rqcand f q d a) :=
  Opcode.one _ rfl (by simp) (by decide) rfl (by simp only [total, at_]; omega)
theorem Opcode.rqcommit (q : BitVec 1) (a : BitVec 7) (b : BitVec 7) : Opcode.Statement (.rqcommit q a b) :=
  Opcode.one _ rfl (by simp) (by decide) rfl (by simp only [total, at_]; omega)
theorem Opcode.rqabort (q : BitVec 1) : Opcode.Statement (.rqabort q) :=
  Opcode.one _ rfl (by simp) (by decide) rfl (by simp only [total, at_]; omega)
theorem Opcode.rqres (f : BitVec 3) (q : BitVec 1) (d : BitVec 7) (a : BitVec 7) : Opcode.Statement (.rqres f q d a) :=
  Opcode.one _ rfl (by simp) (by decide) rfl (by simp only [total, at_]; omega)
theorem Opcode.rqgrad (d : BitVec 7) (a : BitVec 7) (b : BitVec 7) (ir : BitVec 7) (gu : BitVec 7) (g : BitVec 5) (k : BitVec 1) : Opcode.Statement (.rqgrad d a b ir gu g k) :=
  Opcode.one _ rfl (by simp) (by decide) rfl (by simp only [total, at_]; omega)
theorem Opcode.rqtri (d : BitVec 7) (a : BitVec 7) (b : BitVec 7) (ir : BitVec 7) (p : BitVec 4) (k : BitVec 1) : Opcode.Statement (.rqtri d a b ir p k) :=
  Opcode.one _ rfl (by simp) (by decide) rfl (by simp only [total, at_]; omega)
theorem Opcode.trec (n : BitVec 2) (k : BitVec 7) (a : BitVec 7) : Opcode.Statement (.trec n k a) :=
  Opcode.one _ rfl (by simp) (by decide) rfl (by simp only [total, at_]; omega)
theorem Opcode.tpop (d : BitVec 7) (a : BitVec 7) : Opcode.Statement (.tpop d a) :=
  Opcode.one _ rfl (by simp) (by decide) rfl (by simp only [total, at_]; omega)
theorem Opcode.tmarkOpen (a : BitVec 7) (b : BitVec 7) : Opcode.Statement (.tmarkOpen a b) :=
  Opcode.one _ rfl (by simp) (by decide) rfl (by simp only [total, at_]; omega)
theorem Opcode.tmarkClose : Opcode.Statement (.tmarkClose) :=
  Opcode.one _ rfl (by simp) (by decide) rfl (by decide)
theorem Opcode.tctlBind (g : BitVec 5) : Opcode.Statement (.tctlBind g) :=
  Opcode.one _ rfl (by simp) (by decide) rfl (by simp only [total, at_]; omega)
theorem Opcode.tctlStat (d : BitVec 7) : Opcode.Statement (.tctlStat d) :=
  Opcode.one _ rfl (by simp) (by decide) rfl (by simp only [total, at_]; omega)
theorem Opcode.tctlSeek (a : BitVec 7) : Opcode.Statement (.tctlSeek a) :=
  Opcode.one _ rfl (by simp) (by decide) rfl (by simp only [total, at_]; omega)
theorem Opcode.tctlSync : Opcode.Statement (.tctlSync) :=
  Opcode.one _ rfl (by simp) (by decide) rfl (by decide)
theorem Opcode.rsvupd (q : BitVec 3) (a : BitVec 7) (b : BitVec 7) : Opcode.Statement (.rsvupd q a b) :=
  Opcode.one _ rfl (by simp) (by decide) rfl (by simp only [total, at_]; omega)
theorem Opcode.rsvmrg (s : BitVec 3) (d : BitVec 3) (a : BitVec 7) (b : BitVec 7) : Opcode.Statement (.rsvmrg s d a b) :=
  Opcode.one _ rfl (by simp) (by decide) rfl (by simp only [total, at_]; omega)
theorem Opcode.rsvinit (q : BitVec 3) : Opcode.Statement (.rsvinit q) :=
  Opcode.one _ rfl (by simp) (by decide) rfl (by simp only [total, at_]; omega)
theorem Opcode.rsvfin (d : BitVec 7) (q : BitVec 3) : Opcode.Statement (.rsvfin d q) :=
  Opcode.one _ rfl (by simp) (by decide) rfl (by simp only [total, at_]; omega)
theorem Opcode.rsvget (d : BitVec 7) (q : BitVec 3) (b : BitVec 7) : Opcode.Statement (.rsvget d q b) :=
  Opcode.one _ rfl (by simp) (by decide) rfl (by simp only [total, at_]; omega)
theorem Opcode.rsvset (q : BitVec 3) (a : BitVec 7) (b : BitVec 7) : Opcode.Statement (.rsvset q a b) :=
  Opcode.one _ rfl (by simp) (by decide) rfl (by simp only [total, at_]; omega)
theorem Opcode.clove (u : BitVec 1) (k : BitVec 1) (d : BitVec 7) (a : BitVec 7) (b : BitVec 7) : Opcode.Statement (.clove u k d a b) :=
  Opcode.one _ rfl (by simp) (by decide) rfl (by simp only [total, at_]; omega)
theorem Opcode.spawn (g : BitVec 5) (dm : BitVec 4) (ctr : BitVec 12) (sig : BitVec 1) : Opcode.Statement (.spawn g dm ctr sig) :=
  Opcode.one _ rfl (by simp) (by decide) rfl (by decide)
theorem Opcode.tqadd (g : BitVec 5) (q : BitVec 6) (xd : BitVec 1) (die : BitVec 2) : Opcode.Statement (.tqadd g q xd die) :=
  Opcode.one _ rfl (by simp) (by decide) rfl (by decide)
theorem Opcode.tqget (d : BitVec 7) (q : BitVec 6) : Opcode.Statement (.tqget d q) :=
  Opcode.one _ rfl (by simp) (by decide) rfl (by simp only [total, at_]; omega)
theorem Opcode.depopSet (d : BitVec 7) (a : BitVec 7) (b : BitVec 7) : Opcode.Statement (.depopSet d a b) :=
  Opcode.one _ rfl (by simp) (by decide) rfl (by simp only [total, at_]; omega)
theorem Opcode.depopAdd (d : BitVec 7) (a : BitVec 7) (b : BitVec 7) : Opcode.Statement (.depopAdd d a b) :=
  Opcode.one _ rfl (by simp) (by decide) rfl (by simp only [total, at_]; omega)
theorem Opcode.depopGet (d : BitVec 7) (a : BitVec 7) : Opcode.Statement (.depopGet d a) :=
  Opcode.one _ rfl (by simp) (by decide) rfl (by simp only [total, at_]; omega)
theorem Opcode.spush (d : BitVec 7) (g : BitVec 5) (o : BitVec 1) : Opcode.Statement (.spush d g o) :=
  Opcode.one _ rfl (by simp) (by decide) rfl (by simp only [total, at_]; omega)
theorem Opcode.spop (d : BitVec 7) (g : BitVec 5) : Opcode.Statement (.spop d g) :=
  Opcode.one _ rfl (by simp) (by decide) rfl (by simp only [total, at_]; omega)
theorem Opcode.sctlClose (o : BitVec 2) : Opcode.Statement (.sctlClose o) :=
  Opcode.one _ rfl (by simp) (by decide) rfl (by simp only [total, at_]; omega)
theorem Opcode.sctlStat (d : BitVec 7) (o : BitVec 2) : Opcode.Statement (.sctlStat d o) :=
  Opcode.one _ rfl (by simp) (by decide) rfl (by simp only [total, at_]; omega)
theorem Opcode.sysr (d : BitVec 7) (c : BitVec 1) (w : BitVec 1) (s : BitVec 11) : Opcode.Statement (.sysr d c w s) :=
  Opcode.one _ rfl (by simp) (by decide) rfl (by simp only [total, at_]; omega)
theorem Opcode.sysw (c : BitVec 1) (w : BitVec 1) (a : BitVec 7) (s : BitVec 11) : Opcode.Statement (.sysw c w a s) :=
  Opcode.one _ rfl (by simp) (by decide) rfl (by simp only [total, at_]; omega)
theorem Opcode.trap (i : BitVec 11) : Opcode.Statement (.trap i) :=
  Opcode.one _ rfl (by simp) (by decide) rfl (by simp only [total, at_]; omega)
theorem Opcode.icinv : Opcode.Statement (.icinv) :=
  Opcode.one _ rfl (by simp) (by decide) rfl (by decide)
theorem Opcode.sleep (v : BitVec 1) (a : BitVec 7) (i : BitVec 11) : Opcode.Statement (.sleep v a i) :=
  Opcode.one _ rfl (by simp) (by decide) rfl (by simp only [total, at_]; omega)
theorem Opcode.fwret : Opcode.Statement (.fwret) :=
  Opcode.one _ rfl (by simp) (by decide) rfl (by decide)
theorem Opcode.cpxLaunch (a : BitVec 7) (b : BitVec 7) (sem : BitVec 12) (dm : BitVec 4) (sig : BitVec 1) (add : BitVec 1) : Opcode.Statement (.cpxLaunch a b sem dm sig add) :=
  Opcode.one _ rfl (by simp) (by decide) rfl (by simp only [total, at_]; omega)
theorem Opcode.cpxSemwait (d : BitVec 7) (a : BitVec 7) (sem : BitVec 12) (ne : BitVec 1) : Opcode.Statement (.cpxSemwait d a sem ne) :=
  Opcode.one _ rfl (by simp) (by decide) rfl (by simp only [total, at_]; omega)
theorem Opcode.cpxSemsig (a : BitVec 7) (sem : BitVec 12) : Opcode.Statement (.cpxSemsig a sem) :=
  Opcode.one _ rfl (by simp) (by decide) rfl (by simp only [total, at_]; omega)
theorem Opcode.cpxSemadd (d : BitVec 7) (a : BitVec 7) (sem : BitVec 12) : Opcode.Statement (.cpxSemadd d a sem) :=
  Opcode.one _ rfl (by simp) (by decide) rfl (by simp only [total, at_]; omega)
theorem Opcode.cpxCcopy (d : BitVec 7) (a : BitVec 7) (b : BitVec 7) (sem : BitVec 12) (sig : BitVec 1) (add : BitVec 1) (v : BitVec 7) : Opcode.Statement (.cpxCcopy d a b sem sig add v) :=
  Opcode.one _ rfl (by simp) (by decide) rfl (by simp only [total, at_]; omega)
theorem Opcode.cpxIrq (vec : BitVec 11) : Opcode.Statement (.cpxIrq vec) :=
  Opcode.one _ rfl (by simp) (by decide) rfl (by decide)
theorem Opcode.cpxChalt : Opcode.Statement (.cpxChalt) :=
  Opcode.one _ rfl (by simp) (by decide) rfl (by decide)
theorem Opcode.submit (val : BitVec 32) : Opcode.Statement (.submit val) := .inl rfl
theorem Opcode.msixVectorUnmask (vec : Nat) : Opcode.Statement (.msixVectorUnmask vec) := .inl rfl

end Sys2Proof.Laws
end

