-- ==== Sys2Proof/Laws/Registers.lean ====
section
/-! SUPPORT. Registers: what a register write may change, what putting results in flight and landing them may change, and
that tidy states stay tidy under them. -/

namespace Sys2Proof.Machine

/-- A register write changes one thread or one group. -/
theorem setReg_spec (s : State) (w : RegWrite) : ∃ threads groups, s.setReg w = { s with threads := threads, groups := groups } := by
  cases w
  case pred t n b =>
    simp only [State.setReg]
    split
    · exact ⟨_, _, rfl⟩
    · exact ⟨_, _, rfl⟩
  all_goals exact ⟨_, _, rfl⟩

/-- Putting cells in a table keeps its keys rising. -/
theorem putCells_rising : ∀ (l : List (BitVec 16 × Nat)) {t : Tab (BitVec 16)}, Tab.risingFrom 0 t = true →
    Tab.risingFrom 0 (l.foldl (fun t e => Tab.put 0 t e.2 e.1) t) = true
  | [], _, h => h
  | _ :: r, _, h => putCells_rising r (Tab.rising_put _ _ h)

theorem setReg_tidy {s : State} (h : s.tidy = true) (w : RegWrite) : (s.setReg w).tidy = true := by
  cases w
  case pred t n b =>
    simp only [State.setReg]
    split
    · exact h
    · exact setThr_tidy h t (by have := tidy_thr h t; simpa only [Thread.tidy] using this)
  case ureg t n v =>
    have := tidy_grp h t
    simp only [Group.tidy, Bool.and_eq_true] at this
    exact setGrp_tidy h t (by simp only [Group.tidy, Bool.and_eq_true]; exact ⟨⟨⟨Tab.rising_put _ _ this.1.1.1, this.1.1.2⟩, this.1.2⟩, this.2⟩)
  case gfield t n v =>
    have := tidy_grp h t
    simp only [Group.tidy, Bool.and_eq_true] at this
    exact setGrp_tidy h t (by simp only [Group.tidy, Bool.and_eq_true]; exact ⟨⟨⟨this.1.1.1, Tab.rising_put _ _ this.1.1.2⟩, this.1.2⟩, this.2⟩)
  case tile g row cells bad =>
    have := tidy_grp h g
    simp only [Group.tidy, Bool.and_eq_true] at this
    exact setGrp_tidy h g (by
      simp only [Group.tidy, Group.putRow, Bool.and_eq_true]; exact ⟨⟨this.1.1, putCells_rising _ this.1.2⟩, this.2⟩)
  all_goals
    rename_i t n v
    have := tidy_thr h t
    simp only [Thread.tidy, Bool.and_eq_true] at this
    refine setThr_tidy h t ?_
    simp only [Thread.tidy, Bool.and_eq_true]
    exact ⟨⟨⟨by first | exact this.1.1.1 | exact Tab.rising_put _ _ this.1.1.1, by first | exact this.1.1.2 | exact Tab.rising_put _ _ this.1.1.2⟩,
      by first | exact this.1.2 | exact Tab.rising_put _ _ this.1.2⟩, by first | exact this.2 | exact Tab.rising_put _ _ this.2⟩

/-- Removing a register's poison mark changes the poisoned registers only. -/
theorem cleanReg_spec (s : State) (w : RegWrite) : ∃ p, s.cleanReg w = { s with poisonReg := p } := by
  cases w <;> exact ⟨_, rfl⟩

/-- Register writes in order change threads, groups and poison marks of registers only. -/
theorem writeRegs_spec : ∀ (ws : List RegWrite) (s : State), ∃ threads groups poisonReg,
    s.writeRegs ws = { s with threads := threads, groups := groups, poisonReg := poisonReg }
  | [], s => ⟨s.threads, s.groups, s.poisonReg, rfl⟩
  | w :: ws, s => by
    have step : ∃ a b c, s.writeReg w = { s with threads := a, groups := b, poisonReg := c } := by
      obtain ⟨a, b, e⟩ := setReg_spec s w
      rw [State.writeReg]
      split
      · exact ⟨a, b, s.poisonReg, e⟩
      · obtain ⟨p, e'⟩ := cleanReg_spec (s.setReg w) w
        exact ⟨a, b, p, by rw [e', e]⟩
    obtain ⟨a, b, c, e⟩ := step
    obtain ⟨a', b', c', e'⟩ := writeRegs_spec ws (s.writeReg w)
    refine ⟨a', b', c', ?_⟩
    show (s.writeReg w).writeRegs ws = _
    rw [e', e]

theorem writeRegs_tidy : ∀ {ws : List RegWrite} {s : State}, s.tidy = true → (s.writeRegs ws).tidy = true
  | [], _, h => h
  | w :: ws, s, h => by
    have : (s.writeReg w).tidy = true := by
      rw [State.writeReg]
      split
      · exact setReg_tidy h w
      · obtain ⟨p, e⟩ := cleanReg_spec (s.setReg w) w
        rw [e]; exact setReg_tidy h w
    exact writeRegs_tidy (ws := ws) this

/-- Replacing the run changes the issuers only. -/
theorem setRun_spec (s : State) (r : Run) : ∃ slots, s.setRun r = { s with slots := slots } := by
  rw [State.setRun]
  split
  · exact ⟨_, rfl⟩
  · exact ⟨s.slots, rfl⟩

/-- Marking temporaries changes threads only. -/
theorem markTemps_spec : ∀ (ws : List RegWrite) (s : State), ∃ threads, s.markTemps ws = { s with threads := threads }
  | [], s => ⟨s.threads, rfl⟩
  | w :: ws, s => by
    have step : ∃ a, (match w with
        | .temp t n _ => s.updThr t fun x => { x with tmMask := x.tmMask ||| (1#6 <<< n) }
        | _ => s) = { s with threads := a } := by
      cases w <;> exact ⟨_, rfl⟩
    obtain ⟨a, e⟩ := step
    obtain ⟨a', e'⟩ := markTemps_spec ws { s with threads := a }
    refine ⟨a', ?_⟩
    rw [← e] at e'
    exact e'.trans (by rw [e])

/-- Fixed-latency results in flight change the run and the threads' masks only. -/
theorem fixed_spec (s : State) (lat : Nat) (ws : List RegWrite) : ∃ slots threads, s.fixed lat ws = { s with slots := slots, threads := threads } := by
  obtain ⟨sl, e⟩ := setRun_spec s { s.run with fixed := s.run.fixed ++ ws.map fun w => { due := s.clk + lat, write := w } }
  obtain ⟨th, e'⟩ := markTemps_spec ws { s with slots := sl }
  refine ⟨sl, th, ?_⟩
  rw [State.fixed, e, e']

/-- The results that are due land in the registers, and change nothing else but the run. -/
theorem landFixed_spec (s : State) : ∃ slots threads groups poisonReg,
    s.landFixed = { s with slots := slots, threads := threads, groups := groups, poisonReg := poisonReg } := by
  rw [State.landFixed]
  obtain ⟨sl, e⟩ := setRun_spec s { s.run with fixed := (splitDue s.clk s.run.fixed).2 }
  obtain ⟨a, b, c, e'⟩ := writeRegs_spec (splitDue s.clk s.run.fixed).1 { s with slots := sl }
  refine ⟨sl, a, b, c, ?_⟩
  simp only [e, e']

/-- A variable-latency result changes the issuer's run, the results pending, the agenda and the model's counters only. -/
theorem variable_spec (s : State) (k : Nat) (ws : List RegWrite) (fl : Flags) (bad quiet : Bool) : ∃ slots pend agenda free nextId,
    s.variable k ws fl bad quiet = { s with slots := slots, pend := pend, agenda := agenda, free := free, nextId := nextId } := by
  rw [State.variable, State.variableFrom]
  split
  · exact ⟨s.slots, s.pend, s.agenda, s.free, s.nextId, rfl⟩
  · obtain ⟨slots, e⟩ := setRun_spec s { s.run with late := s.run.late ++ ws.map (·.id) }
    rw [State.noteLate, e]; exact ⟨slots, _, _, _, _, rfl⟩

end Sys2Proof.Machine
end

