-- ==== Sys2Proof/Tests/Slice0.lean ====
section
/-! SUPPORT. Tests: ill-formed terms are refused; the spec's worked encodings decode; the spec's worked examples come out; and
for each statement that has hypotheses, a state and operands that meet them. -/

-- The kernel evaluates these one after another: side by side they would fill the memory.
set_option Elab.async false

open Sys2Proof Sys2Proof.Machine

namespace Sys2Proof.Tests

-- Ill-formed terms: for each check of WellFormed, a term it refuses.

theorem test_illformed_integer : ([.add 12 0 0 0, .sub 12 0 0 0, .mul 12 0 0 0, .mulh 12 0 0 0, .mad 12 0 0 0, .and 12 0 0 0, .or 12 0 0 0,
    .xor 12 0 0 0, .shl 12 0 0 0, .shr 12 0 0 0, .sar 12 0 0 0, .rot 12 0 0 0, .bfx 12 0 0 0, .bfi 6 0 0 0, .div 12 0 0 0, .rem 12 0 0 0,
    .cmp 10 0 0 0 0 0, .cmpi 10 0 0 0 none, .mov 8 0 0, .mov 4 0 16, .mov 5 16 0] : List Instr).all (fun i => !i.wf) = true := by decide +kernel

theorem test_illformed_lanes : ([.lshuf 3 0 0 0 0 0, .lshuf 3 0 0 0 0 7, .lrot 3 0 0 0 8, .lred 13 0 0, .vote 1 0 0 0, .vote 0 1 0 16, .vote 0 3 16 0,
    .sysr 0 0 0 0x14, .sysr 0 0 1 0x13, .sysw 0 0 0 0x44, .sleep 0 1 0] : List Instr).all (fun i => !i.wf) = true := by decide +kernel

theorem test_illformed_float : ([.ffmat 7 0 0 0 0, .fcmp 12 0 0 0 0, .fcvt 0 0 0 10 4 0 0, .fcvt 0 0 0 4 5 4 0, .fcvt 0 0 1 4 5 0 0, .fcvt 0 0 0 4 5 0 1,
    .fsfu 7 0 0, .fsgn 3 0 0 0 1] : List Instr).all (fun i => !i.wf) = true := by decide +kernel

theorem test_illformed_memory : ([.ld 7 0 0 0, .st 1 0 0 0, .ldx 7 0 0 0 0, .stx 3 0 0 0 0, .lds 2 0 0 0 0, .lds 0 0 0 0 5, .sts 1 0 0 0 0, .sts 0 0 0 0 5,
    .atom 7 0 0 0 0 0 0, .atom 0 0 0 0 0 5 0, .acas 0 0 0 0 0 5 0 0, .fatom 3 0 0 0 0 0 0, .fatom 0 0 0 0 0 5 0, .gadd 0 0 1 0 0, .gadd 0 0 0 5 0,
    .phase 5, .phasePub 5, .phaseAcq 5] : List Instr).all (fun i => !i.wf) = true := by decide +kernel

theorem test_illformed_engines : ([.mmq 4 0 0 0 0 0 0, .accdr 6 0 0 0 0 0 0 0 0 0, .accdr 0 0 1 8 0 0 0 0 0 0, .accdr 0 0 0 0 1 0 0 0 0 0,
    .accdr 0 0 0 0 0 0 5 0 0 0, .rqcand 6 0 0 0, .rqcand 0 0 0 1, .rqres 3 0 0 0, .rqres 0 0 0 1, .rsvget 0 0 5, .rsvset 0 0 5, .spawn 0 0 1 0,
    .tqadd 0 0 0 1, .sctlClose 2, .sctlStat 0 3, .cpxLaunch 0 0 0 0 0 0, .cpxLaunch 0 1 0 1 0 0, .cpxCcopy 0 0 0 1 0 0 0] : List Instr).all
      (fun i => !i.wf) = true := by decide +kernel

-- Decoding: words written out from the spec's encodings (chapters 7 to 16 and 23).

theorem test_decode_integer : decode [0x08210205] = .ok (.add 1 4 4 5, 1) ∧ decode [0x04000002, 0x324213B8] = .ok (.cmpi 2 1 4 952 (some 2), 2) := by
  decide +kernel
theorem test_decode_control : decode [0x421FFFFB] = .ok (.br 0 1 0xFFFFB, 1) ∧ decode [0x4803C200] = .ok (.calli 0 15 4, 1)
    ∧ decode [0x4C03C000] = .ok (.exit 0 15, 1) := by decide +kernel
theorem test_decode_lanes : decode [0x59028180] = .ok (.lred 8 10 3, 1) := by decide +kernel
theorem test_decode_float : decode [0x66A28104] = .ok (.ffma 1 1 10 2 4, 1) ∧ decode [0x7C424180] = .ok (.lut 2 9 3, 1) := by decide +kernel
theorem test_decode_memory : decode [0x8882461E] = .ok (.ldx 4 9 3 7 2, 1) ∧ decode [0x87414480] = .ok (.sts 2 2 5 2 2, 1)
    ∧ decode [0x8C010300, 0x28900000] = .ok (.atom 0 4 6 5 0 2 1, 2) ∧ decode [0x8E010307, 0x2A510000] = .ok (.acas 4 6 7 5 1 1 1 2, 2) := by decide +kernel
theorem test_decode_sync : decode [0x94208000] = .ok (.phasePub 2, 1) ∧ decode [0x9C808000] = .ok (.barSync 1 2, 1) := by decide +kernel
theorem test_decode_matrix : decode [0xA0248205, 0x28B00000] = .ok (.mmq 1 2 1 4 5 10 11, 2) := by decide +kernel
theorem test_decode_raster : decode [0xB0420000, 0x00C32800] = .ok (.rast 2 8 0 12 3 20, 2) := by decide +kernel
theorem test_decode_rays : decode [0xC2004800] = .ok (.rqproc 0 1 16, 1) ∧ decode [0xC4C50800] = .ok (.rqcand 3 0 20 16, 1) := by decide +kernel
theorem test_decode_tape : decode [0xD0448200] = .ok (.trec 2 18 4, 1) ∧ decode [0xD2020180] = .ok (.tpop 8 3, 1)
    ∧ decode [0xD4000307] = .ok (.tmarkOpen 6 7, 1) ∧ decode [0xD6000280] = .ok (.tctlBind 5, 1) := by decide +kernel
theorem test_decode_reservoir : decode [0xD8008614] = .ok (.rsvupd 2 12 20, 1) ∧ decode [0xDC214100] = .ok (.rsvfin 5 2, 1) := by decide +kernel
theorem test_decode_tasks : decode [0xE2000000, 0x28E00000] = .ok (.tqadd 5 7 0 0, 2) ∧ decode [0xE6210307] = .ok (.depopAdd 4 6 7, 1)
    ∧ decode [0xE8024200] = .ok (.spush 9 4 0, 1) := by decide +kernel
theorem test_decode_command : decode [0xFAA00000, 0x00A00000] = .ok (.cpxIrq 5, 2) ∧ decode [0xFAC00000, 0] = .ok (.cpxChalt, 2)
    ∧ decode [0xF40007FF] = .ok (.trap 2047, 1) := by decide +kernel

end Sys2Proof.Tests

namespace Sys2Proof.Tests

-- States for one step.

/-- One issued lane: thread 0 of a group of eight on core 0 of die 0, in a run of one word at its first position. -/
def one : State := State.reset.withFetchWord 32 0x06000000

/-- The issued lanes `ls` of that group. -/
def lanes (ls : List Nat) : State :=
  let s := ls.foldl (fun (s : State) i => s.setThr i { one.thr 0 with uid := (one.thr 0).uid + i, idx := i, tid := i, lid := BitVec.ofNat 32 i }) one
  s.updSlot 0 fun x => match x.phase with | .running r => { x with phase := .running { r with threads := ls } } | _ => x

/-- Command context 0 issued on command core 0. -/
def cmd : State := State.reset.withFetchWord 64 0xFA000000

/-- Vector register `n` of the lanes, by lane. -/
def withV (s : State) (n : Nat) (xs : List (Nat × Word)) : State := xs.foldl (fun s e => s.setReg (.vreg e.1 n e.2)) s

/-- A next state has a property. -/
def Next (o : Host.Outcome State Fault Refusal) (p : State → Bool) : Bool := match o with | .next t => p t | _ => false

/-- The writes in flight at a fixed latency, and those pending. -/
def inFlight (s : State) : List RegWrite := s.run.fixed.map (·.write)
def pending (s : State) : List RegWrite := s.pend.flatMap (·.writes)

-- The spec's worked examples.

/-- R65's example: -7 DIV 2 = -3, -7 REM 2 = -1, -5 DIV 0, and the most negative number by -1. -/
theorem test_div_example :
    let s := withV (withV (lanes [0, 1, 2]) 1 [(0, -7), (1, -5), (2, 0x80000000)]) 2 [(0, 2), (2, -1)]
    Next (exec (.div 1 3 1 2) s) (fun t => pending t == [.vreg 0 3 (-3), .vreg 1 3 0x80000000, .vreg 2 3 0x80000000]) = true
      ∧ Next (exec (.rem 1 3 1 2) s) (fun t => pending t == [.vreg 0 3 (-1), .vreg 1 3 (-5), .vreg 2 3 0]) = true := by decide +kernel

/-- R151's example: the order of LRED.add.f32 with lane 5 not issued gives 4.0 and raises NX. -/
theorem test_lred_example :
    let s := withV (lanes [0, 1, 2, 3, 4, 6, 7]) 3 [(0, 0x4B800000), (1, 0x3F800000), (2, 0x3F800000), (3, 0x3F800000), (4, 0xCB800000),
      (6, 0x3F800000), (7, 0x3F800000)]
    Next (exec (.lred 8 10 3) s) (fun t => inFlight t == [0, 1, 2, 3, 4, 6, 7].map (fun k => .vreg k 10 0x40800000)
      && (t.thr 7).fpcsr == 1) = true := by decide +kernel

/-- The example of LPUSH after R151. -/
theorem test_lpush_example :
    let s := withV (withV (lanes [0, 1, 2, 3, 4, 6, 7]) 2 [(0, 10), (1, 11), (2, 12), (3, 13), (4, 14), (6, 16), (7, 17)])
      3 [(0, 3), (1, 3), (2, 0), (3, 9), (4, 3), (6, 5), (7, 7)]
    Next (exec (.lpush 4 1 2 3) s) (fun t => inFlight t == [.vreg 0 1 12, .pred 0 4 false, .vreg 1 1 13, .pred 1 4 false, .pred 2 4 false,
      .vreg 3 1 10, .pred 3 4 true, .pred 4 4 false, .pred 6 4 false, .vreg 7 1 17, .pred 7 4 false]) = true := by decide +kernel

/-- R143's example: the frame that CALLI pushes holds the fall-through address and the window base divided by 16. -/
theorem test_calli_example :
    let s := one.updThr 0 fun t => { t with winb := 32, laneSz := 2048, csp := 2048 }
    let s := s.updSlot 0 fun x => match x.phase with | .running r => { x with phase := .running { r with pc := 0x102034 } } | _ => x
    let s := withV (withV s 36 [(0, 0x118000)]) 37 [(0, 0)]
    Next (exec (.calli 0 15 4) s) (fun t => (t.thr 0).csp == 2040 && leNat (t.readHomes (t.laneHome 0 2040) 8) == 0x0400000000102044
      && (t.thr 0).nextPc == some 0x118000) = true := by decide +kernel

/-- R76's example: the bins of an .f64 region with E = 0, and their rounded value; and the .f32 region. -/
theorem test_bins_example :
    let add := fun (dbl : Bool) (l : List Int) => binSum false (binSum false (binSum true (binSum false l (binParts 0 dbl 3 (-1)))
      (binParts 0 dbl 3 (-2))) (binParts 0 dbl 1 (-40))) (binParts 0 dbl 3 (-100))
    add true [0, 0, 0, 0] = [0x60000000, 0x00800000, 0, 0x18000000] ∧ binRound 0 true (add true [0, 0, 0, 0]) = 0x3FE8000000002000
      ∧ add false [0, 0, 0] = [0x60000000, 0x00800000, 0] ∧ binRound 0 false (add false [0, 0, 0]) = 0x3F400000 := by decide +kernel

/-- R171's example: table 2 at 0.375 gives 543/1024 and raises no flag. -/
theorem test_lut_example :
    let im := putBytes (putBytes [] 0 (leBytes 4 0xC0800000 ++ leBytes 2 0xFFFE)) (16 + 12 * 17)
      (leBytes 4 0x3F000000 ++ leBytes 4 0x3E800000 ++ leBytes 4 0xBD800000)
    lutEval im 0x3EC00000 = (0x3F07C000, 0) := by decide +kernel

/-- R252's example: the bytes of the three records, and what the pops recover. -/
theorem test_tape_example :
    recordBytes 5 [0, 0] [100, 7] = [0x00, 0x01, 0x05] ∧ recordBytes 5 [100, 7] [130, 7] = [0x1E, 0x00, 0x06, 0x01, 0x05]
      ∧ recordBytes 9 [130] [0x40490FDB] = [0x82, 0, 0, 0, 3, 0, 9] := by decide +kernel

/-- R263's example: both outcomes of RSVUPD, and RSVFIN of each. -/
theorem test_reservoir_example :
    let r := rsvOf 0x00000003_3FC00000_3E800000_00000011
    let hit := r.update 0x22 0x3F400000 0x3F000000 4 4194303
    let miss := r.update 0x22 0x3F400000 0x3F000000 4 4194304
    hit.bits = 0x00000004_40000000_3F400000_00000022 ∧ hit.weight = 0x3F2AAAAB
      ∧ miss.bits = 0x00000004_40000000_3E800000_00000011 ∧ miss.weight = 0x40000000 := by decide +kernel

/-- R215's example: the triangle covers six pixel centres, the walk ends, and lanes 6 and 7 have none. -/
theorem test_rast_example :
    let ws : List Word := [0x3F000000, 0x3F000000, 0x3F000000, 0x3F800000, 0x40600000, 0x3F000000, 0x3F000000, 0x3F800000,
      0x3F000000, 0x40600000, 0x3F000000, 0x3F800000, 0]
    let s := (ws.zip (List.range 13)).foldl (fun s e => s.setReg (.ureg 0 e.2 e.1)) (lanes [0, 1, 2, 3, 4, 5, 6, 7])
    Next (exec (.rast 0 8 0 12 3 20) s) (fun t =>
      (pending t).filterMap (fun w => match w with | .vreg _ 8 v => some v | _ => none) == [0, 1, 2, 0x10000, 0x10001, 0x20000]
        && (pending t).filterMap (fun w => match w with | .vreg _ 9 v => some v | _ => none) == [0, 0x3EAAAAAB, 0x3F2AAAAB, 0, 0x3EAAAAAB, 0]
        && (pending t).contains (.pred 6 3 false) && (pending t).contains (.ureg 0 12 0xFFFFFFFF)) = true := by decide +kernel

/-- R241's example: the ray on the shared diagonal hits the first triangle at t = 3, b1 = 0.5, b2 = 0, and misses the second. -/
theorem test_triangle_example :
    let q := fun (l : List Int) => l.map fun i => (FVal.fin (decide (i < 0)) i.natAbs 0)
    let ray := objectRay f32 none (q [0, 0, -1, 0, 0, 1, 0, 10])
    (match triTest f32 f32 f32 (q [-1, -1, 2, 1, 1, 2, -1, 1, 2]) ray with
      | .value h t b1 b2 => h && t == 0x40400000 && b1 == 0x3F000000 && b2 == 0
      | _ => false) = true
    ∧ (match triTest f32 f32 f32 (q [1, 1, 2, -1, -1, 2, 1, -1, 2]) ray with | .value h _ _ _ => h | _ => false) = false := by decide +kernel

/-- The run header of R5's example: LEN is 20. -/
theorem test_run_header : field 0x01400000 25 7 = 0 ∧ runLen 0x01400000 = 20 := by decide +kernel

/-- R15's example: the stop at package row 11, column 21, its unit, its slice, and the pseudo-channels that the slice fronts. -/
theorem test_stop_example : unitOf 0x0B15 = .core 37 ∧ stopIndex 0x0B15 = 373 ∧ dieOfStop 0x0B15 = 3 ∧ stopOfCore (96 * 3 + 37) = 0x0B15
    ∧ sliceOf 0x0B15 = 53 ∧ (frontedBy 53).map (stackOf 3) = [(6, 79, 1), (6, 80, 0), (6, 80, 1)] ∧ (stackOf 3 156).2.1 = 78 := by decide +kernel

/-- R90's example: the home slice, the pseudo-channel and the row of a line of a full part, and the home of the line after it. -/
theorem test_placement_example : ({} : Part).placeOf 0x43A80 = { pch := { die := 2, slice := 28, place := 0 }, row := 1 }
    ∧ stackOf 2 (3 * 28) = (4, 42, 0) ∧ ({} : Part).homeSlice 0x43A80 = 0x090C ∧ ({} : Part).homeSlice 0x43B00 = 0x091C := by decide +kernel

/-- The example after R315: the Hilbert indices of the clusters. -/
theorem test_hilbert_example : ([(0, 0), (1, 0), (1, 1), (0, 1), (3, 1), (2, 1), (2, 0), (3, 0)] : List (Nat × Nat)).map (fun c => hilbert 2 c.1 c.2)
    = [0, 1, 2, 3, 12, 13, 14, 15] := by decide +kernel

end Sys2Proof.Tests

namespace Sys2Proof.Tests

-- Witnesses: for the statements that have hypotheses, states and operands that meet them together, at the ends of ranges.

/-- Whether a word meets no fault at issue. -/
def meetsNone (s : State) (i : Instr) (ops : List Opd) (place : Where) (det : Option Nat) : Bool :=
  (s.issueFault { instr := i, place := place, ops := ops, det := det }).isNone

/-- A word passes its checks in a state. -/
abbrev P (s : State) (i : Instr) (ops : List Opd) (place : Where := .compute) (det : Option Nat := none) : Prop :=
  meetsNone s i ops place det = true

theorem passes_of_P {s : State} {i : Instr} {ops : List Opd} {place : Where} {det : Option Nat} (h : P s i ops place det) :
    s.Passes { instr := i, place := place, ops := ops, det := det } :=
  issueFault_none.1 (Option.isNone_iff_eq_none.1 h)

theorem witness_decode_of_encode : ∀ i ∈ ([.add 3 127 127 127, .addi 127 0 0x400 (some 0x1FFFFFF), .br 1 15 0x80000, .trap 2047,
    .cpxCcopy 0 120 0 0xFFF 1 1 127] : List Instr), i.wf = true ∧ encode i ≠ [] := by decide +kernel

theorem witness_decoded_words : decode [0x08210205] = .ok (.add 1 4 4 5, 1) := by decide +kernel

theorem witness_step_runs : (∀ e ∈ one.agenda, 0 < e.1) ∧ one.firstMove = some (0, 0) ∧ (∃ r, (one.slot 0).phase = .running r)
    ∧ decode ((one.begin 0 0).run.words.drop ((one.begin 0 0).run.pos - 1)) = .ok (.nop, 1)
    ∧ Next (exec .nop (one.begin 0 0)) (fun _ => true) = true := ⟨by decide +kernel, by decide +kernel, ⟨_, rfl⟩, by decide +kernel, by decide +kernel⟩

theorem witness_step_event : State.reset.agenda = (0, .powerOn 0) :: [] ∧ State.reset.firstMove = none := by decide +kernel

theorem witness_first_failing :
    opcOf 0 ∈ [0, 1, 0x77, 0x7F] ∧ opcOf 0xFFFFFFFF ∈ [0, 1, 0x77, 0x7F]
    ∧ decode [0x09800000] = .error .reservedField ∧ one.InPlace (whereOf (opcOf 0x09800000))
    ∧ one.onCommand = false ∧ cmd.onCommand = true ∧ one.InPlace .both ∧ cmd.InPlace .both ∧ (Instr.add 12 0 0 0).wf = false
    ∧ (Instr.add 0 0 0 0).wf = true ∧ (Instr.add 0 0 0 0).lateDst = []
    ∧ (∃ k ∈ one.issue, (Opd.src 121 true).countsFor k = true ∧ one.outOfRange k (.src 121 true) = true)
    ∧ (∀ x ∈ [Opd.src 122], ∀ k ∈ one.issue, x.countsFor k = true → one.outOfRange k x = false)
    ∧ (∃ k ∈ one.issue, (Opd.src 122).countsFor k = true ∧ one.tempUndef k (.src 122) = true) := by decide +kernel

theorem witness_registers : one.tidy = true ∧ ∀ n ∈ [0, 121], one.pendingTo (.vreg 0 ((one.thr 0).winb + n)) = none
    ∧ one.pendingTo (.ureg (one.thr 0).grp n) = none ∧ one.pendingTo (.pred 0 14) = none ∧ one.pendingTo (.rsv 0 n) = none := by decide +kernel

theorem witness_fixed : one.tidy = true ∧ (∃ r, (one.slot one.cur).phase = .running r) ∧ one.poisonReg = []
    ∧ RegWrite.temp 0 5 1 ∈ [RegWrite.temp 0 5 1] := ⟨by decide +kernel, ⟨_, rfl⟩, rfl, by decide +kernel⟩

/-- A result of thread 0 pending, number 3. -/
def late : State := one.variable 0 [.vreg 0 3 7]

theorem witness_landing : (∀ q ∈ late.pend, q.id ≠ 0) ∧ ∃ p ∈ late.pend, p.id = 3 ∧ (∀ q ∈ late.pend, q.id = 3 → q = p) ∧ (∀ w ∈ p.writes, w.isBad p.bad = false)
    ∧ (late.thr p.th).live = true ∧ (late.thr p.th).uid = p.uid ∧ (late.thr p.th).wait ≠ .exited
    ∧ ((late.updThr 0 fun t => { t with wait := .exited }).thr p.th).wait = .exited
    ∧ ((late.updThr 0 fun t => { t with uid := 99 }).thr p.th).uid ≠ p.uid :=
  ⟨by decide +kernel, late.pend.headD ⟨0, 0, 0, 0, 0, 0, [], 0, false, false⟩, by decide +kernel⟩

theorem witness_integer :
    (∀ r ∈ intRows, P one (r.make 1 121 0 121) (rrrOpds 1 121 0 121 r.rdD r.wideB) .both
      ∧ P one (r.make 10 60 62 0) (rrrOpds 10 60 62 0 r.rdD r.wideB) .both)
    ∧ P one (.bfi 3 120 0 63) (rrrOpds (3#3 ++ 0#1) 120 0 63 true false) .both
    ∧ P one (.min 0 1 1 120 0 2) (rrrOpds (0#1 ++ 0#1 ++ 1#1 ++ 1#1) 120 0 2 false true) .both
    ∧ P one (.max 1 0 0 63 0 1) (rrrOpds (1#1 ++ 0#1 ++ 0#1 ++ 0#1) 63 0 1 false true) .both
    ∧ P one (.bitc 3 1 120 0) [.dst 120 true, .src 0 true] .both ∧ P one (.bitc 0 1 121 0) [.dst 121 false, .src 0 true] .both
    ∧ P one (.addi 121 0 0x400 none) [.dst 121, .src 0] .both ∧ P one (.movi 120 0 1 0 (some 1)) [intOpd false true 120 false true] .both
    ∧ P one (.movi 63 1 0 0 none) [intOpd true false 63 false true] .both := by decide +kernel

theorem witness_division : P one (.div 3 120 0 2) (rrrOpds 3 120 0 2 false true) .both ∧ P one (.rem 8 63 0 1) (rrrOpds 8 63 0 1 false true) .both := by
  decide +kernel

theorem witness_select : P one (.sel 15 121 0 121) [.psrc 15, .dst 121, .src 0, .src 121] .both := by decide +kernel

theorem witness_compares_moves :
    P one (.cmp 9 1 0 15 0 63) [.pdst 15, .src 0 false, intOpd true false 63 true false] .both
    ∧ P one (.cmpi 0 0 121 0x200 (some 0)) [.pdst 0, .src 121] .both ∧ P one (.plog 15 0 14 15) [.pdst 0, .psrc 14, .psrc 15] .both
    ∧ (∀ f ∈ [0, 1, 2, 3, 4, 5, 6, 7], P one (.mov (BitVec.ofNat 4 f) 2 14) (movOpds f 2 14) .both)
    ∧ P one (.lea 1 3 120 121 31) [.dst 120 true, .src 121, .g 31] .both ∧ P one (.leaLs 3 120 121) [.dst 120 true, .src 121] := by decide +kernel

theorem witness_lanes : (lanes [0, 3, 7]).GroupsInOrder ∧ (lanes [0, 3, 7]).tidy = true ∧ (∀ k ∈ (lanes [0, 3, 7]).issue, ((lanes [0, 3, 7]).thr k).enables = 0)
    ∧ P (lanes [0, 3, 7]) (.lshuf 3 1 1 120 0 6) (shufOpds 3 true 120 0 6) ∧ P (lanes [0, 3, 7]) (.lshuf 1 0 0 121 0 63) (shufOpds 1 false 121 0 63)
    ∧ P (lanes [0, 3, 7]) (.lrot 2 0 121 0 127) (shufOpds 2 false 121 0 127)
    ∧ P (lanes [0, 3, 7]) (.lpush 15 121 0 1) [.pdst 15, .dst 121, .src 0, .src 1]
    ∧ P (lanes [0, 3, 7]) (.lred 12 120 0) [.dst 120 true, .src 0 true] ∧ P (lanes [0, 3, 7]) (.lred 0 121 0) [.dst 121 false, .src 0 false]
    ∧ P (lanes [0, 3, 7]) (.lscan 1 7 121 0) [.dst 121, .src 0]
    ∧ P (lanes [0, 3, 7]) (.vote 1 3 15 120) (voteOpds 1 3 15 120) ∧ P (lanes [0, 3, 7]) (.vote 0 2 120 15) (voteOpds 0 2 120 15)
    ∧ P (lanes [0, 3, 7]) (.lmatch 1 120 0) [.dst 120 true, .src 0 true] := by decide +kernel

theorem witness_branches : one.run.pc.toNat + 4 * (one.run.words.length + 3) < 2 ^ 56 ∧ one.run.pos ≤ one.run.words.length
    ∧ P one (.br 0 15 0x80000) [.psrc 15] .both ∧ TargetOk (one.hereAddr + ((0 : BitVec 20).signExtend 64) <<< 2)
    ∧ P one (.bri 0 15 120) [.psrc 15, .src 120 true] .both ∧ (∀ k ∈ one.taking 0 15, TargetOk (one.v64 k 120))
    ∧ (let s := withV one 120 [(0, 2)]; 0 ∈ s.taking 0 15 ∧ ¬ TargetOk (s.v64 0 120) ∧ ∀ j ∈ (s.taking 0 15).takeWhile (· != 0), TargetOk (s.v64 j 120)) := by
  decide +kernel

theorem witness_calls : one.issue.Nodup ∧ one.tidy = true ∧ P one (.call 0 15 1) [.psrc 15] .both ∧ P one (.calli 0 15 120) [.psrc 15, .src 120 true] .both
    ∧ (let s := one.updThr 0 fun t => { t with csp := 8 }; ∀ k ∈ s.taking 0 15, TargetOk (s.v64 k 120) ∧ 8 ≤ (s.thr k).csp)
    ∧ (let s := one.updThr 0 fun t => { t with csp := 7 }; (s.taking 0 15).head? = some 0 ∧ (s.thr 0).csp < 8)
    ∧ P one (.ret 0 15) [.psrc 15] .both
    ∧ (let s := one.updThr 0 fun t => { t with csp := 504 }
      ∀ k ∈ s.taking 0 15, (s.thr k).csp + 8 ≤ (s.thr k).laneSz ∧ s.isPoisoned (s.laneHome k (s.thr k).csp) 8 = false
        ∧ (BitVec.ofNat 64 (leNat (s.readHomes (s.laneHome k (s.thr k).csp) 8))).extractLsb' 0 2 = 0)
    ∧ (one.taking 0 15).head? = some 0 ∧ (one.thr 0).laneSz < (one.thr 0).csp + 8 := by decide +kernel

theorem witness_exits : P one (.exit 1 15) [.psrc 15] .both ∧ P one (.yield 0 15) [.psrc 15] .both ∧ P one (.sleep 1 121 2047) [.src 121] .both
    ∧ P one (.sleep 0 0 0) [] .both ∧ P one .nop [] .both ∧ P one .icinv [] ∧ P one (.winb 0 240) [] ∧ P one (.winb 1 0) []
    ∧ (0 ≤ (240 : BitVec 11).toInt ∧ (240 : BitVec 11).toInt ≤ 240 ∧ (240 : BitVec 11).toInt % 16 = 0) ∧ ¬ (256 : BitVec 11).toInt ≤ 240 := by decide +kernel

theorem witness_status : P one (.sysr 120 0 1 0x12) [intOpd false true 120 false true] .both ∧ P one (.sysr 63 1 0 0x87) [intOpd true false 63 false true] .both
    ∧ P one (.sysw 0 0 121 0x20) [intOpd false false 121 true false] .both ∧ P one (.sysw 1 0 63 0x21) [intOpd true false 63 true false] .both
    ∧ P cmd (.sysw 0 0 121 0x40) [intOpd false false 121 true false] .both ∧ P cmd (.sysw 0 0 121 0x43) [intOpd false false 121 true false] .both
    ∧ cmd.onCommand = true ∧ P one (.sysw 0 0 0 0x40) [] .both ∧ one.onCommand = false ∧ isCmd 0 = false ∧ isCmd (2 ^ 20 - 1) = false
    ∧ (one.thr 0).tape.bound = false := by decide +kernel

theorem witness_faults : P one (.trap 2046) [] .both ∧ P cmd (.trap 2047) [] .both ∧ one.tidy = true ∧ (∃ r, (one.slot one.cur).phase = .running r ∧ r.threads = [0])
    ∧ isCmd 0 = false ∧ ({ code := 0x1A, cls := 1 } : Flt).stops = none ∧ ({ code := 0x1A, cls := 1 } : Flt).lanes = none ∧ one.log.length < 4096 :=
  ⟨by decide +kernel, by decide +kernel, by decide +kernel, ⟨_, rfl, rfl⟩, by decide +kernel, rfl, rfl, by decide +kernel⟩

theorem witness_logged_faults : one.run.threads ≠ [] ∧ one.run.threads.Nodup ∧ (∀ k ∈ one.run.threads, isCmd k = false) ∧ one.freshRecords = 0
    ∧ ({ code := 0x1A, cls := 1 } : Flt).code ≠ 0 ∧ ({ code := 0x1A, cls := 1 } : Flt).code ≠ 0x22 ∧ ({ code := 0x1A, cls := 1 } : Flt).skip = 0 := by
  decide +kernel

/-- A state whose context 1 maps the first gigabyte of virtual addresses to the same physical ones, by three table entries (R317,
R318). -/
def paged (s : State) : State :=
  (((s.updCx 1 fun c => { c with root := 0x1000 }).writeHomes 0x1000 (leBytes 8 0x203D)).writeHomes 0x2000 (leBytes 8 0x303D)).writeHomes
    0x3000 (leBytes 8 0x3F)

/-- A check passes, as a test. -/
def isOk {ε α : Type} (x : Except ε α) : Bool := match x with | .ok _ => true | .error _ => false

theorem fine_of_isOk {ε α : Type} {x : Except ε α} (h : isOk x = true) : Fine x := by
  cases x <;> simp_all [isOk, Fine]

theorem witness_handlers : (paged one).tidy = true
    ∧ isOk ((paged one).engineRead { unit := 0, ctx := (paged one).ctxOf 0 } (TrapTable.slotOf ⟨0x101000, 0xC0, 0x100000, 16⟩ ((paged one).thr 0).lid + 0x40) 64) = true
    ∧ 255 < 256 ∧ (one.thr 0).winb < 4096
    ∧ (let s := (lanes [0, 1]).updThr 0 fun t => { t with fids := [5], wait := .rejoining }
      let mine := (s.threads.filter fun e => e.2.fids.contains 5 && e.2.live && e.2.wait != .exited).map (·.1)
      mine = [0] ∧ ∀ k ∈ mine, (s.thr k).wait = .rejoining ∧ (s.thr k).fids.head? = some 5)
    ∧ (let s := (lanes [0, 1]).updThr 0 fun t => { t with fids := [5] }
      ∃ k ∈ (s.threads.filter fun e => e.2.fids.contains 5 && e.2.live && e.2.wait != .exited).map (·.1), (s.thr k).wait ≠ .rejoining)
    ∧ (let s := (lanes [0, 1]).updThr 0 fun t => { t with fids := [6, 5], wait := .rejoining }
      ∃ k ∈ (s.threads.filter fun e => e.2.fids.contains 5 && e.2.live && e.2.wait != .exited).map (·.1), (s.thr k).fids.head? ≠ some 5) := by
  decide +kernel

end Sys2Proof.Tests

namespace Sys2Proof.Tests

-- Floating point.

theorem witness_rounding : ∀ e ∈ [(f16, 0x7BFF, 0x0001), (b16, 0x7F7F, 0x8001), (f32, 0x7F7FFFFF, 0x80000001), (f64, 0x7FEFFFFFFFFFFFFF, 1)],
    fpFinite e.1 e.2.1 = true ∧ fpFinite e.1 e.2.2 = true ∧ fpFinite e.1 (fAdd e.1 .rtz (e.1.decode e.2.1) (e.1.decode e.2.2)).1 = true
      ∧ fpFinite e.1 (fMul e.1 .rne (e.1.decode e.2.1) (e.1.decode e.2.2)).1 = true := by decide +kernel

theorem witness_special : (FVal.fin true 1 0).isNan = false ∧ (1 : Nat) ≠ 0 ∧ fpFinite f32 0x80000000 = true ∧ fpFinite f32 0x7F7FFFFF = true
    ∧ (f32.decode 0x7F800001).isNan = true ∧ (f32.decode 0).isNan = false ∧ 0xFFFFFFFF < 2 ^ f32.width := by decide +kernel

theorem witness_float : (lanes [0, 7]).NoTraps ∧ (lanes [0, 7]).tidy = true
    ∧ P one (.fadd 3 1 120 0 118) [.dst 120 true, .src 0 true, .src 118 true] ∧ P one (.fsub 0 3 121 0 121) [.dst 121 false, .src 0 false, .src 121 false]
    ∧ P one (.fmul 1 0 0 0 0) [.dst 0 false, .src 0 false, .src 0 false]
    ∧ P one (.ffma 2 2 121 0 121) ([.dst 121 false, .src 0 false, .src 121 false] ++ [.src 121 false])
    ∧ P (one.updThr 0 fun t => { t with tmMask := 0x3F }) (.ffmat 4 1 120 0 118) ([.dst 120 true, .src 0 true, .src 118 true] ++ [.src (122 + (4 : BitVec 3).setWidth 7) true])
    ∧ P one (.ffmat 6 0 121 0 121) ([.dst 121 false, .src 0 false, .src 121 false] ++ [])
    ∧ P one (.fmin 1 120 0 118) [.dst 120 true, .src 0 true, .src 118 true] ∧ P one (.fmax 3 121 0 121) [.dst 121 false, .src 0 false, .src 121 false]
    ∧ P one (.frnd 3 1 120 0) [.dst 120 true, .src 0 true] ∧ P one (.fsgn 3 0 121 0 0) [.dst 121 false, .src 0 false]
    ∧ P one (.fsgn 2 1 120 0 118) [.dst 120 true, .src 0 true, .src 118 true] := by decide +kernel

theorem witness_float_compares : P one (.fcmp 11 1 15 0 120) [.pdst 15, .src 0 true, .src 120 true] ∧ P one (.fclass 1 121 120) [.dst 121, .src 120 true]
    ∧ P one (.fcvt 120 121 0 5 4 3 0) [.dst 120 true, .src 121 false] ∧ P one (.fcvt 121 120 0 4 8 0 0) [.dst 121 false, .src 120 false]
    ∧ P one (.fcvt 121 0 5 6 4 4 60) [.dst 121 false, .src 0 false, .src 5, .usrc 60 false 3] ∧ P one (.fcvt 120 0 0 2 4 1 0) [.dst 120 true, .src 0 false] := by
  decide +kernel

theorem witness_divisions : P one (.fdiv 3 1 120 0 118) [.dst 120 true, .src 0 true, .src 118 true] ∧ P one (.fsqrt 0 0 121 121) [.dst 121 false, .src 121 false]
    ∧ P one (.fsfu 6 121 0) [.dst 121, .src 0] := by decide +kernel

/-- One issued lane that traps on NX, two words before the end of its run, with 2^24 and 1 in v1 and v2. -/
def trapping : State :=
  let s := one.updThr 0 fun t => { t with fpcsr := 0x100 }
  let s := s.updSlot 0 fun x => match x.phase with | .running r => { x with phase := .running { r with words := [0x06000000, 0x06000000], stalls := [0, 0] } } | _ => x
  withV (withV s 1 [(0, 0x4B800000)]) 2 [(0, 0x3F800000)]

theorem witness_trap : trapping.tidy = true ∧ P trapping (.fadd 0 0 3 1 2) [.dst 3 false, .src 1 false, .src 2 false]
    ∧ trapping.run.pos + 1 ≤ trapping.run.words.length ∧ trapping.issue.Nodup
    ∧ (trapping.issue.filter fun k => decide ((perElem 0 (fun f xs => fAdd f (.ofCode 0) (arg f xs 0) (arg f xs 1)) (trapping.regVals k 0 [1, 2])).2
        &&& (trapping.thr k).enables ≠ 0)) ≠ [] := by decide +kernel

/-- An address register of group 0, and the pointers of its issued lanes at its base. -/
def withG (s : State) (n base limit : Nat) (perm : BitVec 4) (kind : BitVec 2) : State :=
  s.issue.foldl (fun s k => s.setReg (.ptr k n (BitVec.ofNat 64 base)))
    (s.setReg (.gfield 0 n { base := BitVec.ofNat 64 base, limit := BitVec.ofNat 40 limit, perm := perm, kind := kind }))

/-- One issued lane with memory: g1 on its lane store, g2 on team-local memory, g3 on pages, g4 on die-shared memory. -/
def room : State :=
  let s := (paged one).updTeam 1 fun t => { t with localSz := 4096 }
  let s := s.updDie 0 fun d => { d with gshared := 1 }
  withG (withG (withG (withG s 1 laneBase 512 15 2) 2 teamBase 4096 15 1) 3 0x100000 0x100000 15 0) 4 sharedBase 4096 15 3

theorem witness_tables : P one (.lut 3 121 0) [.dst 121, .src 0] ∧ P room (.lutld 3 121 3) [.dst 121, .g 3] .compute (some 0x3F)
    ∧ room.issueGroups = [(0, 0)] ∧ room.tidy = true ∧ isOk (room.checkAccess 0 { size := 3088, align := 16, g := 3, perm := 1, noDevice := true } (room.ptrOf 0 3)) = true
    ∧ room.engineFault (room.agentOf 0) {} (room.ptrOf 0 3).toNat 3088 = none ∧ (room.core 0).loads = []
    ∧ ((room.grp 0).latch.get {} 3).latched = false := by decide +kernel

-- Memory.

/-- Every lane's access passes, as a test. -/
def allAllowed (s : State) (a : Ask) (rd : Bool) (ks : List (Nat × DWord)) : Bool :=
  ks.all fun e => match s.checkAccess e.1 a e.2 with | .ok p => !rd || !s.isPoisoned p.home a.size | .error _ => false

theorem allowed_of {s : State} {a : Ask} {rd : Bool} {ks : List (Nat × DWord)} (h : allAllowed s a rd ks = true) : s.Allowed a rd ks := by
  intro e he
  have := List.all_eq_true.1 h e he
  revert this
  cases hc : s.checkAccess e.1 a e.2 with
  | error f => simp
  | ok p => intro hp; refine ⟨p, rfl, fun hr => ?_⟩; subst hr; simpa using hp

theorem witness_memory : Memory.wf room.mem = true ∧ room.tidy = true ∧ 2 ^ 110 - 4 + [1, 2, 3, (4 : Byte)].length ≤ 2 ^ 110 := by decide +kernel

theorem witness_access_order :
    let f := room.gf 0 1
    laneBase % 4 = 0 ∧ (laneBase + 2) % 4 ≠ 0 ∧ f.base.toNat = laneBase ∧ f.limit.toNat = 512 ∧ ¬ (laneBase + 510 + 4 ≤ f.base.toNat + f.limit.toNat)
      ∧ f.perm.toNat &&& 1 = 1 ∧ ((room.setReg (.gfield 0 1 { f with perm := 2 })).gf 0 1).perm.toNat &&& 1 ≠ 1 ∧ f.kind = 2 ∧ isCmd 0 = false
      ∧ laneBase + 508 < laneBase + 2048 ∧ 508 + 4 ≤ (room.thr 0).laneSz ∧ ¬ 512 + 4 ≤ (room.thr 0).laneSz := by decide +kernel

theorem witness_weak : (∀ e ∈ [(0, 121, 1), (4, 121, 2), (6, 116, 1), (5, 120, 3)],
      let z := BitVec.ofNat 3 e.1
      let g := BitVec.ofNat 5 e.2.2
      let d := BitVec.ofNat 7 e.2.1
      P room (.ld z d g 0) ([dataOf (weakSize z) d true, .g g] ++ []) ∧ allAllowed room (askWeak (weakSize z) g false) true (room.offsetEas g 0 (weakSize z)) = true
      ∧ P room (.ldx z d g 9 3) ([dataOf (weakSize z) d true, .g g] ++ [.src 9]) ∧ allAllowed room (askWeak (weakSize z) g false) true (room.indexEas g 9 3) = true
      ∧ P room (.st z d g 0) ([dataOf (weakSize z) d false, .g g] ++ []) ∧ allAllowed room (askWeak (weakSize z) g true) false (room.offsetEas g 0 (weakSize z)) = true
      ∧ P room (.stx z d g 9 0) ([dataOf (weakSize z) d false, .g g] ++ [.src 9]) ∧ allAllowed room (askWeak (weakSize z) g true) false (room.indexEas g 9 0) = true
      ∧ isOk (room.checkWindow ((room.spotsOf (askWeak (weakSize z) g true) (room.indexEas g 9 0)).map fun x => (x.1, upto x.2.home (weakSize z)))) = true)
    ∧ allAllowed room (askWeak 4 1 false) true (room.offsetEas 1 127 4) = true
    ∧ room.OnlyAtHome 0 (homeTeam 1 0)
    ∧ (let p : Spot := { home := homeTeam 1 0, win := .teamLocal }
      let s := room.weakWrite 0 p p.home [7] teamBase
      p.win ≠ .laneStore ∧ (s.core 0).pending p.home = some 7
        ∧ (match (s.core 0).who.get none p.home with | some w => w.by_.any fun x => x.1 == (s.thr 0).uid | none => false) = true
        ∧ (s.slot 0).l0.get none (p.home / 128) = none) := by decide +kernel

theorem witness_stores : Memory.wf room.mem = true ∧ room.tidy = true ∧ room.issue = [0] ∧ (∀ k ∈ room.issue, room.isDet k = false) ∧ isCmd 0 = false ∧ room.bins = []
    ∧ room.NothingPending 0
    ∧ (∀ x ∈ room.spotsOf (askWeak 4 1 true) (room.offsetEas 1 127 4), x.2.win = .laneStore ∧ x.2.home + 4 ≤ 2 ^ 110)
    ∧ (room.spotsOf (askWeak 4 2 true) (room.offsetEas 2 255 4)).map (fun x => (x.1, x.2.win)) = [(0, .teamLocal)]
    ∧ (room.spotsOf (askWeak 4 4 true) (room.offsetEas 4 0 4)).map (fun x => (x.1, x.2.win)) = [(0, .shared)]
    ∧ P room (.st 4 5 1 127) ([dataOf 4 5 false, .g 1] ++ []) ∧ P room (.sts 2 2 121 3 4) [dataOf 4 121 false, .g 3] .both
    ∧ (match room.checkAccess 0 (askStrong 4 3 true) (room.ptrOf 0 3) with | .ok p => p.win == .paged && decide (p.home + 4 ≤ 2 ^ 110) | .error _ => false) = true := by
  decide +kernel

theorem witness_strong : P room (.lds 1 3 120 3 4) [dataOf 8 120 true, .g 3] .both ∧ allAllowed room (askStrong 8 3 false) true (room.ptrEas 3) = true
    ∧ P room (.sts 2 0 121 2 1) [dataOf 1 121 false, .g 2] .both ∧ allAllowed room (askStrong 1 2 true) false (room.ptrEas 2) = true
    ∧ isOk (room.checkWindow ((room.spotsOf (askStrong 1 2 true) (room.ptrEas 2)).map fun x => (x.1, upto x.2.home 1))) = true := by decide +kernel

theorem witness_addresses :
    P one (.gset 1 31 60 62 15 3) [.usrc 60 true, .usrc 62 true, { cls := .addr, n := 31, rd := false, wr := true }] .both
    ∧ P one (.gset 0 0 120 118 1 0) [.src 120 true, .src 118 true, { cls := .addr, n := 0, rd := false, wr := true }] .both
    ∧ P one (.gget 120 31 0) [.dst 120 true, { cls := .point, n := 31 }] .both ∧ P one (.gget 121 0 3) [.dst 121 false, { cls := .fields, n := 0 }] .both
    ∧ P room (.gadv 3 120 1 3) [.src 120 true, { cls := .point, n := 3, wr := true }, { cls := .fields, n := 3 }] .both
    ∧ (let f := room.gf 0 3
      let p := (room.ptrOf 0 3).toNat
      f.base.toNat ≤ p ∧ p ≤ f.base.toNat + f.limit.toNat ∧ f.base.toNat ≤ p + f.limit.toNat ∧ p + f.limit.toNat ≤ f.base.toNat + f.limit.toNat
        ∧ ¬ p + (f.limit.toNat + 1) ≤ f.base.toNat + f.limit.toNat)
    ∧ P room (.gptr 3 120) [.src 120 true, { cls := .point, n := 3, rd := false, wr := true }, { cls := .fields, n := 3 }] .both
    ∧ (let s := withV room 120 [(0, 0x200000)]
      ∀ k ∈ s.issue, (s.gf k 3).base.toNat ≤ (s.v64 k 120).toNat ∧ (s.v64 k 120).toNat ≤ (s.gf k 3).base.toNat + (s.gf k 3).limit.toNat) := by decide +kernel

theorem witness_atomics : P room (.atom 6 120 118 3 3 4 3) [.dst 120 true, .src 118 true, .g 3] .both ∧ allAllowed room (askAtomic 8 3 0x46) true (room.ptrEas 3) = true
    ∧ P room (.atom 0 121 0 3 2 2 0) [.dst 121 false, .src 0 false, .g 3] .both ∧ allAllowed room (askAtomic 4 3 0x46) true (room.ptrEas 3) = true
    ∧ P room (.acas 121 0 1 3 1 1 1 15) [.dst 121 false, .src 0 false, .src 1 false, .g 3, .pdst 15] .both ∧ allAllowed room (askAtomic 4 3 0x47) true (room.ptrEas 3) = true
    ∧ P room (.fatom 2 120 118 3 0 0 1) [.dst 120 true, .src 118 true, .g 3] ∧ (∀ k ∈ room.issue, room.isDet k = false)
    ∧ allAllowed room (askAtomic 8 3 0x48) true (room.ptrEas 3) = true
    ∧ Memory.wf room.mem = true ∧ room.tidy = true ∧ room.NothingPending 0 ∧ 0x100000 + 8 ≤ 2 ^ 110 := by decide +kernel

/-- `room` with the binned region of E = 0 in .f32 declared: primaries at 0x100000, shadows at 0x110000. -/
def binned : State := room.updCx 1 fun c => { c with regions := c.regions.put none 5 (some { primary := 0x100000, shadow := 0x110000, count := 16, e := 0, f64 := false }) }

theorem witness_binned : P binned (.gadd 121 3 2 4 0) [.src 121 false, .g 3] ∧ (∀ k ∈ binned.issue, binned.isDet k = false)
    ∧ (match binned.checkGadds 3 0 0x49 (binned.issue.map fun k => (k, binned.ptrOf k 3, binned.intSrc k false false 121)) with
      | .ok xs => xs.length == 1 && isOk (binned.checkGaddWindow xs) | .error _ => false) = true
    ∧ (let u : BinUpd := { id := 7, th := 0, ctx := 1, shadow := 0x110000, primary := 0x100000, e := 0, f64 := false, neg := false, mant := 3, exp := -1 }
      let s := { binned with bins := [u] }
      u ∈ s.bins ∧ u.id = 7 ∧ (∀ v ∈ s.bins, v.id = 7 → v = u) ∧ ∀ v ∈ s.bins, v.id ≠ 8)
    ∧ [0, 0, (0 : Int)].length = 3 ∧ [0, 0, 0, (0 : Int)].length = 4 := by decide +kernel

/-- The largest addend below 2^(E + 1) for E = 0. -/
theorem witness_bin_range : ((2 ^ 24 - 1 : Nat) : ℚ) * (2 : ℚ) ^ (-23 : Int) < (2 : ℚ) ^ ((0 : Int) + 1) := by norm_num

end Sys2Proof.Tests

namespace Sys2Proof.Tests

-- Fences, barriers, slot rings and binned regions.

/-- Lanes of a team that runs on two cores, with one arrival at team barrier 15 missing. -/
def twoCores (n : Nat) : State :=
  (lanes [0, 1]).updTeam 1 fun t => { t with cores := [0, 1], nthreads := 2, bars := t.bars.put {} 15 { count := n } }

theorem witness_fences : (∀ i ∈ [Instr.phase 4, .phasePub 0, .phaseAcq 3, .barArrive 1 15, .barWait 0 0, .barSync 1 0], P one i []) ∧ P one .fencesc [] .both
    ∧ (let s := { one.updThr 0 fun t => { t with fence := some 2 } with clk := 128 }; (s.thr 0).fence = some 2 ∧ 64 * 2 ≤ s.clk)
    ∧ (let s := (lanes [0, 1]).updThr 0 fun t => { t with held := [31] }; 31 ∈ (s.thr 0).held)
    ∧ (let s := (lanes [0, 1]).arriveNow 0 15; s.hasArrived 0 15 = true)
    ∧ (let s := lanes [0, 1]; s.hasArrived 0 15 = false ∧ 15 ∉ (s.thr 0).held ∧ (s.arriveNow 0 15).barFull (s.barOwner 0) 15 = false)
    ∧ (let s := (lanes [0, 1]).arriveNow 1 15; (s.arriveNow 0 15).barFull (s.barOwner 0) 15 = true) := by decide +kernel

theorem witness_barriers : (twoCores 2).tidy = true ∧ (twoCores 2).barFull ⟨0, 1⟩ 31 = true ∧ (twoCores 2).slowBar ⟨0, 1⟩ 31 = true
    ∧ (((twoCores 2).team 1).bars.get {} (31 - 16)).releasing = false
    ∧ (let s := (twoCores 2).releaseLater ⟨1, 1⟩ 31; ((s.team 1).bars.get {} (31 - 16)).releasing = true) := by decide +kernel

/-- `room` with a slot-ring block of two slots at the start of its team's memory, the first in state `n` of the producer and the
consumer, and g2 on it. -/
def ring (n : Byte) : State := (room.writeHomes (homeTeam 1 0x0C) [1]).writeHomes (homeTeam 1 0x10) [n]

/-- The checks of a block pass for lane 0, and it can claim a side. -/
def ringOk (s : State) (fill : Option Bool) (slot : Option (Nat × Bool)) : Bool :=
  match s.checkBlocks 2 (fun _ => slot), fill with
  | .ok [e], some f => (s.beforeStrong e.1 e.2).claimable e.2.home f
  | .ok [_], none => true
  | _, _ => false

theorem witness_rings : P (ring 2) (.slwait 121 2) [.dst 121, .g 2] ∧ ringOk (ring 2) (some false) none = true
    ∧ P (ring 0) (.slfree 121 2) [.dst 121, .g 2] ∧ ringOk (ring 0) (some true) none = true
    ∧ P (ring 3) (.slrel 2 0) [.g 2, .src 0] ∧ ringOk (ring 3) none (some (0, false)) = true
    ∧ P (ring 1) (.slcommit 2 0) [.g 2, .src 0] ∧ ringOk (ring 1) none (some (0, true)) = true
    ∧ homeTeam 1 0 + 128 ≤ 2 ^ 110 ∧ Memory.wf (ring 2).mem = true ∧ (ring 2).tidy = true := by decide +kernel

/-- A descriptor of sixteen .f32 elements with E = 2047, primaries at 0x100080 and shadows at 0x110000, where g3 points. -/
def described : State := room.writeHomes 0x100000 (leBytes 8 0x100080 ++ leBytes 8 0x110000 ++ leBytes 4 16 ++ leBytes 2 2047)

theorem witness_binctl :
    (let b := described.engineBytes 0 (described.ptrOf 0 3).toNat 32;
      P described (.binctlDecl 63 3) [.g 3] .compute (some 0x57) ∧ described.issueGroups = [(0, 0)]
      ∧ isOk (described.engineChecks 0 (rowAsk 32 1 3 false) false [(described.ptrOf 0 3).toNat]) = true ∧ b.2 = false ∧ regionBad b.1 = false
      ∧ described.regionMeets (described.ctxOf 0) 63 (regionOf b.1) = false)
    ∧ P binned (.binctlFree 5) [] .compute (some 0x57)
    ∧ (let s := withV (withV binned 0 [(0, 14)]) 121 [(0, 2)];
      P s (.binctlFin 5 0 121) [.src 0, .src 121] .compute (some 0x57) ∧ P s (.binctlFinclr 5 0 121) [.src 0, .src 121] .compute (some 0x57)
      ∧ s.issueGroups = [(0, 0)] ∧ s.issuedOf 0 = [0]
      ∧ (match (s.cx (s.ctxOf 0)).regions.get none 5 with
        | some r => decide ((s.v 0 0).toNat + (s.v 0 121).toNat ≤ r.count) && isOk (s.finElems 0 r (upto (s.v 0 0).toNat (s.v 0 121).toNat))
        | none => false) = true) := by decide +kernel

end Sys2Proof.Tests

namespace Sys2Proof.Tests

-- Tiles.

/-- `room` with context 1 the owner of core 0's tile 15, and g2 on 16,384 bytes of team-local memory. -/
def tiled : State := withG ((room.setAcc 0 15 { owner := some 1 }).updTeam 1 fun t => { t with localSz := 16384 }) 2 teamBase 16384 15 1

theorem witness_tiles : tiled.issueGroups = [(0, 0)] ∧ tiled.issuedOf 0 = [0] ∧ tiled.tileNo 0 15 = 15 ∧ isOk (tiled.takeover 0 15) = true
    ∧ (tiled.took 0 15).poisonReg = []
    ∧ P tiled (.accz 1 15 0x8000) [.acc 15] ∧ P tiled (.accsvSave 15 2) [.acc 15, .g 2] ∧ P tiled (.accsvLoad 15 2) [.acc 15, .g 2]
    ∧ P tiled (.accrd 1 120 0 15) [.dst 120 true, .src 0, .acc 15] ∧ P tiled (.accrd 3 121 121 15) [.dst 121 false, .src 121, .acc 15]
    ∧ P tiled (.tld 7 3 63) [.tile (7 : BitVec 3).toNat, .g 3, .usrc 63] ∧ P tiled (.tst 0 3 0) [.tile (0 : BitVec 3).toNat, .g 3, .usrc 0]
    ∧ P tiled (.accdr 2 15 1 7 0 0 0 0 0 0) ([.acc 15, .tile (7 : BitVec 5).toNat] ++ [] ++ [.usrc 0 false 9])
    ∧ P tiled (.accdr 0 15 0 3 3 1 0 0 0 55) ([.acc 15, .g 3] ++ [.g 3] ++ [.usrc 55 false 9])
    ∧ P tiled (.mmq 3 15 3 2 2 0 63) [.acc 15, .g 2, .g 2, .usrc 0, .usrc 63] := by decide +kernel

theorem witness_tile_images :
    isOk (tiled.engineChecks 0 (rowAsk 10256 16 2 true) false [(tiled.ptrOf 0 2).toNat]) = true
    ∧ isOk (tiled.checkWindow [(0, tiled.storeHomesOf 0 (tiled.ptrOf 0 2).toNat 10256)]) = true
    ∧ isOk (tiled.engineChecks 0 (rowAsk 10256 16 2 false) false [(tiled.ptrOf 0 2).toNat]) = true
    ∧ (let b := tiled.engineBytes 0 (tiled.ptrOf 0 2).toNat 10256
      let kept := tiled.keepRows 0 false 10256 [(tiled.ptrOf 0 2).toNat]
      (kept.imageBad (kept.agentOf 0) (tiled.ptrOf 0 2).toNat).isEmpty && isOk (kept.takeover 0 15)
        && decide ((b.1.getD 10240 0).toNat ≤ 1) && (b.1.drop 10244).all (· == 0)) = true := by decide +kernel

theorem witness_tile_rows : (let s := tiled.setReg (.ureg 0 0 64)
      isOk (s.engineChecks 0 (rowAsk 64 2 3 true) false (s.rowsOf 0 0 3 0))
        && (s.rowsOf 0 0 3 0).all (fun va => (s.engineBytes 0 va 64).2 == false)
        && isOk (s.checkWindow [(0, (s.rowsOf 0 0 3 0).flatMap fun va => s.storeHomesOf 0 va 64)])
        && isOk (s.engineChecks 0 (rowAsk 64 2 3 false) false (s.rowsOf 0 0 3 0)) && !s.tileBad 0 7) = true := by decide +kernel

theorem witness_drain : isOk (tiled.drain (tiled.drainOf 0 2 0 0 0 0) 15 true 7 0 false (tiled.w 0 1) (tiled.w 0 2) 0 0) = true
    ∧ isOk (tiled.drain (tiled.drainOf 0 0 1 0 0 55) 15 false 3 3 true (tiled.w 0 56) (tiled.w 0 57) 0 0) = true := by decide +kernel

theorem witness_mmq : (let qs := tiled.quarters 15 2 2 0 63
    isOk (tiled.mmqChecks 3 2 2 qs) && qs.length == 1
      && qs.all fun q => isOk (tiled.takeover q.k q.tile) && !tiled.mmqWaits 3 2 2 q && (tiled.mmqQuarter 3 2 2 3 q).2.isNone) = true := by decide +kernel

theorem witness_accumulators : (List.replicate 32 (([FVal.fin false 1 0] : List FVal), false)).length = 32 ∧ Tab.risingFrom 0 ([] : Tab (BitVec 80)) = true
    ∧ sgn 80 (2 ^ 80 - 1) + ⌊(-1 : ℚ) * (2 : ℚ) ^ ((0 : Int) - 1)⌋ = -2 := by
  refine ⟨by decide +kernel, by decide +kernel, ?_⟩
  have : sgn 80 (2 ^ 80 - 1) = -1 := by decide +kernel
  rw [this]; norm_num

end Sys2Proof.Tests

namespace Sys2Proof.Tests

-- Triangles, textures and ray queries.

/-- The triangle of R215's example, with the window of all lanes' uniforms w0 to w11 and the token in w12. -/
def drawn (ls : List Nat) : State :=
  let ws : List Word := [0x3F000000, 0x3F000000, 0x3F000000, 0x3F800000, 0x40600000, 0x3F000000, 0x3F000000, 0x3F800000,
    0x3F000000, 0x40600000, 0x3F000000, 0x3F800000, 0]
  (ws.zip (List.range 13)).foldl (fun s e => s.setReg (.ureg 0 e.2 e.1)) (lanes ls)

theorem witness_raster : P (drawn [0, 7]) (.rast 3 8 0 12 15 20)
      [{ cls := .vec, n := 8, cnt := 4, quad := true, rd := false, wr := true }, .usrc 0 false 12, { cls := .uni, n := 12, wr := true }, .pdst 15, .dst 20]
    ∧ (drawn [0, 7]).issueGroups.map (·.1) = [0]
    ∧ (match (drawn [0, 7]).triCheck 0 0 with | .ok t => rastToken t 3 ((drawn [0, 7]).w 0 12) | .error _ => false) = true
    ∧ (let s := (drawn [0]).setReg (.ureg 0 17 1)
      P s (.edgs 100 0 12 0 13) [.block 100 10 true true, { cls := .uni, n := 0, cnt := 12, rd := false, bound := true }, .usrc 0 false 2,
        .usrc 4 false 2, .usrc 8 false 2, { cls := .uni, n := 12, wr := true }, .pdst 0, .usrc 13 false 6]
      ∧ isOk (s.edgeCheck 0 0 12 13) = true) := by decide +kernel

/-- The same triangle over `binned`, with small weights for its additions. -/
def splat : State := (List.range 13).foldl (fun s i => s.setReg (.ureg 0 i ((drawn [0]).w 0 i))) binned

theorem witness_rastg : P splat (.rastg 0 3 20 30 0 15 40) [.g 3, .vblock 20 3 2, .src 30, .usrc 0 false 12, .psrc 15, .src 40]
    ∧ splat.issue.filter (fun k => splat.p k 15) = [0]
    ∧ (match splat.triCheck 0 0 with
      | .ok t => match splat.checkGadds 3 0 0x59 (((splat.rastgAddends t 0 20 30 40 0).zip (List.range 12)).map fun x =>
            (0, splat.ptrOf 0 3 + BitVec.ofNat 64 (4 * x.2), x.1.toNat)) with
          | .ok xs => isOk (splat.checkGaddWindow xs) && xs.length == 12 | .error _ => false
      | .error _ => false) = true := by decide +kernel

/-- `binned` with a resource of 4 by 4 texels of one FP32 channel, the region its gradient, and a sampler. -/
def textured : State :=
  let s := binned.updCx 1 fun c => { c with rheap := 0x140000, sheap := 0x150000 }
  let s := s.writeHomes 0x140000 (leBytes 8 0x160000 ++ leBytes 2 3 ++ leBytes 2 3 ++ [0, 1, 0, 0] ++ leBytes 8 0x100000)
  s.writeHomes 0x15000C (leBytes 4 0x40000000)

/-- The records that the lane names, by kind, and what a lane's work on its record gives. -/
def recsOk (s : State) (b : BitVec 7) (smp texb : Bool) (f : Nat → TexRec → Bool) : Bool :=
  match s.laneRecords b smp texb with
  | .ok recs => s.issue.all fun k => match recs.find? (fun t => t.idx == (s.v k b.toNat).toNat) with | some t => f k t | none => false
  | .error _ => false

theorem witness_textures : P textured (.tex 0 116 0 121) (texOpds 116 0 121 0) ∧ recsOk textured 121 true false (fun k t => isOk (textured.texLane 116 0 0 none k t)) = true
    ∧ P textured (.texg 1 3 0 118 0) (texOpds 0 118 0 1) ∧ recsOk textured 0 true false (fun k t => isOk (textured.texLane 0 118 1 (some 3) k t)) = true
    ∧ P textured (.texl 0 1 2) (texOpds 0 1 2 0) ∧ recsOk textured 2 false false (fun k t => decide (0 < t.res.levels) && isOk (textured.readTexel k t.res 0 0 0)) = true
    ∧ (let s := withV textured 3 [(0, 15)]; P s (.texl 0 1 2) (texOpds 0 1 2 0) ∧ recsOk s 2 false false (fun _ t => decide (t.res.levels ≤ 15)) = true)
    ∧ P textured (.texb 1 120 0 121 118) [.dst 120 true, .vblock 0 (if (1 : BitVec 1) = 1 then 2 else 3) 2, .src 121, .vblock 118 4 3]
    ∧ recsOk textured 121 true true (fun k t => match textured.texbLane 1 120 0 118 k t with
        | .ok o => isOk (textured.checkGaddWindow (texOrder [o.2])) && o.2.length != 0 | .error _ => false) = true
    ∧ P textured .rrecInv [] ∧ P textured (.rrecDim 121 0 1) [.dst 121, .src 0, .src 1] ∧ P textured (.rrecFmt 121 0) [.dst 121, .src 0]
    ∧ recsOk textured 1 false false (fun _ _ => true) = true ∧ recsOk textured 0 false false (fun _ _ => true) = true := by decide +kernel

end Sys2Proof.Tests

namespace Sys2Proof.Tests

/-- `room` with a box node at 0x110000 whose one child is a leaf of type `typ` with one entry at 0x120000: R241's first triangle, or
a procedural entry; and R241's ray in FP32 at v8 and in FP64 at v24. -/
def traced (typ : Nat) : State :=
  let f := fun (l : List Nat) => l.flatMap fun x => leBytes 4 x
  let s := room.writeHomes 0x110000 (f [0xBF800000, 0xBF800000, 0x40000000, 0x3F800000, 0x3F800000, 0x40000000])
  let s := s.writeHomes 0x1100C0 (leBytes 8 (typ * 2 ^ 61 + 0x120000))
  let s := if typ = 4 then s.writeHomes 0x120000 (f [7, 9, 0, 0]) else s.writeHomes 0x120000 (f [0xBF800000, 0xBF800000, 0x40000000, 0x3F800000,
    0x3F800000, 0x40000000, 0xBF800000, 0x3F800000, 0x40000000, 7, 9, 0])
  let s := ([(10, 0xBF800000), (13, 0x3F800000), (15, 0x41200000), (29, 0xBFF00000), (35, 0x3FF00000), (39, 0x40240000)] : List (Nat × Word)).foldl
    (fun s e => s.setReg (.vreg 0 e.1 e.2)) s
  withV (withV s 40 [(0, 0x120000)]) 44 [(0, 0x110000)]

/-- The same after RQINIT, and after RQPROC with no translation kept. -/
def queried (typ : Nat) : State := (traced typ).putQuery
  { k := 0, q := some (0, { ctrl := 1, iid := 0xFFFFFFFF, trail := 0, leaf := 0, inst := 0, t := 0, geom := 0xFFFFFFFF, prim := 0xFFFFFFFF,
                            b1 := 0, b2 := 0, root := 0x110000 }) }
def proceeded (typ : Nat) : State := match (queried typ).rqprocLane 0 50 8 0 with | .ok o => (queried typ).putQuery { o with seen := {} } | .error _ => queried typ

/-- The log records of a query instruction pass. -/
def logsOk (s : State) (outs : List RqOut) : Bool := outs.all (fun o => isOk (s.pushLog o.k o.recs)) && isOk (s.logged outs).checkCharge

theorem witness_query_logs :
    let s := (queried 2).updThr 0 fun t => { t with tape := { bound := true, base := BitVec.ofNat 64 (teamBase + 1024), budget := 256 } }
    logsOk s [{ k := 0, recs := [(0xE3, [1, 2, 3, 4]), (0xE1, [5, 6, 7, 8])] }] = true := by decide +kernel

theorem witness_queries : P (traced 2) (.rqinit 1 120 8 1 0 1 1) [.src 120 true, { rayOpd 8 false none with rd := false }]
    ∧ 64 * (1 : BitVec 1).toNat + 64 ≤ ((traced 2).thr 0).laneSz ∧ logsOk (traced 2) [{ k := 0, q := none }] = true
    ∧ P (queried 2) (.rqproc 0 50 8) (.dst 50 :: (queried 2).rayOpds 0 8)
    ∧ (match (queried 2).rqprocLane 0 50 8 0 with
      | .ok o => logsOk (queried 2) [o] && ((o.q.map fun q => q.2.phase) == some 2)
      | .error _ => false) = true
    ∧ P (queried 2) (.rqabort 0) [] ∧ isOk ((queried 2).useQuery 0 0 [1, 2, 3, 4]) = true
    ∧ (∀ f ∈ [0, 1, 2, 6], P (queried 2) (.rqres (BitVec.ofNat 3 f) 0 50 (if f = 1 then 8 else 0))
        (rqDst (BitVec.ofNat 3 f) 50 :: (if BitVec.ofNat 3 f = 1 then (queried 2).rayOpds 0 8 else []))) := by decide +kernel

theorem witness_candidates : (∀ typ ∈ [2, 4], let s := proceeded typ
    ((List.range 5).all fun f =>
      meetsNone s (.rqcand (BitVec.ofNat 3 f) 0 50 (if f = 0 then 0 else 8)) (rqDst (BitVec.ofNat 3 f) 50 :: (if 1 ≤ f ∧ f ≤ 4 then s.rayOpds 0 8 else [])) .compute none
      && (match s.useQuery 0 0 [2, 3] with
        | .ok x => match s.candidate 0 x with
          | .ok c => isOk (s.candField 0 f 50 x (s.rayVals 0 (if f = 0 then 0 else 8) x.fp64) c.1 c.2.1)
          | .error _ => false
        | .error _ => false))
    && meetsNone s (.rqcommit 0 8 60) (s.rayOpds 0 8 ++ [{ Opd.src 60 true with only := some (s.issue.filter fun k =>
        match s.peekQuery 0 k with | some x => x.phase == 3 | none => false) }]) .compute none
    && (match s.rqcommitLane 0 8 60 0 with | .ok o => logsOk s [o] | .error _ => false)) := by decide +kernel

/-- `traced` with an FP64 region of 9 elements at its triangles' gradients, and g3 there. -/
def graded : State := (traced 2).updCx 1 fun c =>
  { c with regions := c.regions.put none 5 (some { primary := 0x100000, shadow := 0x110000, count := 9, e := 0, f64 := true }) }

theorem witness_triangles :
    P graded (.rqtri 50 24 40 42 15 0) [.vdst 50 6 5 true, rayOpd 24 true none, .src 40 true, .src 42 true, .pdst 15]
    ∧ isOk (graded.namedEntry 0 0 40 42) = true
    ∧ P graded (.rqgrad 50 24 40 42 46 3 0)
        [.vdst 50 12 11 true, rayOpd 24 true none, .src 40 true, .src 42 true, { Opd.vblock 46 6 5 with wide := true }, .g 3]
    ∧ (match graded.rqgradLane 50 24 40 42 46 0 0 with
      | .ok o => o.2.length == 9 && (match graded.checkGadds 3 1 0x66 ((o.2.zip (List.range 9)).map fun e =>
          (0, graded.ptrOf 0 3 + BitVec.ofNat 64 (8 * e.2), e.1)) with
        | .ok xs => isOk (graded.checkGaddWindow xs) && xs.length == 9
        | .error _ => false)
      | .error _ => false) = true := by decide +kernel

end Sys2Proof.Tests

namespace Sys2Proof.Tests

-- Tapes, reservoirs, tasks and strands.

/-- `room` with an empty tape of four frames bound at 0x101000, and with one record on it; and a tape descriptor where g3 points. -/
def taped : State := room.updThr 0 fun t => { t with tape := { bound := true, base := 0x101000, budget := 256 } }
def pushed : State := got (taped.tapePush 0 5 [100, 7]) taped
def spanned : State := got (pushed.openSpan 0 0x100008 1 2) pushed
def unbound : State := room.writeHomes 0x100000 (leBytes 8 0x101000 ++ leBytes 4 512 ++ leBytes 4 256)

theorem witness_tape_records : [0, 0, 0, (0 : Word)].length = [100, 7, 0xFFFFFFFF, (32768 : Word)].length ∧ 255 < 256 := by decide +kernel

/-- A tape operation of the one issued lane succeeds, and the context's charges with it. -/
def tapeOk (s : State) (f : State → Nat → Except Flt State) : Bool :=
  !s.tapeWaits 0 (s.thr 0).tape.reach && !s.tapeWaits 0 0 && isOk (f s 0) && isOk (s.eachTape f).checkCharge

/-- A tape that a descriptor of mode 1 finds with its header as it was written. -/
def rebound : State := (got (pushed.bindTape { mode := 0, base := 0x101000, stride := 512, budget := 256, idBase := 0 } 0) pushed).writeHomes 0x100000
  (leBytes 8 0x101000 ++ leBytes 4 512 ++ leBytes 4 256 ++ leBytes 4 0 ++ [1])

/-- A bind of every issued thread passes: the descriptor, the areas, the headers and the charge. -/
def bindOk (s : State) (g : Nat) : Bool :=
  let synced := s.issue.foldl State.syncThread s
  let va := fun k => (s.ptrOf k g).toNat
  match s.issueGroups with
  | [e] => isOk (s.engineChecks e.2 { size := 32, align := 32, g := g, perm := 1 } false [va e.2])
      && (match parseTapeDesc (synced.engineBytes e.2 (va e.2) 32).1 with
        | some d => (s.issue.all fun k =>
            (synced.enginePartFault (synced.agentOf k) { w := true } (parts (d.area (s.thr k).lid) (64 + d.budget))).isNone
              && (match synced.engineHomes (synced.agentOf k) {} (parts (d.area (s.thr k).lid) 64) with | .ok hs => !synced.torcOwns hs | .error _ => false)
              && isOk ((synced.keepWay (synced.agentOf k) { w := true } (d.area (s.thr k).lid) (64 + d.budget)).bindTape d k))
            && isOk (s.issue.foldl (fun t k => got ((t.keepWay (t.agentOf k) { w := true } (d.area (s.thr k).lid) (64 + d.budget)).bindTape d k) t) synced).checkCharge
        | none => false)
  | _ => false

theorem witness_tapes : taped.issue = [0]
    ∧ P taped (.trec 3 127 118) [.block 118 ((3 : BitVec 2).toNat + 1)] ∧ tapeOk taped (fun t j => t.tapePush j 127 [1, 2, 3, 4]) = true
    ∧ P pushed (.tpop 118 0) [.vdst 118 4 3, .dst 0] ∧ tapeOk pushed (fun t j => t.popTo 118 0 j) = true
    ∧ P pushed (.tmarkOpen 0 121) [.src 0, .src 121] ∧ tapeOk pushed (fun t j => t.openSpan j (BitVec.ofNat 64 pushed.fallThrough) 0 0) = true
    ∧ P spanned .tmarkClose [] ∧ (spanned.thr 0).tape.isOpen = true ∧ tapeOk spanned State.closeSpan = true
    ∧ P pushed (.tctlSeek 121) [.src 121] ∧ (pushed.thr 0).tape.bound = true ∧ 0 < (pushed.thr 0).tape.top
    ∧ tapeOk pushed (fun t j => t.tapeSeek j 0 ((t.thr j).tape.top + 1)) = true
    ∧ P unbound (.tctlBind 3) [.g 3] ∧ unbound.issueGroups = [(0, 0)] ∧ bindOk unbound 3 = true ∧ bindOk rebound 3 = true
    ∧ P pushed (.tctlStat 121) [.dst 121] ∧ P pushed .tctlSync [] := by decide +kernel

theorem witness_reservoirs : P one (.rsvupd 7 119 61) [.block 119 3, .usrc 61 false 3, .q 7 true true]
    ∧ P one (.rsvmrg 0 7 121 60) [.src 121, .usrc 60 false 4, .q 0 true false, .q 7 true true] ∧ P one (.rsvinit 7) [.q 7 false true]
    ∧ P one (.rsvfin 121 0) [.dst 121, .q 0 true false] ∧ P one (.rsvget 118 7 4) [.vdst 118 4 3, .q 7 true false]
    ∧ P one (.rsvget 121 7 0) [.dst 121, .q 7 true false] ∧ P one (.rsvset 7 118 4) [.vblock 118 4 3, .q 7 false true]
    ∧ P one (.rsvset 7 121 3) [.src 121, .q 7 true true] ∧ P one (.clove 0 1 121 118 120) [.dst 121, .vblock 118 4 3, .src 120 true]
    ∧ P one (.clove 1 0 0 0 62) [.dst 0, .vblock 0 4 3, .usrc 62 false 2]
    ∧ (let r := rsvOf 0x00000003_3FC00000_3E800000_00000011
      let z := r.update 0x22 0x3F400000 0x3F000000 4 4194303
      fpFinite f32 0x3F000000 = true ∧ (0x3F000000 : Word).getLsbD 31 = false ∧ fpFinite f32 z.wsum.toNat = true) := by decide +kernel

/-- Bytes of a launch descriptor of one team of eight threads in context 1. -/
def launchBytes : List Byte := leBytes 8 0x100000 ++ leBytes 2 1 ++ [0, 8] ++ leBytes 2 8 ++ [0, 16] ++ leBytes 2 1 ++ leBytes 2 1 ++ leBytes 2 1
  ++ leBytes 2 8 ++ List.replicate 9 0 ++ [0xFF]

/-- `room` with that descriptor where g3 points; with a queue entry there; queue 63 and counter 4095 of die 0 are the context's. -/
def spawning : State := room.writeHomes 0x100000 launchBytes
def queued : State :=
  (room.writeHomes 0x100000 (leBytes 16 0 ++ leBytes 4 0 ++ leBytes 4 8 ++ leBytes 4 8 ++ leBytes 4 (0x1000 + 4095))).updDie 0 fun d =>
    { d with queues := d.queues.put {} 63 { ctx := 1 }, ctrCtx := [(4095, 1)] }

theorem witness_spawn : P spawning (.spawn 3 0 0 0) [.g 3] .compute (some 0x70) ∧ spawning.issue.filter (fun j => (spawning.thr j).tid == 0) = [0]
    ∧ isOk (spawning.laneEngine 0 { size := 128, align := 64, g := 3, perm := 1 }) = true
    ∧ (let b := spawning.engineBytes 0 (spawning.ptrOf 0 3).toNat 128
      b.2 == false && isOk (spawning.childGrid 0 b.1 0 0 0)) = true
    ∧ (∀ k ∈ (lanes [1, 2]).issue, ((lanes [1, 2]).thr k).tid ≠ 0)
    ∧ (let s := (spawning.setThr 1 { spawning.thr 0 with uid := 99, lid := 1 }).updSlot 0 fun x =>
        match x.phase with | .running r => { x with phase := .running { r with threads := [0, 1] } } | _ => x
      s.issue.filter (fun k => (s.thr k).tid == 0) = [0, 1]
      ∧ ∀ k ∈ [0, 1], isOk (s.laneEngine k { size := 128, align := 64, g := 3, perm := 1 }) = true
        ∧ isOk (s.childGrid k (s.engineBytes k (s.ptrOf k 3).toNat 128).1 0 0 0) = true) := by decide +kernel

theorem witness_tasks : P queued (.tqadd 3 63 1 0) [.g 3] .compute (some 0x71) ∧ queued.issue = [0]
    ∧ isOk (queued.laneEngine 0 { size := 32, align := 8, g := 3, perm := 1 }) = true
    ∧ (let b := queued.engineBytes 0 (queued.ptrOf 0 3).toNat 32
      b.2 == false && (queued.entryBad 0 63 (queued.ctxOf 0) b.1).isNone) = true
    ∧ P queued (.tqget 56 63) [{ cls := .uni, n := 56, cnt := 8, wide := true, rd := false, wr := true }] .compute (some 0x72)
    ∧ ((queued.die (dieOfThread 0)).queues.get {} 63).ctx = queued.ctxOf 0 ∧ (queued.grp 0).chunks = []
    ∧ (queued.serve 0 63).1 ≠ .wait
    ∧ (let s := withV queued 121 [(0, 4095)]
      P s (.depopSet 0 121 121) [.dst 0, .src 121, .src 121] .compute (some 0x73) ∧ P s (.depopAdd 0 121 121) [.dst 0, .src 121, .src 121] .compute (some 0x73)
      ∧ P s (.depopGet 0 121) [.dst 0, .src 121] .compute (some 0x73)
      ∧ s.ownsCtr (dieOfThread 0) ((s.v 0 121).toNat % 4096) (s.ctxOf 0) = true) := by decide +kernel

/-- Thread 0 in stage 0 of a resident pipeline of die 0 that reads strand 0 and writes strand 1, with one bead in strand 0. -/
def strung : State :=
  let st := fun (b : List Bead) => ({ size := 4096, bead := 16, beads := b } : Strand)
  let p : Pipe := { launch := 9, ctx := 1, resident := true, cores := 1, pool := [], stuck := false
                    stages := [{ input := 0, out0 := 1, out1 := 1, cores0 := 1, grid := 1 }, { input := 1, cores0 := 0 }]
                    strands := [st [{ seq := 3, bytes := List.replicate 16 1 }], st []] }
  (room.updDie 0 fun d => { d with pipes := [p] }).updGrid 1 fun g => { g with stage := some (9, 0) }

theorem witness_strands : strung.issue = [0] ∧ isOk (strung.outStrand 0 0) = true ∧ isOk (strung.outStrand 0 1) = true ∧ isOk (strung.inStrand 0) = true
    ∧ P strung (.spush 121 3 1) [.src 121, .g 3] .compute (some 0x74) ∧ P strung (.spop 120 3) [.dst 120 true, .g 3] .compute (some 0x75)
    ∧ isOk (strung.laneEngine 0 { size := 16, align := 16, g := 3, perm := 1 }) = true
    ∧ isOk (strung.laneEngine 0 { size := 16, align := 16, g := 3, perm := 2, wr := true, need := { w := true } }) = true
    ∧ (match strung.outStrand 0 1 with | .ok x => x.2.2.2.2.bead == 16 && !x.2.2.2.2.closed.contains x.2.2.1 | .error _ => false) = true
    ∧ (match (strung.release 0 2).tryPush 0 1 (strung.ptrOf 0 3) 5 id with | .ok (some _) => true | _ => false) = true
    ∧ (match strung.tryPop 0 (strung.ptrOf 0 3) 120 (fun u ws => u.variable 0 ws) with | .ok (some _) => true | _ => false) = true
    ∧ P strung (.sctlClose 1) [] .compute (some 0x76) ∧ P strung (.sctlStat 121 2) [.dst 121] .compute (some 0x76)
    ∧ P strung (.sctlStat 121 1) [.dst 121] .compute (some 0x76) := by decide +kernel

end Sys2Proof.Tests

namespace Sys2Proof.Tests

-- Commands.

/-- Command context 0 with memory, semaphore 0 its own; a launch descriptor of `kind` at 0x100000 that v0, v2 and v4 of the context hold;
a pipeline descriptor of one stage at 0x101000 and the stage's own at 0x102000. -/
def commanding (kind : Byte) : State :=
  let s := (paged cmd).updDie 0 fun d => { d with gshared := 1 }
  let pipe := [1, 1, 1] ++ List.replicate 61 0 ++ leBytes 8 0x102000 ++ [0xFF, 0, 0xFF, 1] ++ List.replicate 244 0
    ++ leBytes 4 0 ++ leBytes 4 4096 ++ leBytes 2 16
  let s := (s.writeHomes 0x101000 pipe).writeHomes 0x102000 (launchBytes.take 0x21 ++ [0])
  let s := if kind = 1 then s.writeHomes 0x100000 (leBytes 8 0x101000 ++ leBytes 2 1 ++ [1]) else s.writeHomes 0x100000 launchBytes
  withV (withV (withV { s with semOwner := [(0, 65537)] } 0 [(2 ^ 20, 0x100000)]) 2 [(2 ^ 20, 0x100000)]) 4 [(2 ^ 20, 0x140000)]

theorem witness_launch : P (commanding 0) (.cpxLaunch 0 0 0 1 0 0) ([.src 0 true] ++ []) .command
    ∧ P (commanding 0) (.cpxLaunch 0 2 63 15 1 1) ([.src 0 true] ++ [.src 2 true]) .command
    ∧ (commanding 0).issue.headD 0 = 2 ^ 20 ∧ (commanding 0).ownsSem (2 ^ 20) 63 = true ∧ ((commanding 0).v64 (2 ^ 20) 0).toNat % 64 = 0
    ∧ (match (commanding 0).cmdRead ((commanding 0).v64 (2 ^ 20) 0).toNat 128 with
      | .ok (x, false) => !descBad x && (parseDesc x).kind != 1 && (parseDesc x).ctx == (commanding 0).ctxOf (2 ^ 20) && (parseDesc x).placeable
          && (parseDesc x).det == 0
      | _ => false) = true
    ∧ P (commanding 1) (.cpxLaunch 0 0 0 1 0 0) ([.src 0 true] ++ []) .command
    ∧ (match (commanding 1).cmdRead ((commanding 1).v64 (2 ^ 20) 0).toNat 128 with
      | .ok (x, false) => !descBad x && (parseDesc x).kind == 1
          && (match (commanding 1).readPipe (parseDesc x) (maskDies 1) ((commanding 1).ctxOf (2 ^ 20)) with | .ok (_, false) => true | _ => false)
      | _ => false) = true := by decide +kernel

/-- A deterministic launch of one cluster that a table at 0x104000 governs: 4096 bytes held back at most, in one window. -/
def detLaunch : State :=
  let s := (paged cmd).writeHomes 0x100000 (launchBytes.take 0x20 ++ [1, 0xFF] ++ List.replicate 22 0 ++ leBytes 8 0x104000)
  s.writeHomes 0x104000 (leBytes 4 0 ++ leBytes 4 4096 ++ leBytes 4 1 ++ leBytes 4 0 ++ leBytes 8 0x106000)

theorem witness_det_launch : (match detLaunch.cmdRead 0x100000 128 with
    | .ok (x, false) => !descBad x && (parseDesc x).kind == 0 && (parseDesc x).det == 1 && (parseDesc x).placeable
        && (match detLaunch.readDet (parseDesc x) with | .ok (_, false) => true | _ => false)
    | _ => false) = true := by decide +kernel

theorem witness_commands : P (commanding 0) (.cpxSemwait 6 8 63 0) [.dst 6 true, .src 8 true] .command
    ∧ semHolds false ((commanding 0).v64 (2 ^ 20) 8) (((commanding 0).release (2 ^ 20) 4).semValue 63) = true
    ∧ P (commanding 0) (.cpxSemwait 6 0 63 0) [.dst 6 true, .src 0 true] .command
    ∧ semHolds false ((commanding 0).v64 (2 ^ 20) 0) (((commanding 0).release (2 ^ 20) 4).semValue 63) = false
    ∧ P (commanding 0) (.cpxSemsig 0 63) [.src 0 true] .command ∧ P (commanding 0) (.cpxSemadd 6 0 0) [.dst 6 true, .src 0 true] .command
    ∧ P (commanding 0) (.cpxIrq 2047) [] .command ∧ P (commanding 0) .cpxChalt [] .command
    ∧ (let s := withV (commanding 0) 120 [(2 ^ 20, 16)]
      P s (.cpxCcopy 120 4 2 0 0 0 0) ([.src 120 true, .src 4 true, .src 2 true] ++ []) .command
      ∧ 0 < (s.v64 (2 ^ 20) 120).toNat ∧ (s.v64 (2 ^ 20) 120).toNat ≤ 2 ^ 36 ∧ (s.v64 (2 ^ 20) 4).toNat + 16 ≤ teamBase
      ∧ (s.v64 (2 ^ 20) 2).toNat + 16 ≤ teamBase
      ∧ s.copyWaits (2 ^ 20) 16 (s.v64 (2 ^ 20) 4) (s.v64 (2 ^ 20) 2) = false
      ∧ (let homes := (s.copyTargets (s.agentOf (2 ^ 20)) (parts (s.v64 (2 ^ 20) 4).toNat 16)).1
        !homes.isEmpty && { s with torcHeld := [(homes.headD 0 / 128, true)] }.copyWaits (2 ^ 20) 16 (s.v64 (2 ^ 20) 4) (s.v64 (2 ^ 20) 2)) = true) := by decide +kernel

end Sys2Proof.Tests

namespace Sys2Proof.Tests

-- Events.

/-- The machine of `paged one` with its slot idle and thread 0 Ready at a run of one NOP at 0x180000. -/
def waiting : State :=
  let s := ((paged one).updThr 0 fun t => { t with wait := .ready, pc := 0x180000 }).updSlot 0 fun x => { x with phase := .idle }
  s.writeHomes 0x180000 ([0x00100000, 0, 0x06000000, 0x02000000].flatMap fun x => leBytes 4 x)

theorem witness_pickers : waiting.tidy = true ∧ (waiting.slot 0).phase = .idle ∧ (waiting.slot 0).resume = [] ∧ waiting.candidates 0 = [0]
    ∧ (let s := (commanding 0).updThr (2 ^ 20) fun t => { t with wait := .ready }
      let s := s.updSlot 1536 fun x => { x with phase := .idle }
      s.tidy = true ∧ (s.slot 1536).phase = .idle ∧ s.candidates 1536 = [2 ^ 20])
    ∧ (let s := waiting.updSlot 0 fun x => { x with resume := [(0x180000, 1, [0])] }
      (s.slot 0).phase = .idle ∧ (s.slot 0).resume = (0x180000, 1, [0]) :: [])
    ∧ (let s := waiting.updSlot 0 fun x => { x with phase := .chosen 0x180000 0 [0] [0] }
      (s.slot 0).phase = .chosen 0x180000 0 [0] [0] ∧ s.isReady 0 = true ∧ (s.thr 0).trapFlags = 0 ∧ (s.thr 0).traps = []
      ∧ (let u := (s.updSlot 0 fun x => { x with phase := .idle, last := 0 }).applyAges 0 [0] [0]
        (match u.fetch 0 0x180000 with
          | .ok fe => (checkRun fe.words 0x180000).isNone && runLen (fe.words.getD 0 0).toNat == 1
          | .error _ => false) = true))
    ∧ (one.slot 0).phase ≠ .idle ∧ (State.reset.slot 0).phase = .idle ∧ (State.reset.slot 0).resume = [] ∧ State.reset.candidates 0 = []
    ∧ (∀ k ∈ waiting.candidates 0, (waiting.thr k).age < 64) := by decide +kernel

/-- Two threads Ready at different PCs; the lower PC's has waited 64 decisions, and its cell is the higher layer. -/
def aged : State :=
  let s := waiting.setThr 64 { waiting.thr 0 with uid := 77, age := 64, pc := 0x180010 }
  s.setThr 1 { waiting.thr 0 with uid := 78, age := 63, pc := 0x180000 }

theorem witness_ages : aged.candidates 0 = [0, 1, 64] ∧ (∃ k ∈ aged.candidates 0, 64 ≤ (aged.thr k).age)
    ∧ aged.choosePc (aged.candidates 0) = (0x180010, true) ∧ aged.issueSet (aged.candidates 0) 0x180010 true = [64]
    ∧ (∃ j ∈ aged.candidates 0, (aged.thr j).pc = 0x180010 ∧ j % 64 / 8 = 64 % 64 / 8 ∧ 64 ≤ (aged.thr j).age) := by decide +kernel

end Sys2Proof.Tests

namespace Sys2Proof.Tests

/-- `room` with a grid of one team to place on die 0, a table load, a copy ring, a copy, a pipeline and a saved core. -/
def busy : State :=
  let s := (spawning.acceptGrid { ctx := 1, desc := parseDesc launchBytes, dies := [0] }).2
  let s := s.updCore 1 fun c => { c with gran := [(7, .handover 1)], saving := true, ctx := 2 }
  let s := s.updCore 0 fun c => { c with loads := [{ t := 3, grp := 0, ctx := 1, ptr := 0x100000, begun := false, bank := true, pend := [], image := [] }]
                                         rings := [{ team := 1, off := 4 }] }
  let s := s.updCmd 5 fun m => { m with copies := [{ pc := 0, pos := 1, dests := [], bad := [], fail := none, signal := .none }] }
  let s := s.updCx 2 fun c => { c with reg := true, dies := [(0, .saving)] }
  { s with clk := 2 ^ 30 }

theorem witness_own_events : (busy.placeFirst 0 (busy.die 0).grids).isSome = true ∧ busy.placeFirst 3 (busy.die 3).grids = none
    ∧ (let s := busy.updTeam 1 fun t => { t with phase := .finishing }; (s.team 1).live = true ∧ (s.team 1).phase = .finishing)
    ∧ (busy.team 77).live = false ∧ busy.tidy = true
    ∧ (match (busy.die 0).grids with
      | g :: _ => (busy.grid g).det.isNone && (busy.grid g).stage.isNone && ((busy.grid g).nextTeam 0).isSome && busy.ctxOpen 0 (busy.grid g).ctx
          && busy.tagOpen 0 (busy.grid g).desc.shape && (busy.firstBlock 0 (busy.grid g).ctx (busy.grid g).desc none (upto 0 96)).isSome
      | [] => false) = true
    ∧ (let s := busy.updThr 0 fun t => { t with wait := .asleep 1 }; (s.thr 0).wait = .asleep (0 + 1))
    ∧ (let s := busy.updThr 0 fun t => { t with wait := .asleep 0 }; (s.thr 0).wait = .asleep 0)
    ∧ (busy.core 1).gran.get .l1 7 = .handover 1
    ∧ ((((busy.finishPublications 1).dropClean 1).updCore 1 fun c => { c with gran := c.gran.put .l1 7 (.held 1) }).core 1).restoring = false
    ∧ (match (busy.core 0).loads.find? (fun l => l.t == 3) with
      | some l => !l.begun && !(busy.core 0).saving
          && (match busy.engineRead { unit := l.grp, ctx := l.ctx, team := some (busy.grp l.grp).team, view := busy.view (busy.grp l.grp).team }
              l.ptr.toNat 3088 with | .ok (_, false) => true | _ => false)
      | none => false) = true
    ∧ (∀ e ∈ busy.groups, coreOfThread e.1 = 0 → (e.2.latch.get {} 3).latched = true → (e.2.latch.get {} 3).bank ≠ true)
    ∧ (let s := busy.updCore 0 fun c => { c with loads := c.loads.map fun l => { l with begun := true } }
      ((s.core 0).loads.find? (fun l => l.t == 3 && l.begun)).isSome = true)
    ∧ ((busy.core 0).rings.find? (fun r => r.key == (busy.core 0).rings.head?.elim 0 CopyRing.key)).isSome = true
    ∧ (busy.cmd 5).copies ≠ []
    ∧ (let s := strung.updDie 0 fun d => { d with pipes := d.pipes.map fun p => { p with resident := false } }
      match (s.die 0).pipe 9 with | some p => p.resident == false && s.ctxOpen 0 p.ctx && decide (p.cores ≤ (s.freeCores 0 p.ctx).length) | none => false) = true
    ∧ (match (strung.die 0).pipe 9 with
      | some p => p.resident && (strung.cx p.ctx).dies.get .running 0 == .running
          && (let r := strung.strandTest 0 p; !r.1 && ((r.2.die 0).pipe 9).isSome)
      | none => false) = true
    ∧ (busy.core 1).saving = true ∧ (busy.cx (busy.core 1).ctx).dies.get .running (dieOfCore 1) = .saving ∧ (busy.core 1).restoring = false
    ∧ (let u := (upto 4 4).foldl (fun t i => t.updSlot i Slot.dropChosen) (busy.updCx 2 fun c => { c with saveS := 2 ^ 20 })
      u.savedCores 2 0 = [] ∧ u.saveFits 2 0 = true ∧ u.atRest 1 = true
      ∧ (u.updCore 1 fun c => { c with pubs := [[(0, some 1)]] }).atRest 1 = false)
    ∧ (busy.core 0).saving = false
    ∧ (let s := busy.updCore 1 fun c => { c with saving := false, restoring := true, gran := [(7, .handover 1)] }
      let u := ((s.finishPublications 1).dropClean 1).updCore 1 fun c => { c with gran := c.gran.put .l1 7 (.held 1) }
      (u.core 1).restoring = true ∧ (u.core 1).handingOver = false ∧ (u.core 1).saving = false)
    ∧ (let s := busy.updCore 1 fun c => { c with restoring := true, gran := [(6, .handover 1), (7, .handover 1)] }
      let u := ((s.finishPublications 1).dropClean 1).updCore 1 fun c => { c with gran := c.gran.put .l1 7 (.held 1) }
      (u.core 1).restoring = true ∧ (u.core 1).handingOver = true ∧ (u.core 1).saving = true)
    ∧ (busy.ctxsOn 0).length < 64
    ∧ (let s := (busy.updCore 2 fun c => { c with reserved := some 2 }).updCx 2 fun c => { c with saved := [(2, some { teams := [], groups := [], threads := [] })] }
      (s.core 2).reserved = some 2 ∧ (s.core 2).ctx = 0 ∧ (s.core 2).saving = false ∧ (s.core 2).restoring = false
      ∧ (s.cx 2).dies.get .running (dieOfCore 2) ≠ .running ∧ ((s.updCx 2 fun c => { c with dies := [] }).cx 2).dies.get .running (dieOfCore 2) = .running
      ∧ (s.ctxsOn (dieOfCore 2)).length < 64
      ∧ (match (s.cx 2).saved.get none 2 with | some v => decide (s.granNeed v ≤ (s.core 2).freeGranules.length) | none => false) = true) := by decide +kernel

theorem witness_engines : (busy.core 5).loads = []
    ∧ (let s := busy.updGrp 0 fun g => { g with latch := g.latch.put {} 3 { latched := true, bank := true } }
      ∃ e ∈ s.groups, e.2.live = true ∧ isCmd e.1 = false ∧ coreOfThread e.1 = 0 ∧ (e.2.latch.get {} 3).latched = true ∧ (e.2.latch.get {} 3).bank = true)
    ∧ (match busy.engineRead { unit := 0, ctx := 1, team := some 1 } (2 ^ 41) 3088 with | .error _ => true | .ok _ => false) = true
    ∧ (match { busy with poison := busy.poison.put false (0x100000 / 32) true }.engineRead { unit := 0, ctx := 1, team := some 1 } 0x100000 3088 with
        | .ok (_, b) => b | .error _ => false) = true
    ∧ (let r : CopyRing := { team := 1, off := 4 }
      let c : CopyCmd := { e := 0, entry := [], issued := false, claims := [], dests := [] }
      let ring := fun (cs : List CopyCmd) => busy.updCore 0 fun k => { k with rings := [{ r with cmds := cs }] }
      busy.ringOf 0 r.key = some r ∧ busy.ringOf 0 (r.key + 1) = none ∧ 0 ∉ (busy.team 1).away ∧ (busy.team 1).phase = .resident
        ∧ (ring [c]).ringOf 0 r.key = some { r with cmds := [c] } ∧ [c].find? (fun c => !c.issued) = some c
        ∧ [{ c with issued := true }].find? (fun c => !c.issued) = none
        ∧ 0 ∈ ((busy.updTeam 1 fun m => { m with away := [0] }).team 1).away
        ∧ ((busy.updTeam 1 fun m => { m with phase := .finishing }).team 1).phase ≠ .resident) := by decide +kernel

/-- A deterministic grid with task 0, finished or not, whose digest the table holds. -/
def determined (failed replay finished : Bool) (digest : DWord) : State :=
  (room.writeHomes 0x104040 (leBytes 8 5)).updGrid 1 fun g =>
    { g with det := some ({ table := 0x104000, replay := replay, total := 1, failed := failed, tasks := [{ p := 0, finished := finished, digest := digest }] } : Det) }

/-- The grid's commit is at a task that is finished or not. -/
def atTask (s : State) (failed replay finished : Bool) : Bool :=
  (s.grid 1).live && (match (s.grid 1).det with | some d => d.failed == failed && d.replay == replay && d.committed == 0 | none => false)
    && ((s.detTask 1 0).map (·.finished)) == some finished

theorem witness_det_commits : atTask (determined true false false 5) true false false = true ∧ atTask (determined false false false 5) false false false = true
    ∧ atTask (determined false false true 5) false false true = true ∧ atTask (determined false true true 5) false true true = true
    ∧ ((determined false true true 5).tablePoison 1 0x40 8 0).tableRead 1 0x40 8 = some 5
    ∧ ((determined false true true 6).tablePoison 1 0x40 8 0).tableRead 1 0x40 8 = some 5 ∧ (State.reset.grid 1).live = false := by decide +kernel

/-- An active block of die 0, at step `step` with the loops `opens` open, whose program is the steps `prog`. -/
def engaged (prog : List Nat) (step : Nat) (opens : List (Nat × Nat × Nat)) : State :=
  let s := (room.writeHomes (homeShared 0 0) (leBytes 15 0 ++ [0xA7] ++ leBytes 8 0 ++ leBytes 4 4 ++ leBytes 4 0x77 ++ leBytes 8 0x180000)).writeHomes 0x180000
    (prog.flatMap (leBytes 16))
  let s := { s.writeHomes (homeShared 0 0x40) (leBytes 8 0x100000 ++ leBytes 8 0x40000000) with clk := 2 ^ 30 }
  s.updDie 0 fun d => { d with torc := { d.torc with ctxs := [(0, 2)], blocks :=
    [{ off := 0, ctx := 1, started := 1, done := 0, late := [], order := 0, active := true, step := step, opens := opens }] } }
def collective : State := engaged [0x0F] 0 []

/-- The next step of the block is one that `p` holds of. -/
def nextStep (s : State) (p : CollRun → TStep → Bool) : Bool :=
  match (s.die 0).torc.blocks.find? (fun b => b.off == 0) with
  | some b => b.active && (s.doomOf (s.inst 0 b)).isNone
      && (match s.torcProg (s.inst 0 b) b.step with | .ok (t, _) => p (s.inst 0 b) t | .error _ => false)
  | none => false

/-- The step is checked, and of a kind. -/
def stepIs (code : Nat) (p : State → CollRun → TStep → Bool) (s : State) : Bool :=
  nextStep s fun i t => !t.reservedBad && !t.shapeBad i.b && t.code == code && p s i t

/-- A copy of 16 bytes at base 0 onto themselves, and one at a base that nothing maps. -/
def copyStep_ (w : Nat) : Nat := 4 + 16 * 2 ^ 32 + w * (2 ^ 64 + 2 ^ 96)

theorem witness_collective : nextStep (engaged [0] 0 []) (fun _ t => t.reservedBad) = true
    ∧ nextStep (engaged [8] 0 []) (fun i t => !t.reservedBad && t.shapeBad i.b) = true
    ∧ stepIs 4 (fun s i t => isOk (s.runData i t)) (engaged [copyStep_ 0] 0 []) = true
    ∧ stepIs 4 (fun s i t => !isOk (s.runData i t)) (engaged [copyStep_ 1] 0 []) = true
    ∧ stepIs 6 (fun _ _ _ => true) (engaged [6 + 4095 * 2 ^ 32] 0 []) = true
    ∧ stepIs 7 (fun _ _ t => !t.w1.testBit 31 && t.w1 % 2 ^ 24 == 1) (engaged [7 + 2 ^ 32] 0 []) = true
    ∧ stepIs 7 (fun s i t => t.w1 == 0 && (match s.matchEndl i t.pl 65536 1 [] with | .ok k => k == 4 | .error _ => false)) (engaged [7, 0x407, 0x408, 8] 0 []) = true
    ∧ stepIs 8 (fun _ _ _ => true) (engaged [7, 8] 1 [(0, 1, 1)]) = true
    ∧ stepIs 9 (fun _ _ t => t.w1.testBit 12) (engaged [9 + 4096 * 2 ^ 32] 0 []) = true
    ∧ stepIs 9 (fun _ _ t => !t.w1.testBit 12) (engaged [9] 0 []) = true
    ∧ stepIs 15 (fun _ _ _ => true) collective = true := by decide +kernel

theorem witness_collective_ends :
    (match (collective.die 0).torc.blocks.find? (fun b => b.off == 0) with
      | some b => b.active && decide (64 * (b.since + 2 ^ 24) ≤ collective.clk)
          && (collective.doomOf (collective.inst 0 { b with late := [(1, 1)] })).isSome
          && (match collective.torcProg (collective.inst 0 b) 65536 with | .error _ => true | .ok _ => false)
      | none => false) = true
    ∧ (let s := { collective with clk := 64 * 2 ^ 24 - 1 }; (∃ b ∈ (s.die 0).torc.blocks, b.off = 0 ∧ s.clk < 64 * (b.since + 2 ^ 24)))
    ∧ (let s := collective.updDie 0 fun d => { d with torc := { d.torc with chunks :=
          [{ tag := 0x77, seq := 1, src := 1, ch := 0, loc := false, data := [], place := .spilled 0 }] } }
      ∃ c ∈ (s.die 0).torc.chunks, c.tag = 0x77 ∧ c.seq = 1 ∧ c.spillAt ≠ none)
    ∧ (∀ b ∈ (room.die 0).torc.blocks, b.off = 0 → b.active = false) := by decide +kernel

theorem witness_chunks : collective.blockOfTag 0 0x77 = some 0 ∧ collective.blockOfTag 0 0x78 = none
    ∧ atOrBelow 0 (collective.torcNat 0 0 4 4) = true ∧ atOrBelow 1 (collective.torcNat 0 0 4 4) = false
    ∧ (let c : Chunk := { tag := 0x77, seq := 1, src := 1, ch := 0, loc := false, data := [1, 2] }
      let full := collective.updDie 0 fun d => { d with torc := { d.torc with chunks := List.replicate 64 { c with ch := 1 } } }
      let pool := (full.writeHomes (homeShared 0 0x28) (leBytes 8 0x300000 ++ leBytes 4 (2 ^ 16)))
      let up := { pool with host := { pool.host with poolUp := true, poolOn := true } }
      collective.roomFor 0 0 (collective.die 0).torc.chunks c = some .slot ∧ full.roomFor 0 0 (full.die 0).torc.chunks c = none
        ∧ pool.roomFor 0 0 (pool.die 0).torc.chunks c = some (.spilled 0) ∧ pool.spillData 0 0 c (.spilled 0) = none
        ∧ (up.spillData 0 0 c (.spilled 0)).isSome = true)
    ∧ (match collective.running 0 0x77 with | some r => r.seq == 1 | none => false) = true := by decide +kernel

/-- `room` after a start of the package. -/
def powered : State := { room with host := { room.host with ready := true, port := .up, poolUp := true, ualDown := [] }, boot := { room.boot with up := true } }

theorem witness_outside : powered.host.port = .up ∧ (List.range 4096).any (fun i =>
      let pa := 4 * 2 ^ 30 * i
      powered.part.isHdm pa 4 && !powered.torcOwns (upto pa 4) && { powered with torcHeld := [(pa / 128, true)] }.torcOwns (upto pa 4)) = true
    ∧ (powered.thr 0).live = true ∧ (EccPlace.vreg, 0, 7) ∉ powered.poisonReg ∧ (2 : Nat) ^ 51 < 2 ^ 52
    ∧ (let s := { powered with host := { powered.host with port := .retraining 0, rate := 32 }, clk := 64 * 2 ^ 20 }
      s.host.port = .retraining 0 ∧ 0 + 2 ^ 20 ≤ s.clk / 64 ∧ s.host.rate ∈ [8, 16, 32])
    ∧ powered.portDown 3 3 = false ∧ powered.boot.up = true ∧ powered.boot.attempts < 3
    ∧ ({ powered with host := { powered.host with poolUp := true } }).host.poolUp = true
    ∧ 3 ≤ ({ powered with boot := { powered.boot with attempts := 3 } }).boot.attempts ∧ State.reset.boot.up = false ∧ State.reset.boot.minimal = false
    ∧ powered.part.startCause = none ∧ ({ powered.part with accId := 1023 } : Part).startCause = none ∧ ({ powered.part with accId := 1024 } : Part).startCause ≠ none
    ∧ (powered.host.port = .up ∧ powered.part.rangeOf (2 ^ 52 - 128) = .host ∧ powered.torcOwns [2 ^ 52 - 128] = false
      ∧ { powered with torcHeld := [((2 ^ 52 - 128) / 128, true)] }.torcOwns [2 ^ 52 - 128] = true)
    ∧ powered.host.port ≠ .retraining 0 ∧ ({ powered with host := { powered.host with poolUp := false } }).host.poolUp = false ∧ ¬ (0 + 2 ^ 20 ≤ (64 * 2 ^ 20 - 1) / 64)
    ∧ ({ powered with host := { powered.host with ualDown := [(15, true)] } }).portDown 3 3 = true := by
  decide +kernel

/-- The machine performing a request of the given bytes; context 2 is registered and context 1 saved on die 2. -/
def asking (bs : List Byte) : State :=
  let s := (powered.updCx 2 fun c => { c with reg := true }).updCx 1 fun c => { c with dies := [(2, .saved)] }
  { s with host := { s.host with busy := true, req := putBytes [] 0 bs } }

/-- A management command is legal on a request and no cause refuses it. -/
def obeyed (e : Instr) (bs : List Byte) : Bool :=
  let s := asking bs
  s.host.busy && s.host.waiting == none && !s.boot.minimal
    && s.management.any fun r => r.event == e && r.legal && s.reqNat 0 1 == r.code && r.causes.all fun c => !c.2

theorem witness_management : obeyed .ident [1] ∧ obeyed .resync [2] ∧ obeyed .ctxnew [3, 0, 0, 0, 3] ∧ obeyed .ctxdel [4, 0, 0, 0, 2]
    ∧ obeyed .resume [5, 0, 0, 0, 1, 0, 4] ∧ obeyed .ctxmapDieShared [6, 0, 0, 0, 0, 3, 1, 0, 4] ∧ obeyed .ctxmapQueueBind [6, 0, 0, 0, 1, 3, 1, 0, 63]
    ∧ obeyed .ctxmapCounters [6, 0, 0, 0, 2, 3, 1, 0, 0, 0, 0, 16] ∧ obeyed .ctxmapSemGrant [6, 0, 0, 0, 3, 0, 1, 0, 0, 0, 64]
    ∧ obeyed .ctxmapInvalidate [6, 0, 0, 0, 4, 0, 1] ∧ obeyed .cmdstart [7, 0, 0, 0, 1, 0, 1] ∧ obeyed .cmdstop [8, 0, 0, 0, 63]
    ∧ obeyed .preempt [9, 0, 0, 0, 1, 0, 2] ∧ obeyed .poolcfg [10, 0, 0, 0, 1] ∧ obeyed .attest [11] ∧ obeyed .measureRead [12]
    ∧ obeyed .measureExtend [12, 0, 0, 0, 1, 7] ∧ obeyed .fwlog [13] ∧ obeyed .degrade [14] ∧ obeyed .reset [15]
    ∧ (let s := asking [4, 0, 0, 0, 9]
      s.management.any fun r => r.event == .ctxdel && r.legal && (r.causes.find? fun e => e.2) == some (3, true)) = true
    ∧ (let s := asking [4]; s.management.any fun r => r.event == .ctxdel && !r.legal) = true
    ∧ (let s := asking [14]; let s := { s with boot := { s.boot with minimal := true } }
      s.boot.minimal && s.management.any fun r => r.event == .degrade && r.legal && !r.minimal) = true
    ∧ (powered.host.busy = false)
    ∧ (∀ bs ∈ ([[5, 0, 0, 0, 1, 0, 4], [9, 0, 0, 0, 1, 0, 2], [8, 0, 0, 0, 63]] : List (List Byte)),
      let s := { asking bs with host := { (asking bs).host with waiting := some 4 } }
      s.host.busy = true ∧ s.host.waiting = some 4 ∧ s.reqNat 0 1 = (bs.headD 0).toNat)
    ∧ ((asking [8, 0, 0, 0, 63]).cmd 63).st ≠ .ready ∧ (((asking [8, 0, 0, 0, 63]).updCmd 63 fun m => { m with st := .ready }).cmd 63).st = .ready := by decide +kernel

theorem witness_mailbox : powered.host.ready = true ∧ powered.host.busy = false ∧ (1 : Word).toNat ≠ tabNat powered.host.mbox 2 2 ∧ (0 : Word).toNat = tabNat powered.host.mbox 2 2
    ∧ ({ powered with host := { powered.host with ready := false } }).host.ready = false ∧ (asking [1]).host.busy = true
    ∧ ([1, 2, 3, 4] : List Byte).length = 4 ∧ 0xFFC + 4 ≤ 4096 ∧ Tab.risingFrom 0 powered.host.mbox = true
    ∧ ¬ 0xFF9 + 8 ≤ 4096 ∧ ([1, 2] : List Byte).length ≠ 4
    ∧ (0x40 ≤ 0x44 ∧ 0x48 ≤ 0x40 + (leBytes 8 (2 ^ 29 + 2 ^ 32)).length ∧ ((leBytes 8 (2 ^ 29)).getD (0x43 - 0x40) 0).getLsbD 5 = true) ∧ ¬ 0x48 ≤ 0x43 + 4
    ∧ (let s := { asking [1] with clk := 64 * 2 ^ 26 }; s.host.busy = true ∧ 64 * (s.host.busySince + 2 ^ 26) ≤ s.clk)
    ∧ (let h := { powered.host with msixPend := [(2047, true)] }; h.msixPend.get false 2047 = true ∧ h.port = .up)
    ∧ powered.host.msixPend.get false 2047 = false := by decide +kernel

end Sys2Proof.Tests

namespace Sys2Proof.Tests

theorem witness_invariants : one.wf = true ∧ one.tidy = true ∧ Next (step one) (fun t => t.wf && t.tidy) = true
    ∧ room.wf = true ∧ room.tidy = true := by decide +kernel

end Sys2Proof.Tests

namespace Sys2Proof.Tests

-- Witnesses for further clauses: each check at issue, the stops of calls and returns, handlers and traps.

/-- A word with one operand fails a check on it, in lane 0. -/
def failsOn (s : State) (bad : State → Nat → Opd → Bool) (o : Opd) : Bool := s.issue.any fun k => o.countsFor k && bad s k o

/-- `room` as task 0 of a deterministic grid that may hold back `n` lines. -/
def tasked (n : Nat) : State :=
  (room.updTeam 1 fun t => { t with task := some 0 }).updGrid 1 fun g => { g with det := some { table := 0x104000, plimit := n, total := 1, tasks := [{}] } }

theorem witness_issue_checks : (Instr.div 0 122 0 0).lateDst = [] ++ 122 :: [] ∧ 122 ≤ (122 : BitVec 7).toNat ∧ (Instr.div 0 122 0 0).wf = true
    ∧ (∃ k ∈ (tasked 0).issue, (tasked 0).isDet k = true)
    ∧ failsOn ((one.updThr 0 fun t => { t with chk := 1 }).fixed 6 [.vreg 0 3 7]) State.breaksStall (.src 3) = true
    ∧ failsOn ((one.updThr 0 fun t => { t with chk := 2 }).variable 0 [.vreg 0 3 7]) State.breaksAwait (.src 3) = true
    ∧ failsOn { one with poisonReg := [(.vreg, 0, 3)] } State.poisoned (.src 3) = true
    ∧ (∀ bad ∈ [State.outOfRange, State.tempUndef, State.breaksStall, State.breaksAwait, State.poisoned], failsOn one bad (.src 3) = false) := by decide +kernel

theorem witness_tile_rows_read : one.pendingTo (.tile (one.thr 0).grp 7) = none ∧ (List.replicate 32 (7 : BitVec 16)).length = 32
    ∧ (RegWrite.tile 0 31 (List.replicate 32 7) false).cellsFit := ⟨by decide +kernel, rfl, rfl⟩

theorem witness_frames :
    (let s := withV (one.updThr 0 fun t => { t with csp := 7 }) 120 [(0, 0)];
      s.taking 0 15 = [0] ∧ TargetOk (s.v64 0 120) ∧ (s.thr 0).csp < 8)
    ∧ ((withV one 120 [(0, 2)]).taking 0 15 = [0] ∧ ¬ TargetOk ((withV one 120 [(0, 2)]).v64 0 120))
    ∧ (let s := one.updThr 0 fun t => { t with csp := 504 }
      let bad := s.writeHomes (s.laneHome 0 504) [2]
      let struck := { s with poison := s.poison.put false (s.laneHome 0 504 / 32) true }
      (s.thr 0).csp + 8 ≤ (s.thr 0).laneSz ∧ bad.isPoisoned (bad.laneHome 0 504) 8 = false
        ∧ (BitVec.ofNat 64 (leNat (bad.readHomes (bad.laneHome 0 504) 8))).extractLsb' 0 2 ≠ 0
        ∧ struck.isPoisoned (struck.laneHome 0 504) 8 = true) := by decide +kernel

theorem witness_exit_stops :
    (let s := (tasked 0).updThr 0 fun t => { t with tape := { bound := true, base := 0x101000, budget := 256 } };
      P s (.exit 0 15) [.psrc 15] .both ∧ s.taking 0 15 = [0] ∧ isOk (s.checkWindow ((s.taking 0 15).map fun k => (k, s.headerHomes k))) = false) := by
  decide +kernel

theorem witness_saved_die : (one.cx (one.ctxOf 0)).dies.get .running (dieOfThread 0) = .running ∧ dieOfCore 0 = dieOfThread 0
    ∧ (one.core 0).ctx = one.ctxOf 0 := by decide +kernel

/-- `paged one` with a trap table whose handler is the run at 0x180000, and the slot of thread 0 ACTIVE at 0x10A000 with that run as the
point to resume at. -/
def handling : State :=
  let s := (paged one).updCx 1 fun c => { c with privB := 0x108000, privS := 4096 }
  let s := s.writeHomes 0x108000 (leBytes 8 0x180000 ++ leBytes 8 0 ++ leBytes 8 0x10A000 ++ leBytes 4 1)
  let s := s.writeHomes 0x180000 ([0x00100000, 0, 0x06000000, 0x02000000].flatMap fun x => leBytes 4 x)
  s.writeHomes 0x10A040 (leBytes 8 0x180000 ++ [1, 2, 1])

theorem witness_handler_slots :
    (match handling.trapTable 0 with
      | some t => handling.slotActive t 0 && handling.pointOk 0 (handling.slotPoint t 0).1 (handling.slotPoint t 0).2
          && isOk (handling.engineRead { unit := 0, ctx := handling.ctxOf 0 } (t.slotOf (handling.thr 0).lid + 0x40) 64)
          && t.slotOf (handling.thr 0).lid % 128 == 0
          && (match handling.engineSpot { unit := 0, ctx := handling.ctxOf 0 } { w := true } (t.slotOf (handling.thr 0).lid) 128 with
            | .ok p => decide (p.home + 128 ≤ 2 ^ 110) | .error _ => false)
      | none => false) = true
    ∧ Memory.wf handling.mem = true ∧ P handling (.trap 2047) [] .both ∧ handling.issue = [0] ∧ (handling.thr 0).live = true
    ∧ (handling.thr 0).fids = [] ∧ 0 < handling.nextId ∧ (∀ e ∈ handling.threads, handling.nextId ∉ e.2.fids)
    ∧ (let s := (lanes [0, 1]).updThr 0 fun t => { t with fids := [5], wait := .rejoining }
      let mine := (s.threads.filter fun e => e.2.fids.contains 5 && e.2.live && e.2.wait != .exited).map (·.1)
      mine ≠ [] ∧ ∀ k ∈ mine, issuerOfThread k = 0) := by decide +kernel

theorem witness_float_cases : fpFinite f32 0x3F800000 = true ∧ fpFinite f32 0xFF7FFFFF = true
    ∧ (f32.decode 0x7FC00000).isNan = true ∧ (f32.decode 0x7F800000).isNan = false ∧ fpFinite f64 1 = true := by decide +kernel

/-- `trapping` with every flag's enable set, and signalling NaNs and infinities in v4 to v7. -/
def trapsAll : State := withV (withV (withV (trapping.updThr 0 fun t => { t with fpcsr := 0x1F00 }) 4 [(0, 0x7F800001)]) 5 [(0, 0x3FC00000)]) 6 [(0, 0x7F800000)]

theorem witness_traps :
    P trapsAll (.fsub 0 0 3 6 6) [.dst 3 false, .src 6 false, .src 6 false]
    ∧ trapsAll.trapped (fun k => (perElem 0 (fun f xs => fSub f (.ofCode 0) (arg f xs 0) (arg f xs 1)) (trapsAll.regVals k 0 [6, 6])).2) ≠ []
    ∧ P trapsAll (.fmul 0 0 3 4 4) [.dst 3 false, .src 4 false, .src 4 false]
    ∧ trapsAll.trapped (fun k => (perElem 0 (fun f xs => fMul f (.ofCode 0) (arg f xs 0) (arg f xs 1)) (trapsAll.regVals k 0 [4, 4])).2) ≠ []
    ∧ P trapsAll (.ffma 0 0 3 4 4) ([.dst 3 false, .src 4 false, .src 4 false] ++ [.src 3 false])
    ∧ (∀ o : Bool, trapsAll.trapped (fun k => (perElem 0 (fun f xs => fFma f (.ofCode 0) o (arg f xs 0) (arg f xs 1) (arg f xs 2))
        (trapsAll.regVals k 0 [4, 4, 3])).2) ≠ [])
    ∧ P trapsAll (.ffmat 6 0 3 4 4) ([.dst 3 false, .src 4 false, .src 4 false] ++ [])
    ∧ (∀ o : Bool, trapsAll.trapped (fun k => (fFma f32 .rne o (f32.decode (trapsAll.intSrc k false false 4)) (f32.decode (trapsAll.intSrc k false false 4))
        (f32.decode 0)).2) ≠ [])
    ∧ P trapsAll (.fmin 0 3 4 1) [.dst 3 false, .src 4 false, .src 1 false] ∧ P trapsAll (.fmax 0 3 4 1) [.dst 3 false, .src 4 false, .src 1 false]
    ∧ (∀ m : Bool, trapsAll.trapped (fun k => (perElem 0 (fun f xs => fMinMax f m (xs.getD 0 0) (xs.getD 1 0)) (trapsAll.regVals k 0 [4, 1])).2) ≠ [])
    ∧ P trapsAll (.frnd 0 0 3 5) [.dst 3 false, .src 5 false]
    ∧ trapsAll.trapped (fun k => (perElem 0 (fun f xs => fRound f (.ofCode 0) (xs.getD 0 0)) (trapsAll.regVals k 0 [5])).2) ≠ []
    ∧ P trapsAll (.fcmp 2 0 3 4 1) [.pdst 3, .src 4 false, .src 1 false]
    ∧ trapsAll.trapped (fun k => (fCompare 2 (f32.decode (trapsAll.intSrc k false false 4 % 2 ^ 32)) (f32.decode (trapsAll.intSrc k false false 1 % 2 ^ 32))).2) ≠ []
    := by decide +kernel

theorem witness_conversion_traps :
    (let s := trapsAll.updSlot 0 fun x => match x.phase with
        | .running r => { x with phase := .running { r with words := [0x06000000, 0x06000000, 0x06000000], stalls := [0, 0, 0] } } | _ => x;
      s.run.pos + 2 ≤ s.run.words.length
      ∧ P s (.fcvt 3 5 0 0 4 1 0) ([.dst 3 false, .src 5 false] ++ [])
      ∧ s.trapped (fun k => (convert 0 4 (s.cvtRnd k 1 0 0) (s.intSrc k false false 5)).2) ≠ [])
    ∧ trapsAll.GroupsInOrder ∧ (8 : BitVec 4).toNat < 13 ∧ P trapsAll (.lred 8 3 4) [.dst 3 false, .src 4 false]
    ∧ (let s := withV ((lanes [0, 1]).updThr 0 fun t => { t with fpcsr := 0x1F00 }) 4 [(0, 0x7F800001), (1, 0x7F800001)]
      s.trapped (fun _ => (redSteps (specCombine 8) 8 0 3 (fun j => ((s.issuedOf 0).find? fun k => (s.thr k).idx == j).map fun k => s.intSrc k false false 4) 0).2) ≠ [])
    := by decide +kernel

end Sys2Proof.Tests

namespace Sys2Proof.Tests

-- Witnesses for further clauses: tables, memory, barriers, rings, tasks, strands, copies, collectives and the mailbox.

theorem witness_table_stops :
    (let s := room.updGrp 0 fun g => { g with latch := g.latch.put {} 3 { latched := true, bank := true } };
      ((s.grp 0).latch.get {} 3).latched = true ∧ ((s.grp 0).latch.get {} 3).bank = !((s.core 0).tables.get {} 3).active)
    ∧ isOk (room.lutldGroup 3 121 3 0 0) = true
    ∧ ((busy.core 0).loads.filter fun l => l.t == (3 : BitVec 2).toNat).length = 1 := by decide +kernel

/-- `room` after a store of eight bytes to team-local memory, and to pages. -/
def storedTo (g : BitVec 5) : State :=
  match room.checkAccess 0 (askWeak 8 g true) (room.ptrOf 0 g.toNat) with
  | .ok p => room.weakWrite 0 p p.home [1, 2, 3, 4, 5, 6, 7, 8] (room.ptrOf 0 g.toNat).toNat
  | .error _ => room

theorem witness_part_reads : (let h := homeTeam 1 0;
      h / 8 = (h + 8 - 1) / 8 ∧ (∀ j < 8, (((storedTo 2).slot 0).l0.get none ((h + j) / 128)).isNone = true
        ∧ ((storedTo 2).core 0).pending (h + j) = some (BitVec.ofNat 8 (j + 1))
        ∧ (match ((storedTo 2).core 0).who.get none (h + j) with | some w => w.by_.any fun x => x.1 == ((storedTo 2).thr 0).uid | none => false) = true))
    := by decide +kernel

/-- Two lanes with pointers of their own into team-local memory. -/
def pair : State :=
  let s := ((lanes [0, 1]).updTeam 1 fun t => { t with localSz := 4096 }).setReg (.gfield 0 2 { base := BitVec.ofNat 64 teamBase, limit := 4096, perm := 15, kind := 1 })
  (s.setReg (.ptr 0 2 (BitVec.ofNat 64 teamBase))).setReg (.ptr 1 2 (BitVec.ofNat 64 (teamBase + 6)))

theorem witness_pending_stores :
    (∀ k ∈ pair.issue, coreOfThread k = 0 ∧ pair.isDet k = false) ∧ pair.tidy = true ∧ pair.bins = []
    ∧ P pair (.st 2 5 2 0) ([dataOf 2 5 false, .g 2] ++ []) ∧ allAllowed pair (askWeak 2 2 true) false (pair.offsetEas 2 0 2) = true
    ∧ (pair.spotsOf (askWeak 2 2 true) (pair.offsetEas 2 0 2)).map (fun x => (x.1, x.2.win)) = [(0, .teamLocal), (1, .teamLocal)]
    ∧ (∀ s ∈ [room, storedTo 3], P s (.st 4 5 3 1) ([dataOf 4 5 false, .g 3] ++ []) ∧ allAllowed s (askWeak 4 3 true) false (s.offsetEas 3 1 4) = true
      ∧ ((s.spotsOf (askWeak 4 3 true) (s.offsetEas 3 1 4)).all fun x => x.2.win == .paged && !x.2.uncached
        && ((s.core 0).dirtyLines.contains (x.2.home / 128) || (s.core 0).dirtyLines.isEmpty)) = true ∧ 0 < (s.core 0).l1Granules) := by decide +kernel

theorem witness_written_through :
    (let s := room.updCore 0 fun c => { c with gran := (upto 0 16).map fun i => (i, .held 1) }
     (s.core 0).l1Granules = 0 ∧ s.issue = [0] ∧ s.isDet 0 = false ∧ s.bins = []
      ∧ P s (.st 4 5 3 1) ([dataOf 4 5 false, .g 3] ++ []) ∧ allAllowed s (askWeak 4 3 true) false (s.offsetEas 3 1 4) = true
      ∧ (match s.spotsOf (askWeak 4 3 true) (s.offsetEas 3 1 4) with | [(k, p)] => k == 0 && p.win == .paged && decide (p.home + 4 ≤ 2 ^ 110) | _ => false) = true) := by
  decide +kernel

theorem witness_address_bounds :
    (let s := withV (withV room 120 [(0, 0)]) 121 [(0, 0)]
     s.issue.head? = some 0 ∧ (s.v64 0 120).toNat < (s.gf 0 3).base.toNat)
    ∧ (let s := withV (withV room 120 [(0, 0x200001)]) 121 [(0, 0)]
       (s.gf 0 3).base.toNat + (s.gf 0 3).limit.toNat < (s.v64 0 120).toNat) := by decide +kernel

theorem witness_owned_bins :
    (let u : BinUpd := { id := 7, th := 0, ctx := 1, shadow := 0x110000, primary := 0x100000, e := 0, f64 := false, neg := false, mant := 3, exp := -1 }
     let s := { binned with bins := [u], torcHeld := [(0x110000 / 128, true)] }
     s.torcOwns (upto u.shadow (8 * binCount u.f64)) = true
      ∧ { s with torcHeld := [] }.torcOwns (upto u.shadow (8 * binCount u.f64)) = false) := by decide +kernel

theorem witness_full_barriers :
    (let s := (lanes [0, 1]).arriveNow 1 15
     let s := (s.arriveNow 0 15).updThr 0 fun t => { t with barWait := some 15 }
     s.barFull ⟨0, 1⟩ 15 = true ∧ s.slowBar ⟨0, 1⟩ 15 = false ∧ (∀ m ∈ s.members ⟨0, 1⟩ 15, (s.thr m).held = [])
      ∧ 0 ∈ s.members ⟨0, 1⟩ 15 ∧ (s.thr 0).barWait = some 15 ∧ (s.thr 0).phases.get 0 15 ≤ s.released 0 15 + 1)
    ∧ (let s := (twoCores 2).updTeam 1 fun t => { t with cores := [0] }
       s.barFull ⟨0, 1⟩ 31 = true ∧ s.slowBar ⟨0, 1⟩ 31 = false) := by decide +kernel

theorem witness_ring_counts :
    (let s := (ring 0).writeHomes (homeTeam 1 8) (leBytes 2 2 ++ leBytes 2 1)
     0 < s.blockNat (homeTeam 1 0) 8 4 % 512 ∧ 0 < s.blockNat (homeTeam 1 0) 8 4 / 65536 % 512) := by decide +kernel

theorem witness_finalised_lines : (∀ x : FinElem, binned.torcOwns (upto x.shadow.home 32 ++ upto x.primary.home 4) = false) := by
  have none_ : binned.torcHeld = [] := by decide +kernel
  intro x; simp [State.torcOwns, none_]

theorem witness_served : queued.askedBefore (dieOfThread 0) 63 = false ∧ (queued.grp 0).chunks = [] := by decide +kernel

/-- `strung` with its output strand full, and with no bead to pop from a strand that the second stage may still push to. -/
def strained : State := strung.updDie 0 fun d => { d with pipes := d.pipes.map fun p =>
  { p with stages := p.stages.map (fun t => if t.out0 = 0xFF then { t with out0 := 0 } else t), strands := p.strands.map fun t => if t.beads = [] then { t with beads := List.replicate t.cap { seq := 0, bytes := List.replicate 16 0 } } else { t with beads := [] } } }

theorem witness_strands_wait :
    (match strained.outStrand 0 0 with | .ok x => x.2.2.2.2.full | .error _ => false) = true
    ∧ (match strained.inStrand 0 with
      | .ok x => x.2.2.2.beads.isEmpty && !(strained.core 0).revoked && !x.2.1.allClosed x.2.2.1 | .error _ => false) = true := by decide +kernel

theorem witness_later_loads :
    (match (busy.core 0).loads.find? (fun l => l.t == 3) with
      | some l =>
        let me : Agent := { unit := l.grp, ctx := l.ctx, team := some (busy.grp l.grp).team, view := busy.view (busy.grp l.grp).team }
        (match busy.engineHomes me {} (parts l.ptr.toNat 3088) with
          | .ok hs => !busy.torcOwns hs && { busy with torcHeld := [(hs.headD 0 / 128, true)] }.torcOwns hs
          | .error _ => false)
        && decide (((busy.core 0).tables.get {} 3).at_ ≠ some busy.clk)
        && decide ((((busy.updCore 0 fun c => { c with tables := c.tables.put {} 3 { at_ := some busy.clk } }).core 0).tables.get {} 3).at_ = some busy.clk)
      | none => false) = true := by decide +kernel

theorem witness_collective_waits :
    (let s := collective.updDie 0 fun d => { d with torc := { d.torc with blocks := d.torc.blocks.map fun b => { b with begun := true, since := 0 } } }
     (match (s.die 0).torc.blocks.find? (fun b => b.off == 0) with
      | some b => b.active && b.begun && decide (64 * (b.since + 2 ^ 24) ≤ s.clk)
        && decide ({ s with clk := 64 * 2 ^ 24 - 1 }.clk < 64 * (b.since + 2 ^ 24))
      | none => false) = true)
    ∧ (let op : PoolOp := { id := 1, off := 0, tag := 0x77, seq := 1, since := 0 }
       let s := collective.updDie 0 fun d => { d with torc := { d.torc with poolOps := [op] } }
       (s.die 0).torc.poolOps.find? (fun o => o.off == 0 && decide (64 * (o.since + 2 ^ 20) ≤ s.clk)) = some op
        ∧ (match s.running 0 op.tag with | some r => r.seq == op.seq | none => false) = true
        ∧ s.running 0 0x78 = none)
    ∧ (let s := collective.updDie 0 fun d => { d with torc := { d.torc with blocks := d.torc.blocks.map fun b => { b with active := false } } }
       ((s.die 0).torc.blocks.find? (fun b => b.off == 0)).map (·.active) = some false)
    ∧ (∀ b ∈ (room.die 0).torc.blocks, b.off ≠ 0) := by decide +kernel

theorem witness_ports : ({ powered with host := { powered.host with port := .down } }).host.port = .down ∧ (9 : BitVec 8).toNat ≠ 8
    ∧ 1 ≤ (9 : BitVec 8).toNat ∧ (9 : BitVec 8).toNat ≤ 9 := by decide +kernel

theorem witness_mailbox_reads : (powered.mailboxRead 0x3E 8).length = 8 ∧ (0x40 ≤ 0x3E + 2 ∧ 0x3E + 2 < 0x44) ∧ (powered.mailboxRead 0x40 4)[3]? = some 0x80 := by
  decide +kernel

end Sys2Proof.Tests
end

section
/-! SUPPORT and PROOFS. Integer division (R65, R131): the operations on numbers with which the model gives an RRR integer
instruction its meaning, tied to the operations on bit vectors in which the statements are written. -/

namespace Sys2Proof.Machine

-- Numbers of n bits as bit vectors.

/-- The value that `sgn` gives a number of n bits is its two's complement value (R64). -/
theorem sgn_toNat {n : Nat} (hn : 0 < n) (x : BitVec n) : sgn n x.toNat = x.toInt := by
  obtain ⟨m, rfl⟩ := Nat.exists_eq_succ_of_ne_zero hn.ne'
  have hp : 2 ^ (m + 1) = 2 * 2 ^ m := by rw [pow_succ, mul_comm]
  simp only [sgn, Nat.mod_eq_of_lt x.isLt, BitVec.toInt_eq_toNat_cond, Nat.succ_eq_add_one, Nat.add_sub_cancel]
  push_cast
  split <;> split <;> omega

theorem wrap_eq_toNat_ofInt (n : Nat) (i : Int) : wrap n i = (BitVec.ofInt n i).toNat := by
  rw [wrap, BitVec.toNat_ofInt]; push_cast; rfl

/-- The wrapped truncated quotient is the signed quotient of bit vectors, the overflow pair of R65 included. -/
theorem wrap_tdiv {n : Nat} (x y : BitVec n) : wrap n (x.toInt.tdiv y.toInt) = (x.sdiv y).toNat := by
  have h : BitVec.ofInt n (x.toInt.tdiv y.toInt) = x.sdiv y :=
    BitVec.eq_of_toInt_eq (by rw [BitVec.toInt_ofInt, BitVec.toInt_sdiv])
  rw [wrap_eq_toNat_ofInt, h]

theorem wrap_tmod {n : Nat} (x y : BitVec n) : wrap n (x.toInt.tmod y.toInt) = (x.srem y).toNat := by
  rw [wrap_eq_toNat_ofInt, ← BitVec.toInt_srem, BitVec.ofInt_toInt]

-- Operations on numbers and on bit vectors.

/-- An operation on numbers computes an operation on bit vectors, at every width but zero. -/
def IntOp.Computes (op : IntOp) (bv : BvOp) : Prop :=
  ∀ n, 0 < n → ∀ (sg : Bool) (x y z : BitVec n), op n sg x.toNat y.toNat z.toNat % 2 ^ n = (bv n sg x y z).toNat

/-- DIV by zero: the largest or the smallest signed number, or all ones (R65). -/
theorem opDiv_zero {n : Nat} (hn : 0 < n) (sg : Bool) (x z : BitVec n) :
    opDiv n sg x.toNat 0 z.toNat % 2 ^ n = (bvDiv n sg x 0 z).toNat := by
  cases sg with
  | false =>
    simp only [opDiv, bvDiv, if_true, Bool.false_eq_true, if_false, BitVec.toNat_allOnes]
    exact Nat.mod_eq_of_lt (Nat.sub_lt (Nat.two_pow_pos n) one_pos)
  | true =>
    simp only [opDiv, bvDiv, if_true, sgn_toNat hn]
    split
    · have hlt : 2 ^ (n - 1) < 2 ^ n := Nat.pow_lt_pow_right (by decide) (by omega)
      rw [BitVec.toNat_intMax]; exact Nat.mod_eq_of_lt ((Nat.sub_le _ _).trans_lt hlt)
    · rw [BitVec.toNat_intMin]

theorem opDiv_computes : IntOp.Computes opDiv bvDiv := by
  intro n hn sg x y z
  by_cases hy : y = 0
  · subst hy; exact opDiv_zero hn sg x z
  have hy' : y.toNat ≠ 0 := fun h => hy (BitVec.eq_of_toNat_eq h)
  cases sg with
  | false =>
    simp only [opDiv, bvDiv, hy, hy', Bool.false_eq_true, if_false]
    rw [← BitVec.toNat_udiv]; exact Nat.mod_eq_of_lt (BitVec.isLt _)
  | true =>
    simp only [opDiv, bvDiv, hy, hy', if_true, if_false, sgn_toNat hn, wrap_tdiv]
    exact Nat.mod_eq_of_lt (BitVec.isLt _)

theorem opRem_computes : IntOp.Computes opRem bvRem := by
  intro n hn sg x y z
  by_cases hy : y = 0
  · subst hy; simp [opRem, bvRem]
  have hy' : y.toNat ≠ 0 := fun h => hy (BitVec.eq_of_toNat_eq h)
  cases sg with
  | false =>
    simp only [opRem, bvRem, hy, hy', Bool.false_eq_true, if_false]
    rw [← BitVec.toNat_umod]; exact Nat.mod_eq_of_lt (BitVec.isLt _)
  | true =>
    simp only [opRem, bvRem, hy, hy', if_true, if_false, sgn_toNat hn, wrap_tmod]
    exact Nat.mod_eq_of_lt (BitVec.isLt _)

-- What an RRR integer instruction writes.

/-- A 64-bit source is below 2^64, and a 32-bit one below 2^32. -/
theorem intSrc_lt (s : State) (k : Nat) (uni wide : Bool) (n : Nat) : s.intSrc k uni wide n < 2 ^ (if wide then 64 else 32) := by
  cases uni <;> cases wide <;> exact BitVec.isLt _

/-- A source that is wide only in a 64-bit form fits the form's width. -/
theorem intSrc_lt_of_and (s : State) (k : Nat) (uni w wideB : Bool) (n : Nat) :
    s.intSrc k uni (w && wideB) n < 2 ^ (if w then 64 else 32) := by
  refine (intSrc_lt s k uni (w && wideB) n).trans_le (Nat.pow_le_pow_right (by decide) ?_)
  cases w <;> cases wideB <;> decide

/-- The results of an RRR instruction are the writes of its operation on bit vectors, for each thread it executes for. -/
theorem rrrResults_eq {op : IntOp} {bv : BvOp} (h : op.Computes bv) (s : State) (f : BitVec 4) (d a b : BitVec 7) (wideB : Bool) :
    s.rrrResults f d a b wideB op = (s.actors (f.getLsbD 3)).map fun k => (k, s.bvWrites f d a b wideB bv k) := by
  refine List.map_congr_left fun k _ => ?_
  have hn : 0 < if f.getLsbD 1 then 64 else 32 := by split <;> decide
  simp only [State.bvWrites, ← h _ hn, BitVec.toNat_ofNat, Nat.mod_eq_of_lt (intSrc_lt s k _ _ _),
    Nat.mod_eq_of_lt (intSrc_lt_of_and s k _ _ _ _)]

/-- A variable-latency RRR instruction that passes its checks puts one result in flight for each thread it executes for, with the
values that the state it issues in gives (R131). -/
theorem rrrVariable_of {op : IntOp} {bv : BvOp} (h : op.Computes bv) {s : State} {i : Instr} {f : BitVec 4} {d a b : BitVec 7}
    (hp : s.Passes { instr := i, place := .both, ops := rrrOpds f d a b false true }) :
    s.rrrVariable i f d a b op = .next ((s.actors (f.getLsbD 3)).foldl (fun t k => t.variable k (s.bvWrites f d a b true bv k)) s) := by
  rw [State.rrrVariable, issuePlain_of hp, rrrResults_eq h, List.foldl_map]

/-- Settles O11: DIV and REM are variable-latency RRR instructions whose operations compute those of R65. -/
theorem divisionGivesQuotientAndRemainder : Obligations.DivisionGivesQuotientAndRemainder := by
  intro s f d a b
  refine ⟨fun hp => ?_, fun hp => ?_⟩
  · rw [exec_div, execDiv, rrrVariable_of opDiv_computes hp]
  · rw [exec_rem, execRem, rrrVariable_of opRem_computes hp]

end Sys2Proof.Machine
end

section
/-! SUPPORT. The words of three-register instructions (R111, R112): the fields that the decoder reads from such a word are those
that it is put together from. -/

namespace Sys2Proof.Machine

/-- Whether a field is zero is whether its bits are. -/
theorem fix_zero (w lo len : Nat) : fix w lo len 0 = (bits w lo len == 0) := by
  rw [Bool.eq_iff_iff]
  simp [fix, bits, ← BitVec.toNat_inj]

theorem toNat_append_eq_add {m n : Nat} (x : BitVec m) (y : BitVec n) : (x ++ y).toNat = x.toNat * 2 ^ n + y.toNat := by
  rw [BitVec.toNat_append, ← Nat.shiftLeft_add_eq_or_of_lt y.isLt, Nat.shiftLeft_eq]

theorem toNat_rrrWord (o : BitVec 7) (f : BitVec 4) (d a b : BitVec 7) :
    (rrrWord o f d a b).toNat = (((o.toNat * 2 ^ 4 + f.toNat) * 2 ^ 7 + d.toNat) * 2 ^ 7 + a.toNat) * 2 ^ 7 + b.toNat := by
  rw [← toNat_append_eq_add o f, ← toNat_append_eq_add _ d, ← toNat_append_eq_add _ a, ← toNat_append_eq_add _ b]; rfl

/-- A field among the low bits of a number. -/
theorem bits_low {m : Nat} (h : Nat) (x : BitVec m) {lo len : Nat} (hl : lo + len ≤ m) :
    bits (h * 2 ^ m + x.toNat) lo len = x.extractLsb' lo len := by
  obtain ⟨k, rfl⟩ := Nat.exists_eq_add_of_le hl
  apply BitVec.eq_of_toNat_eq
  rw [bits, BitVec.toNat_ofNat, BitVec.extractLsb'_toNat, Nat.shiftRight_eq_div_pow, pow_add, pow_add,
    show h * (2 ^ lo * 2 ^ len * 2 ^ k) + x.toNat = x.toNat + 2 ^ lo * (2 ^ len * (h * 2 ^ k)) by ring,
    Nat.add_mul_div_left _ _ (Nat.two_pow_pos lo), Nat.add_mul_mod_self_left]

/-- The low bits of a number, whole. -/
theorem bits_lowest {m : Nat} (h : Nat) (x : BitVec m) : bits (h * 2 ^ m + x.toNat) 0 m = x :=
  (bits_low h x (by rw [Nat.zero_add])).trans BitVec.extractLsb'_eq_self

/-- A field above the low bits of a number. -/
theorem bits_high (h : Nat) {m : Nat} (x : BitVec m) (lo len : Nat) : bits (h * 2 ^ m + x.toNat) (m + lo) len = bits h lo len := by
  have hx : (h * 2 ^ m + x.toNat) / 2 ^ m = h := by
    rw [mul_comm, Nat.mul_add_div (Nat.two_pow_pos m), Nat.div_eq_of_lt x.isLt, add_zero]
  rw [bits, bits, pow_add, ← Nat.div_div_eq_div_mul, hx]

section
variable (o : BitVec 7) (f : BitVec 4) (d a b : BitVec 7)

theorem opcOf_rrrWord : opcOf (rrrWord o f d a b).toNat = o.toNat := by
  rw [opcOf, toNat_rrrWord]; omega

@[simp] theorem bits_rrrWord_b : bits (rrrWord o f d a b).toNat 0 7 = b := by
  rw [toNat_rrrWord, bits_lowest]

@[simp] theorem bits_rrrWord_a : bits (rrrWord o f d a b).toNat 7 7 = a := by
  rw [toNat_rrrWord, bits_high _ _ 0, bits_lowest]

@[simp] theorem bits_rrrWord_d : bits (rrrWord o f d a b).toNat 14 7 = d := by
  rw [toNat_rrrWord, bits_high _ _ 7, bits_high _ _ 0, bits_lowest]

/-- A field within FN. -/
theorem bits_rrrWord_within_fn {i len : Nat} (h : i + len ≤ 4) :
    bits (rrrWord o f d a b).toNat (21 + i) len = f.extractLsb' i len := by
  rw [toNat_rrrWord, show 21 + i = 7 + (7 + (7 + i)) by omega, bits_high, bits_high, bits_high, bits_low _ _ h]

@[simp] theorem bits_rrrWord_fn : bits (rrrWord o f d a b).toNat 21 4 = f :=
  (bits_rrrWord_within_fn o f d a b (i := 0) (by decide)).trans BitVec.extractLsb'_eq_self

/-- The fields of an FN of two bits, one bit and one bit. -/
@[simp] theorem bits_rrrWord_fn_two_one_one (x : BitVec 2) (y z : BitVec 1) :
    bits (rrrWord o (x ++ y ++ z) d a b).toNat 23 2 = x ∧ bits (rrrWord o (x ++ y ++ z) d a b).toNat 22 1 = y
      ∧ bits (rrrWord o (x ++ y ++ z) d a b).toNat 21 1 = z := by
  have h : ∀ (x : BitVec 2) (y z : BitVec 1), (x ++ y ++ z).extractLsb' 2 2 = x ∧ (x ++ y ++ z).extractLsb' 1 1 = y
      ∧ (x ++ y ++ z).extractLsb' 0 1 = z := by decide
  obtain ⟨hx, hy, hz⟩ := h x y z
  exact ⟨(bits_rrrWord_within_fn o _ d a b (i := 2) (by decide)).trans hx,
    (bits_rrrWord_within_fn o _ d a b (i := 1) (by decide)).trans hy, (bits_rrrWord_within_fn o _ d a b (i := 0) (by decide)).trans hz⟩

/-- The fields of an FN of one bit and three bits. -/
@[simp] theorem bits_rrrWord_fn_one_three (x : BitVec 1) (y : BitVec 3) :
    bits (rrrWord o (x ++ y) d a b).toNat 24 1 = x ∧ bits (rrrWord o (x ++ y) d a b).toNat 21 3 = y := by
  have h : ∀ (x : BitVec 1) (y : BitVec 3), (x ++ y).extractLsb' 3 1 = x ∧ (x ++ y).extractLsb' 0 3 = y := by decide
  obtain ⟨hx, hy⟩ := h x y
  exact ⟨(bits_rrrWord_within_fn o _ d a b (i := 3) (by decide)).trans hx, (bits_rrrWord_within_fn o _ d a b (i := 0) (by decide)).trans hy⟩

/-- The fields of an FN of one bit, one bit and two bits. -/
@[simp] theorem bits_rrrWord_fn_one_one_two (x y : BitVec 1) (z : BitVec 2) :
    bits (rrrWord o (x ++ y ++ z) d a b).toNat 24 1 = x ∧ bits (rrrWord o (x ++ y ++ z) d a b).toNat 23 1 = y
      ∧ bits (rrrWord o (x ++ y ++ z) d a b).toNat 21 2 = z := by
  have h : ∀ (x y : BitVec 1) (z : BitVec 2), (x ++ y ++ z).extractLsb' 3 1 = x ∧ (x ++ y ++ z).extractLsb' 2 1 = y
      ∧ (x ++ y ++ z).extractLsb' 0 2 = z := by decide
  obtain ⟨hx, hy, hz⟩ := h x y z
  exact ⟨(bits_rrrWord_within_fn o _ d a b (i := 3) (by decide)).trans hx,
    (bits_rrrWord_within_fn o _ d a b (i := 2) (by decide)).trans hy, (bits_rrrWord_within_fn o _ d a b (i := 0) (by decide)).trans hz⟩

end

/-- A word of a single-word opcode decodes as one. -/
theorem decode_rrrWord {o : BitVec 7} (ho : isDouble o.toNat = false ∧ o.toNat ∉ [0, 1, 2, 119, 127]) (f : BitVec 4) (d a b : BitVec 7) :
    decode [rrrWord o f d a b] = keepWf 1 (decodeOne (rrrWord o f d a b).toNat) := by
  obtain ⟨hd, ho⟩ := ho
  simp only [List.mem_cons, List.not_mem_nil, or_false, not_or] at ho
  simp [decode, opcOf_rrrWord, hd, ho]

end Sys2Proof.Machine
end

section
/-! SUPPORT. The flags of a floating-point word (R69, R158): neither results put in flight nor raised flags enable a trap, and where
none is enabled the word puts its results in flight and raises its flags. -/

namespace Sys2Proof.Machine

theorem enables_raiseFlags {s : State} (hs : Tab.risingFrom 0 s.threads = true) (j k : Nat) (fl : Flags) :
    ((s.raiseFlags j fl).thr k).enables = (s.thr k).enables := by
  have hlow : (fl.setWidth 32).extractLsb' 8 5 = 0#5 := by revert fl; decide
  rw [State.raiseFlags]
  split
  · rfl
  · rw [updThr_eq, thr_setThr hs]
    split
    · next h => subst h; rw [Thread.enables, BitVec.extractLsb'_or, hlow, BitVec.or_zero]; rfl
    · rfl

theorem raiseFlags_rising {s : State} (hs : Tab.risingFrom 0 s.threads = true) (k : Nat) (fl : Flags) :
    Tab.risingFrom 0 (s.raiseFlags k fl).threads = true := by
  rw [State.raiseFlags]
  split
  · exact hs
  · exact setThr_rising hs _ _

/-- Raising flags enables none (R69). -/
theorem enables_raiseAll (l : List (Nat × Flags)) {s : State} (hs : Tab.risingFrom 0 s.threads = true) (k : Nat) :
    ((s.raiseAll l).thr k).enables = (s.thr k).enables := by
  induction l generalizing s with
  | nil => rfl
  | cons e l ih => exact (ih (raiseFlags_rising hs _ _)).trans (enables_raiseFlags hs _ _ _)

theorem enables_markTemps (ws : List RegWrite) {s : State} (hs : Tab.risingFrom 0 s.threads = true) (k : Nat) :
    ((s.markTemps ws).thr k).enables = (s.thr k).enables ∧ Tab.risingFrom 0 (s.markTemps ws).threads = true := by
  induction ws generalizing s with
  | nil => exact ⟨rfl, hs⟩
  | cons w ws ih =>
    cases w with
    | temp t n v =>
      obtain ⟨he, hr⟩ := ih (s := s.updThr t fun x => { x with tmMask := x.tmMask ||| (1#6 <<< n) }) (setThr_rising hs _ _)
      refine ⟨he.trans ?_, hr⟩
      rw [updThr_eq, thr_setThr hs]
      split
      · next h => subst h; rfl
      · rfl
    | _ => exact ih hs

/-- Putting results in flight enables no flag. -/
theorem enables_fixed {s : State} (hs : Tab.risingFrom 0 s.threads = true) (lat : Nat) (ws : List RegWrite) (k : Nat) :
    ((s.fixed lat ws).thr k).enables = (s.thr k).enables ∧ Tab.risingFrom 0 (s.fixed lat ws).threads = true := by
  rw [State.fixed]
  obtain ⟨slots, h⟩ := setRun_spec s { s.run with fixed := s.run.fixed ++ ws.map fun w => { due := s.clk + lat, write := w } }
  rw [h]; exact enables_markTemps ws (s := { s with slots := slots }) hs k

/-- Where no thread concerned has a flag enabled, raised flags trap in none (R158). -/
theorem fpTrap_of_no_enables {s : State} {raised : List (Nat × Flags)} (h : ∀ e ∈ raised, (s.thr e.1).enables = 0) (n : Nat) :
    s.fpTrap n raised = s := by
  have hnone : s.trapping raised = [] := List.filter_eq_nil_iff.2 fun e he => by simp [h e he]
  rw [State.fpTrap, hnone]; rfl

/-- A word that passes its checks, whose threads have no flag enabled, puts its results in flight and raises its flags. -/
theorem issueFp_of {s : State} {r : Req} {lat n : Nat} {body : State → State × List (Nat × Flags)} {ws : List RegWrite}
    {raised : List (Nat × Flags)} (hp : s.Passes r) (hs : s.tidy = true) (hb : body s = (s.fixed lat ws, raised))
    (he : ∀ e ∈ raised, (s.thr e.1).enables = 0) : s.issueFp r n body = .next ((s.fixed lat ws).raiseAll raised) := by
  have hr := tidy_threads hs
  have ht : ∀ e ∈ raised, (((s.fixed lat ws).raiseAll raised).thr e.1).enables = 0 := fun e h => by
    rw [enables_raiseAll raised (enables_fixed hr lat ws 0).2, (enables_fixed hr lat ws e.1).1, he e h]
  rw [State.issueFp, issueFault_none.2 hp]
  simp only [hb, fpTrap_of_no_enables ht]

end Sys2Proof.Machine
end

section
/-! PROOFS. SEL (R136), and the cross-lane instructions but LRED and LSCAN (R145 to R147, R150, R151). -/

namespace Sys2Proof.Machine

-- Decoding.

theorem decode_sel (p : BitVec 4) (d a b : BitVec 7) : decode [rrrWord 0x1A p d a b] = keepWf 1 (some (.sel p d a b)) := by
  rw [decode_rrrWord (by decide), decodeOne, opcOf_rrrWord]
  simp

theorem decode_lshuf (f : BitVec 2) (w x : BitVec 1) (d a b : BitVec 7) :
    decode [rrrWord 0x29 (f ++ w ++ x) d a b] = keepWf 1 (some (.lshuf f w x d a b)) := by
  rw [decode_rrrWord (by decide), decodeOne, opcOf_rrrWord]
  simp

theorem decode_lrot (f : BitVec 2) (w x : BitVec 1) (d a b : BitVec 7) :
    decode [rrrWord 0x2B (f ++ w ++ x) d a b] = keepWf 1 (if x = 0 then some (.lrot f w d a b) else none) := by
  rw [decode_rrrWord (by decide), decodeOne, opcOf_rrrWord]
  simp [fix_zero]

theorem decode_lpush (p : BitVec 4) (d a b : BitVec 7) : decode [rrrWord 0x2A p d a b] = keepWf 1 (some (.lpush p d a b)) := by
  rw [decode_rrrWord (by decide), decodeOne, opcOf_rrrWord]
  simp

theorem decode_vote (w r : BitVec 1) (f : BitVec 2) (d a b : BitVec 7) :
    decode [rrrWord 0x2E (w ++ r ++ f) d a b] = keepWf 1 (if b = 0 ∧ r = 0 then some (.vote w f d a) else none) := by
  rw [decode_rrrWord (by decide), decodeOne, opcOf_rrrWord]
  simp [fix_zero]

theorem decode_lmatch (f : BitVec 2) (w r : BitVec 1) (d a b : BitVec 7) :
    decode [rrrWord 0x2F (f ++ w ++ r) d a b] = keepWf 1 (if (b = 0 ∧ r = 0) ∧ f = 0 then some (.lmatch w d a) else none) := by
  rw [decode_rrrWord (by decide), decodeOne, opcOf_rrrWord]
  simp [fix_zero]

/-- A word of which part is reserved: it decodes where the reserved part is zero and the instruction is well formed. -/
theorem keepWf_ite (n : Nat) (c : Prop) [Decidable c] (i : Instr) :
    keepWf n (if c then some i else none) = if c ∧ i.wf = true then .ok (i, n) else .error .reservedField := by
  by_cases hc : c <;> simp [hc, keepWf]

/-- Form 3 of LSHUF and LROT names a part of the width, the others any B (R146). -/
theorem laneForm_iff (f : BitVec 2) (b : BitVec 7) : laneForm f b = true ↔ (f = 3 → b.toNat < 7 ∧ b ≠ 0) := by
  have hb : 1 ≤ b.toNat ↔ b ≠ 0 := by rw [Nat.one_le_iff_ne_zero, ne_eq, ne_eq, ← BitVec.toNat_inj]; rfl
  simp [laneForm, or_iff_not_imp_left, hb, Nat.lt_succ_iff, and_comm]

theorem voteWf_iff (w : BitVec 1) (f : BitVec 2) (d a : BitVec 7) :
    (Instr.vote w f d a).wf = true ↔ (f ≠ 3 → w = 0 ∧ a.toNat < 16) ∧ (f ≠ 2 → d.toNat < 16) := by
  simp [Instr.wf, predField, or_iff_not_imp_left]

-- Lanes of a group.

section
variable {s : State}

/-- A cross-lane word that passes its checks puts in flight, group by group, what it gives each group's issued lanes (R145). -/
theorem issuePlain_laneSets {r : Req} (hp : s.Passes r) {F : State → Nat × List Nat → List RegWrite} {G : Nat × Nat → List RegWrite}
    (h : ∀ e, F s (e.1, s.issuedOf e.1) = G e) :
    s.issuePlain r (fun s => s.fixed laneLat (s.laneSets.flatMap (F s))) = .next (s.fixed 6 (s.issueGroups.flatMap G)) := by
  rw [issuePlain_of hp, State.laneSets, List.flatMap_map, funext h, laneLat]

theorem grp_of_mem_issuedOf {g k : Nat} (h : k ∈ s.issuedOf g) : (s.thr k).grp = g := by
  simpa using (List.mem_filter.1 h).2

/-- A lane that is not issued reads as 0 (R145). -/
theorem laneVal_eq (s : State) (g : Nat) (wide : Bool) (n i : Nat) : s.laneVal (s.issuedOf g) wide n i = s.fromLane g wide n i := by
  rw [State.laneVal, State.laneAt, firstThat_eq]; rfl

theorem laneOperand_eq {g k : Nat} (h : k ∈ s.issuedOf g) (f : BitVec 2) (b : BitVec 7) :
    s.laneOperand k f b (s.grp g).width = s.laneShift k f b := by
  rw [State.laneOperand, sgn_toNat (by decide), State.laneShift, grp_of_mem_issuedOf h]

end

/-- Settles O13: SEL issues as its rule says. -/
theorem selectTakesTheOperandItsPredicateNames : Obligations.SelectTakesTheOperandItsPredicateNames := by
  intro s p d a b
  refine ⟨by rw [decode_sel]; rfl, fun hp => ?_⟩
  rw [exec_sel, execSel, issuePlain_of hp]; rfl

/-- Settles O15: the lane operand and the value of the lane it names are those of R145 and R146. -/
theorem shufflesReadTheNamedLane : Obligations.ShufflesReadTheNamedLane := by
  intro s f w x d a b
  refine ⟨⟨?_, ?_⟩, fun _ hp => ?_, fun _ hp => ?_⟩
  · rw [decode_lshuf, keepWf, Instr.wf]; simp only [laneForm_iff]
  · rw [decode_lrot, keepWf_ite, Instr.wf]; simp only [laneForm_iff]
  · rw [exec_lshuf, execLshuf]
    refine issuePlain_laneSets hp fun e => ?_
    refine List.flatMap_congr fun k hk => ?_
    simp only [laneVal_eq, laneOperand_eq hk]; rfl
  · rw [exec_lrot, execLrot]
    refine issuePlain_laneSets hp fun e => ?_
    refine List.flatMap_congr fun k hk => ?_
    simp only [laneVal_eq, laneOperand_eq hk]; rfl

/-- Settles O16: the first of the lanes that name a lane is the lowest, and a rest of them is a collision. -/
theorem pushesTakeTheLowestSender : Obligations.PushesTakeTheLowestSender := by
  intro s p d a b
  refine ⟨by rw [decode_lpush]; rfl, fun _ hp => ?_⟩
  rw [exec_lpush, execLpush]
  refine issuePlain_laneSets hp fun e => ?_
  refine List.flatMap_congr fun t _ => ?_
  simp only [State.gi]
  cases (s.issuedOf e.1).filter fun k => (s.v k b.toNat).toNat % (s.grp e.1).width == (s.thr t).idx with
  | nil => rfl
  | cons k r => cases r <;> simp

-- Masks and votes.

/-- The mask of the lanes that pass a test. -/
theorem foldl_mask_eq (s : State) (p : Nat → Bool) (ks : List Nat) :
    ks.foldl (fun (m : DWord) k => if p k then m ||| (1#64 <<< s.gi k) else m) 0
      = (ks.filter p).foldl (fun (m : DWord) k => m ||| BitVec.twoPow 64 (s.thr k).idx) 0 := by
  rw [List.foldl_filter]; simp only [BitVec.twoPow_eq]; rfl

/-- All are equal to the first exactly when any two are equal. -/
theorem all_eq_headD (v : Nat → Nat) (ks : List Nat) :
    ((ks.map v).all (· == (ks.map v).headD 0)) = ks.all fun j => ks.all fun m => v j == v m := by
  cases ks with
  | nil => rfl
  | cons k r =>
    rw [Bool.eq_iff_iff]
    simp only [List.all_eq_true, beq_iff_eq, List.map_cons, List.headD_cons]
    rw [← List.map_cons, List.forall_mem_map]
    exact ⟨fun h j hj m hm => (h j hj).trans (h m hm).symm, fun h j hj => h j hj k List.mem_cons_self⟩

/-- Settles O18: the predicates and masks of VOTE and LMATCH, lane by lane. -/
theorem votesAndMatchesReadTheIssuedLanes : Obligations.VotesAndMatchesReadTheIssuedLanes := by
  intro s w r f d a b
  refine ⟨?_, ?_, fun _ => ⟨fun hp => ?_, fun hp => ?_⟩⟩
  · rw [decode_vote, keepWf_ite]
    exact if_congr (by rw [voteWf_iff]; tauto) rfl rfl
  · rw [decode_lmatch, keepWf_ite]
    exact if_congr (by simp only [Instr.wf]; tauto) rfl rfl
  · rw [exec_vote, execVote]
    refine issuePlain_laneSets hp fun e => ?_
    simp only [State.voteWrites, foldl_mask_eq, all_eq_headD]
  · rw [exec_lmatch, execLmatch]
    refine issuePlain_laneSets hp fun e => ?_
    refine List.flatMap_congr fun k _ => ?_
    simp only [← foldl_mask_eq, beq_iff_eq]

end Sys2Proof.Machine
end

section
/-! PROOFS. LRED and LSCAN (R148, R149): the combines on words, and the reduction tree as the steps of R148. -/

namespace Sys2Proof.Machine

-- Decoding.

theorem decode_lred (f : BitVec 4) (d a b : BitVec 7) :
    decode [rrrWord 0x2C f d a b] = keepWf 1 (if b = 0 then some (.lred f d a) else none) := by
  rw [decode_rrrWord (by decide), decodeOne, opcOf_rrrWord]
  simp [fix_zero]

theorem decode_lscan (e : BitVec 1) (f : BitVec 3) (d a b : BitVec 7) :
    decode [rrrWord 0x2D (e ++ f) d a b] = keepWf 1 (if b = 0 then some (.lscan e f d a) else none) := by
  rw [decode_rrrWord (by decide), decodeOne, opcOf_rrrWord]
  simp [fix_zero]

-- The combines.

theorem intLess_toNat {n : Nat} (hn : 0 < n) (sg : Bool) (x y : BitVec n) :
    intLess n sg x.toNat y.toNat = if sg then x.slt y else x.ult y := by
  rw [intLess, sgn_toNat hn, sgn_toNat hn, BitVec.slt_eq_decide]; rfl

theorem opMin_toNat {n : Nat} (hn : 0 < n) (sg : Bool) (x y z : BitVec n) (w : Nat) :
    opMin n sg x.toNat y.toNat w = (bvMin n sg x y z).toNat := by
  rw [opMin, intLess_toNat hn, bvMin, apply_ite BitVec.toNat]

theorem opMax_toNat {n : Nat} (hn : 0 < n) (sg : Bool) (x y z : BitVec n) (w : Nat) :
    opMax n sg x.toNat y.toNat w = (bvMax n sg x y z).toNat := by
  rw [opMax, intLess_toNat hn, bvMax, apply_ite BitVec.toNat]

/-- The integer combines of LRED and LSCAN on numbers are those on words (R148). -/
theorem intCombine_toNat (f : Nat) (x y : Word) : intCombine f x.toNat y.toNat = (bvCombine f x y).toNat := by
  simp only [intCombine, bvCombine, apply_ite BitVec.toNat, BitVec.toNat_add, BitVec.toNat_and, BitVec.toNat_or, BitVec.toNat_xor,
    opMin_toNat (n := 32) (by decide) _ _ _ 0, opMax_toNat (n := 32) (by decide) _ _ _ 0]
  rfl

theorem scanIdentity_eq (f : Nat) : BitVec.ofNat 32 (scanIdentity f) = bvIdentity f := by
  simp only [scanIdentity, bvIdentity, apply_ite (BitVec.ofNat 32)]
  rfl

/-- A value that a combine of LRED takes and gives: an integer combine's is of 32 bits (R148). -/
def CombineFits (f x : Nat) : Prop := f < 8 → x < 2 ^ 32

theorem redCombine_eq {f x y : Nat} (hx : CombineFits f x) (hy : CombineFits f y) :
    redCombine f x y = specCombine f x y ∧ CombineFits f (redCombine f x y).1 := by
  by_cases hf : f < 8
  · have h : redCombine f x y = ((bvCombine f (BitVec.ofNat 32 x) (BitVec.ofNat 32 y)).toNat, 0) := by
      rw [redCombine, if_pos hf, ← intCombine_toNat, BitVec.toNat_ofNat, BitVec.toNat_ofNat, Nat.mod_eq_of_lt (hx hf),
        Nat.mod_eq_of_lt (hy hf)]
    exact ⟨by rw [h, specCombine, if_pos hf], fun _ => by rw [h]; exact BitVec.isLt _⟩
  · refine ⟨?_, fun h => absurd h hf⟩
    simp only [redCombine, specCombine, hf, if_false, BitVec.toNat_add, BitVec.toNat_ofNat, Nat.add_mod_mod, Nat.mod_add_mod]

-- The steps of R148.

/-- The values after one step: the lane at each multiple of 2 ^ (k + 1) takes in the lane 2 ^ k above it. -/
def redNext (c : Combine) (k : Nat) (val : Nat → Option Nat) (j : Nat) : Option Nat :=
  if j % 2 ^ (k + 1) = 0 then (redJoin c (val j) (val (j + 2 ^ k))).1 else val j

/-- All the flags of a list. -/
def anyFlags : List Flags → Flags
  | [] => 0
  | x :: r => x ||| anyFlags r

theorem foldl_or_eq {α : Type} (g : α → Flags) (l : List α) (x : Flags) :
    l.foldl (fun a j => a ||| g j) x = x ||| anyFlags (l.map g) := by
  induction l generalizing x with
  | nil => simp [anyFlags]
  | cons j l ih => rw [List.foldl_cons, ih, BitVec.or_assoc]; rfl

theorem redJoin_eq (c : Combine) (x y : Option Nat) : redJoin c x y = joinLanes c x y := by
  cases x <;> cases y <;> rfl

/-- The flags that the step of 2 ^ k raises in a group of w lanes. -/
def redFlags (c : Combine) (w k : Nat) (val : Nat → Option Nat) : Flags :=
  anyFlags (((List.range w).filter (· % 2 ^ (k + 1) = 0)).map fun j => (redJoin c (val j) (val (j + 2 ^ k))).2)

theorem redSteps_succ (c : Combine) (w k m : Nat) (val : Nat → Option Nat) (fl : Flags) :
    redSteps c w k (m + 1) val fl = redSteps c w (k + 1) m (redNext c k val) (fl ||| redFlags c w k val) := by
  rw [redSteps, redFlags, ← foldl_or_eq, List.foldl_filter]
  simp only [decide_eq_true_eq]; rfl

/-- Flags raised before are added to those of the steps. -/
theorem redSteps_flags (c : Combine) (w m k : Nat) (val : Nat → Option Nat) (fl : Flags) :
    redSteps c w k m val fl = ((redSteps c w k m val 0).1, fl ||| (redSteps c w k m val 0).2) := by
  induction m generalizing k val fl with
  | zero => simp [redSteps]
  | succ m ih => rw [redSteps_succ, redSteps_succ, ih, ih _ _ (0 ||| _)]; simp [BitVec.or_assoc]

/-- Combines that agree on values of a kind, and keep to it, join values of that kind alike. -/
theorem redJoin_congr {c c' : Combine} {P : Nat → Prop} (hc : ∀ x y, P x → P y → c x y = c' x y ∧ P (c x y).1) {a b : Option Nat}
    (ha : ∀ x ∈ a, P x) (hb : ∀ x ∈ b, P x) : redJoin c a b = redJoin c' a b ∧ ∀ x ∈ (redJoin c a b).1, P x := by
  cases a with
  | none => exact ⟨rfl, hb⟩
  | some x =>
    cases b with
    | none => exact ⟨rfl, ha⟩
    | some y =>
      obtain ⟨he, hp⟩ := hc x y (ha x rfl) (hb y rfl)
      exact ⟨by simp only [redJoin, he], by simpa [redJoin] using hp⟩

/-- They take the same steps from values of that kind. -/
theorem redSteps_congr {c c' : Combine} {P : Nat → Prop} (hc : ∀ x y, P x → P y → c x y = c' x y ∧ P (c x y).1) (w m k : Nat)
    {val : Nat → Option Nat} (hv : ∀ j, ∀ x ∈ val j, P x) (fl : Flags) : redSteps c w k m val fl = redSteps c' w k m val fl := by
  have hj := fun i j => redJoin_congr hc (hv i) (hv j)
  induction m generalizing k val fl with
  | zero => rfl
  | succ m ih =>
    have hnext : redNext c k val = redNext c' k val := funext fun j => by simp only [redNext, (hj _ _).1]
    have hflags : redFlags c w k val = redFlags c' w k val := by simp only [redFlags, (hj _ _).1]
    have hv' : ∀ j, ∀ x ∈ redNext c k val j, P x := fun j => by
      rw [redNext]; split
      · exact (hj _ _).2
      · exact hv j
    rw [redSteps_succ, redSteps_succ, ih _ hv' _ fun i j => redJoin_congr hc (hv' i) (hv' j), hnext, hflags]

-- The tree.

/-- One level of the tree over the values of 2 * n lanes. -/
theorem treeLevel_range (c : Combine) (n : Nat) (v : Nat → Option Nat) :
    treeLevel c ((List.range (2 * n)).map v)
      = ((List.range n).map fun i => (redJoin c (v (2 * i)) (v (2 * i + 1))).1,
         anyFlags ((List.range n).map fun i => (redJoin c (v (2 * i)) (v (2 * i + 1))).2)) := by
  induction n generalizing v with
  | zero => rfl
  | succ n ih =>
    have h : (List.range (2 * (n + 1))).map v = v 0 :: v 1 :: (List.range (2 * n)).map fun j => v (j + 2) := by
      rw [show 2 * (n + 1) = 2 * n + 1 + 1 by ring, List.range_succ_eq_map, List.range_succ_eq_map]; simp
    rw [h, treeLevel, ih]
    simp only [redJoin_eq, List.range_succ_eq_map, List.map_cons, List.map_map]
    rfl

/-- The tree of one lane. -/
theorem treeReduce_singleton (c : Combine) (n : Nat) (x : Option Nat) : treeReduce c n [x] = (x.getD 0, 0) := by
  induction n with
  | zero => rfl
  | succ n ih => simp [treeReduce, treeLevel, ih]

/-- The numbers below n * q that q divides. -/
theorem filter_multiples {q : Nat} (hq : 0 < q) (n : Nat) : (List.range (n * q)).filter (· % q = 0) = (List.range n).map (· * q) := by
  induction n with
  | zero => simp
  | succ n ih =>
    have hlast : ((List.range q).map (n * q + ·)).filter (· % q = 0) = [n * q] := by
      obtain ⟨p, rfl⟩ := Nat.exists_eq_succ_of_ne_zero hq.ne'
      rw [List.range_succ_eq_map, List.map_cons, List.filter_cons_of_pos (by simp), List.filter_eq_nil_iff.2]
      · rfl
      · intro x hx
        simp only [List.map_map, List.mem_map, List.mem_range] at hx
        obtain ⟨j, hj, rfl⟩ := hx
        simp [Nat.mod_eq_of_lt (Nat.succ_lt_succ hj)]
    rw [Nat.succ_mul, List.range_add, List.filter_append, ih, hlast, List.range_succ, List.map_append]; rfl

/-- The step of 2 ^ k joins the neighbours among the lanes 2 ^ k apart. -/
theorem redNext_mul (c : Combine) (k : Nat) (val : Nat → Option Nat) (i : Nat) :
    redNext c k val (i * 2 ^ (k + 1)) = (redJoin c (val (2 * i * 2 ^ k)) (val ((2 * i + 1) * 2 ^ k))).1 := by
  rw [redNext, if_pos (Nat.mul_mod_left _ _)]; ring_nf

theorem redFlags_mul (c : Combine) (n k : Nat) (val : Nat → Option Nat) :
    redFlags c (n * 2 ^ (k + 1)) k val
      = anyFlags ((List.range n).map fun i => (redJoin c (val (2 * i * 2 ^ k)) (val ((2 * i + 1) * 2 ^ k))).2) := by
  rw [redFlags, filter_multiples (Nat.two_pow_pos _), List.map_map]
  congr 2; funext i
  simp only [Function.comp]; ring_nf

/-- The tree over 2 ^ m lanes, 2 ^ k apart, is the m steps of R148 from step k; more levels change nothing. -/
theorem treeReduce_eq_redSteps (c : Combine) (r m k : Nat) (val : Nat → Option Nat) :
    treeReduce c (m + r) ((List.range (2 ^ m)).map fun i => val (i * 2 ^ k))
      = ((redSteps c (2 ^ (m + k)) k m val 0).1.getD 0, (redSteps c (2 ^ (m + k)) k m val 0).2) := by
  induction m generalizing k val with
  | zero => simp [redSteps, treeReduce_singleton]
  | succ m ih =>
    have hlevel : treeLevel c ((List.range (2 ^ (m + 1))).map fun i => val (i * 2 ^ k))
        = ((List.range (2 ^ m)).map fun i => redNext c k val (i * 2 ^ (k + 1)), redFlags c (2 ^ m * 2 ^ (k + 1)) k val) := by
      rw [pow_succ, mul_comm, treeLevel_range, redFlags_mul]; simp only [redNext_mul]
    rw [Nat.add_right_comm, treeReduce, hlevel]
    dsimp only
    rw [ih, redSteps_succ, redSteps_flags c _ m _ _ (0 ||| _), Nat.add_right_comm m 1 k, Nat.add_assoc m k 1, pow_add]
    simp

/-- LRED's tree of six levels in a group of a width of R22, whatever lanes are issued (R148). -/
theorem treeReduce_lanes (f n m : Nat) (hm : m ≤ 6) (hn : n = 2 ^ m) {val : Nat → Option Nat} (hv : ∀ j, ∀ x ∈ val j, CombineFits f x) :
    treeReduce (redCombine f) 6 ((upto 0 n).map val)
      = ((redSteps (specCombine f) n 0 (Nat.log2 n) val 0).1.getD 0, (redSteps (specCombine f) n 0 (Nat.log2 n) val 0).2) := by
  obtain ⟨r, hr⟩ := Nat.exists_eq_add_of_le hm
  have h := treeReduce_eq_redSteps (redCombine f) r m 0 val
  simp only [pow_zero, mul_one, Nat.add_zero] at h
  rw [hn, hr, upto_eq, ← List.range_eq_range', Nat.log2_two_pow, h,
    redSteps_congr (fun x y hx hy => redCombine_eq hx hy) _ _ _ hv]

-- The lanes that LRED and LSCAN read.

/-- What LRED reads of lane j of a group: nothing where it is not issued (R148). -/
def State.redLane (s : State) (f : BitVec 4) (g n j : Nat) : Option Nat :=
  ((s.issuedOf g).find? fun k => (s.thr k).idx == j).map fun k => s.intSrc k false (f == 11 || f == 12) n

/-- What the steps of R148 leave in lane 0 of a group, and the flags that they raise. -/
def State.redResult (s : State) (f : BitVec 4) (g n : Nat) : Option Nat × Flags :=
  redSteps (specCombine f.toNat) (s.grp g).width 0 (Nat.log2 (s.grp g).width) (s.redLane f g n) 0

theorem combineFits_redLane (s : State) (f : BitVec 4) (g n j : Nat) : ∀ x ∈ s.redLane f g n j, CombineFits f.toNat x := by
  intro x hx hf
  have hw : ∀ f : BitVec 4, f.toNat < 8 → (f == 11 || f == 12) = false := by decide
  obtain ⟨k, -, rfl⟩ := Option.mem_map.1 hx
  rw [hw f hf]; exact intSrc_lt s k false false n

/-- The tree of LRED over a group's lanes gives the result of the steps of R148. -/
theorem treeReduce_laneAt {s : State} (hg : s.GroupsInOrder) {e : Nat × Nat} (he : e ∈ s.issueGroups) (f : BitVec 4) (n : Nat) :
    treeReduce (redCombine f.toNat) 6
        ((upto 0 (s.grp e.1).width).map fun i => (s.laneAt (s.issuedOf e.1) i).map fun k => s.intSrc k false (f == 11 || f == 12) n)
      = ((s.redResult f e.1 n).1.getD 0, (s.redResult f e.1 n).2) := by
  obtain ⟨m, hm, hw⟩ := hg.1 e he
  simp only [State.laneAt, firstThat_eq]
  exact treeReduce_lanes f.toNat _ m hm hw (combineFits_redLane s f e.1 n)

/-- What LSCAN reads of the lanes of a list: those that are not issued are left out (R149). -/
theorem scanned_eq (s : State) (g n : Nat) (l : List Nat) :
    (l.filterMap fun i => (s.laneAt (s.issuedOf g) i).map fun m => s.intSrc m false false n)
      = (l.filterMap fun i => ((s.issuedOf g).find? fun m => (s.thr m).idx == i).map fun m => s.v m n).map BitVec.toNat := by
  rw [List.map_filterMap]
  refine List.filterMap_congr fun i _ => ?_
  rw [Option.map_map, State.laneAt, firstThat_eq]; rfl

/-- Combining numbers in order is combining words in order. -/
theorem foldl_intCombine (f : Nat) (r : List Word) (x : Word) :
    (r.map BitVec.toNat).foldl (intCombine f) x.toNat = (r.foldl (bvCombine f) x).toNat := by
  rw [List.foldl_map]
  exact List.foldl_hom BitVec.toNat fun x y => intCombine_toNat f x y

/-- Settles O17: the tree gives what the steps of R148 leave, whose flags trap in no thread, and a scan combines words in lane order. -/
theorem reductionsAndScansCombineInTheirOrder : Obligations.ReductionsAndScansCombineInTheirOrder := by
  refine ⟨fun s f d a b => ⟨?_, fun hg hs he => ?_⟩, fun s e f d a b => ⟨?_, fun _ hp => ?_⟩⟩
  · rw [decode_lred, keepWf_ite]
    exact if_congr (by simp only [Instr.wf, decide_eq_true_eq]; exact and_comm) rfl rfl
  · intro wide hp res
    rw [exec_lred, execLred]
    refine issueFp_of hp hs ?_ fun x hx => ?_
    · simp only [State.laneSets, List.flatMap_map]
      refine Prod.ext (congrArg (s.fixed 6) (List.flatMap_congr fun e h => ?_)) (List.flatMap_congr fun e h => ?_)
      · simp only [treeReduce_laneAt hg h]; rfl
      · simp only [treeReduce_laneAt hg h]; rfl
    · obtain ⟨e, -, hx⟩ := List.mem_flatMap.1 hx
      obtain ⟨k, hk, rfl⟩ := List.mem_map.1 hx
      exact he k (List.mem_filter.1 hk).1
  · rw [decode_lscan, keepWf_ite]
    exact if_congr (by simp only [Instr.wf, and_true]) rfl rfl
  · rw [exec_lscan, execLscan]
    refine issuePlain_laneSets hp fun g => ?_
    refine List.map_congr_left fun k _ => ?_
    have hupTo : (s.gi k + if e = 1 then 0 else 1) = if e = 1 then (s.thr k).idx else (s.thr k).idx + 1 := by
      rw [State.gi]; split <;> rfl
    simp only [hupTo, scanned_eq, upto_eq, ← List.range_eq_range']
    generalize List.filterMap _ _ = xs
    cases xs with
    | nil => simp [scanIdentity_eq]
    | cons x r => simp [foldl_intCombine]

end Sys2Proof.Machine
end

section
/-! PROOFS. The decoder reads back what the encoder writes (R111 to R117). -/

namespace Sys2Proof

/-- A field is the value that its bits make. -/
theorem bits_eq {w lo len : Nat} {f : BitVec len} (h : w / 2 ^ lo % 2 ^ len = f.toNat) : bits w lo len = f :=
  BitVec.eq_of_toNat_eq (by rw [bits, BitVec.toNat_ofNat, h])

theorem fix_iff {w lo len v : Nat} : fix w lo len v = true ↔ w / 2 ^ lo % 2 ^ len = v := beq_iff_eq

theorem toNat_encWord {opc : Nat} {r : List Nat} (ho : opc < 128) (hr : total r < 2 ^ 25) :
    (encWord opc r).toNat = opc * 2 ^ 25 + total r := by
  rw [encWord, BitVec.toNat_ofNat, Nat.mod_eq_of_lt (by omega)]

theorem toNat_encExt {r : List Nat} (hr : total r < 2 ^ 32) : (encExt r).toNat = total r := by
  rw [encExt, BitVec.toNat_ofNat, Nat.mod_eq_of_lt hr]

/-- A word with a single-word opcode decodes as `decodeOne` reads its fields. -/
theorem decode_one {opc : Nat} {r : List Nat} {i : Instr} {rest : List Word}
    (ho : opc < 128 ∧ isDouble opc = false ∧ opc ∉ [0, 1, 2, 119, 127]) (hr : total r < 2 ^ 25)
    (hi : ∀ w, w = opc * 2 ^ 25 + total r → opcOf w = opc → decodeOne w = some i) :
    decode (encWord opc r :: rest) = keepWf 1 (some i) := by
  obtain ⟨ho, hd, hn⟩ := ho
  simp only [List.mem_cons, List.not_mem_nil, or_false, not_or] at hn
  have hopc := Laws.opcOf_encWord ho hr
  simp [decode, hopc, hd, hn, hi _ (toNat_encWord ho hr) hopc]

/-- Two words with a double-word opcode decode as `decodeTwo` reads their fields. -/
theorem decode_two {opc : Nat} {r e : List Nat} {i : Instr} {rest : List Word}
    (ho : opc < 128 ∧ isDouble opc = true ∧ opc ∉ [0, 1, 2, 119, 127]) (hr : total r < 2 ^ 25) (he : total e < 2 ^ 32)
    (hi : ∀ w x, w = opc * 2 ^ 25 + total r → x = total e → opcOf w = opc → decodeTwo w x = some i) :
    decode (encWord opc r :: encExt e :: rest) = keepWf 2 (some i) := by
  obtain ⟨ho, hd, hn⟩ := ho
  simp only [List.mem_cons, List.not_mem_nil, or_false, not_or] at hn
  have hopc := Laws.opcOf_encWord ho hr
  simp [decode, hopc, hd, hn, hi _ _ (toNat_encWord ho hr) (toNat_encExt he) hopc]

/-- A word with a long immediate decodes by itself as `decodeOne` reads it, and under a LIT as `decodeLit` does (R116). -/
theorem decode_long {opc : Nat} {r : List Nat} {i : Option (BitVec 25) → Instr} (hi : Option (BitVec 25)) {rest : List Word}
    (ho : opc < 128 ∧ isDouble opc = false ∧ opc ∉ [0, 1, 2, 119, 127]) (hr : total r < 2 ^ 25)
    (h1 : ∀ w, w = opc * 2 ^ 25 + total r → opcOf w = opc → decodeOne w = some (i none) ∧ ∀ h, decodeLit h w = some (i (some h))) :
    decode (encLit hi ++ [encWord opc r] ++ rest) = keepWf (encLit hi ++ [encWord opc r]).length (some (i hi)) := by
  cases hi with
  | none => exact decode_one ho hr fun w hw hopc => (h1 w hw hopc).1
  | some h =>
    have hl : total [at_ h 0] < 2 ^ 25 := by simp only [total, at_]; omega
    have hh : bits (encWord 2 [at_ h 0]).toNat 0 25 = h := bits_eq (by rw [toNat_encWord (by decide) hl]; simp only [total, at_]; omega)
    have h2 := (h1 _ (toNat_encWord ho.1 hr) (Laws.opcOf_encWord ho.1 hr)).2 h
    simp [encLit, decode, Laws.opcOf_encWord (opc := 2) (by decide) hl, hh, h2]


theorem decode_encode_of_block_0 {i : Instr} (hi : Laws.opcodeOf i / 8 = 0) (he : encode i ≠ []) (rest : List Word) :
    decode (encode i ++ rest) = keepWf (encode i).length (some i) := by
  cases i with
  | nop =>
    refine decode_one (by decide) (by simp only [total, at_]; omega) fun w hw ho => ?_
    simp only [total, at_] at hw
    rw [decodeOne, ho]
    refine (if_pos ?_).trans (congrArg some ?_)
    · simp only [fix_iff]; omega
    rfl
  | add | sub | mul =>
    refine decode_one (by decide) (by simp only [total, at_]; omega) fun w hw ho => ?_
    simp only [total, at_] at hw
    rw [decodeOne, ho]
    refine congrArg some ?_
    congr 1 <;> exact bits_eq (by omega)
  | addi d a i hl =>
    refine decode_long (i := .addi d a i) hl (by decide) ?_ fun w hw ho => ?_
    · simp only [total, at_]; omega
    simp only [total, at_] at hw
    rw [decodeOne, ho]
    refine ⟨congrArg some ?_, fun h => ?_⟩
    · congr 1 <;> exact bits_eq (by omega)
    · rw [decodeLit, ho]
      refine congrArg some ?_
      congr 1 <;> exact bits_eq (by omega)
  | powerOn | bootStepWatchdog | heartbeatTick | sleepWake | balancerInterval | i3cRefresh | pickerDecision | runIssue
    | resultLands | teamPlace | handoverComplete | teamFinishComplete | barrierRelease | publicationComplete
    | fencescComplete | bankAluBinUpdate | lutldLoadBegin | lutldLoadComplete | copyCmdIssue | copyCmdComplete
    | ccopyComplete | tapeSyncComplete | pipelineResident | coreSave | coreRestore | torcStep | torcChunkArrival
    | torcAbortReceive | collTimeout | poolTimeout | detCommit | hostCxlMemAccess | hostSnoop | eccUncorrectable
    | meshLinkError | hostPortDown | hostPortRetrained | hostRetrainTimeout | ualinkPortDown | poolPortDown
    | mailboxWatchdog | overrunClear | mailboxWrite | ident | resync | ctxnew | ctxdel | resume | ctxmapDieShared
    | ctxmapQueueBind | ctxmapCounters | ctxmapSemGrant | ctxmapInvalidate | cmdstart | cmdstop | preempt | poolcfg
    | attest | measureRead | measureExtend | fwlog | degrade | reset | submit | msixVectorUnmask => exact absurd rfl he
  | _ => exact absurd hi (by dsimp only [Laws.opcodeOf]; decide)

theorem decode_encode_of_block_1 {i : Instr} (hi : Laws.opcodeOf i / 8 = 1) (he : encode i ≠ []) (rest : List Word) :
    decode (encode i ++ rest) = keepWf (encode i).length (some i) := by
  cases i with
  | mulh | mad | and | or | xor =>
    refine decode_one (by decide) (by simp only [total, at_]; omega) fun w hw ho => ?_
    simp only [total, at_] at hw
    rw [decodeOne, ho]
    refine congrArg some ?_
    congr 1 <;> exact bits_eq (by omega)
  | andi d a i hl =>
    refine decode_long (i := .andi d a i) hl (by decide) ?_ fun w hw ho => ?_
    · simp only [total, at_]; omega
    simp only [total, at_] at hw
    rw [decodeOne, ho]
    refine ⟨congrArg some ?_, fun h => ?_⟩
    · congr 1 <;> exact bits_eq (by omega)
    · rw [decodeLit, ho]
      refine congrArg some ?_
      congr 1 <;> exact bits_eq (by omega)
  | ori d a i hl =>
    refine decode_long (i := .ori d a i) hl (by decide) ?_ fun w hw ho => ?_
    · simp only [total, at_]; omega
    simp only [total, at_] at hw
    rw [decodeOne, ho]
    refine ⟨congrArg some ?_, fun h => ?_⟩
    · congr 1 <;> exact bits_eq (by omega)
    · rw [decodeLit, ho]
      refine congrArg some ?_
      congr 1 <;> exact bits_eq (by omega)
  | xori d a i hl =>
    refine decode_long (i := .xori d a i) hl (by decide) ?_ fun w hw ho => ?_
    · simp only [total, at_]; omega
    simp only [total, at_] at hw
    rw [decodeOne, ho]
    refine ⟨congrArg some ?_, fun h => ?_⟩
    · congr 1 <;> exact bits_eq (by omega)
    · rw [decodeLit, ho]
      refine congrArg some ?_
      congr 1 <;> exact bits_eq (by omega)
  | _ => exact absurd hi (by dsimp only [Laws.opcodeOf]; decide)

theorem decode_encode_of_block_2 {i : Instr} (hi : Laws.opcodeOf i / 8 = 2) (he : encode i ≠ []) (rest : List Word) :
    decode (encode i ++ rest) = keepWf (encode i).length (some i) := by
  cases i with
  | bfi | bitc | min =>
    refine decode_one (by decide) (by simp only [total, at_]; omega) fun w hw ho => ?_
    simp only [total, at_] at hw
    rw [decodeOne, ho]
    refine (if_pos ?_).trans (congrArg some ?_)
    · simp only [fix_iff, Bool.and_eq_true]; omega
    congr 1 <;> exact bits_eq (by omega)
  | shl | shr | sar | rot | bfx =>
    refine decode_one (by decide) (by simp only [total, at_]; omega) fun w hw ho => ?_
    simp only [total, at_] at hw
    rw [decodeOne, ho]
    refine congrArg some ?_
    congr 1 <;> exact bits_eq (by omega)
  | max =>
    refine decode_one (by decide) (by simp only [total, at_]; omega) fun w hw ho => ?_
    simp only [total, at_] at hw
    rw [decodeOne, ho]
    refine (if_neg ?_).trans ((if_pos ?_).trans (congrArg some ?_))
    · simp only [fix_iff]; omega
    · simp only [fix_iff]; omega
    congr 1 <;> exact bits_eq (by omega)
  | _ => exact absurd hi (by dsimp only [Laws.opcodeOf]; decide)

theorem decode_encode_of_block_3 {i : Instr} (hi : Laws.opcodeOf i / 8 = 3) (he : encode i ≠ []) (rest : List Word) :
    decode (encode i ++ rest) = keepWf (encode i).length (some i) := by
  cases i with
  | cmp | mov | lea =>
    refine decode_one (by decide) (by simp only [total, at_]; omega) fun w hw ho => ?_
    simp only [total, at_] at hw
    rw [decodeOne, ho]
    refine (if_pos ?_).trans (congrArg some ?_)
    · simp only [fix_iff, Bool.and_eq_true]; omega
    congr 1 <;> exact bits_eq (by omega)
  | sel | div | rem =>
    refine decode_one (by decide) (by simp only [total, at_]; omega) fun w hw ho => ?_
    simp only [total, at_] at hw
    rw [decodeOne, ho]
    refine congrArg some ?_
    congr 1 <;> exact bits_eq (by omega)
  | cmpi c p a i hl =>
    refine decode_long (i := .cmpi c p a i) hl (by decide) ?_ fun w hw ho => ?_
    · simp only [total, at_]; omega
    simp only [total, at_] at hw
    rw [decodeOne, ho]
    refine ⟨congrArg some ?_, fun h => ?_⟩
    · congr 1 <;> exact bits_eq (by omega)
    · rw [decodeLit, ho]
      refine congrArg some ?_
      congr 1 <;> exact bits_eq (by omega)
  | leaLs =>
    refine decode_one (by decide) (by simp only [total, at_]; omega) fun w hw ho => ?_
    simp only [total, at_] at hw
    rw [decodeOne, ho]
    refine (if_neg ?_).trans ((if_pos ?_).trans (congrArg some ?_))
    · simp only [fix_iff, Bool.and_eq_true]; omega
    · simp only [fix_iff, Bool.and_eq_true]; omega
    congr 1 <;> exact bits_eq (by omega)
  | movi d u w i hl =>
    refine decode_long (i := .movi d u w i) hl (by decide) ?_ fun w hw ho => ?_
    · simp only [total, at_]; omega
    simp only [total, at_] at hw
    have hz : fix w 13 5 0 = true := by rw [fix_iff]; omega
    rw [decodeOne, ho]
    refine ⟨(if_pos hz).trans (congrArg some ?_), fun h => ?_⟩
    · congr 1 <;> exact bits_eq (by omega)
    · rw [decodeLit, ho]
      refine (if_pos hz).trans (congrArg some ?_)
      congr 1 <;> exact bits_eq (by omega)
  | _ => exact absurd hi (by dsimp only [Laws.opcodeOf]; decide)

theorem decode_encode_of_block_4 {i : Instr} (hi : Laws.opcodeOf i / 8 = 4) (he : encode i ≠ []) (rest : List Word) :
    decode (encode i ++ rest) = keepWf (encode i).length (some i) := by
  cases i with
  | plog | bri | calli | ret | exit | yield =>
    refine decode_one (by decide) (by simp only [total, at_]; omega) fun w hw ho => ?_
    simp only [total, at_] at hw
    rw [decodeOne, ho]
    refine (if_pos ?_).trans (congrArg some ?_)
    · simp only [fix_iff, Bool.and_eq_true]; omega
    congr 1 <;> exact bits_eq (by omega)
  | br | call =>
    refine decode_one (by decide) (by simp only [total, at_]; omega) fun w hw ho => ?_
    simp only [total, at_] at hw
    rw [decodeOne, ho]
    refine congrArg some ?_
    congr 1 <;> exact bits_eq (by omega)
  | _ => exact absurd hi (by dsimp only [Laws.opcodeOf]; decide)

theorem decode_encode_of_block_5 {i : Instr} (hi : Laws.opcodeOf i / 8 = 5) (he : encode i ≠ []) (rest : List Word) :
    decode (encode i ++ rest) = keepWf (encode i).length (some i) := by
  cases i with
  | winb | lrot | lred | lscan | vote | lmatch =>
    refine decode_one (by decide) (by simp only [total, at_]; omega) fun w hw ho => ?_
    simp only [total, at_] at hw
    rw [decodeOne, ho]
    refine (if_pos ?_).trans (congrArg some ?_)
    · simp only [fix_iff, Bool.and_eq_true]; omega
    congr 1 <;> exact bits_eq (by omega)
  | lshuf | lpush =>
    refine decode_one (by decide) (by simp only [total, at_]; omega) fun w hw ho => ?_
    simp only [total, at_] at hw
    rw [decodeOne, ho]
    refine congrArg some ?_
    congr 1 <;> exact bits_eq (by omega)
  | _ => exact absurd hi (by dsimp only [Laws.opcodeOf]; decide)

theorem decode_encode_of_block_6 {i : Instr} (hi : Laws.opcodeOf i / 8 = 6) (he : encode i ≠ []) (rest : List Word) :
    decode (encode i ++ rest) = keepWf (encode i).length (some i) := by
  cases i with
  | fmin | fcmp =>
    refine decode_one (by decide) (by simp only [total, at_]; omega) fun w hw ho => ?_
    simp only [total, at_] at hw
    rw [decodeOne, ho]
    refine (if_pos ?_).trans (congrArg some ?_)
    · simp only [fix_iff]; omega
    congr 1 <;> exact bits_eq (by omega)
  | fadd | fsub | fmul | ffma | ffmat =>
    refine decode_one (by decide) (by simp only [total, at_]; omega) fun w hw ho => ?_
    simp only [total, at_] at hw
    rw [decodeOne, ho]
    refine congrArg some ?_
    congr 1 <;> exact bits_eq (by omega)
  | fmax =>
    refine decode_one (by decide) (by simp only [total, at_]; omega) fun w hw ho => ?_
    simp only [total, at_] at hw
    rw [decodeOne, ho]
    refine (if_neg ?_).trans ((if_pos ?_).trans (congrArg some ?_))
    · simp only [fix_iff]; omega
    · simp only [fix_iff]; omega
    congr 1 <;> exact bits_eq (by omega)
  | fcvt =>
    refine decode_two (by decide) (by simp only [total, at_]; omega) (by simp only [total, at_]; omega) fun w x hw hx ho => ?_
    simp only [total, at_] at hw hx
    rw [decodeTwo, ho]
    refine (if_pos ?_).trans (congrArg some ?_)
    · simp only [fix_iff, Bool.and_eq_true]; omega
    congr 1 <;> exact bits_eq (by omega)
  | _ => exact absurd hi (by dsimp only [Laws.opcodeOf]; decide)

theorem decode_encode_of_block_7 {i : Instr} (hi : Laws.opcodeOf i / 8 = 7) (he : encode i ≠ []) (rest : List Word) :
    decode (encode i ++ rest) = keepWf (encode i).length (some i) := by
  cases i with
  | frnd | fsqrt | fsfu | fclass | lut =>
    refine decode_one (by decide) (by simp only [total, at_]; omega) fun w hw ho => ?_
    simp only [total, at_] at hw
    rw [decodeOne, ho]
    refine (if_pos ?_).trans (congrArg some ?_)
    · simp only [fix_iff, Bool.and_eq_true]; omega
    congr 1 <;> exact bits_eq (by omega)
  | fdiv | fsgn =>
    refine decode_one (by decide) (by simp only [total, at_]; omega) fun w hw ho => ?_
    simp only [total, at_] at hw
    rw [decodeOne, ho]
    refine congrArg some ?_
    congr 1 <;> exact bits_eq (by omega)
  | lutld =>
    refine decode_two (by decide) (by simp only [total, at_]; omega) (by simp only [total, at_]; omega) fun w x hw hx ho => ?_
    simp only [total, at_] at hw hx
    rw [decodeTwo, ho]
    refine (if_pos ?_).trans (congrArg some ?_)
    · simp only [fix_iff, Bool.and_eq_true]; omega
    congr 1 <;> exact bits_eq (by omega)
  | _ => exact absurd hi (by dsimp only [Laws.opcodeOf]; decide)

theorem decode_encode_of_block_8 {i : Instr} (hi : Laws.opcodeOf i / 8 = 8) (he : encode i ≠ []) (rest : List Word) :
    decode (encode i ++ rest) = keepWf (encode i).length (some i) := by
  cases i with
  | ld | st | lds | sts | ldx | stx =>
    refine decode_one (by decide) (by simp only [total, at_]; omega) fun w hw ho => ?_
    simp only [total, at_] at hw
    rw [decodeOne, ho]
    refine (if_pos ?_).trans (congrArg some ?_)
    · simp only [fix_iff]; omega
    congr 1 <;> exact bits_eq (by omega)
  | atom | acas =>
    refine decode_two (by decide) (by simp only [total, at_]; omega) (by simp only [total, at_]; omega) fun w x hw hx ho => ?_
    simp only [total, at_] at hw hx
    rw [decodeTwo, ho]
    refine (if_pos ?_).trans (congrArg some ?_)
    · simp only [fix_iff, Bool.and_eq_true]; omega
    congr 1 <;> exact bits_eq (by omega)
  | _ => exact absurd hi (by dsimp only [Laws.opcodeOf]; decide)

theorem decode_encode_of_block_9 {i : Instr} (hi : Laws.opcodeOf i / 8 = 9) (he : encode i ≠ []) (rest : List Word) :
    decode (encode i ++ rest) = keepWf (encode i).length (some i) := by
  cases i with
  | phase | fencesc | gadv | barSync | slwait =>
    refine decode_one (by decide) (by simp only [total, at_]; omega) fun w hw ho => ?_
    simp only [total, at_] at hw
    rw [decodeOne, ho]
    refine (if_pos ?_).trans (congrArg some ?_)
    · simp only [fix_iff, Bool.and_eq_true]; omega
    congr 1 <;> exact bits_eq (by omega)
  | phasePub | gget | barArrive | slrel =>
    refine decode_one (by decide) (by simp only [total, at_]; omega) fun w hw ho => ?_
    simp only [total, at_] at hw
    rw [decodeOne, ho]
    refine (if_neg ?_).trans ((if_pos ?_).trans (congrArg some ?_))
    · simp only [fix_iff, Bool.and_eq_true]; omega
    · simp only [fix_iff, Bool.and_eq_true]; omega
    congr 1 <;> exact bits_eq (by omega)
  | phaseAcq | gptr | barWait | slfree =>
    refine decode_one (by decide) (by simp only [total, at_]; omega) fun w hw ho => ?_
    simp only [total, at_] at hw
    rw [decodeOne, ho]
    refine (if_neg ?_).trans ((if_neg ?_).trans ((if_pos ?_).trans (congrArg some ?_)))
    · simp only [fix_iff, Bool.and_eq_true]; omega
    · simp only [fix_iff, Bool.and_eq_true]; omega
    · simp only [fix_iff, Bool.and_eq_true]; omega
    congr 1 <;> exact bits_eq (by omega)
  | slcommit =>
    refine decode_one (by decide) (by simp only [total, at_]; omega) fun w hw ho => ?_
    simp only [total, at_] at hw
    rw [decodeOne, ho]
    refine (if_neg ?_).trans ((if_neg ?_).trans ((if_neg ?_).trans ((if_pos ?_).trans (congrArg some ?_))))
    · simp only [fix_iff, Bool.and_eq_true]; omega
    · simp only [fix_iff]; omega
    · simp only [fix_iff, Bool.and_eq_true]; omega
    · simp only [fix_iff]; omega
    congr 1 <;> exact bits_eq (by omega)
  | fatom | gadd | gset =>
    refine decode_two (by decide) (by simp only [total, at_]; omega) (by simp only [total, at_]; omega) fun w x hw hx ho => ?_
    simp only [total, at_] at hw hx
    rw [decodeTwo, ho]
    refine (if_pos ?_).trans (congrArg some ?_)
    · simp only [fix_iff, Bool.and_eq_true]; omega
    congr 1 <;> exact bits_eq (by omega)
  | _ => exact absurd hi (by dsimp only [Laws.opcodeOf]; decide)

theorem decode_encode_of_block_10 {i : Instr} (hi : Laws.opcodeOf i / 8 = 10) (he : encode i ≠ []) (rest : List Word) :
    decode (encode i ++ rest) = keepWf (encode i).length (some i) := by
  cases i with
  | accrd =>
    refine decode_one (by decide) (by simp only [total, at_]; omega) fun w hw ho => ?_
    simp only [total, at_] at hw
    rw [decodeOne, ho]
    refine (if_pos ?_).trans (congrArg some ?_)
    · simp only [fix_iff, Bool.and_eq_true]; omega
    congr 1 <;> exact bits_eq (by omega)
  | mmq | accz | accdr | accsvSave | tld | tst | binctlDecl =>
    refine decode_two (by decide) (by simp only [total, at_]; omega) (by simp only [total, at_]; omega) fun w x hw hx ho => ?_
    simp only [total, at_] at hw hx
    rw [decodeTwo, ho]
    refine (if_pos ?_).trans (congrArg some ?_)
    · simp only [fix_iff, Bool.and_eq_true]; omega
    congr 1 <;> exact bits_eq (by omega)
  | accsvLoad | binctlFin =>
    refine decode_two (by decide) (by simp only [total, at_]; omega) (by simp only [total, at_]; omega) fun w x hw hx ho => ?_
    simp only [total, at_] at hw hx
    rw [decodeTwo, ho]
    refine (if_neg ?_).trans ((if_pos ?_).trans (congrArg some ?_))
    · simp only [fix_iff, Bool.and_eq_true]; omega
    · simp only [fix_iff, Bool.and_eq_true]; omega
    congr 1 <;> exact bits_eq (by omega)
  | binctlFinclr =>
    refine decode_two (by decide) (by simp only [total, at_]; omega) (by simp only [total, at_]; omega) fun w x hw hx ho => ?_
    simp only [total, at_] at hw hx
    rw [decodeTwo, ho]
    refine (if_neg ?_).trans ((if_neg ?_).trans ((if_pos ?_).trans (congrArg some ?_)))
    · simp only [fix_iff, Bool.and_eq_true]; omega
    · simp only [fix_iff, Bool.and_eq_true]; omega
    · simp only [fix_iff, Bool.and_eq_true]; omega
    congr 1 <;> exact bits_eq (by omega)
  | binctlFree =>
    refine decode_two (by decide) (by simp only [total, at_]; omega) (by simp only [total, at_]; omega) fun w x hw hx ho => ?_
    simp only [total, at_] at hw hx
    rw [decodeTwo, ho]
    refine (if_neg ?_).trans ((if_neg ?_).trans ((if_neg ?_).trans ((if_pos ?_).trans (congrArg some ?_))))
    · simp only [fix_iff, Bool.and_eq_true]; omega
    · simp only [fix_iff, Bool.and_eq_true]; omega
    · simp only [fix_iff, Bool.and_eq_true]; omega
    · simp only [fix_iff, Bool.and_eq_true]; omega
    congr 1 <;> exact bits_eq (by omega)
  | _ => exact absurd hi (by dsimp only [Laws.opcodeOf]; decide)

theorem decode_encode_of_block_11 {i : Instr} (hi : Laws.opcodeOf i / 8 = 11) (he : encode i ≠ []) (rest : List Word) :
    decode (encode i ++ rest) = keepWf (encode i).length (some i) := by
  cases i with
  | rrecDim =>
    refine decode_one (by decide) (by simp only [total, at_]; omega) fun w hw ho => ?_
    simp only [total, at_] at hw
    rw [decodeOne, ho]
    refine (if_pos ?_).trans (congrArg some ?_)
    · simp only [fix_iff]; omega
    congr 1 <;> exact bits_eq (by omega)
  | rrecFmt =>
    refine decode_one (by decide) (by simp only [total, at_]; omega) fun w hw ho => ?_
    simp only [total, at_] at hw
    rw [decodeOne, ho]
    refine (if_neg ?_).trans ((if_pos ?_).trans (congrArg some ?_))
    · simp only [fix_iff]; omega
    · simp only [fix_iff, Bool.and_eq_true]; omega
    congr 1 <;> exact bits_eq (by omega)
  | rrecInv =>
    refine decode_one (by decide) (by simp only [total, at_]; omega) fun w hw ho => ?_
    simp only [total, at_] at hw
    rw [decodeOne, ho]
    refine (if_neg ?_).trans ((if_neg ?_).trans ((if_pos ?_).trans (congrArg some ?_)))
    · simp only [fix_iff]; omega
    · simp only [fix_iff, Bool.and_eq_true]; omega
    · simp only [fix_iff]; omega
    congr 1 <;> exact bits_eq (by omega)
  | rast | rastg | edgs | tex | texg | texl | texb =>
    refine decode_two (by decide) (by simp only [total, at_]; omega) (by simp only [total, at_]; omega) fun w x hw hx ho => ?_
    simp only [total, at_] at hw hx
    rw [decodeTwo, ho]
    refine (if_pos ?_).trans (congrArg some ?_)
    · simp only [fix_iff, Bool.and_eq_true]; omega
    congr 1 <;> exact bits_eq (by omega)
  | _ => exact absurd hi (by dsimp only [Laws.opcodeOf]; decide)

theorem decode_encode_of_block_12 {i : Instr} (hi : Laws.opcodeOf i / 8 = 12) (he : encode i ≠ []) (rest : List Word) :
    decode (encode i ++ rest) = keepWf (encode i).length (some i) := by
  cases i with
  | rqproc | rqcand | rqcommit | rqabort | rqres =>
    refine decode_one (by decide) (by simp only [total, at_]; omega) fun w hw ho => ?_
    simp only [total, at_] at hw
    rw [decodeOne, ho]
    refine (if_pos ?_).trans (congrArg some ?_)
    · simp only [fix_iff, Bool.and_eq_true]; omega
    congr 1 <;> exact bits_eq (by omega)
  | rqinit | rqgrad | rqtri =>
    refine decode_two (by decide) (by simp only [total, at_]; omega) (by simp only [total, at_]; omega) fun w x hw hx ho => ?_
    simp only [total, at_] at hw hx
    rw [decodeTwo, ho]
    refine (if_pos ?_).trans (congrArg some ?_)
    · simp only [fix_iff, Bool.and_eq_true]; omega
    congr 1 <;> exact bits_eq (by omega)
  | _ => exact absurd hi (by dsimp only [Laws.opcodeOf]; decide)

theorem decode_encode_of_block_13 {i : Instr} (hi : Laws.opcodeOf i / 8 = 13) (he : encode i ≠ []) (rest : List Word) :
    decode (encode i ++ rest) = keepWf (encode i).length (some i) := by
  cases i with
  | trec | tpop | tmarkOpen | tctlBind | rsvupd | rsvmrg | rsvinit | clove =>
    refine decode_one (by decide) (by simp only [total, at_]; omega) fun w hw ho => ?_
    simp only [total, at_] at hw
    rw [decodeOne, ho]
    refine (if_pos ?_).trans (congrArg some ?_)
    · simp only [fix_iff, Bool.and_eq_true]; omega
    congr 1 <;> exact bits_eq (by omega)
  | tmarkClose | tctlStat | rsvfin =>
    refine decode_one (by decide) (by simp only [total, at_]; omega) fun w hw ho => ?_
    simp only [total, at_] at hw
    rw [decodeOne, ho]
    refine (if_neg ?_).trans ((if_pos ?_).trans (congrArg some ?_))
    · simp only [fix_iff, Bool.and_eq_true]; omega
    · simp only [fix_iff, Bool.and_eq_true]; omega
    congr 1 <;> exact bits_eq (by omega)
  | tctlSeek | rsvget =>
    refine decode_one (by decide) (by simp only [total, at_]; omega) fun w hw ho => ?_
    simp only [total, at_] at hw
    rw [decodeOne, ho]
    refine (if_neg ?_).trans ((if_neg ?_).trans ((if_pos ?_).trans (congrArg some ?_)))
    · simp only [fix_iff, Bool.and_eq_true]; omega
    · simp only [fix_iff, Bool.and_eq_true]; omega
    · simp only [fix_iff, Bool.and_eq_true]; omega
    congr 1 <;> exact bits_eq (by omega)
  | tctlSync | rsvset =>
    refine decode_one (by decide) (by simp only [total, at_]; omega) fun w hw ho => ?_
    simp only [total, at_] at hw
    rw [decodeOne, ho]
    refine (if_neg ?_).trans ((if_neg ?_).trans ((if_neg ?_).trans ((if_pos ?_).trans (congrArg some ?_))))
    · simp only [fix_iff, Bool.and_eq_true]; omega
    · simp only [fix_iff, Bool.and_eq_true]; omega
    · simp only [fix_iff, Bool.and_eq_true]; omega
    · simp only [fix_iff]; omega
    congr 1 <;> exact bits_eq (by omega)
  | _ => exact absurd hi (by dsimp only [Laws.opcodeOf]; decide)

theorem decode_encode_of_block_14 {i : Instr} (hi : Laws.opcodeOf i / 8 = 14) (he : encode i ≠ []) (rest : List Word) :
    decode (encode i ++ rest) = keepWf (encode i).length (some i) := by
  cases i with
  | tqget | depopSet | spush | spop | sctlClose =>
    refine decode_one (by decide) (by simp only [total, at_]; omega) fun w hw ho => ?_
    simp only [total, at_] at hw
    rw [decodeOne, ho]
    refine (if_pos ?_).trans (congrArg some ?_)
    · simp only [fix_iff, Bool.and_eq_true]; omega
    congr 1 <;> exact bits_eq (by omega)
  | depopAdd | sctlStat =>
    refine decode_one (by decide) (by simp only [total, at_]; omega) fun w hw ho => ?_
    simp only [total, at_] at hw
    rw [decodeOne, ho]
    refine (if_neg ?_).trans ((if_pos ?_).trans (congrArg some ?_))
    · simp only [fix_iff]; omega
    · simp only [fix_iff, Bool.and_eq_true]; omega
    congr 1 <;> exact bits_eq (by omega)
  | depopGet =>
    refine decode_one (by decide) (by simp only [total, at_]; omega) fun w hw ho => ?_
    simp only [total, at_] at hw
    rw [decodeOne, ho]
    refine (if_neg ?_).trans ((if_neg ?_).trans ((if_pos ?_).trans (congrArg some ?_)))
    · simp only [fix_iff]; omega
    · simp only [fix_iff]; omega
    · simp only [fix_iff, Bool.and_eq_true]; omega
    congr 1 <;> exact bits_eq (by omega)
  | spawn | tqadd =>
    refine decode_two (by decide) (by simp only [total, at_]; omega) (by simp only [total, at_]; omega) fun w x hw hx ho => ?_
    simp only [total, at_] at hw hx
    rw [decodeTwo, ho]
    refine (if_pos ?_).trans (congrArg some ?_)
    · simp only [fix_iff, Bool.and_eq_true]; omega
    congr 1 <;> exact bits_eq (by omega)
  | _ => exact absurd hi (by dsimp only [Laws.opcodeOf]; decide)

theorem decode_encode_of_block_15 {i : Instr} (hi : Laws.opcodeOf i / 8 = 15) (he : encode i ≠ []) (rest : List Word) :
    decode (encode i ++ rest) = keepWf (encode i).length (some i) := by
  cases i with
  | sysr | sysw | trap | icinv | sleep | fwret =>
    refine decode_one (by decide) (by simp only [total, at_]; omega) fun w hw ho => ?_
    simp only [total, at_] at hw
    rw [decodeOne, ho]
    refine (if_pos ?_).trans (congrArg some ?_)
    · simp only [fix_iff]; omega
    congr 1 <;> exact bits_eq (by omega)
  | cpxLaunch =>
    refine decode_two (by decide) (by simp only [total, at_]; omega) (by simp only [total, at_]; omega) fun w x hw hx ho => ?_
    simp only [total, at_] at hw hx
    rw [decodeTwo, ho]
    refine (if_pos ?_).trans (congrArg some ?_)
    · simp only [fix_iff, Bool.and_eq_true]; omega
    congr 1 <;> exact bits_eq (by omega)
  | cpxSemwait =>
    refine decode_two (by decide) (by simp only [total, at_]; omega) (by simp only [total, at_]; omega) fun w x hw hx ho => ?_
    simp only [total, at_] at hw hx
    rw [decodeTwo, ho]
    refine (if_neg ?_).trans ((if_pos ?_).trans (congrArg some ?_))
    · simp only [fix_iff, Bool.and_eq_true]; omega
    · simp only [fix_iff, Bool.and_eq_true]; omega
    congr 1 <;> exact bits_eq (by omega)
  | cpxSemsig =>
    refine decode_two (by decide) (by simp only [total, at_]; omega) (by simp only [total, at_]; omega) fun w x hw hx ho => ?_
    simp only [total, at_] at hw hx
    rw [decodeTwo, ho]
    refine (if_neg ?_).trans ((if_neg ?_).trans ((if_pos ?_).trans (congrArg some ?_)))
    · simp only [fix_iff, Bool.and_eq_true]; omega
    · simp only [fix_iff, Bool.and_eq_true]; omega
    · simp only [fix_iff, Bool.and_eq_true]; omega
    congr 1 <;> exact bits_eq (by omega)
  | cpxSemadd =>
    refine decode_two (by decide) (by simp only [total, at_]; omega) (by simp only [total, at_]; omega) fun w x hw hx ho => ?_
    simp only [total, at_] at hw hx
    rw [decodeTwo, ho]
    refine (if_neg ?_).trans ((if_neg ?_).trans ((if_neg ?_).trans ((if_pos ?_).trans (congrArg some ?_))))
    · simp only [fix_iff, Bool.and_eq_true]; omega
    · simp only [fix_iff, Bool.and_eq_true]; omega
    · simp only [fix_iff, Bool.and_eq_true]; omega
    · simp only [fix_iff, Bool.and_eq_true]; omega
    congr 1 <;> exact bits_eq (by omega)
  | cpxCcopy =>
    refine decode_two (by decide) (by simp only [total, at_]; omega) (by simp only [total, at_]; omega) fun w x hw hx ho => ?_
    simp only [total, at_] at hw hx
    rw [decodeTwo, ho]
    refine (if_neg ?_).trans ((if_neg ?_).trans ((if_neg ?_).trans ((if_neg ?_).trans ((if_pos ?_).trans (congrArg some ?_)))))
    · simp only [fix_iff, Bool.and_eq_true]; omega
    · simp only [fix_iff, Bool.and_eq_true]; omega
    · simp only [fix_iff, Bool.and_eq_true]; omega
    · simp only [fix_iff, Bool.and_eq_true]; omega
    · simp only [fix_iff, Bool.and_eq_true]; omega
    congr 1 <;> exact bits_eq (by omega)
  | cpxIrq =>
    refine decode_two (by decide) (by simp only [total, at_]; omega) (by simp only [total, at_]; omega) fun w x hw hx ho => ?_
    simp only [total, at_] at hw hx
    rw [decodeTwo, ho]
    refine (if_neg ?_).trans ((if_neg ?_).trans ((if_neg ?_).trans ((if_neg ?_).trans ((if_neg ?_).trans ((if_pos ?_).trans (congrArg some ?_))))))
    · simp only [fix_iff, Bool.and_eq_true]; omega
    · simp only [fix_iff, Bool.and_eq_true]; omega
    · simp only [fix_iff, Bool.and_eq_true]; omega
    · simp only [fix_iff, Bool.and_eq_true]; omega
    · simp only [fix_iff, Bool.and_eq_true]; omega
    · simp only [fix_iff, Bool.and_eq_true]; omega
    congr 1 <;> exact bits_eq (by omega)
  | cpxChalt =>
    refine decode_two (by decide) (by simp only [total, at_]; omega) (by simp only [total, at_]; omega) fun w x hw hx ho => ?_
    simp only [total, at_] at hw hx
    rw [decodeTwo, ho]
    refine (if_neg ?_).trans ((if_neg ?_).trans ((if_neg ?_).trans ((if_neg ?_).trans ((if_neg ?_).trans ((if_neg ?_).trans ((if_pos ?_).trans (congrArg some ?_)))))))
    · simp only [fix_iff, Bool.and_eq_true]; omega
    · simp only [fix_iff, Bool.and_eq_true]; omega
    · simp only [fix_iff, Bool.and_eq_true]; omega
    · simp only [fix_iff, Bool.and_eq_true]; omega
    · simp only [fix_iff, Bool.and_eq_true]; omega
    · simp only [fix_iff, Bool.and_eq_true]; omega
    · simp only [fix_iff, Bool.and_eq_true]; omega
    congr 1 <;> exact bits_eq (by omega)
  | _ => exact absurd hi (by dsimp only [Laws.opcodeOf]; decide)

theorem opcodeOf_lt (i : Instr) : Laws.opcodeOf i < 128 := by
  cases i <;> (dsimp only [Laws.opcodeOf]; decide)

/-- Decoding the encoding of an instruction word reads its fields back; what is left to check is whether they are reserved. -/
theorem decode_encode {i : Instr} (he : encode i ≠ []) (rest : List Word) :
    decode (encode i ++ rest) = keepWf (encode i).length (some i) := by
  have hlt : Laws.opcodeOf i / 8 < 16 := Nat.div_lt_of_lt_mul (opcodeOf_lt i)
  interval_cases hi : Laws.opcodeOf i / 8
  · exact decode_encode_of_block_0 hi he rest
  · exact decode_encode_of_block_1 hi he rest
  · exact decode_encode_of_block_2 hi he rest
  · exact decode_encode_of_block_3 hi he rest
  · exact decode_encode_of_block_4 hi he rest
  · exact decode_encode_of_block_5 hi he rest
  · exact decode_encode_of_block_6 hi he rest
  · exact decode_encode_of_block_7 hi he rest
  · exact decode_encode_of_block_8 hi he rest
  · exact decode_encode_of_block_9 hi he rest
  · exact decode_encode_of_block_10 hi he rest
  · exact decode_encode_of_block_11 hi he rest
  · exact decode_encode_of_block_12 hi he rest
  · exact decode_encode_of_block_13 hi he rest
  · exact decode_encode_of_block_14 hi he rest
  · exact decode_encode_of_block_15 hi he rest

/-- Settles O1: the decoder reads every field back from where the encoder puts it, and a well-formed instruction has no reserved
field. -/
theorem decodeOfEncodeIsTheInstruction : Obligations.DecodeOfEncodeIsTheInstruction := by
  intro i rest hw he
  rw [decode_encode he, keepWf, if_pos hw]

end Sys2Proof
end
section
/-! PROOFS. What decodes encodes to the words it was read from (R111 to R119): the fields of an instruction and its reserved bits
are all the bits of its words. -/

namespace Sys2Proof

/-- The bits of a word below a place. -/
def low (w k : Nat) : Nat := w % 2 ^ k

theorem low_zero (w : Nat) : low w 0 = 0 := Nat.mod_one w

/-- A field is what the word holds below its upper end less what it holds below its lower end. -/
theorem field_low (w lo len : Nat) : ((w / 2 ^ lo % 2 ^ len * 2 ^ lo : Nat) : Int) = low w (lo + len) - low w lo := by
  have h : low w (lo + len) = low w lo + 2 ^ lo * (w / 2 ^ lo % 2 ^ len) := by rw [low, low, pow_add, Nat.mod_mul]
  rw [h]; push_cast; ring

theorem at_bits_low (w lo len : Nat) : ((at_ (bits w lo len) lo : Nat) : Int) = low w (lo + len) - low w lo := by
  rw [at_, bits, BitVec.toNat_ofNat, field_low]

theorem fix_low {w lo len v : Nat} : fix w lo len v = true ↔ (low w (lo + len) : Int) - low w lo = v * 2 ^ lo := by
  rw [fix_iff, ← field_low]
  push_cast
  have hpos : (2 : Int) ^ lo ≠ 0 := by positivity
  rw [mul_left_inj' hpos]
  norm_cast

/-- A word is its opcode and what its fields hold together, where these are all its lower bits. -/
theorem encWord_of {opc w : Nat} {r : List Nat} (hw : w < 2 ^ 32) (ho : opcOf w = opc) (h : ((total r : Nat) : Int) = low w 25) :
    encWord opc r = BitVec.ofNat 32 w := by
  have hr : total r = w % 2 ^ 25 := by exact_mod_cast h
  rw [opcOf] at ho
  rw [encWord, hr]
  congr 1
  omega

theorem encExt_of {x : Nat} {r : List Nat} (hx : x < 2 ^ 32) (h : ((total r : Nat) : Int) = low x 32) : encExt r = BitVec.ofNat 32 x := by
  have hr : total r = x % 2 ^ 32 := by exact_mod_cast h
  rw [encExt, hr, Nat.mod_eq_of_lt hx]

theorem forall_mem_of_some {α : Type} {P : α → Prop} {x : α} (h : P x) : ∀ i ∈ some x, P i := by simpa using h

theorem forall_mem_of_none {α : Type} {P : α → Prop} : ∀ i ∈ (none : Option α), P i := by simp

/-- What holds of an instruction where its condition does, and of the alternatives where it does not, holds of what a conditional
reads. -/
theorem forall_mem_of_ite {α : Type} {P : α → Prop} {c : Prop} [Decidable c] {x : α} {o : Option α} (h1 : c → P x) (h2 : ∀ i ∈ o, P i) :
    ∀ i ∈ if c then some x else o, P i := by
  split
  · exact forall_mem_of_some (h1 ‹_›)
  · exact h2

/-- A word with a single-word opcode that decodes is the encoding of what it decodes to. -/
theorem encode_of_decodeOne {w : Nat} (hw : w < 2 ^ 32) : ∀ i ∈ decodeOne w, encode i = [BitVec.ofNat 32 w] := by
  have hlt : opcOf w < 128 := Nat.mod_lt _ (by decide)
  interval_cases ho : opcOf w
  all_goals rw [decodeOne, ho]
  all_goals repeat' refine forall_mem_of_ite (fun hc => ?_) ?_
  any_goals refine forall_mem_of_some ?_
  any_goals exact forall_mem_of_none
  all_goals
    try simp only [Bool.and_eq_true, fix_low, low_zero, Nat.reduceAdd] at hc
    refine congrArg (fun a => [a]) (encWord_of hw ho ?_)
    simp only [total, Nat.cast_add, at_bits_low, low_zero, Nat.reduceAdd]
    omega

/-- Two words with a double-word opcode that decode are the encoding of what they decode to. -/
theorem encode_of_decodeTwo {w x : Nat} (hw : w < 2 ^ 32) (hx : x < 2 ^ 32) :
    ∀ i ∈ decodeTwo w x, encode i = [BitVec.ofNat 32 w, BitVec.ofNat 32 x] := by
  have hlt : opcOf w < 128 := Nat.mod_lt _ (by decide)
  interval_cases ho : opcOf w
  all_goals rw [decodeTwo, ho]
  all_goals repeat' refine forall_mem_of_ite (fun hc => ?_) ?_
  any_goals exact forall_mem_of_none
  all_goals
    simp only [Bool.and_eq_true, fix_low, low_zero, Nat.reduceAdd] at hc
    refine congrArg₂ (fun a b => [a, b]) (encWord_of hw ho ?_) (encExt_of hx ?_) <;>
      (simp only [total, Nat.cast_add, at_bits_low, low_zero, Nat.reduceAdd]; omega)

/-- A word that decodes under a LIT is, with the LIT, the encoding of what it decodes to (R116). -/
theorem encode_of_decodeLit {h : BitVec 25} {w : Nat} (hw : w < 2 ^ 32) :
    ∀ i ∈ decodeLit h w, encode i = [encWord 2 [at_ h 0], BitVec.ofNat 32 w] := by
  rw [decodeLit]
  split
  case h_7 => exact forall_mem_of_none
  case' h_6 => refine forall_mem_of_ite (fun hc => ?_) forall_mem_of_none; simp only [fix_low, Nat.reduceAdd] at hc
  case' h_1 | h_2 | h_3 | h_4 | h_5 => refine forall_mem_of_some ?_
  all_goals
    refine congrArg (fun a => [encWord 2 [at_ h 0], a]) (encWord_of hw (by assumption) ?_)
    simp only [total, Nat.cast_add, at_bits_low, low_zero, Nat.reduceAdd]
    omega

theorem keepWf_eq_ok {n m : Nat} {o : Option Instr} {i : Instr} (h : keepWf n o = .ok (i, m)) : i ∈ o ∧ i.wf = true ∧ m = n := by
  cases o with
  | none => cases h
  | some j =>
    rw [keepWf] at h
    split at h
    · cases h; exact ⟨rfl, ‹_›, rfl⟩
    · cases h

/-- Settles O2: whichever way the first word decodes, the encoding is the words read, and what decodes has passed `Instr.wf`. -/
theorem decodedWordsEncodeBack : Obligations.DecodedWordsEncodeBack := by
  intro ws i n h
  cases ws with
  | nil => cases h
  | cons w rest =>
    have hw : BitVec.ofNat 32 w.toNat = w := by simp
    simp only [decode] at h
    split at h
    · cases h
    split at h
    · next hlit =>
      cases rest with
      | nil => cases h
      | cons x rest =>
        obtain ⟨hi, hwf, rfl⟩ := keepWf_eq_ok h
        refine ⟨hwf, (encode_of_decodeLit x.isLt i hi).trans ?_⟩
        have hword : encWord 2 [at_ (bits w.toNat 0 25) 0] = w := by
          refine (encWord_of w.isLt (by simpa using hlit) ?_).trans hw
          simp only [total, Nat.cast_add, at_bits_low, low_zero, Nat.reduceAdd]
          omega
        rw [hword]; simp
    split at h
    · cases rest with
      | nil => cases h
      | cons x rest =>
        obtain ⟨hi, hwf, rfl⟩ := keepWf_eq_ok h
        refine ⟨hwf, (encode_of_decodeTwo w.isLt x.isLt i hi).trans ?_⟩
        simp
    · obtain ⟨hi, hwf, rfl⟩ := keepWf_eq_ok h
      refine ⟨hwf, (encode_of_decodeOne w.isLt i hi).trans ?_⟩
      simp
end Sys2Proof
end

section
/-! PROOFS. One step, the worked encodings, and the state after reset. -/

namespace Sys2Proof.Machine

/-- Settles O3: each worked encoding is decoded. -/
theorem workedEncodingsDecode : Obligations.WorkedEncodingsDecode := by
  refine ⟨?_, ?_, ?_, ?_, ?_, ?_, ?_, ?_, ?_, ?_, ?_⟩ <;> decide

/-- An issuer that moves before every event due acts. -/
theorem act_of_move {s : State} {clk iss : Nat} (hmove : s.firstMove = some (clk, iss)) (hdue : ∀ e ∈ s.agenda, clk < e.1) :
    s.act = s.moveIssuer clk iss := by
  rw [State.act, hmove]
  cases h : s.agenda with
  | nil => rfl
  | cons e r =>
    obtain ⟨t, e⟩ := e
    exact if_neg (not_le.2 (hdue (t, e) (by rw [h]; exact List.mem_cons_self)))

/-- The event due first acts where no issuer moves before it. -/
theorem act_of_event {s : State} {due : Nat} {e : Instr} {rest : List (Nat × Instr)} (ha : s.agenda = (due, e) :: rest)
    (hmove : ∀ u i, s.firstMove = some (u, i) → due ≤ u) : s.act = exec e { s with clk := Nat.max s.clk due, agenda := rest } := by
  rw [State.act, ha]
  cases h : s.firstMove with
  | none => rfl
  | some m => exact if_pos (hmove m.1 m.2 h)

/-- Settles O4: the issuer that moves first performs the word at its run's position. -/
theorem stepRunsTheDecodedWord : Obligations.StepRunsTheDecodedWord := by
  intro s t clk iss n r i hdue hmove hrun hdec hexec
  rw [step, act_of_move hmove hdue, State.moveIssuer, hrun]
  simp only [State.word, hdec, hexec]

/-- Settles O5: the event due first is performed, and its outcome is the step's. -/
theorem stepPerformsTheDueEvent : Obligations.StepPerformsTheDueEvent := by
  intro s due e rest ha hmove
  rw [step, act_of_event ha hmove]
  refine ⟨fun t h => ?_, fun f h => ?_, fun r h => ?_⟩ <;> rw [h]

/-- Settles O57: the state after reset lists nothing but the start. -/
theorem resetLeavesTheStart : Obligations.ResetLeavesTheStart := by
  refine ⟨rfl, rfl, rfl, rfl, rfl, rfl, rfl, rfl, rfl, rfl, rfl, rfl, rfl, rfl, rfl, rfl, rfl, rfl, rfl, rfl, fun k n => ?_, fun h => ?_,
    fun n hn => ?_, fun c t => ⟨rfl, rfl⟩⟩
  · refine ⟨?_, rfl, rfl, rfl, ?_⟩
    · rw [State.v]; split <;> rfl
    · rw [State.p]
      split
      · next h => simp [h]
      · next h =>
        have hbit : (BitVec.twoPow 16 15).getLsbD n = false := by rw [BitVec.getLsbD_twoPow]; simp [Ne.symm h]
        exact iff_of_false (Bool.not_eq_true _ ▸ hbit) h
  · have hreal (a : Nat) : State.reset.realHome a = 0 := rfl
    rw [State.readHome]
    split
    · exact hreal h
    · exact hreal _
  · rfl

/-- Settles O58: both invariants hold of tables that list nothing. -/
theorem resetIsWellFormed : Obligations.ResetIsWellFormed := ⟨rfl, rfl⟩

end Sys2Proof.Machine
end

section
/-! PROOFS. The integer operations compute what their rows give (R131, R133). -/

namespace Sys2Proof.Machine

theorem opAdd_computes : IntOp.Computes opAdd fun _ _ a b _ => a + b := fun _ _ _ x y _ => (BitVec.toNat_add x y).symm

theorem opSub_computes : IntOp.Computes opSub fun _ _ a b _ => a - b := fun n _ _ x y _ => by
  rw [opSub, BitVec.toNat_sub, add_comm]

theorem opMul_computes : IntOp.Computes opMul fun _ _ a b _ => a * b := fun _ _ _ x y _ => (BitVec.toNat_mul x y).symm

theorem opMad_computes : IntOp.Computes opMad fun _ _ a b d => a * b + d := fun n _ _ x y z => by
  rw [opMad, BitVec.toNat_add, BitVec.toNat_mul, Nat.mod_add_mod]

theorem opAnd_computes : IntOp.Computes opAnd fun _ _ a b _ => a &&& b := fun _ _ _ x y _ => Nat.mod_eq_of_lt (x &&& y).isLt
theorem opOr_computes : IntOp.Computes opOr fun _ _ a b _ => a ||| b := fun _ _ _ x y _ => Nat.mod_eq_of_lt (x ||| y).isLt
theorem opXor_computes : IntOp.Computes opXor fun _ _ a b _ => a ^^^ b := fun _ _ _ x y _ => Nat.mod_eq_of_lt (x ^^^ y).isLt

theorem opShl_computes : IntOp.Computes opShl fun n _ a b _ => a <<< (b.toNat % n) := fun n _ _ x y _ => by
  rw [opShl, BitVec.toNat_shiftLeft, Nat.shiftLeft_eq]

theorem opShr_computes : IntOp.Computes opShr fun n _ a b _ => a >>> (b.toNat % n) := fun n _ _ x y _ => by
  rw [opShr, BitVec.toNat_ushiftRight, Nat.shiftRight_eq_div_pow]
  exact Nat.mod_eq_of_lt ((Nat.div_le_self _ _).trans_lt x.isLt)

theorem wrap_toInt {n : Nat} (x : BitVec n) : wrap n x.toInt = x.toNat := by
  rw [wrap_eq_toNat_ofInt, BitVec.ofInt_toInt]

theorem wrap_lt (n : Nat) (i : Int) : wrap n i < 2 ^ n := by
  rw [wrap_eq_toNat_ofInt]; exact BitVec.isLt _

theorem opSar_computes : IntOp.Computes opSar fun n _ a b _ => a.sshiftRight (b.toNat % n) := fun n hn _ x y _ => by
  dsimp only [opSar]
  rw [Nat.mod_eq_of_lt (wrap_lt _ _), sgn_toNat hn, ← wrap_toInt (x.sshiftRight _), BitVec.toInt_sshiftRight, Int.shiftRight_eq_div_pow]
  push_cast; rfl

/-- A number of k + m bits rotated left by k, as the sum of its parts. -/
theorem rotate_sum {x k m : Nat} (hx : x < 2 ^ (k + m)) :
    (x * 2 ^ k % 2 ^ (k + m) + x / 2 ^ m) % 2 ^ (k + m) = x <<< k % 2 ^ (k + m) ||| x >>> m := by
  have hr : x / 2 ^ m < 2 ^ k := by rwa [Nat.div_lt_iff_lt_mul (Nat.two_pow_pos _), ← pow_add]
  have hl : x * 2 ^ k % 2 ^ (k + m) = (x % 2 ^ m) <<< k := by
    rw [add_comm, pow_add, Nat.mul_mod_mul_right, Nat.shiftLeft_eq]
  have hc : x % 2 ^ m + 1 ≤ 2 ^ m := Nat.mod_lt _ (Nat.two_pow_pos _)
  rw [Nat.shiftLeft_eq, Nat.shiftRight_eq_div_pow, hl, ← Nat.shiftLeft_add_eq_or_of_lt hr, Nat.mod_eq_of_lt]
  have hm := Nat.mul_le_mul_right (2 ^ k) hc
  rw [Nat.shiftLeft_eq, pow_add, mul_comm (2 ^ k)]
  rw [add_mul, one_mul] at hm
  omega

theorem opRot_computes : IntOp.Computes opRot fun n _ a b _ => a.rotateLeft (b.toNat % n) := fun n hn _ x y _ => by
  have hk : y.toNat % n < n := Nat.mod_lt _ hn
  have hx := x.isLt
  dsimp only [opRot]
  rw [BitVec.toNat_rotateLeft, Nat.mod_mod]
  generalize y.toNat % n = k at hk
  generalize x.toNat = a at hx
  obtain ⟨m, rfl⟩ := Nat.exists_eq_add_of_le hk.le
  rw [Nat.add_sub_cancel_left]
  exact rotate_sum hx

theorem opMulh_computes : IntOp.Computes opMulh bvMulh := fun n hn sg x y z => by
  cases sg with
  | false =>
    simp only [opMulh, bvMulh, Bool.false_eq_true, if_false, BitVec.toNat_ofNat]
  | true =>
    simp only [opMulh, bvMulh, if_true, sgn_toNat hn, wrap_eq_toNat_ofInt]
    exact Nat.mod_eq_of_lt (BitVec.isLt _)

theorem opMin_computes : IntOp.Computes opMin bvMin := fun n hn sg x y z => by
  rw [opMin, bvMin, intLess_toNat hn, ← apply_ite BitVec.toNat]
  exact Nat.mod_eq_of_lt (BitVec.isLt _)

theorem opMax_computes : IntOp.Computes opMax bvMax := fun n hn sg x y z => by
  rw [opMax, bvMax, intLess_toNat hn, ← apply_ite BitVec.toNat]
  exact Nat.mod_eq_of_lt (BitVec.isLt _)

-- Bit fields (R133).

theorem bitField_eq {n : Nat} (y : BitVec n) : bitField n y.toNat = bvField n y := rfl

theorem bvField_le {n : Nat} (hn : 0 < n) (y : BitVec n) : (bvField n y).1 + (bvField n y).2 ≤ n := by
  have hp : y.toNat % 64 % n < n := Nat.mod_lt _ hn
  have hl : Nat.min (y.toNat / 256 % 128) (n - y.toNat % 64 % n) ≤ n - y.toNat % 64 % n := Nat.min_le_right _ _
  simp only [bvField]
  omega

/-- A field of l bits at the top of n bits: what is above it is shifted out. -/
theorem top_toNat {n p l : Nat} (h : p + l ≤ n) (x : BitVec n) :
    ((x >>> p) <<< (n - l)).toNat = field x.toNat p l * 2 ^ (n - l) := by
  obtain ⟨m, rfl⟩ := Nat.exists_eq_add_of_le (show l ≤ n by omega)
  rw [BitVec.toNat_shiftLeft, BitVec.toNat_ushiftRight, Nat.shiftLeft_eq, Nat.shiftRight_eq_div_pow, Nat.add_sub_cancel_left, pow_add,
    Nat.mul_mod_mul_right, field]

/-- The top field moved down with its sign: its two's complement value (R64). -/
theorem sshiftRight_top {n p l : Nat} (h : p + l ≤ n) (hl : 0 < l) (x : BitVec n) :
    (((x >>> p) <<< (n - l)).sshiftRight (n - l)).toInt
      = if 2 ^ (l - 1) ≤ field x.toNat p l then (field x.toNat p l : Int) - 2 ^ l else field x.toNat p l := by
  have ht := top_toNat h x
  generalize field x.toNat p l = f at ht ⊢
  obtain ⟨m, rfl⟩ := Nat.exists_eq_add_of_le (show l ≤ n by omega)
  obtain ⟨l, rfl⟩ := Nat.exists_eq_succ_of_ne_zero hl.ne'
  rw [BitVec.toInt_sshiftRight, Int.shiftRight_eq_div_pow, BitVec.toInt_eq_toNat_cond, ht]
  rw [Nat.add_sub_cancel_left, Nat.succ_sub_one]
  have hm : (0 : Int) < 2 ^ m := by positivity
  have hcond : 2 * (f * 2 ^ m) < 2 ^ (l.succ + m) ↔ ¬ 2 ^ l ≤ f := by
    rw [not_le, show 2 * (f * 2 ^ m) = f * (2 ^ m * 2) by ring, show 2 ^ (l.succ + m) = 2 ^ l * (2 ^ m * 2) by rw [pow_add, pow_succ]; ring]
    exact Nat.mul_lt_mul_right (by positivity)
  simp only [hcond, ite_not]
  split
  · rw [show ((f * 2 ^ m : Nat) : Int) - (2 ^ (l.succ + m) : Nat) = ((f : Int) - 2 ^ l.succ) * 2 ^ m by push_cast; rw [pow_add]; ring]
    push_cast
    exact Int.mul_ediv_cancel _ hm.ne'
  · push_cast
    exact Int.mul_ediv_cancel _ hm.ne'

/-- The field of l bits at p, with its sign where sg says so (R133). -/
theorem bfx_toNat {n p l : Nat} (h : p + l ≤ n) (sg : Bool) (x : BitVec n) :
    (if (sg && decide (0 < l) && decide (2 ^ (l - 1) ≤ field x.toNat p l)) = true then wrap n ((field x.toNat p l : Int) - 2 ^ l)
        else field x.toNat p l) % 2 ^ n
      = (if sg then ((x >>> p) <<< (n - l)).sshiftRight (n - l) else ((x >>> p) <<< (n - l)) >>> (n - l)).toNat := by
  have hf : field x.toNat p l < 2 ^ n :=
    (Nat.mod_lt _ (Nat.two_pow_pos _)).trans_le (Nat.pow_le_pow_right (by decide) (by omega))
  have hu : (((x >>> p) <<< (n - l)) >>> (n - l)).toNat = field x.toNat p l := by
    rw [BitVec.toNat_ushiftRight, top_toNat h, Nat.shiftRight_eq_div_pow, Nat.mul_div_cancel _ (Nat.two_pow_pos _)]
  cases sg with
  | false => simp [hu, Nat.mod_eq_of_lt hf]
  | true =>
    rcases Nat.eq_zero_or_pos l with rfl | hl
    · have h0 : field x.toNat p 0 = 0 := Nat.mod_one _
      simp [h0]
    · rw [if_pos rfl, ← wrap_toInt (BitVec.sshiftRight _ _), sshiftRight_top h hl]
      simp only [Bool.true_and, hl, decide_true, decide_eq_true_eq]
      split
      · exact Nat.mod_eq_of_lt (wrap_lt _ _)
      · rw [Nat.mod_eq_of_lt hf, wrap]
        norm_cast
        rw [Nat.mod_eq_of_lt hf]

theorem opBfx_computes : IntOp.Computes opBfx bvBfx := fun _ hn sg x y _ => bfx_toNat (bvField_le hn y) sg x

/-- Bit i of the mask of a field of l bits at p. -/
theorem getLsbD_fieldMask {n p l : Nat} (h : p + l ≤ n) (i : Nat) :
    ((BitVec.allOnes n >>> (n - l)) <<< p).getLsbD i = (decide (p ≤ i) && decide (i < p + l)) := by
  simp only [BitVec.getLsbD_shiftLeft, BitVec.getLsbD_ushiftRight, BitVec.getLsbD_allOnes]
  by_cases h1 : p ≤ i <;> by_cases h2 : i < p + l <;> simp [h1, h2] <;> omega

/-- The field of l bits at p of z, replaced by the low bits of x (R133). -/
theorem bfi_toNat {n p l : Nat} (h : p + l ≤ n) (x z : BitVec n) :
    (z.toNat % 2 ^ p + field x.toNat 0 l * 2 ^ p + z.toNat / 2 ^ (p + l) * 2 ^ (p + l))
      = ((z &&& ~~~((BitVec.allOnes n >>> (n - l)) <<< p)) ||| ((x <<< p) &&& ((BitVec.allOnes n >>> (n - l)) <<< p))).toNat := by
  have hlow : z.toNat % 2 ^ p < 2 ^ p := Nat.mod_lt _ (Nat.two_pow_pos _)
  have hmid : field x.toNat 0 l * 2 ^ p + z.toNat % 2 ^ p < 2 ^ (p + l) := by
    have hf : field x.toNat 0 l + 1 ≤ 2 ^ l := Nat.mod_lt _ (Nat.two_pow_pos _)
    have hm := Nat.mul_le_mul_right (2 ^ p) hf
    rw [add_mul, one_mul] at hm
    rw [pow_add, mul_comm (2 ^ p)]; omega
  have hsum : z.toNat % 2 ^ p + field x.toNat 0 l * 2 ^ p + z.toNat / 2 ^ (p + l) * 2 ^ (p + l)
      = (z.toNat >>> (p + l)) <<< (p + l) ||| ((x.toNat % 2 ^ l) <<< p ||| z.toNat % 2 ^ p) := by
    rw [← Nat.shiftLeft_add_eq_or_of_lt hlow, Nat.shiftLeft_eq _ p, ← Nat.shiftLeft_add_eq_or_of_lt (by simpa [field] using hmid),
      Nat.shiftLeft_eq, Nat.shiftRight_eq_div_pow]
    simp only [field, pow_zero, Nat.div_one]; ring
  rw [hsum]
  refine Nat.eq_of_testBit_eq fun i => ?_
  rw [BitVec.testBit_toNat, BitVec.getLsbD_or, BitVec.getLsbD_and, BitVec.getLsbD_and, BitVec.getLsbD_not, getLsbD_fieldMask h,
    BitVec.getLsbD_shiftLeft]
  simp only [Nat.testBit_mod_two_pow, Nat.testBit_or, Nat.testBit_shiftLeft, Nat.testBit_shiftRight, BitVec.testBit_toNat]
  by_cases hlo : i < p
  · have h1 : ¬ p ≤ i := by omega
    have h2 : ¬ p + l ≤ i := by omega
    have h3 : i < n := by omega
    simp [hlo, h1, h2, h3]
  · by_cases hhi : i < p + l
    · have h2 : ¬ p + l ≤ i := by omega
      have h3 : i < n := by omega
      have h4 : i - p < l := by omega
      simp [hlo, h2, h3, h4, hhi, not_lt.mp hlo]
    · have h4 : ¬ i - p < l := by omega
      have h5 : p + l + (i - (p + l)) = i := by omega
      have h6 : n ≤ i → z.getLsbD i = false := BitVec.getLsbD_of_ge z i
      by_cases h3 : i < n
      · simp [hlo, hhi, h4, h5, h3, not_lt.mp hhi]
      · simp [hlo, hhi, h4, h5, h3, h6 (not_lt.mp h3)]

theorem opBfi_computes : IntOp.Computes opBfi bvBfi := fun n hn _ x y z => by
  have h := bfi_toNat (bvField_le hn y) x z
  exact (congrArg (· % 2 ^ n) h).trans (Nat.mod_eq_of_lt (BitVec.isLt _))

/-- A fixed-latency RRR instruction that passes its checks puts its results in flight, 4 clk away (R58, R131). -/
theorem rrrFixed_of {op : IntOp} {bv : BvOp} (h : op.Computes bv) {s : State} {i : Instr} {f : BitVec 4} {d a b : BitVec 7}
    {rdD wideB : Bool} (hp : s.Passes { instr := i, place := .both, ops := rrrOpds f d a b rdD wideB }) :
    s.rrrFixed i f d a b rdD wideB op = .next (s.fixed 4 ((s.actors (f.getLsbD 3)).flatMap (s.bvWrites f d a b wideB bv))) := by
  rw [State.rrrFixed, issuePlain_of hp, rrrResults_eq h, List.flatMap_map]; rfl

/-- The rows of R131 and R133 compute what the table says. -/
theorem intRow_of {s : State} {f : BitVec 4} {d a b : BitVec 7} {r : IntRow} (hr : r ∈ intRows)
    (hp : s.Passes { instr := r.make f d a b, place := .both, ops := rrrOpds f d a b r.rdD r.wideB }) :
    exec (r.make f d a b) s = .next (s.fixed 4 ((s.actors (f.getLsbD 3)).flatMap (s.bvWrites f d a b r.wideB r.op))) := by
  simp only [intRows, List.mem_cons, List.not_mem_nil, or_false] at hr
  rcases hr with rfl | rfl | rfl | rfl | rfl | rfl | rfl | rfl | rfl | rfl | rfl | rfl | rfl
  · exact rrrFixed_of opAdd_computes hp
  · exact rrrFixed_of opSub_computes hp
  · exact rrrFixed_of opMul_computes hp
  · exact rrrFixed_of opMulh_computes hp
  · exact rrrFixed_of opMad_computes hp
  · exact rrrFixed_of opAnd_computes hp
  · exact rrrFixed_of opOr_computes hp
  · exact rrrFixed_of opXor_computes hp
  · exact rrrFixed_of opShl_computes hp
  · exact rrrFixed_of opShr_computes hp
  · exact rrrFixed_of opSar_computes hp
  · exact rrrFixed_of opRot_computes hp
  · exact rrrFixed_of opBfx_computes hp

-- Bit counts (R134).

theorem bit_toNat {n : Nat} (x : BitVec n) (i : Nat) : bit x.toNat i = x.getLsbD i := by
  rw [← BitVec.testBit_toNat, Nat.testBit_eq_decide_div_mod_eq]; rfl

theorem clz_toNat {n : Nat} (hn : 0 < n) (x : BitVec n) : clz n x.toNat = x.clz.toNat := by
  rw [clz]
  by_cases hx : x = 0#n
  · subst hx
    rw [BitVec.clz_eq_iff_eq_zero.2 rfl]
    exact (Nat.mod_eq_of_lt Nat.lt_two_pow_self).symm
  · have h0 : x.toNat ≠ 0 := fun h => hx (BitVec.eq_of_toNat_eq h)
    have hlow := BitVec.two_pow_sub_clz_le_toNat_of_ne_zero hn hx
    have hc : x.clz.toNat < n := by
      by_contra hge
      have hlt := BitVec.toNat_lt_two_pow_sub_clz (x := x)
      rw [Nat.sub_eq_zero_of_le (not_lt.mp hge)] at hlt
      omega
    have hlog : Nat.log2 x.toNat = n - 1 - x.clz.toNat := by
      refine (Nat.log2_eq_iff h0).2 ⟨hlow, ?_⟩
      rw [show n - 1 - x.clz.toNat + 1 = n - x.clz.toNat by omega]
      exact BitVec.toNat_lt_two_pow_sub_clz
    rw [if_neg h0, hlog]; omega

/-- How far a test holds from the start of a range. -/
theorem length_takeWhile_range' {p : Nat → Bool} : ∀ (n lo k : Nat), k ≤ n → (∀ i < k, p (lo + i) = true) →
    (k < n → p (lo + k) = false) → ((List.range' lo n).takeWhile p).length = k
  | 0, lo, k, hk, _, _ => by rw [Nat.le_zero.1 hk]; rfl
  | n + 1, lo, 0, _, _, hf => by
    have h0 : p lo = false := hf (Nat.succ_pos n)
    simp [List.range'_succ, h0]
  | n + 1, lo, k + 1, hk, ht, hf => by
    have h0 : p lo = true := ht 0 (Nat.succ_pos k)
    have ih := length_takeWhile_range' (p := p) n (lo + 1) k (by omega) (fun i hi => by simpa [Nat.add_assoc, Nat.add_comm 1] using ht (i + 1) (by omega))
      (fun hlt => by simpa [Nat.add_assoc, Nat.add_comm 1] using hf (by omega))
    simp [List.range'_succ, h0, ih]

theorem ctz_toNat {n : Nat} (x : BitVec n) : ctz n x.toNat = x.ctz.toNat := by
  have hw : (BitVec.ofNat n n).toNat = n := Nat.mod_eq_of_lt Nat.lt_two_pow_self
  have hlt : x.ctz.toNat < n ↔ x ≠ 0#n := by
    rw [← BitVec.ctz_lt_iff_ne_zero, BitVec.lt_def]; exact iff_of_eq (congrArg (x.ctz.toNat < ·) hw.symm)
  have hle : x.ctz.toNat ≤ n := (BitVec.le_def.1 (BitVec.clz_le (x := x.reverse))).trans hw.le
  rw [ctz, upto_eq]
  refine length_takeWhile_range' n 0 _ hle (fun i hi => ?_) fun hi => ?_
  · rw [Nat.zero_add, bit_toNat, BitVec.getLsbD_false_of_lt_ctz hi]; rfl
  · rw [Nat.zero_add, bit_toNat, BitVec.getLsbD_true_ctz_of_ne_zero (hlt.1 hi)]; rfl

theorem popCount_toNat {n : Nat} (x : BitVec n) : popCount n x.toNat = x.cpop.toNat := by
  have h : ∀ m acc, x.cpopNatRec m acc = acc + ((List.range' 0 m).filter fun i => bit x.toNat i).length := by
    intro m
    induction m with
    | zero => intro acc; rfl
    | succ m ih =>
      intro acc
      rw [BitVec.cpopNatRec_succ, ih, List.range'_1_concat, List.filter_append, List.length_append, Nat.zero_add, ← bit_toNat]
      cases hb : bit x.toNat m <;> simp [hb]; omega
  rw [popCount, upto_eq, BitVec.toNat_cpop, h, Nat.zero_add]

/-- The number whose bits are those of a test, in reverse. -/
theorem testBit_reversed (f : Nat → Bool) : ∀ m i, (((List.range' 0 m).map fun j => b2n (f j) * 2 ^ (m - 1 - j)).sum).testBit i
    = (decide (i < m) && f (m - 1 - i))
  | 0, i => by simp
  | m + 1, i => by
    have hs : ((List.range' 0 (m + 1)).map fun j => b2n (f j) * 2 ^ (m + 1 - 1 - j)).sum
        = 2 * ((List.range' 0 m).map fun j => b2n (f j) * 2 ^ (m - 1 - j)).sum + b2n (f m) := by
      rw [List.range'_1_concat, List.map_append, List.sum_append, ← List.sum_map_mul_left]
      congr 1
      · refine congrArg List.sum (List.map_congr_left fun j hj => ?_)
        obtain ⟨k, rfl⟩ := Nat.exists_eq_add_of_lt (show j < m by simpa using hj)
        rw [show j + k + 1 + 1 - 1 - j = (j + k + 1 - 1 - j) + 1 by omega, pow_succ]; ring
      · simp
    have hb : b2n (f m) < 2 := by cases f m <;> decide
    rw [hs]
    cases i with
    | zero =>
      rw [Nat.testBit_zero, Nat.mul_add_mod, Nat.mod_eq_of_lt hb]
      cases hf : f m <;> simp [hf, b2n]
    | succ i =>
      rw [Nat.testBit_succ, show (2 * ((List.range' 0 m).map fun j => b2n (f j) * 2 ^ (m - 1 - j)).sum + b2n (f m)) / 2
        = ((List.range' 0 m).map fun j => b2n (f j) * 2 ^ (m - 1 - j)).sum by omega, testBit_reversed f m i,
        show m + 1 - 1 - (i + 1) = m - 1 - i by omega]
      simp

theorem brev_toNat {n : Nat} (x : BitVec n) : brev n x.toNat = x.reverse.toNat := by
  refine Nat.eq_of_testBit_eq fun i => ?_
  rw [brev, upto_eq, testBit_reversed, BitVec.testBit_toNat, BitVec.getLsbD_reverse, BitVec.getMsbD, bit_toNat]

/-- What BITC computes is the bit count of its row (R134). -/
theorem bitc_toNat {n : Nat} (hn : 0 < n) (f : BitVec 2) (x : BitVec n) :
    (if f = 0 then clz n x.toNat else if f = 1 then ctz n x.toNat else if f = 2 then popCount n x.toNat else brev n x.toNat)
      = (if f = 0 then x.clz else if f = 1 then x.ctz else if f = 2 then x.cpop else x.reverse).toNat := by
  rw [clz_toNat hn, ctz_toNat, popCount_toNat, brev_toNat]
  split_ifs <;> rfl

theorem bitc_of {s : State} {f : BitVec 2} {w : BitVec 1} {d a : BitVec 7}
    (hp : s.Passes { instr := .bitc f w d a, place := .both, ops := [.dst d (w == 1 && f == 3), .src a (w == 1)] }) :
    exec (.bitc f w d a) s = .next (s.fixed 4 (s.issue.flatMap fun k =>
      let n := if w = 1 then 64 else 32
      let x := BitVec.ofNat n (s.intSrc k false (w == 1) a.toNat)
      let r := if f = 0 then x.clz else if f = 1 then x.ctz else if f = 2 then x.cpop else x.reverse
      s.intDst k false (w == 1 && f == 3) d.toNat r.toNat)) := by
  rw [exec_bitc, execBitc, issuePlain_of hp]
  refine congrArg Host.Outcome.next (congrArg (s.fixed 4) (List.flatMap_congr fun k _ => ?_))
  have hn : 0 < if w = 1 then 64 else 32 := by split <;> decide
  have hx : s.intSrc k false (w == 1) a.toNat < 2 ^ (if w = 1 then 64 else 32) := by
    have := intSrc_lt s k false (w == 1) a.toNat
    simpa only [beq_iff_eq] using this
  simp only [← bitc_toNat hn, BitVec.toNat_ofNat, Nat.mod_eq_of_lt hx, beq_iff_eq]

-- Immediates (R116, R132).

theorem immOf_eq {m : Nat} (hm : 0 < m) (i : BitVec m) (hi : Option (BitVec 25)) :
    immOf m i.toNat hi = match hi with | none => i.toInt | some h => (h ++ i : BitVec (25 + m)).toInt := by
  cases hi with
  | none => exact sgn_toNat hm i
  | some h =>
    refine Eq.trans ?_ (sgn_toNat (by omega) (h ++ i))
    rw [toNat_append_eq_add, immOf, Nat.add_comm m 25]

theorem wrap_immOf11 (i : BitVec 11) (hi : Option (BitVec 25)) : wrap 64 (immOf 11 i.toNat hi) = (bvImm11 i hi).toNat := by
  rw [wrap_eq_toNat_ofInt, immOf_eq (by decide)]; cases hi <;> rfl

theorem wrap_immOf10 (i : BitVec 10) (hi : Option (BitVec 25)) : wrap 64 (immOf 10 i.toNat hi) = (bvImm10 i hi).toNat := by
  rw [wrap_eq_toNat_ofInt, immOf_eq (by decide)]; cases hi <;> rfl

/-- A number wrapped at 32 bits is the low half of it wrapped at 64. -/
theorem wrap_32 (z : Int) : wrap 32 z = wrap 64 z % 2 ^ 32 := by
  simp only [wrap]; omega

theorem wrap32_immOf11 (i : BitVec 11) (hi : Option (BitVec 25)) : wrap 32 (immOf 11 i.toNat hi) = ((bvImm11 i hi).setWidth 32).toNat := by
  rw [wrap_32, wrap_immOf11, BitVec.toNat_setWidth]

theorem wrap32_immOf10 (i : BitVec 10) (hi : Option (BitVec 25)) : wrap 32 (immOf 10 i.toNat hi) = ((bvImm10 i hi).setWidth 32).toNat := by
  rw [wrap_32, wrap_immOf10, BitVec.toNat_setWidth]

/-- An instruction with an immediate that passes its checks (R132). -/
theorem riFixed_of {s : State} {i : Instr} {d a : BitVec 7} {im : BitVec 11} {hi : Option (BitVec 25)} {op : Nat → Nat → Nat}
    {bv : Word → Word → Word} (h : ∀ x y : Word, BitVec.ofNat 32 (op x.toNat y.toNat) = bv x y)
    (hp : s.Passes { instr := i, place := .both, ops := [.dst d, .src a] }) :
    s.riFixed i d a im hi op = .next (s.fixed 4 (s.issue.map fun k => s.toV k d.toNat (bv (s.v k a.toNat) ((bvImm11 im hi).setWidth 32)))) := by
  rw [State.riFixed, issuePlain_of hp]
  refine congrArg Host.Outcome.next (congrArg (s.fixed 4) ?_)
  rw [List.map_eq_flatMap]
  refine List.flatMap_congr fun k _ => ?_
  rw [wrap32_immOf11, ← h]; rfl

theorem immediates_of {s : State} {d a : BitVec 7} {i : BitVec 11} {hi : Option (BitVec 25)} :
    ∀ r ∈ ([(Instr.addi, fun x y => x + y), (Instr.andi, fun x y => x &&& y), (Instr.ori, fun x y => x ||| y),
        (Instr.xori, fun x y => x ^^^ y)] : List ((BitVec 7 → BitVec 7 → BitVec 11 → Option (BitVec 25) → Instr) × (Word → Word → Word))),
      s.Passes { instr := r.1 d a i hi, place := .both, ops := [.dst d, .src a] } →
      exec (r.1 d a i hi) s = .next (s.fixed 4 (s.issue.map fun k => s.toV k d.toNat (r.2 (s.v k a.toNat) ((bvImm11 i hi).setWidth 32)))) := by
  intro r hr hp
  simp only [List.mem_cons, List.not_mem_nil, or_false] at hr
  rcases hr with rfl | rfl | rfl | rfl
  · exact riFixed_of (fun x y => BitVec.eq_of_toNat_eq (BitVec.toNat_add x y).symm) hp
  · exact riFixed_of (fun x y => BitVec.eq_of_toNat_eq (Nat.mod_eq_of_lt (x &&& y).isLt)) hp
  · exact riFixed_of (fun x y => BitVec.eq_of_toNat_eq (Nat.mod_eq_of_lt (x ||| y).isLt)) hp
  · exact riFixed_of (fun x y => BitVec.eq_of_toNat_eq (Nat.mod_eq_of_lt (x ^^^ y).isLt)) hp

/-- Bit 3 of FN, where its lowest bit is reserved. -/
theorem bfi_uniform (g : BitVec 3) : (g ++ 0#1).getLsbD 3 = g.getLsbD 2 := by revert g; decide

theorem minMax_uniform (u w sg : BitVec 1) : (u ++ 0#1 ++ w ++ sg).getLsbD 3 = (u == 1) := by revert u w sg; decide

/-- Settles O12: the operations of the rows compute those of bit vectors, the bit counts too, and immediates are sign-extended. -/
theorem integerInstructionsGiveTheirResults : Obligations.IntegerInstructionsGiveTheirResults := by
  refine ⟨fun s f d a b => ⟨fun r hr hp => intRow_of hr hp, fun g hp => ?_, fun u w sg hp => ?_, fun u w sg hp => ?_⟩,
    fun s f w d a hp => bitc_of hp, fun s d a i hi u w => ⟨immediates_of, fun hp => ?_⟩⟩
  · rw [← show (g ++ 0#1).getLsbD 3 = g.getLsbD 2 from bfi_uniform g]
    exact rrrFixed_of opBfi_computes hp
  · rw [← minMax_uniform u w sg]
    exact rrrFixed_of opMin_computes hp
  · rw [← minMax_uniform u w sg]
    exact rrrFixed_of opMax_computes hp
  · rw [exec_movi, execMovi, issuePlain_of hp, wrap_immOf11]; rfl

end Sys2Proof.Machine
end

section
/-! PROOFS. Compares, predicate logic, moves and address arithmetic (R114, R135, R137 to R139). -/

namespace Sys2Proof.Machine

/-- The condition of a code on numbers of n bits is that on the bit vectors they are the values of (R114). -/
theorem intCond_toNat {n : Nat} (hn : 0 < n) (c : Nat) (x y : BitVec n) : intCond c n x.toNat y.toNat = bvCond c x y := by
  have hbeq : (x.toNat == y.toNat) = (x == y) := by
    rw [Bool.eq_iff_iff, beq_iff_eq, beq_iff_eq, BitVec.toNat_inj]
  simp only [intCond, bvCond, sgn_toNat hn, BitVec.slt, BitVec.sle, BitVec.ult, BitVec.ule, hbeq, bne]

theorem intCond_ofNat {n : Nat} (hn : 0 < n) (c : Nat) {x y : Nat} (hx : x < 2 ^ n) (hy : y < 2 ^ n) :
    intCond c n x y = bvCond c (BitVec.ofNat n x) (BitVec.ofNat n y) := by
  rw [← intCond_toNat hn, BitVec.toNat_ofNat, BitVec.toNat_ofNat, Nat.mod_eq_of_lt hx, Nat.mod_eq_of_lt hy]

/-- A source of a form whose width the bit w names. -/
theorem intSrc_lt_form (s : State) (k : Nat) (uni : Bool) (w : BitVec 1) (n : Nat) :
    s.intSrc k uni (w == 1) n < 2 ^ (if w = 1 then 64 else 32) := by
  simpa only [beq_iff_eq] using intSrc_lt s k uni (w == 1) n

theorem cmp_of {s : State} {c p : BitVec 4} {a b : BitVec 7} {v w : BitVec 1}
    (hp : s.Passes { instr := .cmp c v w p a b, place := .both, ops := [.pdst p.toNat, .src a (w == 1), intOpd (v == 1) (w == 1) b true false] }) :
    exec (.cmp c v w p a b) s = .next (s.fixed 4 (s.issue.map fun k =>
      let n := if w = 1 then 64 else 32
      .pred k p.toNat (bvCond c.toNat (BitVec.ofNat n (s.intSrc k false (w == 1) a.toNat)) (BitVec.ofNat n (s.intSrc k (v == 1) (w == 1) b.toNat))))) := by
  have hn : 0 < if w = 1 then 64 else 32 := by split <;> decide
  rw [exec_cmp, execCmp, issuePlain_of hp]
  refine congrArg Host.Outcome.next (congrArg (s.fixed 4) (List.map_congr_left fun k _ => ?_))
  simp only [beq_iff_eq, intCond_ofNat hn c.toNat (intSrc_lt_form s k false w _) (intSrc_lt_form s k (v == 1) w _)]

theorem cmpi_of {s : State} {c p : BitVec 4} {a : BitVec 7} {i : BitVec 10} {hi : Option (BitVec 25)}
    (hp : s.Passes { instr := .cmpi c p a i hi, place := .both, ops := [.pdst p.toNat, .src a] }) :
    exec (.cmpi c p a i hi) s = .next (s.fixed 4 (s.issue.map fun k =>
      .pred k p.toNat (bvCond c.toNat (s.v k a.toNat) ((bvImm10 i hi).setWidth 32)))) := by
  rw [exec_cmpi, execCmpi, issuePlain_of hp]
  refine congrArg Host.Outcome.next (congrArg (s.fixed 4) (List.map_congr_left fun k _ => ?_))
  rw [wrap32_immOf10, ← intCond_toNat (by decide)]; rfl

/-- The place of two predicates in a table of PLOG (R138). -/
theorem plog_index (x y : Bool) : 2 * b2n x + b2n y = (if x then 2 else 0) + (if y then 1 else 0) := by
  cases x <;> cases y <;> rfl

theorem plog_of {s : State} {c e x y : BitVec 4}
    (hp : s.Passes { instr := .plog c e x y, place := .both, ops := [.pdst e.toNat, .psrc x.toNat, .psrc y.toNat] }) :
    exec (.plog c e x y) s = .next (s.fixed 4 (s.issue.map fun k =>
      .pred k e.toNat (c.getLsbD ((if s.p k x.toNat then 2 else 0) + (if s.p k y.toNat then 1 else 0))))) := by
  rw [exec_plog, execPlog, issuePlain_of hp]
  simp only [plog_index]; rfl

/-- The forms of MOV, by its number (R137). -/
theorem movWrites_eq (s : State) (f : BitVec 4) (d a : BitVec 7) (k : Nat) :
    s.movWrites f.toNat d a k =
      (if f = 0 then [s.toV k d.toNat (s.v k a.toNat)]
      else if f = 1 then [s.toV k d.toNat (s.w (s.thr k).grp a.toNat)]
      else if f = 2 then [.ureg (s.thr k).grp d.toNat (s.v k a.toNat)]
      else if f = 3 then [.ureg (s.thr k).grp d.toNat (s.w (s.thr k).grp a.toNat)]
      else if f = 4 then [s.toV k d.toNat (if s.p k a.toNat then 1 else 0)]
      else if f = 5 then [.pred k d.toNat (s.v k a.toNat != 0)]
      else if f = 6 then s.toV64 k d.toNat (s.v64 k a.toNat)
      else toW64 (s.thr k).grp d.toNat (s.w64 (s.thr k).grp a.toNat)) := by
  simp only [State.movWrites, ← BitVec.toNat_inj, State.wOf, State.wOf64]
  rfl

/-- A pointer moved by a scaled number, modulo 2^64 (R139). -/
theorem ofNat_wrap_add_scaled (p : DWord) (x : Int) (sc : Nat) :
    BitVec.ofNat 64 (wrap 64 (p.toNat + x * 2 ^ sc)) = p + (BitVec.ofInt 64 x) <<< sc := by
  have hs : (BitVec.ofInt 64 x) <<< sc = BitVec.ofInt 64 (x * 2 ^ sc) := by
    rw [BitVec.shiftLeft_eq_mul_twoPow, BitVec.ofInt_mul]
    congr 1
    apply BitVec.eq_of_toNat_eq
    rw [BitVec.toNat_twoPow, BitVec.toNat_ofInt]
    norm_cast
  rw [wrap_eq_toNat_ofInt, BitVec.ofNat_toNat, BitVec.setWidth_eq, BitVec.ofInt_add, hs, BitVec.ofInt_natCast, BitVec.ofNat_toNat,
    BitVec.setWidth_eq]

/-- An index of LEA, zero- or sign-extended (R139). -/
theorem ofInt_index (n : BitVec 1) (x : Word) :
    BitVec.ofInt 64 (if n = 1 then (x.toNat : Int) else sgn 32 x.toNat) = if n = 1 then x.setWidth 64 else x.signExtend 64 := by
  split
  · rw [BitVec.ofInt_natCast, BitVec.ofNat_toNat]
  · rw [sgn_toNat (by decide)]; rfl

theorem lea_of {s : State} {n : BitVec 1} {sc : BitVec 2} {d a : BitVec 7} {g : BitVec 5}
    (hp : s.Passes { instr := .lea n sc d a g, place := .both, ops := [.dst d true, .src a, .g g] }) :
    exec (.lea n sc d a g) s = .next (s.fixed 4 (s.issue.flatMap fun k =>
      let x := s.v k a.toNat
      s.toV64 k d.toNat (s.ptrOf k g.toNat + (if n = 1 then x.setWidth 64 else x.signExtend 64) <<< sc.toNat))) := by
  rw [exec_lea, execLea, issuePlain_of hp]
  simp only [ofNat_wrap_add_scaled, ofInt_index]; rfl

theorem leaLs_of {s : State} {sc : BitVec 2} {d a : BitVec 7}
    (hp : s.Passes { instr := .leaLs sc d a, ops := [.dst d true, .src a] }) :
    exec (.leaLs sc d a) s = .next (s.fixed 4 (s.issue.flatMap fun k =>
      s.toV64 k d.toNat (BitVec.ofNat 64 (laneBase + (s.thr k).csp) + ((s.v k a.toNat).signExtend 64) <<< sc.toNat))) := by
  have h : ∀ (m : Nat) (x : Word), BitVec.ofNat 64 (wrap 64 ((m : Int) + sgn 32 x.toNat * 2 ^ sc.toNat))
      = BitVec.ofNat 64 m + x.signExtend 64 <<< sc.toNat := fun m x => by
    have := ofNat_wrap_add_scaled (BitVec.ofNat 64 m) (sgn 32 x.toNat) sc.toNat
    rw [sgn_toNat (by decide)] at this ⊢
    refine Eq.trans (congrArg (BitVec.ofNat 64) ?_) this
    rw [wrap, wrap, BitVec.toNat_ofNat]
    push_cast
    rw [Int.emod_add_emod]
  rw [exec_leaLs, execLeaLs, issuePlain_of hp]
  simp only [h]; rfl

/-- Settles O14: each instruction's writes, put into the words of the rules. -/
theorem comparesMovesAndAddressesGiveTheirResults : Obligations.ComparesMovesAndAddressesGiveTheirResults := by
  refine ⟨fun s c p a b => ⟨fun v w hp => cmp_of hp, fun i hi hp => cmpi_of hp, fun e x y hp => plog_of hp⟩,
    fun s f d a n sc g => ⟨fun hp => ?_, lea_of, leaLs_of⟩⟩
  rw [exec_mov, execMov, issuePlain_of hp]
  exact congrArg (fun w => Host.Outcome.next (s.fixed 4 (List.flatMap w _))) (funext (movWrites_eq s f d a))

end Sys2Proof.Machine
end

section
/-! PROOFS. Branches, calls, returns and the instructions that mark threads (R24, R31, R140 to R144, R152 to R154). -/

namespace Sys2Proof.Machine

-- Lane by lane.

theorem byLane_ok {α : Type} {f : α → Option Flt} {l : List α} (h : ∀ x ∈ l, f x = none) : byLane f l = .ok () := by
  rw [byLane, List.findSome?_eq_none_iff.2 h]

/-- The lowest failing lane decides. -/
theorem byLane_error {α : Type} [DecidableEq α] {f : α → Option Flt} {l : List α} {k : α} {x : Flt} (hk : k ∈ l)
    (hlow : ∀ j ∈ l.takeWhile (· != k), f j = none) (hf : f k = some x) : byLane f l = .error x := by
  have h : l.findSome? f = some x := by
    induction l with
    | nil => cases hk
    | cons a l ih =>
      by_cases ha : a = k
      · rw [ha, List.findSome?_cons, hf]
      · have htw : (a :: l).takeWhile (· != k) = a :: l.takeWhile (· != k) := by simp [ha]
        rw [htw] at hlow
        rw [List.findSome?_cons, hlow a List.mem_cons_self]
        exact ih ((List.mem_cons.1 hk).resolve_left (Ne.symm ha)) fun j hj => hlow j (List.mem_cons_of_mem _ hj)
  rw [byLane, h]

theorem byLane_map {α β : Type} (f : β → Option Flt) (g : α → β) (l : List α) : byLane f (l.map g) = byLane (fun k => f (g k)) l := by
  simp only [byLane, List.findSome?_map]; rfl

-- Targets (R140, R143).

theorem ofNat_wrap_add (m : Nat) (x : Int) (sc : Nat) :
    BitVec.ofNat 64 (wrap 64 ((m : Int) + x * 2 ^ sc)) = BitVec.ofNat 64 m + (BitVec.ofInt 64 x) <<< sc := by
  rw [← ofNat_wrap_add_scaled, wrap, wrap, BitVec.toNat_ofNat]
  push_cast
  rw [Int.emod_add_emod]

theorem lowBits_zero_iff (t : DWord) : t.extractLsb' 0 2 = 0 ↔ t.toNat % 4 = 0 := by
  rw [← BitVec.toNat_inj, BitVec.extractLsb'_toNat]; rfl

theorem highBits_zero_iff (t : DWord) : t.extractLsb' 57 7 = 0 ↔ t.toNat < 2 ^ 57 := by
  have h : t.extractLsb' 57 7 = 0 ↔ t.toNat / 2 ^ 57 % 2 ^ 7 = 0 := by
    rw [← BitVec.toNat_inj, BitVec.extractLsb'_toNat, Nat.shiftRight_eq_div_pow]; rfl
  have ht := t.isLt
  rw [h]; omega

theorem targetOk_iff (t : DWord) : targetOk t = true ↔ TargetOk t := by
  rw [targetOk, TargetOk, lowBits_zero_iff, highBits_zero_iff, Bool.and_eq_true, beq_iff_eq, decide_eq_true_eq]

theorem targetFault_ok {t : DWord} (h : TargetOk t) : targetFault t = none := if_pos ((targetOk_iff t).2 h)

theorem targetFault_align {t : DWord} (h : ¬ TargetOk t) : targetFault t = some { code := 0x06, addr := t } :=
  if_neg fun ht => h ((targetOk_iff t).1 ht)

/-- The branch word's address plus 4 * OFF20 (R140). -/
theorem relTarget_eq (s : State) (o : BitVec 20) : s.relTarget o = s.hereAddr + (o.signExtend 64) <<< 2 := by
  have h := ofNat_wrap_add s.wordAddr (sgn 20 o.toNat) 2
  rw [sgn_toNat (by decide)] at h
  rw [State.relTarget, sgn_toNat (by decide), mul_comm]
  refine h.trans ?_
  rw [State.wordAddr, State.hereAddr, BitVec.ofNat_add, BitVec.ofNat_toNat, BitVec.setWidth_eq]; rfl

theorem goTo_map (s : State) (ks : List Nat) (target : Nat → DWord) : s.goTo (ks.map fun k => (k, target k)) = s.sent ks target :=
  List.foldl_map

theorem taking_eq_takers (s : State) (n : BitVec 1) (p : BitVec 4) : s.taking n p = s.takers n p := rfl

theorem checkTargets_map (ks : List Nat) (target : Nat → DWord) :
    checkTargets (ks.map fun k => (k, target k)) = byLane (fun k => targetFault (target k)) ks := byLane_map _ _ _

/-- A word that passes its checks and then fails takes the fault, and does nothing else. -/
theorem issueWord_error {s : State} {r : Req} {body : State → Except Flt State} {f : Flt} (h : s.Passes r) (hb : body s = .error f) :
    s.issueWord r body = .next (s.takeFault f) := by
  rw [State.issueWord, issueFault_none.2 h]; simp only [hb]

/-- The body of a branch: what it checks and what it does. -/
def State.branchBody (s : State) (n : BitVec 1) (p : BitVec 4) (target : Nat → DWord) : Except Flt State := do
  checkTargets ((s.takers n p).map fun k => (k, target k))
  .ok (s.goTo ((s.takers n p).map fun k => (k, target k)))

theorem branchBody_ok {s : State} {n : BitVec 1} {p : BitVec 4} {target : Nat → DWord} (h : ∀ k ∈ s.takers n p, TargetOk (target k)) :
    s.branchBody n p target = .ok (s.sent (s.taking n p) target) := by
  rw [State.branchBody, checkTargets_map, byLane_ok fun k hk => targetFault_ok (h k hk), goTo_map]; rfl

theorem branchBody_error {s : State} {n : BitVec 1} {p : BitVec 4} {target : Nat → DWord} {k : Nat} (hk : k ∈ s.takers n p)
    (hlow : ∀ j ∈ (s.takers n p).takeWhile (· != k), TargetOk (target j)) (hbad : ¬ TargetOk (target k)) :
    s.branchBody n p target = .error { code := 0x06, addr := target k } := by
  rw [State.branchBody, checkTargets_map, byLane_error hk (fun j hj => targetFault_ok (hlow j hj)) (targetFault_align hbad)]; rfl

/-- Settles O19: the checks and the effect of BR and BRI. -/
theorem branchesSendTheTakingThreads : Obligations.BranchesSendTheTakingThreads := by
  intro s n p o a _ _
  refine ⟨fun hp ht => ?_, fun hp => ⟨fun ht => ?_, fun k hk hbad hlow => ?_⟩⟩
  · rw [exec_br, execBr]
    refine issueWord_of hp ?_
    rw [relTarget_eq]
    exact branchBody_ok fun _ _ => ht
  · rw [exec_bri, execBri]
    refine issueWord_of hp ?_
    exact branchBody_ok ht
  · rw [exec_bri, execBri]
    refine issueWord_error hp ?_
    exact branchBody_error hk hlow hbad

-- Calls and returns (R141 to R143).

theorem leBytes_mod (n x : Nat) : leBytes n (x % 2 ^ (8 * n)) = leBytes n x := by
  induction n generalizing x with
  | zero => rfl
  | succ n ih =>
    have hd : x % 2 ^ (8 * (n + 1)) / 256 = x / 256 % 2 ^ (8 * n) := by
      rw [show 8 * (n + 1) = 8 + 8 * n by ring, pow_add, show (2 : Nat) ^ 8 = 256 by rfl, Nat.mod_mul_right_div_self]
    have hm : BitVec.ofNat 8 (x % 2 ^ (8 * (n + 1))) = BitVec.ofNat 8 x := by
      apply BitVec.eq_of_toNat_eq
      rw [BitVec.toNat_ofNat, BitVec.toNat_ofNat, show 8 * (n + 1) = 8 + 8 * n by ring, pow_add, Nat.mod_mul_right_mod]
    rw [leBytes, leBytes, hd, hm, ih]

/-- The low 57 bits of an address. -/
theorem toNat_and_addrMask (x : DWord) : (x &&& 144115188075855871#64).toNat = x.toNat % 2 ^ 57 := by
  rw [BitVec.toNat_and]
  exact Nat.and_two_pow_sub_one_eq_mod x.toNat 57

theorem callFrame_toNat (s : State) (k : Nat) : (s.callFrame k).toNat = s.frameOf k := by
  have hw : (s.thr k).winb / 16 % 16 < 16 := Nat.mod_lt _ (by decide)
  rw [State.frameOf, State.fallThrough]
  simp only [State.callFrame, State.pastRun, BitVec.natCast_eq_ofNat, BitVec.toNat_add, toNat_and_addrMask, BitVec.toNat_shiftLeft,
    BitVec.toNat_ofNat, Nat.shiftLeft_eq]
  omega

theorem pushFrames_eq (s : State) (ks : List Nat) : s.pushFrames ks = s.called ks := by
  simp only [State.pushFrames, State.called, callFrame_toNat]

theorem pushFault_none {s : State} {k : Nat} (h : 8 ≤ (s.thr k).csp) : s.pushFault k = none := if_neg (not_lt.mpr h)

theorem pushFault_some {s : State} {k : Nat} (h : (s.thr k).csp < 8) :
    s.pushFault k = some { code := 0x0C, addr := BitVec.ofNat 64 (laneBase + (s.thr k).csp) - 8 } := by
  have hl : laneBase < 2 ^ 63 ∧ 8 ≤ laneBase := by decide
  rw [State.pushFault, if_pos h]
  congr 2
  apply BitVec.eq_of_toNat_eq
  rw [BitVec.toNat_sub, BitVec.toNat_ofNat, BitVec.toNat_ofNat, wrap, show (8 : DWord).toNat = 8 from rfl]
  omega

section
variable {s : State} {n : BitVec 1} {p : BitVec 4} {i : Instr} {ops : List Opd} {target : Nat → DWord}

/-- The body of a call: what it checks and what it does. -/
def State.callBody (s : State) (n : BitVec 1) (p : BitVec 4) (target : Nat → DWord) : Except Flt State := do
  s.checkCalls ((s.takers n p).map fun k => (k, target k))
  .ok ((s.pushFrames (s.takers n p)).goTo ((s.takers n p).map fun k => (k, target k)))

theorem checkCalls_map (s : State) (ks : List Nat) (target : Nat → DWord) :
    s.checkCalls (ks.map fun k => (k, target k)) = byLane (fun k => (targetFault (target k)).or (s.pushFault k)) ks := byLane_map _ _ _

theorem callBody_ok (h : ∀ k ∈ s.takers n p, TargetOk (target k) ∧ 8 ≤ (s.thr k).csp) :
    s.callBody n p target = .ok ((s.called (s.taking n p)).sent (s.taking n p) target) := by
  have hnone : ∀ k ∈ s.takers n p, ((targetFault (target k)).or (s.pushFault k)) = none := fun k hk => by
    rw [targetFault_ok (h k hk).1, pushFault_none (h k hk).2]; rfl
  rw [State.callBody, checkCalls_map, byLane_ok hnone, pushFrames_eq, goTo_map]; rfl

theorem callBody_error {k : Nat} {x : Flt} (hk : k ∈ s.takers n p)
    (hlow : ∀ j ∈ (s.takers n p).takeWhile (· != k), TargetOk (target j) ∧ 8 ≤ (s.thr j).csp)
    (hf : (targetFault (target k)).or (s.pushFault k) = some x) : s.callBody n p target = .error x := by
  have hnone : ∀ j ∈ (s.takers n p).takeWhile (· != k), ((targetFault (target j)).or (s.pushFault j)) = none := fun j hj => by
    rw [targetFault_ok (hlow j hj).1, pushFault_none (hlow j hj).2]; rfl
  rw [State.callBody, checkCalls_map, byLane_error hk hnone hf]; rfl

/-- A call that passes the checks of its word. -/
theorem call_of {body : State → Except Flt State} (he : exec i s = s.issueWord { instr := i, place := .both, ops := ops } body)
    (hb : body s = s.callBody n p target) (hp : s.Passes { instr := i, place := .both, ops := ops }) :
    ((∀ k ∈ s.taking n p, TargetOk (target k) ∧ 8 ≤ (s.thr k).csp) →
      exec i s = .next ((s.called (s.taking n p)).sent (s.taking n p) target))
    ∧ (∀ k ∈ s.taking n p, (∀ j ∈ (s.taking n p).takeWhile (· != k), TargetOk (target j) ∧ 8 ≤ (s.thr j).csp) →
      (¬ TargetOk (target k) → exec i s = .next (s.takeFault { code := 0x06, addr := target k }))
      ∧ (TargetOk (target k) → (s.thr k).csp < 8 →
        exec i s = .next (s.takeFault { code := 0x0C, addr := BitVec.ofNat 64 (laneBase + (s.thr k).csp) - 8 }))) := by
  rw [he]
  refine ⟨fun h => issueWord_of hp (hb.trans (callBody_ok h)), fun k hk hlow => ⟨fun hbad => ?_, fun hok hfew => ?_⟩⟩
  · exact issueWord_error hp (hb.trans (callBody_error hk hlow (by rw [targetFault_align hbad]; rfl)))
  · exact issueWord_error hp (hb.trans (callBody_error hk hlow (by rw [targetFault_ok hok, pushFault_some hfew]; rfl)))

end

-- Updates of the threads alone.

/-- A state that differs from another in its threads alone. -/
def State.OnlyThreads (t s : State) : Prop := t = { s with threads := t.threads }

/-- Where each thread's update depends on the thread and on what is not a thread, it may be taken from the state before. -/
theorem foldl_updThr_congr {s : State} {F G : State → Nat → Thread → Thread} {l : List Nat} (hl : l.Nodup)
    (hs : Tab.risingFrom 0 s.threads = true)
    (hF : ∀ t k, k ∈ l → t.OnlyThreads s → t.thr k = s.thr k → F t k (t.thr k) = G s k (s.thr k)) :
    l.foldl (fun t k => t.updThr k (F t k)) s = l.foldl (fun t k => t.updThr k (G s k)) s := by
  have key : ∀ (l : List Nat) (t : State), l.Nodup → t.OnlyThreads s → Tab.risingFrom 0 t.threads = true →
      (∀ k ∈ l, t.thr k = s.thr k) → (∀ t k, k ∈ l → t.OnlyThreads s → t.thr k = s.thr k → F t k (t.thr k) = G s k (s.thr k)) →
      l.foldl (fun t k => t.updThr k (F t k)) t = l.foldl (fun t k => t.updThr k (G s k)) t := by
    intro l
    induction l with
    | nil => intros; rfl
    | cons k l ih =>
      intro t hl ht hr hsame hF
      have hk : t.thr k = s.thr k := hsame k List.mem_cons_self
      have hstep : t.updThr k (F t k) = t.updThr k (G s k) := by
        rw [updThr_eq, updThr_eq, hF t k List.mem_cons_self ht hk, hk]
      rw [List.foldl_cons, List.foldl_cons, hstep]
      refine ih _ hl.of_cons ?_ (setThr_rising hr _ _) (fun j hj => ?_) fun t j hj => hF t j (List.mem_cons_of_mem _ hj)
      · rw [State.OnlyThreads] at ht ⊢
        rw [updThr_eq]
        conv_lhs => rw [ht]
        rfl
      · have hne : j ≠ k := fun e => (List.nodup_cons.1 hl).1 (e ▸ hj)
        rw [updThr_eq, thr_setThr hr, if_neg hne, hsame j (List.mem_cons_of_mem _ hj)]
  exact key l s hl rfl hs (fun _ _ => rfl) hF

theorem readHomes_onlyThreads {t s : State} (h : t.OnlyThreads s) (a n : Nat) : t.readHomes a n = s.readHomes a n := by
  induction n generalizing a with
  | zero => rfl
  | succ n ih =>
    rw [State.readHomes, State.readHomes, ih]
    congr 1
    rw [h]; rfl

theorem topFrame_onlyThreads {t s : State} {k : Nat} (h : t.OnlyThreads s) (hk : t.thr k = s.thr k) : t.topFrame k = s.topFrame k := by
  rw [State.topFrame, State.topFrame, State.laneHome, State.laneHome, hk, readHomes_onlyThreads h]

/-- The return address of a frame (R142). -/
theorem frameAddr_eq (f : Nat) : frameAddr f = BitVec.ofNat 64 f &&& 144115188075855871#64 := by
  apply BitVec.eq_of_toNat_eq
  rw [toNat_and_addrMask, frameAddr, BitVec.toNat_ofNat, BitVec.toNat_ofNat]
  omega

theorem targetOk_frame (f : Nat) : TargetOk (frameAddr f) ↔ (BitVec.ofNat 64 f).extractLsb' 0 2 = 0 := by
  rw [TargetOk, lowBits_zero_iff, highBits_zero_iff, lowBits_zero_iff, frameAddr, BitVec.toNat_ofNat, BitVec.toNat_ofNat]
  omega

/-- The window base of a frame (R142). -/
theorem frameWinb_eq (f : Nat) : field f 57 4 = ((BitVec.ofNat 64 f).extractLsb' 57 4).toNat := by
  rw [BitVec.extractLsb'_toNat, Nat.shiftRight_eq_div_pow, BitVec.toNat_ofNat, field]
  omega

section
variable {s : State} {k : Nat}

theorem retFault_none (hroom : (s.thr k).csp + 8 ≤ (s.thr k).laneSz) (hpois : s.isPoisoned (s.laneHome k (s.thr k).csp) 8 = false)
    (ht : (BitVec.ofNat 64 (s.topFrame k)).extractLsb' 0 2 = 0) : s.retFault k = none := by
  rw [State.retFault, if_neg (not_lt.mpr hroom), hpois, targetFault_ok ((targetOk_frame _).2 ht)]; rfl

theorem retFault_room (h : ¬ (s.thr k).csp + 8 ≤ (s.thr k).laneSz) :
    s.retFault k = some { code := 0x0C, addr := BitVec.ofNat 64 (laneBase + (s.thr k).csp) } := if_pos (not_le.mp h)

theorem retFault_poison (hroom : (s.thr k).csp + 8 ≤ (s.thr k).laneSz) (hpois : s.isPoisoned (s.laneHome k (s.thr k).csp) 8 = true) :
    s.retFault k = some { code := 0x1C, cls := 2, addr := BitVec.ofNat 64 (laneBase + (s.thr k).csp) } :=
  (if_neg (not_lt.mpr hroom)).trans (if_pos hpois)

theorem retFault_align (hroom : (s.thr k).csp + 8 ≤ (s.thr k).laneSz) (hpois : s.isPoisoned (s.laneHome k (s.thr k).csp) 8 = false)
    (ht : (BitVec.ofNat 64 (s.topFrame k)).extractLsb' 0 2 ≠ 0) :
    s.retFault k = some { code := 0x06, addr := BitVec.ofNat 64 (s.topFrame k) &&& 144115188075855871#64 } := by
  rw [State.retFault, if_neg (not_lt.mpr hroom), hpois, targetFault_align fun h => ht ((targetOk_frame _).1 h), frameAddr_eq]; rfl

end

/-- The threads after RET: each takes its frame (R142). -/
theorem ret_fold {s : State} (hs : Tab.risingFrom 0 s.threads = true) {ks : List Nat} (hks : ks.Nodup) :
    ks.foldl (fun t k => t.updThr k fun x =>
        { x with csp := x.csp + 8, nextPc := some (frameAddr (t.topFrame k)), nextWinb := some (16 * field (t.topFrame k) 57 4) }) s
      = ks.foldl (fun t k => t.updThr k fun x =>
        { x with csp := (s.thr k).csp + 8, nextPc := some (BitVec.ofNat 64 (s.topFrame k) &&& 144115188075855871#64)
                 nextWinb := some (16 * ((BitVec.ofNat 64 (s.topFrame k)).extractLsb' 57 4).toNat) }) s :=
  foldl_updThr_congr (F := fun t k x => { x with csp := x.csp + 8, nextPc := some (frameAddr (t.topFrame k))
                                                 nextWinb := some (16 * field (t.topFrame k) 57 4) })
    (G := fun s k x => { x with csp := (s.thr k).csp + 8, nextPc := some (BitVec.ofNat 64 (s.topFrame k) &&& 144115188075855871#64)
                                nextWinb := some (16 * ((BitVec.ofNat 64 (s.topFrame k)).extractLsb' 57 4).toNat) })
    hks hs fun t k _ ht hk => by simp only [topFrame_onlyThreads ht hk, hk, frameAddr_eq, frameWinb_eq]

/-- Settles O20: the checks of a call and of a return lane by lane, then the frames pushed or taken. -/
theorem callsPushAndReturnsPopFrames : Obligations.CallsPushAndReturnsPopFrames := by
  refine ⟨fun s n p o a _ _ _ _ e he hp => ?_, fun s n p hp hnd ht => ?_⟩
  · simp only [List.mem_cons, List.not_mem_nil, or_false] at he
    obtain rfl | rfl := he
    · refine call_of (by rw [exec_call, execCall]) ?_ hp
      rw [relTarget_eq]; rfl
    · exact call_of (by rw [exec_calli, execCalli]) rfl hp
  · dsimp only
    have hs := tidy_threads ht
    have hks : (s.taking n p).Nodup := hnd.filter _
    rw [exec_ret, execRet]
    refine ⟨fun hall => issueWord_of hp ?_, fun k hk hlow => ?_⟩
    · have hnone : ∀ k ∈ s.taking n p, s.retFault k = none := fun k hk => retFault_none (hall k hk).1 (hall k hk).2.1 (hall k hk).2.2
      refine Eq.trans ?_ (congrArg Except.ok (ret_fold hs hks))
      show (byLane s.retFault (s.taking n p) >>= _) = _
      rw [byLane_ok hnone]; rfl
    · have hfault : ∀ {x : Flt}, s.retFault k = some x → (byLane s.retFault (s.taking n p)) = .error x := fun hx =>
        byLane_error hk (fun j hj => retFault_none (hlow j hj).1 (hlow j hj).2.1 (hlow j hj).2.2) hx
      refine ⟨fun h => issueWord_error hp ?_, fun h hb => issueWord_error hp ?_, fun h hb ha => issueWord_error hp ?_⟩
      · show (byLane s.retFault (s.taking n p) >>= _) = _
        rw [hfault (retFault_room h)]; rfl
      · show (byLane s.retFault (s.taking n p) >>= _) = _
        rw [hfault (retFault_poison h hb)]; rfl
      · show (byLane s.retFault (s.taking n p) >>= _) = _
        rw [hfault (retFault_align h hb ha)]; rfl

-- Marks (R24, R31, R144, R152 to R154).

theorem checkWindow_cases (s : State) (l : List (Nat × List Nat)) (gadds : Nat) :
    s.checkWindow l gadds = .ok () ∨ ∃ g, s.checkWindow l gadds = .error { code := 0x22, grid := some g } := by
  rw [State.checkWindow]
  split
  · exact .inr ⟨_, rfl⟩
  · exact .inl rfl

theorem sleep_fold (s : State) (count : Nat → Nat) (ks : List Nat) :
    ks.foldl (fun t k => if count k = 0 then t else t.updThr k fun x => { x with nextWait := some (.asleep (count k)) }) s
      = (ks.filter fun k => count k ≠ 0).foldl (fun t k => t.updThr k fun x => { x with nextWait := some (.asleep (count k)) }) s := by
  rw [List.foldl_filter]
  refine List.foldl_ext _ _ _ fun t k _ => ?_
  by_cases h : count k = 0 <;> simp [h]

theorem newBase_eq (s : State) (k : Nat) (rel : BitVec 1) (i : BitVec 11) :
    s.newBase k rel i = i.toInt + (if rel = 1 then ((s.thr k).winb : Int) else 0) := by
  rw [State.newBase, sgn_toNat (by decide)]

/-- A window base that WINB refuses (R144). -/
theorem badBase_iff (b : Int) : (decide (b < 0) || decide (240 < b) || b % 16 != 0) = true ↔ ¬ (0 ≤ b ∧ b ≤ 240 ∧ b % 16 = 0) := by
  simp only [Bool.or_eq_true, decide_eq_true_eq, bne_iff_ne]
  omega

/-- Settles O21: each instruction's checks and the marks it leaves in the threads. -/
theorem exitsSleepsAndWindowBasesMarkTheThreads : Obligations.ExitsSleepsAndWindowBasesMarkTheThreads := by
  refine ⟨fun s n p v a i => ⟨fun hp => ⟨fun hroom => ?_, fun hroom => ?_⟩, fun hp => ?_, fun hp => ?_, fun hp => ?_, fun hp => ?_⟩,
    fun s rel i hp ht hnd => ⟨fun hall => ?_, fun hbad => ?_⟩⟩
  · rw [exec_exit, execExit]
    refine issueWord_of hp ?_
    show (s.checkWindow ((s.taking n p).map fun k => (k, s.headerHomes k)) >>= _) = _
    rw [hroom]; rfl
  · obtain hok | ⟨g, hg⟩ := checkWindow_cases s ((s.taking n p).map fun k => (k, s.headerHomes k)) 0
    · exact absurd hok hroom
    · refine ⟨g, ?_⟩
      rw [exec_exit, execExit]
      refine issueWord_error hp ?_
      show (s.checkWindow ((s.taking n p).map fun k => (k, s.headerHomes k)) >>= _) = _
      rw [hg]; rfl
  · rw [exec_yield, execYield, issuePlain_of hp]; rfl
  · rw [exec_sleep, execSleep, issuePlain_of hp]
    exact congrArg Host.Outcome.next (sleep_fold s (fun k => Nat.min (i.toNat + (if v = 1 then (s.v k a.toNat).toNat else 0)) 65535) s.issue)
  · rw [exec_nop, execNop, issuePlain_of hp]
  · rw [exec_icinv, execIcinv, issuePlain_of hp]; rfl
  · rw [exec_winb, execWinb]
    refine issueWord_of hp ?_
    have hok : (s.issue.any fun k => let b := s.newBase k rel i; decide (b < 0) || decide (240 < b) || b % 16 != 0) = false := by
      rw [List.any_eq_false]
      intro k hk
      rw [badBase_iff, newBase_eq, not_not]
      exact hall k hk
    rw [if_neg (by rw [hok]; decide)]
    refine congrArg Except.ok (foldl_updThr_congr (F := fun t k x => { x with winb := (t.newBase k rel i).toNat })
      (G := fun s k x => { x with winb := (i.toInt + (if rel = 1 then ((s.thr k).winb : Int) else 0)).toNat }) hnd (tidy_threads ht) ?_)
    intro t k _ _ hk
    rw [newBase_eq, hk]
  · rw [exec_winb, execWinb]
    refine issueWord_error hp (if_pos ?_)
    obtain ⟨k, hk, hbad⟩ := hbad
    rw [List.any_eq_true]
    refine ⟨k, hk, ?_⟩
    rw [badBase_iff, newBase_eq]
    exact hbad

end Sys2Proof.Machine
end

section
/-! PROOFS. The status registers (R62, R63, R322). -/

namespace Sys2Proof.Machine

/-- The low word of a number, and the low half of what is put together of a low and a high part. -/
theorem loWord_ofNat (x : Nat) : loWord (BitVec.ofNat 64 x) = BitVec.ofNat 32 x := by
  apply BitVec.eq_of_toNat_eq
  rw [loWord, BitVec.extractLsb'_toNat, BitVec.toNat_ofNat, BitVec.toNat_ofNat, Nat.shiftRight_zero]
  omega

theorem sysr_of {s : State} {d : BitVec 7} {c w : BitVec 1} {sel : BitVec 11}
    (hp : s.Passes { instr := .sysr d c w sel, place := .both, ops := [intOpd (c == 1) (w == 1) d false true] }) :
    exec (.sysr d c w sel) s = .next (s.fixed 4 ((s.actors (c == 1)).flatMap fun k =>
      s.intDst k (c == 1) (w == 1) d.toNat (s.status k sel.toNat + (if w = 1 then 2 ^ 32 * s.status k (sel.toNat + 1) else 0)))) := by
  rw [exec_sysr, execSysr]
  refine (issuePlain_of hp).trans (congrArg (fun l => Host.Outcome.next (s.fixed 4 l)) ?_)
  have hks : (if c = 1 then s.issueGroups.map (·.2) else s.issue) = s.actors (c == 1) := by simp only [State.actors, beq_iff_eq]
  simp only [hks]
  refine List.flatMap_congr fun k _ => ?_
  simp only [State.intDst, beq_iff_eq, loWord_ofNat, mul_comm]

/-- SYSW of one word that its writer may write (R62). -/
theorem sysw_of {s : State} {c : BitVec 1} {a : BitVec 7} {sel : BitVec 11} (hmay : s.mayWrite sel.toNat = true)
    (hp : s.Passes { instr := .sysw c 0 a sel, place := .both, ops := [intOpd (c == 1) false a true false] }) :
    exec (.sysw c 0 a sel) s = .next (s.issue.foldl (fun t k => t.updThr k fun x =>
      x.sysw sel.toNat (if c = 1 then s.wOf k a.toNat else s.v k a.toNat)) s) := by
  have h0 : ((0 : BitVec 1) == 0) = true := rfl
  rw [exec_sysw, execSysw]
  simp only [hmay, h0, Bool.true_or, Bool.and_true, if_true]
  exact issueWord_of hp rfl

/-- SYSW of a register that its writer may not write (R63, R119). -/
theorem sysw_priv {s : State} {c w : BitVec 1} {a : BitVec 7} {sel : BitVec 11} (hmay : s.mayWrite sel.toNat = false)
    (hp : s.Passes { instr := .sysw c w a sel, place := .both }) :
    exec (.sysw c w a sel) s = .next (s.takeFault { code := 0x20 }) := by
  rw [exec_sysw, execSysw]
  simp only [hmay, Bool.false_and, Bool.false_eq_true, if_false]
  exact issueWord_error hp rfl

theorem mayWrite_heap {s : State} {n : Nat} (h : s.onCommand = true) (hlo : 0x40 ≤ n) (hhi : n ≤ 0x43) : s.mayWrite n = true := by
  simp [State.mayWrite, h, hlo, hhi]

theorem mayWrite_compute {s : State} {n : Nat} (h : s.onCommand = false) (h0 : n ≠ 0x20) (h1 : n ≠ 0x21) : s.mayWrite n = false := by
  simp [State.mayWrite, h, h0, h1]

theorem sysw_heap {n : Nat} (hlo : 0x40 ≤ n) (x : Thread) (v : Word) :
    x.sysw n v = { x with nextHeap := x.nextHeap.filter (fun e => e.1 != n) ++ [(n, v)] } := by
  rw [Thread.sysw, if_neg (by omega), if_neg (by omega)]

/-- The two words of a 64-bit counter. -/
theorem words_add (x : Nat) : x % 2 ^ 32 + 2 ^ 32 * (x / 2 ^ 32 % 2 ^ 32) = x % 2 ^ 64 := by omega

theorem loWord_add_hiWord (x : DWord) : (loWord x).toNat + 2 ^ 32 * (hiWord x).toNat = x.toNat := by
  have hx := x.isLt
  rw [loWord, hiWord, BitVec.extractLsb'_toNat, BitVec.extractLsb'_toNat, Nat.shiftRight_zero, Nat.shiftRight_eq_div_pow]
  omega

section
variable {s : State} {k : Nat}

/-- A status register of a compute thread that both kinds of core have (R63). -/
theorem status_common (hk : isCmd k = false) {sel : Nat}
    (h : sel ∈ [0x10, 0x11, 0x12, 0x13, 0x20, 0x21, 0x24, 0x40, 0x41, 0x42, 0x43, 0x60]) : s.status k sel = s.commonStatus k sel := by
  simp only [List.mem_cons, List.not_mem_nil, or_false] at h
  rcases h with rfl | rfl | rfl | rfl | rfl | rfl | rfl | rfl | rfl | rfl | rfl | rfl <;> simp [State.status, hk]

theorem status_clk (hk : isCmd k = false) : s.status k 0x10 + 2 ^ 32 * s.status k 0x11 = s.clk % 2 ^ 64 := by
  rw [status_common hk (by decide), status_common hk (by decide), ← words_add]
  simp [State.commonStatus]

theorem status_hbt (hk : isCmd k = false) : s.status k 0x12 + 2 ^ 32 * s.status k 0x13 = s.clk % 2 ^ 64 / 64 := by
  have hlt : s.hbt < 2 ^ 64 := by rw [State.hbt, State.clk64]; omega
  rw [status_common hk (by decide), status_common hk (by decide)]
  refine Eq.trans ?_ ((words_add s.hbt).trans (Nat.mod_eq_of_lt hlt))
  simp [State.commonStatus]

theorem ctxOf_compute (hk : isCmd k = false) : s.ctxOf k = (s.team (s.thr k).team).ctx := by rw [State.ctxOf, hk]; rfl

theorem status_rheap (hk : isCmd k = false) :
    s.status k 0x40 + 2 ^ 32 * s.status k 0x41 = (s.cx (s.team (s.thr k).team).ctx).rheap.toNat := by
  rw [status_common hk (by decide), status_common hk (by decide), ← loWord_add_hiWord, ← ctxOf_compute hk]
  simp [State.commonStatus, State.heapWord]

theorem status_sheap (hk : isCmd k = false) :
    s.status k 0x42 + 2 ^ 32 * s.status k 0x43 = (s.cx (s.team (s.thr k).team).ctx).sheap.toNat := by
  rw [status_common hk (by decide), status_common hk (by decide), ← loWord_add_hiWord, ← ctxOf_compute hk]
  simp [State.commonStatus, State.heapWord]

/-- The owner of a tile, or the last one's number under bit 31 (R63, R322). -/
theorem status_accown (hk : isCmd k = false) {n : Nat} (hn : n < 16) :
    s.status k (0x30 + n) = match ((s.core (k / 2048)).acc.get {} n).owner with
      | some c => c
      | none => 2 ^ 31 + ((s.core (k / 2048)).acc.get {} n).was := by
  have h : s.status k (0x30 + n) = s.accown (k / 2048) n := by
    interval_cases n <;> simp [State.status, hk, coreOfThread]
  rw [h]; rfl

/-- A status register of a command context (R63). -/
theorem status_cmd (c sel : Nat) : s.status (cmdBase + c) sel = s.cmdStatus (cmdBase + c) sel := by
  have : isCmd (cmdBase + c) = true := by simp [isCmd]
  rw [State.status, this]; rfl

theorem ctxOf_cmd (c : Nat) : s.ctxOf (cmdBase + c) = (s.cmd c).ctx := by
  have : isCmd (cmdBase + c) = true := by simp [isCmd]
  rw [State.ctxOf, this, Nat.add_sub_cancel_left]; rfl

/-- The selectors of tiles and tables have no meaning on a command context. -/
theorem status_cmd_zero (c : Nat) {sel : Nat} (h : (0x30 ≤ sel ∧ sel ≤ 0x3F) ∨ (0x80 ≤ sel ∧ sel ≤ 0x87)) : s.status (cmdBase + c) sel = 0 := by
  rw [status_cmd, State.cmdStatus, State.commonStatus]
  repeat rw [if_neg (by omega)]

end

/-- What the status registers of a compute thread hold, selector by selector (R63). -/
theorem status_compute (s : State) (k : Nat) (hk : isCmd k = false) :
    let t := s.thr k
    let m := s.team t.team
    let g := s.grid m.grid
    s.status k 0x00 = 64 ∧ s.status k 0x01 = k % 64 ∧ s.status k 0x02 = k / 64 % 8 ∧ s.status k 0x03 = k / 512 % 4
    ∧ s.status k 0x05 = k / 2048 / 96 ∧ s.status k 0x06 = (s.grp t.grp).width ∧ s.status k 0x07 = k / 2048 % 96
    ∧ s.status k 0x08 = t.tid ∧ s.status k 0x09 = m.x ∧ s.status k 0x0A = m.y ∧ s.status k 0x0B = m.z
    ∧ s.status k 0x0C = g.desc.ex ∧ s.status k 0x0D = g.desc.ey ∧ s.status k 0x0E = g.desc.ez ∧ s.status k 0x0F = g.depth
    ∧ s.status k 0x10 + 2 ^ 32 * s.status k 0x11 = s.clk % 2 ^ 64
    ∧ s.status k 0x12 + 2 ^ 32 * s.status k 0x13 = s.clk % 2 ^ 64 / 64
    ∧ s.status k 0x20 = t.fpcsr.toNat ∧ s.status k 0x21 = t.chk.toNat ∧ s.status k 0x22 = t.winb ∧ s.status k 0x23 = t.alloc
    ∧ s.status k 0x24 = t.csp ∧ s.status k 0x25 = (s.grp t.grp).accB + 16 * (s.grp t.grp).accC
    ∧ s.status k 0x40 + 2 ^ 32 * s.status k 0x41 = (s.cx m.ctx).rheap.toNat
    ∧ s.status k 0x42 + 2 ^ 32 * s.status k 0x43 = (s.cx m.ctx).sheap.toNat
    ∧ s.status k 0x60 = m.ctx
    ∧ (t.tape.bound = false → s.status k 0x70 = 0xFFFFFFFF) ∧ (t.tape.bound = true → s.status k 0x70 = t.tape.top)
    ∧ (∀ n < 16, s.status k (0x30 + n) = match ((s.core (k / 2048)).acc.get {} n).owner with
        | some c => c
        | none => 2 ^ 31 + ((s.core (k / 2048)).acc.get {} n).was) := by
  have hctx := ctxOf_compute (s := s) hk
  refine ⟨?_, ?_, ?_, ?_, ?_, ?_, ?_, ?_, ?_, ?_, ?_, ?_, ?_, ?_, ?_, status_clk hk, status_hbt hk, ?_, ?_, ?_, ?_, ?_, ?_,
    status_rheap hk, status_sheap hk, ?_, fun h => ?_, fun h => ?_, fun n hn => status_accown hk hn⟩
  all_goals
    simp [State.status, State.commonStatus, layerOfThread, slotOfThread, dieOfCore, coreOfThread, *]

/-- Settles O22: SYSR and SYSW complete, and what the selectors name. -/
theorem statusRegistersHoldAndTakeTheirValues : Obligations.StatusRegistersHoldAndTakeTheirValues := by
  refine ⟨fun s d a c w sel => ⟨sysr_of, ⟨fun hp => sysw_of rfl hp, fun hp => sysw_of rfl hp, fun hc hlo hhi hp => ?_⟩, fun hp hc h0 h1 => ?_⟩,
    status_compute, fun s c hc => ?_⟩
  · rw [sysw_of (mayWrite_heap hc hlo hhi) hp]
    simp only [sysw_heap hlo]
  · exact sysw_priv (mayWrite_compute hc h0 h1) hp
  · refine ⟨?_, ?_, ?_, ?_, ?_, ?_, ?_, fun n hn => ?_, fun n hn => ?_, fun n hn => status_cmd_zero c (by omega), fun n hn => status_cmd_zero c (by omega)⟩
    rotate_right 2
    · rw [status_cmd]
      simp only [List.mem_cons, List.not_mem_nil, or_false] at hn
      rcases hn with rfl | rfl | rfl <;> rfl
    · rw [status_cmd]
      simp only [List.mem_cons, List.not_mem_nil, or_false] at hn
      rcases hn with rfl | rfl | rfl | rfl | rfl | rfl | rfl | rfl | rfl | rfl | rfl | rfl | rfl <;> rfl
    all_goals
      rw [status_cmd]
      simp [State.cmdStatus, State.commonStatus, ctxOf_cmd]

end Sys2Proof.Machine
end

section
/-! PROOFS. Registers: what a write to one leaves in it, and that it leaves the others (R43 to R48). -/

namespace Sys2Proof.Machine

/-- What a register write makes of the thread at a key. -/
def RegWrite.onThr (k : Nat) (x : Thread) : RegWrite → Thread
  | .vreg t p v => if k = t then { x with v := x.v.put 0 p v } else x
  | .temp t n v => if k = t then { x with tm := x.tm.put 0 n v } else x
  | .pred t n b =>
    if k = t ∧ n ≠ 15 then { x with preds := if b then x.preds ||| (1#16 <<< n) else x.preds &&& ~~~(1#16 <<< n) } else x
  | .ptr t n p => if k = t then { x with ptr := x.ptr.put 0 n p } else x
  | .rsv t n v => if k = t then { x with rsv := x.rsv.put 0 n v } else x
  | _ => x

/-- What a register write makes of the group at a key. -/
def RegWrite.onGrp (k : Nat) (x : Group) : RegWrite → Group
  | .ureg g n v => if k = g then { x with w := x.w.put 0 n v } else x
  | .gfield g n f => if k = g then { x with g := x.g.put {} n f } else x
  | .tile g row cells _ => if k = g then x.putRow row cells else x
  | _ => x

section
variable {s : State}

theorem thr_updThr (hs : s.tidy = true) (t k : Nat) (f : Thread → Thread) : (s.updThr t f).thr k = if k = t then f (s.thr k) else s.thr k := by
  rw [updThr_eq, thr_setThr (tidy_threads hs)]
  split
  · next h => rw [h]
  · rfl

theorem grp_updGrp (hs : s.tidy = true) (t k : Nat) (f : Group → Group) : (s.updGrp t f).grp k = if k = t then f (s.grp k) else s.grp k := by
  rw [updGrp_eq, grp_setGrp (tidy_groups hs)]
  split
  · next h => rw [h]
  · rfl

theorem thr_setReg (hs : s.tidy = true) (w : RegWrite) (k : Nat) : (s.setReg w).thr k = w.onThr k (s.thr k) := by
  cases w with
  | pred t n b =>
    by_cases hn : n = 15
    · simp [State.setReg, RegWrite.onThr, hn]
    · rw [State.setReg, if_neg hn, thr_updThr hs, RegWrite.onThr]
      simp only [hn, ne_eq, not_false_eq_true, and_true]
  | vreg t p v => exact thr_updThr hs _ _ _
  | temp t n v => exact thr_updThr hs _ _ _
  | ptr t n p => exact thr_updThr hs _ _ _
  | rsv t n v => exact thr_updThr hs _ _ _
  | ureg g n v => rfl
  | gfield g n f => rfl
  | tile g row cells bad => rfl

theorem grp_setReg (hs : s.tidy = true) (w : RegWrite) (k : Nat) : (s.setReg w).grp k = w.onGrp k (s.grp k) := by
  cases w with
  | pred t n b => rw [State.setReg]; split <;> rfl
  | vreg t p v => rfl
  | temp t n v => rfl
  | ptr t n p => rfl
  | rsv t n v => rfl
  | ureg g n v => exact grp_updGrp hs _ _ _
  | gfield g n f => exact grp_updGrp hs _ _ _
  | tile g row cells bad => exact grp_updGrp hs _ _ _

/-- A register write leaves the identity, the group and the window base of every thread. -/
theorem onThr_fields (w : RegWrite) (k : Nat) (x : Thread) :
    (w.onThr k x).uid = x.uid ∧ (w.onThr k x).grp = x.grp ∧ (w.onThr k x).winb = x.winb := by
  cases w <;> simp only [RegWrite.onThr, and_self] <;> split <;> exact ⟨rfl, rfl, rfl⟩

theorem pend_setReg (w : RegWrite) : (s.setReg w).pend = s.pend := by
  obtain ⟨threads, groups, h⟩ := setReg_spec s w
  rw [h]

theorem stillOf_setReg (hs : s.tidy = true) (w : RegWrite) (p : Pending) : (s.setReg w).stillOf p = s.stillOf p := by
  rw [State.stillOf, State.stillOf, thr_setReg hs, (onThr_fields _ _ _).1]

/-- A register write leaves what is pending to each register. -/
theorem pendingTo_setReg (hs : s.tidy = true) (w : RegWrite) (id : RegId) : (s.setReg w).pendingTo id = s.pendingTo id := by
  simp only [State.pendingTo, pend_setReg, stillOf_setReg hs]

-- Tile registers.

/-- Cells put into a table at consecutive keys. -/
theorem get_putCells (cells : List (BitVec 16)) : ∀ (lo a : Nat) {t : Tab (BitVec 16)}, Tab.risingFrom 0 t = true →
    ((cells.zip (upto lo cells.length)).foldl (fun t e => t.put 0 e.2 e.1) t).get 0 a
      = if lo ≤ a ∧ a < lo + cells.length then cells.getD (a - lo) 0 else t.get 0 a := by
  induction cells with
  | nil => intro lo a t _; rw [if_neg (by simp)]; rfl
  | cons c cells ih =>
    intro lo a t ht
    rw [List.length_cons, upto, List.zip_cons_cons, List.foldl_cons, ih (lo + 1) a (Tab.rising_put _ _ ht), Tab.get_put _ _ ht]
    by_cases ha : a = lo
    · subst ha; simp
    · by_cases hin : lo + 1 ≤ a ∧ a < lo + 1 + cells.length
      · rw [if_pos hin, if_pos (by omega), show a - lo = (a - (lo + 1)) + 1 by omega, List.getD_cons_succ]
      · rw [if_neg hin, if_neg ha, if_neg (by omega)]

theorem get_putRow {g : Group} (hg : g.tidy = true) (row a : Nat) (cells : List (BitVec 16)) :
    (g.putRow row cells).tile.get 0 a = if 32 * row ≤ a ∧ a < 32 * row + cells.length then cells.getD (a - 32 * row) 0 else g.tile.get 0 a := by
  simp only [Group.tidy, Bool.and_eq_true] at hg
  exact get_putCells cells _ _ hg.1.2

theorem pendingTo_eq (s : State) (id : RegId) :
    s.pendingTo id = s.pend.foldl (fun acc p => (firstThat (fun w => w.id == id && s.stillOf p) p.writes).or acc) none := by
  refine List.foldl_ext _ _ _ fun acc p _ => ?_
  cases firstThat (fun w => w.id == id && s.stillOf p) p.writes <;> rfl

theorem foldl_or_none {α β : Type} {f : α → Option β} : ∀ {l : List α} {acc : Option β},
    l.foldl (fun acc p => (f p).or acc) acc = none → acc = none ∧ ∀ p ∈ l, f p = none
  | [], _, h => ⟨h, fun _ hp => absurd hp List.not_mem_nil⟩
  | p :: l, acc, h => by
    obtain ⟨h1, h2⟩ := foldl_or_none (l := l) h
    obtain ⟨hp, hacc⟩ := Option.or_eq_none_iff.1 h1
    exact ⟨hacc, List.forall_mem_cons.2 ⟨hp, h2⟩⟩

/-- Where nothing is pending to a tile register, it reads what its group holds (R60). -/
theorem tileReg_of_none {g n : Nat} (h : s.pendingTo (.tile g n) = none) : s.tileReg g n = (s.grp g).tile := by
  rw [pendingTo_eq] at h
  have hnone := (foldl_or_none h).2
  have hrows : (s.pend.flatMap fun p => p.writes.filter fun w => w.id == .tile g n && s.stillOf p) = [] := by
    rw [List.flatMap_eq_nil_iff]
    intro p hp
    rw [List.filter_eq_nil_iff]
    intro w hw
    rw [firstThat_none.1 (hnone p hp) w hw]
    exact Bool.false_ne_true
  rw [State.tileReg, hrows]; rfl

-- Predicates.

/-- A predicate that a write sets or clears. -/
theorem getLsbD_written (x : BitVec 16) (b : Bool) {m n : Nat} (hm : m < 16) :
    (if b then x ||| (1#16 <<< n) else x &&& ~~~(1#16 <<< n)).getLsbD m = if m = n then b else x.getLsbD m := by
  have h1 : (1#16 <<< n).getLsbD m = decide (m = n) := by
    rw [← BitVec.twoPow_eq, BitVec.getLsbD_twoPow]
    by_cases h : m = n
    · subst h; simp [hm]
    · simp [h, Ne.symm h]
  have h2 : (~~~(1#16 <<< n)).getLsbD m = !decide (m = n) := by rw [BitVec.getLsbD_not, h1, decide_eq_true hm, Bool.true_and]
  cases b
  · rw [if_neg Bool.false_ne_true, BitVec.getLsbD_and, h2]
    by_cases h : m = n <;> simp [h]
  · rw [if_pos rfl, BitVec.getLsbD_or, h1]
    by_cases h : m = n <;> simp [h]

end

theorem eitherWord_of_none {s : State} {id : RegId} (h : s.pendingTo id = none) (key : Nat) (old : Word) : s.eitherWord id key old = old := by
  rw [State.eitherWord, h]

section
variable {s : State} {k n : Nat} (hs : s.tidy = true)
include hs

theorem v_setReg_window (x : Word) (hn : n < 122) (hp : s.pendingTo (.vreg k ((s.thr k).winb + n)) = none) :
    (s.setReg (s.toV k n x)).v k n = x := by
  have ht := tidy_thr hs k
  simp only [Thread.tidy, Bool.and_eq_true] at ht
  obtain ⟨⟨⟨hv, -⟩, -⟩, -⟩ := ht
  rw [State.v, if_pos hn, State.readPhys, thr_setReg hs, (onThr_fields _ _ _).2.2, eitherWord_of_none ((pendingTo_setReg hs _ _).trans hp),
    State.toV, if_pos hn, RegWrite.onThr, if_pos rfl]
  simp only
  rw [Tab.get_put _ _ hv, if_pos rfl]

theorem v_setReg_temp (x : Word) (hn : 122 ≤ n) : (s.setReg (s.toV k n x)).v k n = x := by
  have ht := tidy_thr hs k
  simp only [Thread.tidy, Bool.and_eq_true] at ht
  obtain ⟨⟨⟨-, htm⟩, -⟩, -⟩ := ht
  rw [State.v, if_neg (not_lt.mpr hn), thr_setReg hs, State.toV, if_neg (not_lt.mpr hn), RegWrite.onThr, if_pos rfl]
  simp only
  rw [Tab.get_put _ _ htm, if_pos rfl]

theorem wOf_setReg (x : Word) (hp : s.pendingTo (.ureg (s.thr k).grp n) = none) : (s.setReg (.ureg (s.thr k).grp n x)).wOf k n = x := by
  have hg := tidy_grp hs (s.thr k).grp
  simp only [Group.tidy, Bool.and_eq_true] at hg
  obtain ⟨⟨⟨hw, -⟩, -⟩, -⟩ := hg
  rw [State.wOf, State.w, thr_setReg hs, (onThr_fields _ _ _).2.1, eitherWord_of_none ((pendingTo_setReg hs _ _).trans hp), grp_setReg hs,
    RegWrite.onGrp, if_pos rfl]
  simp only
  rw [Tab.get_put _ _ hw, if_pos rfl]

theorem p_setReg (b : Bool) (hn : n < 15) (hp : s.pendingTo (.pred k n) = none) : (s.setReg (.pred k n b)).p k n = b := by
  have h := pendingTo_setReg hs (.pred k n b) (.pred k n)
  rw [hp] at h
  rw [State.p, if_neg hn.ne, h]
  simp only
  rw [thr_setReg hs, RegWrite.onThr, if_pos ⟨rfl, hn.ne⟩]
  simp only
  rw [getLsbD_written _ _ (by omega), if_pos rfl]

theorem q_setReg (x : BitVec 128) (hp : s.pendingTo (.rsv k n) = none) : (s.setReg (.rsv k n x)).q k n = x := by
  have ht := tidy_thr hs k
  simp only [Thread.tidy, Bool.and_eq_true] at ht
  obtain ⟨⟨-, hr⟩, -⟩ := ht
  have h := pendingTo_setReg hs (.rsv k n x) (.rsv k n)
  rw [hp] at h
  rw [State.q, h]
  simp only
  rw [thr_setReg hs, RegWrite.onThr, if_pos rfl]
  simp only
  rw [Tab.get_put _ _ hr, if_pos rfl]

theorem ptrOf_setReg (x : DWord) : (s.setReg (.ptr k n x)).ptrOf k n = x := by
  have ht := tidy_thr hs k
  simp only [Thread.tidy, Bool.and_eq_true] at ht
  obtain ⟨-, hptr⟩ := ht
  rw [State.ptrOf, thr_setReg hs, RegWrite.onThr, if_pos rfl]
  simp only
  rw [Tab.get_put _ _ hptr, if_pos rfl]

theorem gf_setReg (f : GField) : (s.setReg (.gfield (s.thr k).grp n f)).gf k n = f := by
  have hg := tidy_grp hs (s.thr k).grp
  simp only [Group.tidy, Bool.and_eq_true] at hg
  obtain ⟨⟨⟨-, hg⟩, -⟩, -⟩ := hg
  rw [State.gf, thr_setReg hs, (onThr_fields _ _ _).2.1, grp_setReg hs, RegWrite.onGrp, if_pos rfl]
  simp only
  rw [Tab.get_put _ _ hg, if_pos rfl]

theorem tileReg_setReg {g : Nat} (cells : List (BitVec 16)) (bad : Bool) {i j : Nat} (hc : cells.length = 32) (hj : j < 32)
    (hp : s.pendingTo (.tile g n) = none) :
    ((s.setReg (.tile g (32 * n + i) cells bad)).tileReg g n).get 0 (1024 * n + 32 * i + j) = cells.getD j 0 := by
  rw [tileReg_of_none ((pendingTo_setReg hs _ _).trans hp), grp_setReg hs, RegWrite.onGrp, if_pos rfl, get_putRow (tidy_grp hs g), hc,
    if_pos (by omega), show 1024 * n + 32 * i + j - 32 * (32 * n + i) = j by omega]

end

/-- Settles O7: one lemma for each class of registers. -/
theorem registersReadBackWhatWasWritten : Obligations.RegistersReadBackWhatWasWritten := by
  refine ⟨fun s k n hs => ⟨fun x hn hp => v_setReg_window hs x hn hp, fun x hn => v_setReg_temp hs x hn, fun x hp => wOf_setReg hs x hp,
    fun b hn hp => p_setReg hs b hn hp, fun x => ptrOf_setReg hs x, fun f => gf_setReg hs f, fun x hp => q_setReg hs x hp,
    fun cells bad i hc _ hp j hj => tileReg_setReg hs cells bad hc hj hp⟩, fun s k b => ⟨rfl, rfl⟩⟩

-- The other registers.

section
variable {s : State} {w : RegWrite} (hs : s.tidy = true)
include hs

/-- A table of a thread keeps an entry that no write to it names. -/
theorem v_setReg_other {k n : Nat} (h : w.id ≠ .vreg k n) : ((s.setReg w).thr k).v.get 0 n = (s.thr k).v.get 0 n := by
  have ht := tidy_thr hs k
  simp only [Thread.tidy, Bool.and_eq_true] at ht
  obtain ⟨⟨⟨hv, -⟩, -⟩, -⟩ := ht
  rw [thr_setReg hs]
  cases w <;> simp only [RegWrite.onThr] <;> split <;> try rfl
  next e => rw [Tab.get_put _ _ hv, if_neg fun x => h (by rw [RegWrite.id, e, x])]

theorem tm_setReg_other {k n : Nat} (h : w.id ≠ .temp k n) : ((s.setReg w).thr k).tm.get 0 n = (s.thr k).tm.get 0 n := by
  have ht := tidy_thr hs k
  simp only [Thread.tidy, Bool.and_eq_true] at ht
  obtain ⟨⟨⟨-, htm⟩, -⟩, -⟩ := ht
  rw [thr_setReg hs]
  cases w <;> simp only [RegWrite.onThr] <;> split <;> try rfl
  next e => rw [Tab.get_put _ _ htm, if_neg fun x => h (by rw [RegWrite.id, e, x])]

theorem rsv_setReg_other {k n : Nat} (h : w.id ≠ .rsv k n) : ((s.setReg w).thr k).rsv.get 0 n = (s.thr k).rsv.get 0 n := by
  have ht := tidy_thr hs k
  simp only [Thread.tidy, Bool.and_eq_true] at ht
  obtain ⟨⟨-, hr⟩, -⟩ := ht
  rw [thr_setReg hs]
  cases w <;> simp only [RegWrite.onThr] <;> split <;> try rfl
  next e => rw [Tab.get_put _ _ hr, if_neg fun x => h (by rw [RegWrite.id, e, x])]

theorem ptrOf_setReg_other {k n : Nat} (h : w.id ≠ .ptr k n) : (s.setReg w).ptrOf k n = s.ptrOf k n := by
  have ht := tidy_thr hs k
  simp only [Thread.tidy, Bool.and_eq_true] at ht
  obtain ⟨-, hptr⟩ := ht
  rw [State.ptrOf, State.ptrOf, thr_setReg hs]
  cases w <;> simp only [RegWrite.onThr] <;> split <;> try rfl
  next e => rw [Tab.get_put _ _ hptr, if_neg fun x => h (by rw [RegWrite.id, e, x])]

theorem preds_setReg_other {k n : Nat} (hn : n < 16) (h : w.id ≠ .pred k n) :
    ((s.setReg w).thr k).preds.getLsbD n = (s.thr k).preds.getLsbD n := by
  rw [thr_setReg hs]
  cases w <;> simp only [RegWrite.onThr] <;> split <;> try rfl
  next e => rw [getLsbD_written _ _ hn, if_neg fun x => h (by rw [RegWrite.id, e.1, x])]

theorem w_setReg_other {g n : Nat} (h : w.id ≠ .ureg g n) : ((s.setReg w).grp g).w.get 0 n = (s.grp g).w.get 0 n := by
  have hg := tidy_grp hs g
  simp only [Group.tidy, Bool.and_eq_true] at hg
  obtain ⟨⟨⟨hw, -⟩, -⟩, -⟩ := hg
  rw [grp_setReg hs]
  cases w <;> simp only [RegWrite.onGrp] <;> split <;> try rfl
  next e => rw [Tab.get_put _ _ hw, if_neg fun x => h (by rw [RegWrite.id, e, x])]

theorem g_setReg_other {g n : Nat} (h : w.id ≠ .gfield g n) : ((s.setReg w).grp g).g.get {} n = (s.grp g).g.get {} n := by
  have hg := tidy_grp hs g
  simp only [Group.tidy, Bool.and_eq_true] at hg
  obtain ⟨⟨⟨-, hg⟩, -⟩, -⟩ := hg
  rw [grp_setReg hs]
  cases w <;> simp only [RegWrite.onGrp] <;> split <;> try rfl
  next e => rw [Tab.get_put _ _ hg, if_neg fun x => h (by rw [RegWrite.id, e, x])]

theorem tile_setReg_other {g row : Nat} (h : ∀ cells bad, w ≠ .tile g row cells bad) (hc : w.cellsFit) {j : Nat} (hj : j < 32) :
    ((s.setReg w).grp g).tile.get 0 (32 * row + j) = (s.grp g).tile.get 0 (32 * row + j) := by
  rw [grp_setReg hs]
  cases w <;> simp only [RegWrite.onGrp] <;> split <;> try rfl
  next g' row' cells bad e =>
    have hrow : row' ≠ row := fun x => h cells bad (by rw [e, x])
    rw [get_putRow (tidy_grp hs g), show cells.length = 32 from hc, if_neg (by omega)]

end

/-- Settles O8: each class of registers keeps what the write does not name. -/
theorem registerWritesChangeOneRegister : Obligations.RegisterWritesChangeOneRegister := by
  intro s w hs
  obtain ⟨threads, groups, e⟩ := setReg_spec s w
  refine ⟨fun k n => v_setReg_other hs, fun k n => tm_setReg_other hs, fun g n => w_setReg_other hs, fun k n => preds_setReg_other hs,
    fun k n => ptrOf_setReg_other hs, fun g n => g_setReg_other hs, fun k n => rsv_setReg_other hs,
    fun g row h hc j hj => tile_setReg_other hs h hc hj, ?_⟩
  rw [e]
  exact ⟨rfl, rfl, rfl, rfl, rfl, rfl⟩

end Sys2Proof.Machine
end

section
/-! PROOFS. Memory read back after writes at homes, and variable-latency results in flight and landing (R55, R58, R59). -/

namespace Sys2Proof.Machine

-- Memory.

theorem writeHome_rising {s : State} (hm : Memory.wf s.mem = true) (ho : Tab.risingFrom 0 s.owned = true) {h : Nat} (hh : h < 2 ^ 110) (b : Byte) :
    Memory.wf (s.writeHome h b).mem = true ∧ Tab.risingFrom 0 (s.writeHome h b).owned = true := by
  obtain ⟨host, poison, e, -⟩ := holdHostLine_spec s h
  rw [State.writeHome, if_pos hh, e, State.recall]
  split
  · exact ⟨Memory.wf_put hm h b, ho⟩
  · exact ⟨Memory.wf_put hm h b, Tab.rising_del ho⟩

/-- What a real home reads after bytes are written at consecutive homes, and the canonical form that the writes keep. -/
theorem readHome_writeHomes : ∀ (bs : List Byte) (s : State) (h : Nat), Memory.wf s.mem = true → Tab.risingFrom 0 s.owned = true →
    h + bs.length ≤ 2 ^ 110 →
    Memory.wf (s.writeHomes h bs).mem = true
    ∧ ∀ a < 2 ^ 110, (s.writeHomes h bs).readHome a = if h ≤ a ∧ a < h + bs.length then bs.getD (a - h) 0 else s.readHome a
  | [], s, h, hm, _, _ => ⟨hm, fun a _ => by rw [if_neg (by simp)]; rfl⟩
  | b :: bs, s, h, hm, ho, hl => by
    rw [List.length_cons] at hl
    have hh : h < 2 ^ 110 := by omega
    obtain ⟨hm', ho'⟩ := writeHome_rising hm ho hh b
    obtain ⟨hw, hr⟩ := readHome_writeHomes bs (s.writeHome h b) (h + 1) hm' ho' (by omega)
    refine ⟨hw, fun a ha => ?_⟩
    rw [State.writeHomes, hr a ha, readHome_writeHome (Tab.rising_of_wf hm) ho b hh ha, List.length_cons]
    by_cases he : a = h
    · subst he
      rw [if_neg (by omega), if_pos rfl, if_pos (by omega), Nat.sub_self, List.getD_cons_zero]
    · by_cases hin : h + 1 ≤ a ∧ a < h + 1 + bs.length
      · rw [if_pos hin, if_pos (by omega), show a - h = a - (h + 1) + 1 by omega, List.getD_cons_succ]
      · rw [if_neg hin, if_neg he, if_neg (by omega)]

/-- Settles O31: by induction on the bytes written. -/
theorem memoryReadsBackWhatWasWritten : Obligations.MemoryReadsBackWhatWasWritten := by
  intro s h bs hm ht hl
  obtain ⟨hw, hr⟩ := readHome_writeHomes bs s h hm (tidy_owned ht) hl
  refine ⟨fun i hi => ?_, fun a ha hlt => ?_, hw⟩
  · rw [hr _ (by omega), if_pos (by omega), Nat.add_sub_cancel_left]
  · rw [hr a hlt, if_neg (by omega)]

-- Variable-latency results.

/-- The result that a word leaves pending, with the name that it takes (R59). -/
def State.pendingOf (s : State) (k : Nat) (ws : List RegWrite) (fl : Flags) (bad quiet : Bool) : Pending :=
  { id := s.nextId, th := k, uid := (s.thr k).uid, run := s.run.id, pc := s.run.pc, pos := s.run.pos, writes := ws, flags := fl
    bad := bad, quiet := quiet }

/-- A variable-latency result leaves one pending entry with one event to land it (R59). -/
theorem variable_eq (s : State) (k : Nat) {ws : List RegWrite} (fl : Flags) (bad quiet : Bool) (h : ws ≠ []) :
    s.variable k ws fl bad quiet = { s.setRun { s.run with late := s.run.late ++ ws.map (·.id) } with
      pend := s.pend ++ [s.pendingOf k ws fl bad quiet]
      agenda := insertEvent (s.clk + 1 + Config.latency s.free) (.resultLands s.nextId) s.agenda
      nextId := s.nextId + 1, free := s.free + 1 } := by
  have he : ws.isEmpty = false := by cases ws with | nil => exact absurd rfl h | cons w ws => rfl
  obtain ⟨slots, hr⟩ := setRun_spec s { s.run with late := s.run.late ++ ws.map (·.id) }
  rw [State.variable, State.variableFrom, he, State.noteLate, hr]
  have hmax : Nat.max 0 (s.clk + 1 + Config.latency s.free) = s.clk + 1 + Config.latency s.free := Nat.zero_max _
  simp only [Bool.false_eq_true, if_false, State.newId, State.laterFrom, State.takeFree, State.scheduleAt, hmax]
  rfl

theorem firstThat_eq_some_of {α : Type} {p : α → Bool} {l : List α} {x : α} (hx : x ∈ l) (hp : p x = true)
    (hu : ∀ y ∈ l, p y = true → y = x) : firstThat p l = some x := by
  rw [firstThat_eq]
  cases hf : l.find? p with
  | none => exact absurd hp (List.find?_eq_none.1 hf x hx)
  | some y => rw [hu y (List.mem_of_find?_eq_some hf) (List.find?_some hf)]

theorem flatMap_filter_nil {α β : Type} {p : α → Bool} {f : α → List β} {l : List α} (h : ∀ x ∈ l, p x = false) : (l.filter p).flatMap f = [] := by
  rw [List.filter_eq_nil_iff.2 fun x hx => by rw [h x hx]; exact Bool.false_ne_true]; rfl

section
variable {s : State} {p : Pending} (hbad : ∀ w ∈ p.writes, w.isBad p.bad = false)
include hbad

/-- A result of a thread that goes on lands whole (R59). -/
theorem land_of (hl : (s.thr p.th).live = true) (hu : (s.thr p.th).uid = p.uid) (hw : (s.thr p.th).wait ≠ .exited) :
    s.land p = (s.writeRegs p.writes).landFlags p := by
  have hg : ((s.thr p.th).wait == .exited) = false := beq_eq_false_iff_ne.2 hw
  simp only [State.land, hl, hu, hg, bne_self_eq_false, Bool.not_true, Bool.or_false, Bool.false_eq_true, if_false,
    flatMap_filter_nil hbad, List.filter_nil, List.append_nil]

/-- Of a result of a thread that has exited its group's registers are written (R55). -/
theorem land_of_exited (hl : (s.thr p.th).live = true) (hu : (s.thr p.th).uid = p.uid) (hw : (s.thr p.th).wait = .exited) :
    s.land p = s.writeRegs (p.writes.filter RegWrite.ofGroup) := by
  have hb : ∀ w ∈ p.writes.filter RegWrite.ofGroup, w.isBad p.bad = false := fun w hw => hbad w (List.mem_of_mem_filter hw)
  simp only [State.land, hl, hu, hw, beq_self_eq_true, bne_self_eq_false, Bool.not_true, Bool.or_false, Bool.false_eq_true, if_false, if_true,
    flatMap_filter_nil hb, List.filter_nil, List.append_nil]

end

theorem land_of_other {s : State} {p : Pending} (hu : (s.thr p.th).uid ≠ p.uid) : s.land p = s := by
  have : ((s.thr p.th).uid != p.uid) = true := bne_iff_ne.2 hu
  simp only [State.land, this, Bool.or_true, if_true]

theorem resultLands_of {s : State} {id : Nat} {p : Pending} (hp : p ∈ s.pend) (hid : p.id = id) (hu : ∀ q ∈ s.pend, q.id = id → q = p) :
    exec (.resultLands id) s = .next ((State.land { s with pend := s.pend.filter fun x => x.id != id } p).freeDrains (coreOfThread p.th)) := by
  have hf : firstThat (fun (p : Pending) => p.id == id) s.pend = some p :=
    firstThat_eq_some_of hp (beq_iff_eq.2 hid) fun q hq h => hu q hq (beq_iff_eq.1 h)
  rw [exec_resultLands, execResultLands, hf]

theorem resultLands_none {s : State} {id : Nat} (h : ∀ q ∈ s.pend, q.id ≠ id) : exec (.resultLands id) s = .next s := by
  have hf : firstThat (fun (p : Pending) => p.id == id) s.pend = none := firstThat_none.2 fun q hq => beq_eq_false_iff_ne.2 (h q hq)
  rw [exec_resultLands, execResultLands, hf]

/-- Settles O10: what leaves a word pending, and the three ways in which it lands. -/
theorem variableResultsStayPendingAndLand : Obligations.VariableResultsStayPendingAndLand := by
  refine ⟨fun s k ws fl hne => ⟨s.pendingOf k ws fl false false, s.clk + 1 + Config.latency s.free, by omega, rfl, rfl, rfl, rfl, rfl, rfl, rfl,
    rfl, rfl, variable_eq s k fl false false hne⟩, fun s id p => ⟨resultLands_none, fun hp hid hu hbad => ⟨fun hl huid => ⟨fun hw => ?_, fun hw => ?_⟩,
      fun huid => ?_⟩⟩⟩
  · rw [resultLands_of hp hid hu]
    exact congrArg (fun t : State => Host.Outcome.next (t.freeDrains _)) (land_of hbad hl huid hw)
  · rw [resultLands_of hp hid hu]
    exact congrArg (fun t : State => Host.Outcome.next (t.freeDrains _)) (land_of_exited hbad hl huid hw)
  · rw [resultLands_of hp hid hu]
    exact congrArg (fun t : State => Host.Outcome.next (t.freeDrains _)) (land_of_other huid)

end Sys2Proof.Machine
end

section
/-! PROOFS. The checks before a word issues, in their order (R119, R371). -/

namespace Sys2Proof.Machine

/-- The first element that satisfies a test, from what stands before it. -/
theorem firstThat_append {α : Type} {p : α → Bool} {before after : List α} {x : α} (hb : ∀ y ∈ before, p y = false) (hx : p x = true) :
    firstThat p (before ++ x :: after) = some x := by
  induction before with
  | nil => rw [List.nil_append, firstThat, if_pos hx]
  | cons y before ih =>
    rw [List.cons_append, firstThat, if_neg (by rw [hb y List.mem_cons_self]; exact Bool.false_ne_true)]
    exact ih fun z hz => hb z (List.mem_cons_of_mem _ hz)

section
variable {s : State} {bad : Nat → Opd → Bool} {ops : List Opd}

theorem firstBad_of {o : Opd} (h : s.FirstOn bad ops o) : s.firstBad bad ops = some o := by
  obtain ⟨before, after, rfl, ⟨k, hk, hc, hb⟩, hlow⟩ := h
  refine firstThat_append (fun y hy => ?_) (List.any_eq_true.2 ⟨k, hk, Bool.and_eq_true_iff.2 ⟨hc, hb⟩⟩)
  rw [List.any_eq_false]
  intro j hj hjb
  obtain ⟨hcy, hby⟩ := Bool.and_eq_true_iff.1 hjb
  rw [hlow y hy j hj hcy] at hby
  exact Bool.false_ne_true hby

theorem firstBad_of_noneOn (h : s.NoneOn bad ops) : s.firstBad bad ops = none := firstBad_none.2 h

/-- The register checks that come after the range check, from the first that fails (R371). -/
theorem hazardFault_eq (s : State) (ops : List Opd) : s.hazardFault ops =
    ((s.firstBad s.tempUndef ops).map fun o => (0x04, 0, o.n % 128 + 256 * 7)).or
      (((s.firstBad s.breaksStall ops).map fun o => (0x05, 0, o.info)).or
        (((s.firstBad s.breaksAwait ops).map fun o => (0x05, 0, o.info + 2 ^ 12)).or
          ((s.firstBad s.poisoned ops).map fun o => (0x1C, 2, o.info)))) := by
  rw [State.hazardFault]
  cases s.firstBad s.tempUndef ops with
  | some o => rfl
  | none =>
  cases s.firstBad s.breaksStall ops with
  | some o => rfl
  | none =>
  cases s.firstBad s.breaksAwait ops with
  | some o => rfl
  | none => cases s.firstBad s.poisoned ops <;> rfl

end

section
variable {s : State} {r : Req}

theorem issueFault_class {f : Flt} (h : s.classFault r.place = some f) : s.issueFault r = some f := by rw [State.issueFault, h]

theorem issueFault_reserved (hp : s.InPlace r.place) (hw : r.instr.wf = false) : s.issueFault r = some { code := 0x02 } := by
  rw [State.issueFault, classFault_none.2 hp, hw]; rfl

theorem issueFault_late {before after : List (BitVec 7)} {d : BitVec 7} (hp : s.InPlace r.place) (hw : r.instr.wf = true)
    (hl : r.instr.lateDst = before ++ d :: after) (hb : ∀ n ∈ before, n.toNat < 122) (hd : 122 ≤ d.toNat) :
    s.issueFault r = some { code := 0x02, info := d.toNat + 256 * 7 } := by
  have hf : firstThat (fun (n : BitVec 7) => decide (122 ≤ n.toNat)) r.instr.lateDst = some d := by
    rw [hl]
    exact firstThat_append (fun n hn => decide_eq_false (not_le.mpr (hb n hn))) (decide_eq_true hd)
  rw [State.issueFault, classFault_none.2 hp, hw, hf]; rfl

/-- A word that executes where it stands and has no late destination among the temporaries: the register checks decide, and between
them whether a deterministic task may use the opcode. -/
theorem issueFault_named (hp : s.InPlace r.place) (hw : r.instr.wf = true) (hl : ∀ n ∈ r.instr.lateDst, n.toNat < 122) :
    s.issueFault r = ((s.firstBad s.outOfRange r.ops).map fun o => { code := 0x03, info := o.info }).or
      ((if s.issue.any s.isDet then r.det.map fun opc => { code := 0x0D, info := opc } else none).or
        ((s.hazardFault r.ops).map fun (c, cl, i) => { code := c, cls := cl, info := i })) := by
  have hf : firstThat (fun (n : BitVec 7) => decide (122 ≤ n.toNat)) r.instr.lateDst = none :=
    firstThat_none.2 fun n hn => decide_eq_false (not_le.mpr (hl n hn))
  rw [State.issueFault, classFault_none.2 hp, hw, hf, State.rangeFault]
  cases s.firstBad s.outOfRange r.ops with
  | some o => rfl
  | none => cases r.det <;> cases s.issue.any s.isDet <;> rfl

theorem anyDet_false (h : r.det = none ∨ ∀ k ∈ s.issue, s.isDet k = false) :
    (if s.issue.any s.isDet then r.det.map fun opc => ({ code := 0x0D, info := opc } : Flt) else none) = none := by
  rcases h with h | h
  · rw [h]; split <;> rfl
  · rw [if_neg]
    rw [List.any_eq_true]
    rintro ⟨k, hk, hd⟩
    rw [h k hk] at hd
    exact Bool.false_ne_true hd

end

theorem undecoded_illegal (s : State) (w : Word) : s.undecoded w .illegalOpcode = s.takeFault { code := 0x01 } := by
  unfold State.undecoded
  cases s.classFault (whereOf w.toNat) <;> rfl

theorem undecoded_reserved {s : State} {w : Word} (hp : s.InPlace (whereOf w.toNat)) :
    s.undecoded w .reservedField = s.takeFault { code := 0x02 } := by
  unfold State.undecoded
  rw [classFault_none.2 hp]

/-- R119: a word of no instruction, or one with a reserved field, faults. -/
theorem word_illegal {s : State} {iss : Nat} {r : Run} {w : Word} {rest : List Word} (hw : r.words.drop (r.pos - 1) = w :: rest)
    (ho : opcOf w.toNat ∈ [0, 1, 0x77, 0x7F]) : s.word iss r = .next (s.takeFault { code := 0x01 }) := by
  have hd : decode (w :: rest) = .error .illegalOpcode := by
    simp only [List.mem_cons, List.not_mem_nil, or_false] at ho
    rcases ho with h | h | h | h <;> simp [decode, h]
  rw [State.word, hw, hd]
  exact congrArg Host.Outcome.next (undecoded_illegal s _)

theorem word_reserved {s : State} {iss : Nat} {r : Run} {w : Word} {rest : List Word} (hw : r.words.drop (r.pos - 1) = w :: rest)
    (hd : decode (w :: rest) = .error .reservedField) (hp : s.InPlace (whereOf w.toNat)) :
    s.word iss r = .next (s.takeFault { code := 0x02 }) := by
  have hg : r.words.getD (r.pos - 1) 0 = w := by
    rw [List.getD_eq_getElem?_getD, ← List.head?_drop, hw]; rfl
  rw [State.word, hw, hd, hg]
  exact congrArg Host.Outcome.next (undecoded_reserved hp)

/-- Settles O6: the checks stand in a row, each of which decides where those before it pass. -/
theorem firstFailingCheckNamesTheFault : Obligations.FirstFailingCheckNamesTheFault := by
  refine ⟨fun s iss r w rest hw => ⟨word_illegal hw, word_reserved hw⟩, fun s r => ?_⟩
  dsimp only
  refine ⟨fun hc ho => issueFault_class (by simp [State.classFault, hc, ho]), fun hc ho => issueFault_class (by simp [State.classFault, hc, ho]),
    issueFault_reserved, fun before d after ⟨hp, hw⟩ => issueFault_late hp hw, fun o ⟨⟨hp, hw⟩, hl⟩ hf => ?_, fun opc ⟨⟨⟨hp, hw⟩, hl⟩, hr⟩ hd ⟨k, hk, hdet⟩ => ?_,
    fun o ⟨⟨⟨⟨hp, hw⟩, hl⟩, hr⟩, ha⟩ hf => ?_, fun o ⟨⟨⟨⟨⟨hp, hw⟩, hl⟩, hr⟩, ha⟩, ht⟩ hf => ?_, fun o ⟨⟨⟨⟨⟨⟨hp, hw⟩, hl⟩, hr⟩, ha⟩, ht⟩, hs⟩ hf => ?_,
    fun o ⟨⟨⟨⟨⟨⟨⟨hp, hw⟩, hl⟩, hr⟩, ha⟩, ht⟩, hs⟩, hv⟩ hf => ?_, fun ⟨⟨⟨⟨⟨⟨⟨hp, hw⟩, hl⟩, hr⟩, ha⟩, ht⟩, hs⟩, hv⟩ hf => ?_⟩
  · rw [issueFault_named hp hw hl, firstBad_of hf]; rfl
  · rw [issueFault_named hp hw hl, firstBad_of_noneOn hr, hd, if_pos (List.any_eq_true.2 ⟨k, hk, hdet⟩)]; rfl
  · rw [issueFault_named hp hw hl, firstBad_of_noneOn hr, anyDet_false ha, hazardFault_eq, firstBad_of hf]; rfl
  · rw [issueFault_named hp hw hl, firstBad_of_noneOn hr, anyDet_false ha, hazardFault_eq, firstBad_of_noneOn ht, firstBad_of hf]; rfl
  · rw [issueFault_named hp hw hl, firstBad_of_noneOn hr, anyDet_false ha, hazardFault_eq, firstBad_of_noneOn ht, firstBad_of_noneOn hs,
      firstBad_of hf]; rfl
  · rw [issueFault_named hp hw hl, firstBad_of_noneOn hr, anyDet_false ha, hazardFault_eq, firstBad_of_noneOn ht, firstBad_of_noneOn hs,
      firstBad_of_noneOn hv, firstBad_of hf]; rfl
  · rw [issueFault_named hp hw hl, firstBad_of_noneOn hr, anyDet_false ha, hazardFault_eq, firstBad_of_noneOn ht, firstBad_of_noneOn hs,
      firstBad_of_noneOn hv, firstBad_of_noneOn hf]; rfl

end Sys2Proof.Machine
end

section
/-! PROOFS. Floating-point words: their results, the flags they raise, and the traps that follow (R156 to R169). -/

namespace Sys2Proof.Machine

-- The run that a word leaves.

theorem run_of_running {s : State} {r : Run} (h : (s.slot s.cur).phase = .running r) : s.run = r := by rw [State.run, h]

theorem run_setRun {s : State} (hs : s.tidy = true) {r r' : Run} (h : (s.slot s.cur).phase = .running r) : (s.setRun r').run = r' := by
  have he : s.setRun r' = s.setSlot s.cur { s.slot s.cur with phase := .running r' } := by rw [State.setRun, h]; rfl
  refine run_of_running ?_
  rw [he, setSlot_cur, slot_setSlot (tidy_slots hs), if_pos rfl]

/-- Results put in flight change of the run its results in flight alone. -/
theorem run_fixed {s : State} (hs : s.tidy = true) (lat : Nat) (ws : List RegWrite) :
    ∃ fx, (s.fixed lat ws).run = { s.run with fixed := fx } := by
  obtain ⟨threads, h⟩ := markTemps_spec ws (s.setRun { s.run with fixed := s.run.fixed ++ ws.map fun w => { due := s.clk + lat, write := w } })
  have hrun : (s.fixed lat ws).run = (s.setRun { s.run with fixed := s.run.fixed ++ ws.map fun w => { due := s.clk + lat, write := w } }).run := by
    rw [State.fixed, h]; rfl
  rw [hrun]
  cases hp : (s.slot s.cur).phase with
  | running r => exact ⟨_, run_setRun hs hp⟩
  | idle => exact ⟨s.run.fixed, by rw [State.setRun, hp]⟩
  | chosen a b c d => exact ⟨s.run.fixed, by rw [State.setRun, hp]⟩

theorem raiseAll_spec (l : List (Nat × Flags)) (s : State) : ∃ threads, s.raiseAll l = { s with threads := threads } := by
  induction l generalizing s with
  | nil => exact ⟨s.threads, rfl⟩
  | cons e l ih =>
    obtain ⟨threads, h⟩ := ih (s.raiseFlags e.1 e.2)
    have hf : ∃ threads, s.raiseFlags e.1 e.2 = { s with threads := threads } := by
      rw [State.raiseFlags]
      split
      · exact ⟨s.threads, rfl⟩
      · exact ⟨_, rfl⟩
    obtain ⟨threads', h'⟩ := hf
    exact ⟨threads, h.trans (by rw [h'])⟩

/-- The run after a floating-point word has put its results in flight and raised its flags. -/
theorem run_raiseAll_fixed {s : State} (hs : s.tidy = true) (lat : Nat) (ws : List RegWrite) (raised : List (Nat × Flags)) :
    ∃ fx, ((s.fixed lat ws).raiseAll raised).run = { s.run with fixed := fx } := by
  obtain ⟨threads, h⟩ := raiseAll_spec raised (s.fixed lat ws)
  obtain ⟨fx, hfx⟩ := run_fixed hs lat ws
  refine ⟨fx, ?_⟩
  rw [← hfx, h]; rfl

-- Traps (R158).

/-- A bit of a union of flags. -/
theorem getLsbD_foldl_or {α : Type} (g : α → Flags) (i : Nat) : ∀ (l : List α) (x : Flags),
    (l.foldl (fun f e => f ||| g e) x).getLsbD i = (x.getLsbD i || l.any fun e => (g e).getLsbD i)
  | [], x => by simp
  | e :: l, x => by rw [List.foldl_cons, getLsbD_foldl_or g i l, BitVec.getLsbD_or, List.any_cons, Bool.or_assoc]

/-- A union of flags depends on which flags stand in the list alone. -/
theorem foldl_or_congr {α β : Type} {g : α → Flags} {g' : β → Flags} {l : List α} {l' : List β}
    (h : ∀ x, (∃ e ∈ l, g e = x) ↔ ∃ e ∈ l', g' e = x) : l.foldl (fun f e => f ||| g e) 0 = l'.foldl (fun f e => f ||| g' e) 0 := by
  apply BitVec.eq_of_getLsbD_eq
  intro i _
  rw [getLsbD_foldl_or, getLsbD_foldl_or, Bool.eq_iff_iff, Bool.or_eq_true, Bool.or_eq_true, List.any_eq_true, List.any_eq_true]
  refine or_congr Iff.rfl ⟨fun ⟨e, he, hb⟩ => ?_, fun ⟨e, he, hb⟩ => ?_⟩
  · obtain ⟨e', he', hx⟩ := (h (g e)).1 ⟨e, he, rfl⟩
    exact ⟨e', he', hx ▸ hb⟩
  · obtain ⟨e', he', hx⟩ := (h (g' e)).2 ⟨e, he, rfl⟩
    exact ⟨e', he', hx ▸ hb⟩

/-- A list of raised flags is that of an issue set: each issued thread stands in it, with its flags, and no other. -/
def State.RaisedBy (s : State) (raised : List (Nat × Flags)) (fl : Nat → Flags) : Prop := ∀ e, e ∈ raised ↔ e.1 ∈ s.issue ∧ e.2 = fl e.1

theorem raisedBy_map (s : State) (fl : Nat → Flags) : s.RaisedBy (s.issue.map fun k => (k, fl k)) fl := fun e => by
  rw [List.mem_map]
  refine ⟨?_, fun ⟨hk, hf⟩ => ⟨e.1, hk, by rw [← hf]⟩⟩
  rintro ⟨k, hk, rfl⟩
  exact ⟨hk, rfl⟩

/-- Before the last word of a run, FP_TRAP follows in the threads that trap, with the union of their flags (R158). -/
theorem fpTrap_of {s u : State} {n : Nat} {raised : List (Nat × Flags)} {fl : Nat → Flags} (hissue : u.issue = s.issue)
    (hen : ∀ k, (u.thr k).enables = (s.thr k).enables) (hlast : u.run.pos + n ≤ u.run.words.length) (hr : s.RaisedBy raised fl)
    (ht : s.trapped fl ≠ []) : u.fpTrap n raised = s.thenTraps u n fl := by
  have hmem : ∀ e, e ∈ u.trapping raised ↔ e.1 ∈ s.trapped fl ∧ e.2 = fl e.1 := fun e => by
    rw [State.trapping, List.mem_filter, hr e, State.trapped, List.mem_filter, hen]
    constructor
    · rintro ⟨⟨hk, hf⟩, hd⟩
      exact ⟨⟨hk, hf ▸ hd⟩, hf⟩
    · rintro ⟨⟨hk, hd⟩, hf⟩
      exact ⟨⟨hk, hf⟩, hf ▸ hd⟩
  have hne : (u.trapping raised).isEmpty = false := by
    obtain ⟨k, hk⟩ := List.exists_mem_of_ne_nil _ ht
    cases h : u.trapping raised with
    | nil => exact absurd (h ▸ (hmem (k, fl k)).2 ⟨hk, rfl⟩) List.not_mem_nil
    | cons e l => rfl
  have hnot : decide (u.run.words.length < u.run.pos + n) = false := decide_eq_false (not_lt.mpr hlast)
  have hks : (u.issue.filter fun k => (u.trapping raised).any fun e => e.1 == k) = s.trapped fl := by
    rw [hissue, State.trapped]
    refine List.filter_congr fun k hk => ?_
    rw [Bool.eq_iff_iff, List.any_eq_true, decide_eq_true_eq]
    constructor
    · rintro ⟨e, he, hek⟩
      obtain ⟨hin, -⟩ := (hmem e).1 he
      rw [beq_iff_eq] at hek
      subst hek
      exact of_decide_eq_true (List.mem_filter.1 hin).2
    · intro hd
      exact ⟨(k, fl k), (hmem _).2 ⟨List.mem_filter.2 ⟨hk, decide_eq_true hd⟩, rfl⟩, beq_self_eq_true k⟩
  have hfl : (u.trapping raised).foldl (fun f e => f ||| e.2) (0 : Flags) = (s.trapped fl).foldl (fun f k => f ||| fl k) 0 := by
    refine foldl_or_congr fun x => ⟨?_, ?_⟩
    · rintro ⟨e, he, rfl⟩
      obtain ⟨hk, hf⟩ := (hmem e).1 he
      exact ⟨e.1, hk, hf.symm⟩
    · rintro ⟨k, hk, rfl⟩
      exact ⟨(k, fl k), (hmem _).2 ⟨hk, rfl⟩, rfl⟩
  rw [State.fpTrap, hne, hnot]
  simp only [Bool.false_eq_true, if_false, List.contains_nil, Bool.or_false, hks, hfl]
  rfl

/-- A word that passes its checks and raises enabled flags writes its results, sets its flags and traps (R158). -/
theorem issueFp_traps {s : State} {r : Req} {lat n : Nat} {body : State → State × List (Nat × Flags)} {ws : List RegWrite}
    {raised : List (Nat × Flags)} {fl : Nat → Flags} (hp : s.Passes r) (hs : s.tidy = true) (hb : body s = (s.fixed lat ws, raised))
    (hlast : s.run.pos + n ≤ s.run.words.length) (hr : s.RaisedBy raised fl) (ht : s.trapped fl ≠ []) :
    s.issueFp r n body = .next (s.thenTraps ((s.fixed lat ws).raiseAll raised) n fl) := by
  obtain ⟨fx, hfx⟩ := run_raiseAll_fixed hs lat ws raised
  have hthreads := tidy_threads hs
  have htrap : ((s.fixed lat ws).raiseAll raised).fpTrap n raised = s.thenTraps ((s.fixed lat ws).raiseAll raised) n fl := by
    refine fpTrap_of (by rw [State.issue, hfx]; rfl) (fun k => ?_) (by rw [hfx]; exact hlast) hr ht
    rw [enables_raiseAll raised (enables_fixed hthreads lat ws 0).2, (enables_fixed hthreads lat ws k).1]
  rw [State.issueFp, issueFault_none.2 hp]
  simp only [hb, htrap]

-- What the instructions do.

/-- An instruction is a floating-point word of `n` words that puts `ws` in flight, `lat` clk away, and raises the flags `fl` in each
issued thread. -/
def State.PerformsFp (s : State) (i : Instr) (ops : List Opd) (n lat : Nat) (ws : List RegWrite) (fl : Nat → Flags) : Prop :=
  ∃ body, exec i s = s.issueFp { instr := i, ops := ops } n body ∧ body s = (s.fixed lat ws, s.issue.map fun k => (k, fl k))

section
variable {s : State} {i : Instr} {ops : List Opd} {n lat : Nat} {ws : List RegWrite} {fl : Nat → Flags}

theorem State.PerformsFp.done (h : s.PerformsFp i ops n lat ws fl) (hp : s.Passes { instr := i, ops := ops }) (hq : s.NoTraps)
    (hs : s.tidy = true) : exec i s = .next ((s.fixed lat ws).raiseAll (s.issue.map fun k => (k, fl k))) := by
  obtain ⟨body, he, hb⟩ := h
  rw [he]
  refine issueFp_of hp hs hb fun e hm => ?_
  obtain ⟨k, hk, rfl⟩ := List.mem_map.1 hm
  exact hq k hk

theorem State.PerformsFp.traps (h : s.PerformsFp i ops n lat ws fl) (hp : s.Passes { instr := i, ops := ops }) (hs : s.tidy = true)
    (hlast : s.run.pos + n ≤ s.run.words.length) (ht : s.trapped fl ≠ []) :
    exec i s = .next (s.thenTraps ((s.fixed lat ws).raiseAll (s.issue.map fun k => (k, fl k))) n fl) := by
  obtain ⟨body, he, hb⟩ := h
  rw [he]
  exact issueFp_traps hp hs hb hlast (raisedBy_map s fl) ht

end

theorem toNat_beq_one {n : Nat} (hn : 0 < n) (t : BitVec n) : (t.toNat == 1) = (t == BitVec.ofNat n 1) := by
  have h1 : (BitVec.ofNat n 1).toNat = 1 := Nat.mod_eq_of_lt (Nat.one_lt_two_pow hn.ne')
  rw [Bool.eq_iff_iff, beq_iff_eq, beq_iff_eq, ← BitVec.toNat_inj, h1]

/-- The elements of a register by its type field (R66). -/
theorem onElems_eq (t : BitVec 2) (op : FpOp) (xs : List Nat) : onElems t.toNat op xs = perElem t.toNat op xs := by
  have ht := t.isLt
  generalize t.toNat = n at ht
  interval_cases n
  · rfl
  · rfl
  · simp only [onElems, perElem, fmtOf]; rw [mul_comm]; rfl
  · simp only [onElems, perElem, fmtOf]; rw [mul_comm]; rfl

section
variable (s : State) {i : Instr} (t : BitVec 2) (srcs : List (BitVec 7)) (d : BitVec 7) (op : Nat → FpOp)

/-- A fixed-latency instruction on the elements of registers (R156). -/
theorem performsFp_fixed (he : exec i s = s.fpFixed i t.toNat srcs d op) :
    s.PerformsFp i (.dst d (t == 1) :: srcs.map fun r => .src r (t == 1)) 1 (if t.toNat = 1 then 8 else 4)
      (s.issue.flatMap fun k => s.intDst k false (t.toNat == 1) d.toNat (perElem t.toNat (op k) (s.regVals k t.toNat srcs)).1)
      (fun k => (perElem t.toNat (op k) (s.regVals k t.toNat srcs)).2) := by
  rw [State.fpFixed, toNat_beq_one (by decide)] at he
  refine ⟨_, he, ?_⟩
  simp only [State.fpResults, onElems_eq, List.flatMap_map, List.map_map]
  rfl

/-- A variable-latency instruction on the elements of registers (R158). -/
theorem fpVariable_of {s : State} {i : Instr} {t : BitVec 2} {srcs : List (BitVec 7)} {d : BitVec 7} {op : Nat → FpOp}
    (hp : s.Passes { instr := i, ops := .dst d (t == 1) :: srcs.map fun r => .src r (t == 1) }) :
    s.fpVariable i t.toNat srcs d op = .next (s.fpSent t.toNat d fun k => perElem t.toNat (op k) (s.regVals k t.toNat srcs)) := by
  have hb : (t.toNat == 1) = (t == 1) := toNat_beq_one (by decide) t
  rw [State.fpVariable, hb, issuePlain_of hp, State.fpResults, List.foldl_map]
  simp only [onElems_eq]
  rfl

end

/-- FFMAT's result in a thread (R160). -/
def State.ffmatRes (s : State) (c : BitVec 3) (y : BitVec 1) (a b : BitVec 7) (open0 : Nat → Bool) (k : Nat) : Nat × Flags :=
  let f := if y = 1 then f64 else f32
  let z := if c = 6 then 0 else s.intSrc k false (y == 1) (122 + c.toNat)
  fFma f .rne (open0 k) (f.decode (s.intSrc k false (y == 1) a.toNat)) (f.decode (s.intSrc k false (y == 1) b.toNat)) (f.decode z)

theorem fmtOf_toNat_one (y : BitVec 1) : fmtOf y.toNat = if y = 1 then f64 else f32 := by
  rcases BitVec.eq_zero_or_eq_one y with rfl | rfl <;> rfl

/-- The temporary that FFMAT names by number (R160). -/
theorem ffmat_temp (c : BitVec 3) : BitVec.ofNat 7 (122 + c.toNat) = 122 + c.setWidth 7 := by revert c; decide

theorem ffmat_temp_toNat (c : BitVec 3) (h6 : c ≠ 6) (h7 : c ≠ 7) : (BitVec.ofNat 7 (122 + c.toNat)).toNat = 122 + c.toNat := by
  revert c; decide

/-- FCVT's widths, by the type codes (R167). -/
theorem fcvtWide_eq (t u : BitVec 4) : fcvtWide t.toNat u.toNat = decide (t.toNat ∈ [2, 3, 5] ∨ (t = 4 ∧ u.toNat ∈ [8, 9])) := by
  revert t u; decide

theorem fcvtLat_eq (t u : BitVec 4) :
    (if isWideCode t.toNat || isWideCode u.toNat then 8 else 4) = if t.toNat ∈ [2, 3, 5] ∨ u.toNat ∈ [2, 3, 5] then 8 else 4 := by
  revert t u; decide

theorem fpLat_toNat (t : BitVec 2) : fpLat t.toNat = if t = 1 then 8 else 4 := by revert t; decide

section
variable (s : State) (r t : BitVec 2) (d a b : BitVec 7)

theorem performsFp_ffmat (c : BitVec 3) (y : BitVec 1) (h7 : c ≠ 7) :
    s.PerformsFp (.ffmat c y d a b)
      ([.dst d (y == 1), .src a (y == 1), .src b (y == 1)] ++ (if c = 6 then [] else [.src (122 + c.setWidth 7) (y == 1)])) 1
      (if y.toNat = 1 then 8 else 4)
      (s.issue.flatMap fun k => s.intDst k false (y.toNat == 1) d.toNat (s.ffmatRes c y a b (fun k => s.coinFor (2 ^ 32 + k)) k).1)
      (fun k => (s.ffmatRes c y a b (fun k => s.coinFor (2 ^ 32 + k)) k).2) := by
  refine ⟨_, by rw [exec_ffmat, execFfmat]; rfl, ?_⟩
  have hz : ∀ k, (if c = 6 then 0 else s.intSrc k false (y == 1) (BitVec.ofNat 7 (122 + c.toNat)).toNat)
      = if c = 6 then 0 else s.intSrc k false (y == 1) (122 + c.toNat) := fun k => by
    split
    · rfl
    · next h6 => rw [ffmat_temp_toNat c h6 h7]
  have hy : (y.toNat == 1) = (y == 1) := toNat_beq_one (by decide) y
  simp only [List.flatMap_map, List.map_map, fmtOf_toNat_one, hz, hy]
  rfl

/-- The comparison that FCMP makes in a thread (R161). -/
def State.fcmpRes (s : State) (c : BitVec 4) (t : BitVec 2) (a b : BitVec 7) (k : Nat) : Bool × Flags :=
  let f := fmtOf t.toNat
  fCompare c.toNat (f.decode (s.intSrc k false (t == 1) a.toNat % 2 ^ f.width)) (f.decode (s.intSrc k false (t == 1) b.toNat % 2 ^ f.width))

theorem performsFp_fcmp (c p : BitVec 4) :
    s.PerformsFp (.fcmp c t p a b) [.pdst p.toNat, .src a (t == 1), .src b (t == 1)] 1 (if t = 1 then 8 else 4)
      (s.issue.map fun k => .pred k p.toNat (s.fcmpRes c t a b k).1) (fun k => (s.fcmpRes c t a b k).2) := by
  refine ⟨_, by rw [exec_fcmp, execFcmp], ?_⟩
  simp only [List.map_map, fpLat_toNat]
  rfl

theorem performsFp_fcvt (dt st : BitVec 4) (rnd : BitVec 3) (seed : BitVec 6) :
    let wd := dt.toNat ∈ [2, 3, 5] ∨ (dt = 4 ∧ st.toNat ∈ [8, 9])
    let ws := st.toNat ∈ [2, 3, 5] ∨ (st = 4 ∧ dt.toNat ∈ [8, 9])
    let res := fun k => convert dt.toNat st.toNat (s.cvtRnd k rnd.toNat seed.toNat b) (s.intSrc k false (decide ws) a.toNat)
    s.PerformsFp (.fcvt d a b dt st rnd seed)
      ([.dst d (decide wd), .src a (decide ws)] ++ (if rnd = 4 then [.src b, .usrc seed.toNat false 3] else [])) 2
      (if dt.toNat ∈ [2, 3, 5] ∨ st.toNat ∈ [2, 3, 5] then 8 else 4)
      (s.issue.flatMap fun k => s.intDst k false (decide wd) d.toNat (res k).1) (fun k => (res k).2) := by
  intro wd ws res
  have hwd : fcvtWide dt.toNat st.toNat = decide wd := fcvtWide_eq dt st
  have hws : fcvtWide st.toNat dt.toNat = decide ws := fcvtWide_eq st dt
  have he := (exec_fcvt s d a b dt st rnd seed).trans (execFcvt.eq_1 d a b dt st rnd seed s)
  simp only [hwd, hws, fcvtLat_eq] at he
  refine ⟨_, he, ?_⟩
  simp only [List.flatMap_map, List.map_map]
  rfl

end

theorem signOp_eq (o : Nat) (f : Fmt) (xs : List Nat) : (signOp o f (xs.getD 0 0) (xs.getD 1 0), (0 : Flags)) = signElem o f xs := by
  have hbit : ∀ x : Nat, b2n (bit x (f.width - 1)) = x / 2 ^ (f.width - 1) % 2 := fun x => by
    rcases Nat.mod_two_eq_zero_or_one (x / 2 ^ (f.width - 1)) with h | h <;> simp [bit, b2n, h]
  have hnot : ∀ x : Bool, b2n (!x) = 1 - b2n x := by decide
  have hxor : ∀ x y : Bool, b2n (x != y) = (b2n x + b2n y) % 2 := by decide
  simp only [signOp, signElem, ← hbit]
  congr 3
  split_ifs
  · rfl
  · exact hnot _
  · exact hxor _ _
  · rfl

theorem performsFp_fsgn (s : State) (r t : BitVec 2) (d a b : BitVec 7) :
    s.PerformsFp (.fsgn r t d a b) ([.dst d (t == 1), .src a (t == 1)] ++ (if r = 3 then [] else [.src b (t == 1)])) 1
      (if t.toNat = 1 then 8 else 4)
      (s.issue.flatMap fun k => s.intDst k false (t.toNat == 1) d.toNat
        (perElem t.toNat (signElem r.toNat) (s.regVals k t.toNat (if r = 3 then [a] else [a, b]))).1)
      (fun k => (perElem t.toNat (signElem r.toNat) (s.regVals k t.toNat (if r = 3 then [a] else [a, b]))).2) := by
  have hops : [Opd.dst d (t == 1), .src a (t == 1)] ++ (if r = 3 then [] else [.src b (t == 1)])
      = .dst d (t == 1) :: (if r = 3 then [a] else [a, b]).map fun n => .src n (t == 1) := by
    split <;> rfl
  have h := performsFp_fixed s t (if r = 3 then [a] else [a, b]) d _ (exec_fsgn s r t d a b)
  simp only [signOp_eq] at h
  rw [hops]
  exact h

/-- FCLASS gives one register for each issued thread (R164). -/
theorem fclass_of {s : State} {t : BitVec 2} {d a : BitVec 7} (hp : s.Passes { instr := .fclass t d a, ops := [.dst d, .src a (t == 1)] }) :
    exec (.fclass t d a) s = .next (s.fixed (if t = 1 then 8 else 4) (s.issue.map fun k =>
      s.toV k d.toNat (BitVec.ofNat 32 (perElem t.toNat (fun f xs => (fClass f (xs.getD 0 0), 0)) [s.intSrc k false (t == 1) a.toNat]).1))) := by
  rw [exec_fclass, execFclass, issuePlain_of hp, fpLat_toNat]
  refine congrArg Host.Outcome.next (congrArg (s.fixed _) (List.map_congr_left fun k _ => ?_))
  rw [← onElems_eq]
  by_cases ht : t.toNat < 2
  · simp only [onElems, if_pos ht, List.getD_cons_zero]
  · have hwide : (t == 1) = false := by
      rw [beq_eq_false_iff_ne]
      rintro rfl
      exact ht (by decide)
    have hx : s.intSrc k false (t == 1) a.toNat / 2 ^ 16 < 2 ^ 16 := by
      have := intSrc_lt s k false (t == 1) a.toNat
      rw [hwide] at this ⊢
      simp only [Bool.false_eq_true, if_false] at this
      omega
    simp only [onElems, if_neg ht, List.map_cons, List.map_nil, List.getD_cons_zero, Nat.mod_eq_of_lt hx]

/-- Settles O27: the fixed-latency floating-point words where no thread has a flag enabled. -/
theorem floatingPointInstructionsGiveTheirResults : Obligations.FloatingPointInstructionsGiveTheirResults := by
  refine ⟨fun s r t d a b hq hs => ?_, fun s t d a b hq hs => ⟨fun c p hp => ?_, fun hp => fclass_of hp, fun dt st rnd seed => ?_⟩⟩
  · dsimp only
    refine ⟨fun e he hp => ?_, fun hp => ⟨fun k => s.coinFor (2 ^ 32 + k), ?_⟩, fun c y hp h7 => ⟨fun k => s.coinFor (2 ^ 32 + k), ?_⟩,
      fun e he hp => ?_, fun hp => ?_, fun hp => ?_⟩
    · simp only [List.mem_cons, List.not_mem_nil, or_false] at he
      rcases he with rfl | rfl | rfl
      · exact (performsFp_fixed s t [a, b] d _ (exec_fadd s r t d a b)).done hp hq hs
      · exact (performsFp_fixed s t [a, b] d _ (exec_fsub s r t d a b)).done hp hq hs
      · exact (performsFp_fixed s t [a, b] d _ (exec_fmul s r t d a b)).done hp hq hs
    · exact (performsFp_fixed s t [a, b, d] d _ (exec_ffma s r t d a b)).done hp hq hs
    · exact (performsFp_ffmat s d a b c y h7).done hp hq hs
    · simp only [List.mem_cons, List.not_mem_nil, or_false] at he
      rcases he with rfl | rfl
      · exact (performsFp_fixed s t [a, b] d _ (exec_fmin s t d a b)).done hp hq hs
      · exact (performsFp_fixed s t [a, b] d _ (exec_fmax s t d a b)).done hp hq hs
    · exact (performsFp_fixed s t [a] d _ (exec_frnd s r t d a)).done hp hq hs
    · refine (performsFp_fsgn s r t d a b).done hp hq hs
  · exact (performsFp_fcmp s t a b c p).done hp hq hs
  · exact fun hp => (performsFp_fcvt s d a b dt st rnd seed).done hp hq hs

-- Variable latency, and traps.

/-- Settles O28: each variable-latency word leaves its results pending. -/
theorem divisionsAndFunctionsStayPending : Obligations.DivisionsAndFunctionsStayPending := by
  refine fun s r t fn d a b => ⟨fun hp => ?_, fun hp => ?_, fun hp => ⟨fun k => s.free * 2 ^ 40 + k, ?_⟩⟩
  · rw [exec_fdiv, execFdiv]
    exact fpVariable_of hp
  · rw [exec_fsqrt, execFsqrt]
    exact fpVariable_of hp
  · rw [exec_fsfu, execFsfu]
    exact fpVariable_of (t := 0) hp

theorem mem_issueGroups {s : State} {k : Nat} (hk : k ∈ s.issue) : ∃ e ∈ s.issueGroups, e.1 = (s.thr k).grp := by
  have hkeep : ∀ (l : List Nat) (acc : List (Nat × Nat)) (g : Nat), (∃ e ∈ acc, e.1 = g) ∨ (∃ k ∈ l, (s.thr k).grp = g) →
      ∃ e ∈ l.foldl (fun acc k => if acc.any (fun e => e.1 == (s.thr k).grp) then acc else acc ++ [((s.thr k).grp, k)]) acc, e.1 = g := by
    intro l
    induction l with
    | nil =>
      rintro acc g (h | ⟨k, hk, -⟩)
      · exact h
      · exact absurd hk List.not_mem_nil
    | cons j l ih =>
      intro acc g h
      rw [List.foldl_cons]
      refine ih _ g ?_
      rcases h with ⟨e, he, hg⟩ | ⟨k, hk, hg⟩
      · left
        split
        · exact ⟨e, he, hg⟩
        · exact ⟨e, List.mem_append_left _ he, hg⟩
      · rcases List.mem_cons.1 hk with rfl | hk
        · left
          split
          · next hany =>
            obtain ⟨e, he, heq⟩ := List.any_eq_true.1 hany
            exact ⟨e, he, (beq_iff_eq.1 heq).trans hg⟩
          · exact ⟨((s.thr k).grp, k), List.mem_append_right _ (List.mem_singleton.2 rfl), hg⟩
        · exact .inr ⟨k, hk, hg⟩
  exact hkeep s.issue [] _ (.inr ⟨k, hk, rfl⟩)

/-- The flags of lanes given group by group are those of the issue set. -/
theorem raisedBy_groups (s : State) (fl : Nat → Flags) :
    s.RaisedBy (s.issueGroups.flatMap fun e => (s.issuedOf e.1).map fun k => (k, fl e.1)) fun k => fl (s.thr k).grp := fun x => by
  rw [List.mem_flatMap]
  constructor
  · rintro ⟨e, -, hx⟩
    obtain ⟨k, hk, rfl⟩ := List.mem_map.1 hx
    exact ⟨(List.mem_filter.1 hk).1, congrArg fl (grp_of_mem_issuedOf hk).symm⟩
  · rintro ⟨hk, hf⟩
    obtain ⟨e, he, hg⟩ := mem_issueGroups hk
    exact ⟨e, he, List.mem_map.2 ⟨x.1, List.mem_filter.2 ⟨hk, beq_iff_eq.2 hg.symm⟩, Prod.ext rfl ((congrArg fl hg).trans hf.symm)⟩⟩

/-- LRED's value and flags in a group (R148). -/
def State.lredRes (s : State) (f : BitVec 4) (a : BitVec 7) (g : Nat) : Option Nat × Flags :=
  redSteps (specCombine f.toNat) (s.grp g).width 0 (Nat.log2 (s.grp g).width)
    (fun j => ((s.issuedOf g).find? fun k => (s.thr k).idx == j).map fun k => s.intSrc k false (f == 11 || f == 12) a.toNat) 0

/-- Settles O29: the words of O27 and LRED where a raised flag is enabled. -/
theorem enabledFlagsTrapAfterTheResult : Obligations.EnabledFlagsTrapAfterTheResult := by
  intro s r t d a b hs hlast _
  dsimp only
  refine ⟨fun e he hp ht => ?_, fun hp => ⟨fun k => s.coinFor (2 ^ 32 + k), fun ht => ?_⟩,
    fun c y hp h7 => ⟨fun k => s.coinFor (2 ^ 32 + k), fun ht => ?_⟩, fun e he hp ht => ?_, fun hp ht => ?_, fun c p hp ht => ?_,
    fun dt st rnd seed hp hlast2 ht => ?_, fun f hg _ hp ht => ?_⟩
  · simp only [List.mem_cons, List.not_mem_nil, or_false] at he
    rcases he with rfl | rfl | rfl
    · exact (performsFp_fixed s t [a, b] d _ (exec_fadd s r t d a b)).traps hp hs hlast ht
    · exact (performsFp_fixed s t [a, b] d _ (exec_fsub s r t d a b)).traps hp hs hlast ht
    · exact (performsFp_fixed s t [a, b] d _ (exec_fmul s r t d a b)).traps hp hs hlast ht
  · exact (performsFp_fixed s t [a, b, d] d _ (exec_ffma s r t d a b)).traps hp hs hlast ht
  · exact (performsFp_ffmat s d a b c y h7).traps hp hs hlast ht
  · simp only [List.mem_cons, List.not_mem_nil, or_false] at he
    rcases he with rfl | rfl
    · exact (performsFp_fixed s t [a, b] d _ (exec_fmin s t d a b)).traps hp hs hlast ht
    · exact (performsFp_fixed s t [a, b] d _ (exec_fmax s t d a b)).traps hp hs hlast ht
  · exact (performsFp_fixed s t [a] d _ (exec_frnd s r t d a)).traps hp hs hlast ht
  · exact (performsFp_fcmp s t a b c p).traps hp hs hlast ht
  · exact (performsFp_fcvt s d a b dt st rnd seed).traps hp hs hlast2 ht
  · rw [exec_lred, execLred]
    refine issueFp_traps hp hs ?_ hlast (raisedBy_groups s fun g => (s.lredRes f a g).2) ht
    simp only [State.laneSets, List.flatMap_map]
    refine Prod.ext (congrArg (s.fixed 6) (List.flatMap_congr fun e h => ?_)) (List.flatMap_congr fun e h => ?_)
    · simp only [treeReduce_laneAt hg h]; rfl
    · simp only [treeReduce_laneAt hg h]; rfl

end Sys2Proof.Machine
end

section
/-! PROOFS. The checks of one access in their order, and the address registers (R176 to R178, R374). -/

namespace Sys2Proof.Machine

theorem permOk_iff (perm : BitVec 4) (bits : Nat) : permOk perm bits = true ↔ perm.toNat &&& bits = bits := by
  rw [permOk, beq_iff_eq]; exact Iff.rfl

theorem winOf_laneStore {va : Nat} (h : laneBase ≤ va) (h' : va < laneBase + 2048) : winOf va = .laneStore := by
  have h1 : ¬ va < teamBase := by simp only [laneBase, teamBase] at *; omega
  have h2 : ¬ va < teamBase + 2 ^ 21 := by simp only [laneBase, teamBase] at *; omega
  rw [winOf, if_neg h1, if_neg h2, if_pos ⟨h, h'⟩]

-- The first three checks: alignment, bounds, permission.

theorem checkAccess_align {s : State} {k : Nat} {a : Ask} {ea : DWord} (h : ea.toNat % a.align ≠ 0) :
    s.checkAccess k a ea = .error { code := 0x06, chk := 1 } := by
  rw [State.checkAccess, if_pos (bne_iff_ne.2 h)]

/-- What the checks after alignment and bounds answer, for an aligned access inside its register's range. -/
theorem checkAccess_bounds {s : State} {k : Nat} {a : Ask} {ea : DWord} (ha : ea.toNat % a.align = 0)
    (h : ¬ ((s.gf k a.g).base.toNat ≤ ea.toNat ∧ ea.toNat + a.size ≤ (s.gf k a.g).base.toNat + (s.gf k a.g).limit.toNat)) :
    s.checkAccess k a ea = .error { code := 0x07, chk := 2 } := by
  have hb : (ea.toNat < (s.gf k a.g).base.toNat || (s.gf k a.g).base.toNat + (s.gf k a.g).limit.toNat < ea.toNat + a.size : Bool) = true := by
    simp only [Bool.or_eq_true, decide_eq_true_eq]; omega
  rw [State.checkAccess, if_neg (by simp [ha]), if_pos hb]

theorem checkAccess_perm {s : State} {k : Nat} {a : Ask} {ea : DWord} (ha : ea.toNat % a.align = 0)
    (h : (s.gf k a.g).base.toNat ≤ ea.toNat ∧ ea.toNat + a.size ≤ (s.gf k a.g).base.toNat + (s.gf k a.g).limit.toNat)
    (hp : (s.gf k a.g).perm.toNat &&& a.perm ≠ a.perm) : s.checkAccess k a ea = .error { code := 0x08, chk := 3 } := by
  have hb : ¬ (ea.toNat < (s.gf k a.g).base.toNat || (s.gf k a.g).base.toNat + (s.gf k a.g).limit.toNat < ea.toNat + a.size : Bool) = true := by
    simp only [Bool.or_eq_true, decide_eq_true_eq]; omega
  have hq : (!permOk (s.gf k a.g).perm a.perm) = true := by
    rw [Bool.not_eq_true', ← Bool.not_eq_true, permOk_iff]; exact hp
  rw [State.checkAccess, if_neg (by simp [ha]), if_neg hb, if_pos hq]

theorem checkAccess_laneStore {s : State} {k : Nat} {a : Ask} {ea : DWord} (ha : ea.toNat % a.align = 0)
    (h : (s.gf k a.g).base.toNat ≤ ea.toNat ∧ ea.toNat + a.size ≤ (s.gf k a.g).base.toNat + (s.gf k a.g).limit.toNat)
    (hp : (s.gf k a.g).perm.toNat &&& a.perm = a.perm) (hk : (s.gf k a.g).kind = 2) (hc : isCmd k = false)
    (hw : winOf ea.toNat = .laneStore) :
    s.checkAccess k a ea = if (s.thr k).laneSz < ea.toNat - laneBase + a.size then .error { code := 0x0B, chk := 4 }
      else .ok { home := s.laneHome k (ea.toNat - laneBase), win := .laneStore } := by
  have hb : ¬ (ea.toNat < (s.gf k a.g).base.toNat || (s.gf k a.g).base.toNat + (s.gf k a.g).limit.toNat < ea.toNat + a.size : Bool) = true := by
    simp only [Bool.or_eq_true, decide_eq_true_eq]; omega
  have hq : ¬ (!permOk (s.gf k a.g).perm a.perm) = true := by rw [(permOk_iff _ _).2 hp]; decide
  rw [State.checkAccess, if_neg (by simp [ha]), if_neg hb, if_neg hq]
  simp only [hw, hk, hc]
  rw [if_neg (by decide), if_neg (by decide)]

/-- Settles O32. -/
theorem accessesAreCheckedInOrder : Obligations.AccessesAreCheckedInOrder := by
  intro s k a ea f va inside
  refine ⟨checkAccess_align, checkAccess_bounds, checkAccess_perm, fun ha hin hp hk hc hlo hhi => ?_⟩
  rw [checkAccess_laneStore ha hin hp hk hc (winOf_laneStore hlo hhi)]
  by_cases hsz : (s.thr k).laneSz < va - laneBase + a.size
  · rw [if_pos hsz, if_neg (by omega)]
  · rw [if_neg hsz, if_pos (by omega)]

-- Address registers (R177, R178).

/-- A field register's permissions and kind as one word. -/
theorem ofNat_perm_kind (perm : BitVec 4) (kind : BitVec 2) :
    BitVec.ofNat 32 (perm.toNat + 16 * kind.toNat) = (kind ++ perm : BitVec 6).setWidth 32 := by
  revert perm kind; decide

theorem gget_computes (s : State) (d : BitVec 7) (g : BitVec 5) (f : BitVec 2) (k : Nat) (x : GField) :
    (if f = 3 then [s.toV k d.toNat (BitVec.ofNat 32 (x.perm.toNat + 16 * x.kind.toNat))]
      else s.toV64 k d.toNat (if f = 0 then s.ptrOf k g.toNat else if f = 1 then x.base else x.limit.setWidth 64))
      = if f = 0 then s.toV64 k d.toNat (s.ptrOf k g.toNat) else if f = 1 then s.toV64 k d.toNat x.base
        else if f = 2 then s.toV64 k d.toNat (x.limit.setWidth 64)
        else [s.toV k d.toNat ((x.kind ++ x.perm : BitVec 6).setWidth 32)] := by
  rw [ofNat_perm_kind]
  have hf : f = 0 ∨ f = 1 ∨ f = 2 ∨ f = 3 := by revert f; decide
  obtain rfl | rfl | rfl | rfl := hf <;> simp

/-- Whether a new pointer of a thread lies outside base to base + limit. -/
def State.ptrOut (s : State) (g k : Nat) (x : Int) : Bool :=
  decide (x < ((s.gf k g).base.toNat : Int)) || decide (((s.gf k g).base.toNat + (s.gf k g).limit.toNat : Int) < x)

theorem checkPointers_ok {s : State} {g : Nat} {f : Nat → Int} (h : s.issue.filter (fun k => s.ptrOut g k (f k)) = []) :
    s.checkPointers g (s.issue.map fun k => (k, f k)) = .ok () := by
  rw [State.checkPointers, List.filter_map]
  have h' : (s.issue.filter ((fun e : Nat × Int => s.ptrOut g e.1 e.2) ∘ fun k => (k, f k))) = [] := h
  simp only [State.ptrOut] at h'
  rw [h']; rfl

/-- The lowest thread whose new pointer is outside decides, and all such threads are named. -/
theorem checkPointers_error {s : State} {g k : Nat} {f : Nat → Int} (h : (s.issue.filter fun k => s.ptrOut g k (f k)).head? = some k) :
    s.checkPointers g (s.issue.map fun k => (k, f k)) =
      .error { code := 0x07, info := 2, addr := BitVec.ofNat 64 (wrap 64 (f k)), lanes := some (s.issue.filter fun k => s.ptrOut g k (f k)) } := by
  obtain ⟨r, hr⟩ : ∃ r, (s.issue.filter fun k => s.ptrOut g k (f k)) = k :: r := by
    cases hl : (s.issue.filter fun k => s.ptrOut g k (f k)) with
    | nil => rw [hl] at h; cases h
    | cons a r => rw [hl] at h; cases h; exact ⟨r, rfl⟩
  rw [State.checkPointers, List.filter_map]
  have h' : (s.issue.filter ((fun e : Nat × Int => s.ptrOut g e.1 e.2) ∘ fun k => (k, f k))) = k :: r := hr
  rw [hr]
  simp only [State.ptrOut] at h'
  rw [h']
  simp only [List.map_cons, List.map_map]
  congr 3
  simp [Function.comp_def]

/-- A word that moves pointers to new numbers: it moves them, or raises BOUNDS. -/
theorem movesPointers {s : State} {r : Req} (hp : s.Passes r) (g : Nat) (f : State → Nat → Int) {new : Nat → DWord}
    (hnew : ∀ k, BitVec.ofNat 64 (wrap 64 (f s k)) = new k) :
    let body := fun s : State => (do
      let l := s.issue.map fun k => (k, f s k)
      s.checkPointers g l
      .ok (s.fixed 4 (l.map fun e => .ptr e.1 g (BitVec.ofNat 64 (wrap 64 e.2)))) : Except Flt State)
    let out := s.issue.filter fun k => s.ptrOut g k (f s k)
    (out = [] → s.issueWord r body = .next (s.fixed 4 (s.issue.map fun k => .ptr k g (new k))))
    ∧ ∀ k, out.head? = some k → s.issueWord r body = .next (s.takeFault { code := 0x07, info := 2, addr := new k, lanes := some out }) := by
  refine ⟨fun h => issueWord_of hp ?_, fun k h => issueWord_error hp ?_⟩
  · show (s.checkPointers g (s.issue.map fun k => (k, f s k)) >>= _) = _
    rw [checkPointers_ok h, List.map_map, ← funext hnew]; rfl
  · show (s.checkPointers g (s.issue.map fun k => (k, f s k)) >>= _) = _
    rw [checkPointers_error h, hnew]; rfl

/-- The step of GADV: a doubleword or a sign-extended word. -/
theorem ofInt_step (w : BitVec 1) (x : DWord) (y : Word) :
    BitVec.ofInt 64 (if w = 1 then x.toInt else y.toInt) = if w = 1 then x else y.signExtend 64 := by
  split
  · exact BitVec.ofInt_toInt
  · rfl

/-- Settles O36. -/
theorem addressRegisterInstructionsComplete : Obligations.AddressRegisterInstructionsComplete := by
  intro s g d a b u w perm kind f sc
  refine ⟨fun hp => ?_, fun hp => ?_, ?_, ?_⟩
  · rw [exec_gset, execGset]; exact issuePlain_of hp
  · rw [exec_gget, execGget, issuePlain_of hp]
    simp only [gget_computes]
  · intro new step out hp
    have hnew : ∀ k, BitVec.ofNat 64 (wrap 64 (((s.ptrOf k g.toNat).toNat : Int) + step k)) = new k := fun k => by
      rw [ofNat_wrap_add_scaled, ofInt_step]
    simp only [exec_gadv, execGadv, ptrOpds, sgn_toNat (show 0 < 64 by decide), sgn_toNat (show 0 < 32 by decide)]
    exact movesPointers hp g.toNat (fun s k => ((s.ptrOf k g.toNat).toNat : Int)
      + (if w = 1 then (s.v64 k a.toNat).toInt else (s.v k a.toNat).toInt) * 2 ^ sc.toNat) hnew
  · intro new out hp
    have hnew : ∀ k, BitVec.ofNat 64 (wrap 64 ((new k).toNat : Int)) = new k := fun k => by
      rw [wrap, Int.emod_eq_of_lt (by positivity) (by exact_mod_cast (new k).isLt), Int.toNat_natCast, BitVec.ofNat_toNat, BitVec.setWidth_eq]
    have hout : out = s.issue.filter fun k => s.ptrOut g.toNat k ((new k).toNat : Int) :=
      List.filter_congr fun k _ => by rw [State.ptrOut]; norm_cast
    rw [hout, exec_gptr, execGptr]
    exact movesPointers hp g.toNat (fun s k => ((s.v64 k a.toNat).toNat : Int)) hnew

end Sys2Proof.Machine
end

section
/-! PROOFS. Weak loads and stores: the lanes' checks, the bytes that a weak load may return, and the words it gives
(R92, R100, R101, R176, R179, R180). -/

namespace Sys2Proof.Machine

-- The lanes' checks.

/-- What the checks of one lane answer, a poisoned source among them (R176, R388). -/
def State.laneCheck (s : State) (a : Ask) (rd : Bool) (e : Nat × DWord) : Except AccFault Spot :=
  match s.checkAccess e.1 a e.2 with
  | .ok p => if rd && s.isPoisoned p.home a.size then .error { code := 0x1C, cls := 2 } else .ok p
  | .error f => .error f

theorem laneCheck_of {s : State} {a : Ask} {rd : Bool} {e : Nat × DWord} {p : Spot} (h : s.checkAccess e.1 a e.2 = .ok p)
    (hp : rd = true → s.isPoisoned p.home a.size = false) : s.laneCheck a rd e = .ok p := by
  have hb : ¬ (rd && s.isPoisoned p.home a.size) = true := by
    cases rd with
    | false => simp
    | true => simp [hp rfl]
  rw [State.laneCheck, h]
  exact if_neg hb

theorem spotsOf_cons {s : State} {a : Ask} {e : Nat × DWord} {p : Spot} (h : s.checkAccess e.1 a e.2 = .ok p) (ks : List (Nat × DWord)) :
    s.spotsOf a (e :: ks) = (e.1, p) :: s.spotsOf a ks := by
  rw [State.spotsOf, List.filterMap_cons, h]; rfl

theorem allowed_cons {s : State} {a : Ask} {rd : Bool} {e : Nat × DWord} {ks : List (Nat × DWord)} (h : s.Allowed a rd (e :: ks)) :
    (∃ p, s.checkAccess e.1 a e.2 = .ok p ∧ (rd = true → s.isPoisoned p.home a.size = false)) ∧ s.Allowed a rd ks :=
  ⟨h e List.mem_cons_self, fun x hx => h x (List.mem_cons_of_mem _ hx)⟩

/-- Where every lane is allowed, each lane's check passes, in order. -/
theorem laneChecks_of {s : State} {a : Ask} {rd : Bool} {ks : List (Nat × DWord)} (h : s.Allowed a rd ks) :
    (ks.filterMap fun e => match s.laneCheck a rd e with | .error f => some (e.1, e.2, f) | .ok _ => none) = []
    ∧ (ks.filterMap fun e => match s.laneCheck a rd e with | .ok p => some (e.1, p) | .error _ => none) = s.spotsOf a ks := by
  induction ks with
  | nil => exact ⟨rfl, rfl⟩
  | cons e ks ih =>
    obtain ⟨⟨p, hc, hp⟩, hks⟩ := allowed_cons h
    obtain ⟨hbad, hgood⟩ := ih hks
    have he := laneCheck_of hc hp
    constructor
    · rw [List.filterMap_cons, he]; exact hbad
    · rw [List.filterMap_cons, he, spotsOf_cons hc, ← hgood]

theorem checkLanes_of {s : State} {a : Ask} {rd : Bool} {ks : List (Nat × DWord)} (h : s.Allowed a rd ks) :
    s.checkLanes a rd ks = .ok (s.spotsOf a ks) := by
  obtain ⟨hbad, hgood⟩ := laneChecks_of h
  have key : ∀ (bad : List (Nat × DWord × AccFault)) (good : List (Nat × Spot)), bad = [] → (match laneFault bad a.wr with | some f => Except.error f | none => .ok good) = .ok good := by
    rintro _ _ rfl; rfl
  rw [← hgood, State.checkLanes, List.filterMap_map, List.filterMap_map]
  exact key _ _ hbad

-- Sizes and addresses.

theorem memSize_eq (z : BitVec 3) : memSize z.toNat = weakSize z := by revert z; decide

theorem weakSize_cases (z : BitVec 3) : weakSize z = 1 ∨ weakSize z = 2 ∨ weakSize z = 4 ∨ weakSize z = 8 ∨ weakSize z = 16 := by
  revert z; decide

theorem eaOf_eq (s : State) (k g : Nat) (x : Int) : s.eaOf k g x = s.ptrOf k g + BitVec.ofInt 64 x := by
  have h := ofNat_wrap_add_scaled (s.ptrOf k g) x 0
  rw [pow_zero, mul_one, BitVec.shiftLeft_zero] at h
  exact h

theorem eaOffset_eq (s : State) (g : BitVec 5) (o : BitVec 9) (size : Nat) : s.eaOffset g o size = s.offsetEas g o size := by
  rw [State.eaOffset, State.offsetEas]
  refine List.map_congr_left fun k _ => ?_
  rw [eaOf_eq, sgn_toNat (by decide), BitVec.ofInt_mul, BitVec.ofInt_natCast]
  rfl

theorem eaIndexed_eq (s : State) (g : BitVec 5) (i : BitVec 7) (c : BitVec 2) : s.eaIndexed g i c = s.indexEas g i c := by
  rw [State.eaIndexed, State.indexEas]
  refine List.map_congr_left fun k _ => ?_
  rw [State.eaOf, ofNat_wrap_add_scaled, sgn_toNat (by decide)]
  rfl

-- Parts of a weak load.

theorem readHomes_eq (s : State) (h n : Nat) : s.readHomes h n = (upto h n).map s.readHome := by
  induction n generalizing h with
  | zero => rfl
  | succ n ih => rw [State.readHomes, ih, upto, List.map_cons]

theorem length_upto (h n : Nat) : (upto h n).length = n := by rw [upto_eq, List.length_range']

theorem upto_append (h m n : Nat) : upto h m ++ upto (h + m) n = upto h (m + n) := by
  simp only [upto_eq, List.range'_append_1]

theorem mem_upto {h n x : Nat} : x ∈ upto h n ↔ h ≤ x ∧ x < h + n := by rw [upto_eq, List.mem_range'_1]

theorem map_getD_upto (bs : List Byte) (h : Nat) : (upto h bs.length).map (fun x => bs.getD (x - h) 0) = bs := by
  refine List.ext_getElem (by rw [List.length_map, length_upto]) fun i h1 h2 => ?_
  simp [upto_eq, List.getElem?_eq_getElem h2]

/-- The parts cover the bytes in order, each once, and none is empty. -/
theorem eightParts_spec (fuel h n : Nat) (hf : n = 0 ∨ n + h % 8 ≤ 8 * fuel) :
    (eightParts fuel h n).flatMap (fun e => upto e.1 e.2) = upto h n
    ∧ ∀ e ∈ eightParts fuel h n, 0 < e.2 ∧ h ≤ e.1 ∧ e.1 + e.2 ≤ h + n := by
  induction fuel generalizing h n with
  | zero =>
    obtain rfl : n = 0 := by omega
    exact ⟨rfl, fun e he => by cases he⟩
  | succ fuel ih =>
    by_cases hn : n = 0
    · subst hn; exact ⟨rfl, fun e he => by cases he⟩
    obtain ⟨m, hm, hle, hlt, hor⟩ : ∃ m, Nat.min n (8 - h % 8) = m ∧ m ≤ n ∧ 0 < m ∧ (m = n ∨ m + h % 8 = 8) :=
      ⟨min n (8 - h % 8), rfl, by omega, by omega, by omega⟩
    rw [eightParts, if_neg hn, hm]
    obtain ⟨hcover, hparts⟩ := ih (h + m) (n - m) (by omega)
    constructor
    · rw [List.flatMap_cons, hcover, upto_append]; congr 1; omega
    · intro e he
      obtain rfl | he := List.mem_cons.1 he
      · exact ⟨hlt, le_refl h, Nat.add_le_add_left hle h⟩
      · obtain ⟨h1, h2, h3⟩ := hparts e he; omega

/-- The bytes of a weak load whose every part is what a function gives for its homes. -/
theorem weakBytes_of {s : State} {k h n : Nat} {p : Spot} (f : Nat → Byte)
    (hp : ∀ a m, 0 < m → h ≤ a → a + m ≤ h + n → s.weakPart k a m p = (upto a m).map f) :
    s.weakBytes k p h n = (upto h n).map f := by
  obtain ⟨hcover, hparts⟩ := eightParts_spec (n / 8 + 2) h n (.inr (by omega))
  calc s.weakBytes k p h n = (eightParts (n / 8 + 2) h n).flatMap (fun e => (upto e.1 e.2).map f) :=
        List.flatMap_congr fun e he => by
          obtain ⟨h0, h1, h2⟩ := hparts e he
          exact hp e.1 e.2 h0 h1 h2
    _ = (upto h n).map f := by rw [← hcover, List.map_flatMap]

-- The sources of a part (R100).

theorem choosePart_mem (i : Nat) {l : List (List Byte)} (h : l ≠ []) : choosePart i l ∈ l := by
  cases l with
  | nil => exact absurd rfl h
  | cons b r =>
    rw [choosePart]
    split
    · exact List.mem_cons_self
    · have hlt : Config.pick i % (b :: r).length < (b :: r).length := Nat.mod_lt _ (by simp)
      rw [List.getD_eq_getElem _ _ hlt]
      exact List.getElem_mem hlt

theorem mapM_of {α β : Type} {g : α → Option β} {f : α → β} {l : List α} (h : ∀ x ∈ l, g x = some (f x)) : l.mapM g = some (l.map f) := by
  induction l with
  | nil => rfl
  | cons x l ih => rw [List.mapM_cons, h x List.mem_cons_self, ih fun y hy => h y (List.mem_cons_of_mem _ hy)]; rfl

theorem partFrom_eq (c : Core) (hs : List Nat) (get : Nat → Option Byte) :
    c.partFrom hs get = hs.mapM fun h => (c.pending h).or (get h) := by
  rw [Core.partFrom]
  congr 1
  funext h
  cases c.pending h <;> rfl

/-- Where each element that serves gives what a function gives, all of them give what it gives. -/
theorem eq_map_of_mapM {α β : Type} {g : α → Option β} {f : α → β} {l : List α} {m : List β} (h : l.mapM g = some m)
    (hg : ∀ x ∈ l, ∀ y, g x = some y → y = f x) : m = l.map f := by
  induction l generalizing m with
  | nil => cases h; rfl
  | cons x l ih =>
    obtain ⟨y, hx, t, hl, rfl⟩ : ∃ y, g x = some y ∧ ∃ t, l.mapM g = some t ∧ y :: t = m := by
      simpa [List.mapM_cons, Option.bind_eq_some_iff] using h
    rw [List.map_cons, ← hg x List.mem_cons_self y hx, ← ih hl fun z hz => hg z (List.mem_cons_of_mem _ hz)]

theorem length_mapM {α β : Type} {g : α → Option β} {l : List α} {m : List β} (h : l.mapM g = some m) : m.length = l.length := by
  induction l generalizing m with
  | nil => cases h; rfl
  | cons x l ih =>
    obtain ⟨y, -, t, hl, rfl⟩ : ∃ y, g x = some y ∧ ∃ t, l.mapM g = some t ∧ y :: t = m := by
      simpa [List.mapM_cons, Option.bind_eq_some_iff] using h
    rw [List.length_cons, List.length_cons, ih hl]

/-- The home overlaid by pending bytes always serves. -/
theorem sources_ne_nil (s : State) (k : Nat) (hs : List Nat) (cached : Bool) : s.sources k hs cached ≠ [] := by
  have h : (s.core (coreOfThread k)).partFrom hs (fun h => some (s.readHome h))
      = some (hs.map fun h => ((s.core (coreOfThread k)).pending h).getD (s.readHome h)) := by
    rw [partFrom_eq]
    exact mapM_of fun x _ => by cases (s.core (coreOfThread k)).pending x <;> rfl
  simp [State.sources, h]

theorem length_of_mem_sources {s : State} {k : Nat} {hs : List Nat} {cached : Bool} {b : List Byte} (h : b ∈ s.sources k hs cached) :
    b.length = hs.length := by
  simp only [State.sources, Core.partFrom, List.mem_append, Option.mem_toList] at h
  obtain (h | h) | h := h
  · exact length_mapM h
  · split at h
    · obtain h | h := List.mem_append.1 h
      · exact length_mapM (Option.mem_toList.1 h)
      · exact length_mapM (Option.mem_toList.1 h)
    · cases h
  · split at h
    · obtain rfl := List.mem_singleton.1 h
      rw [List.length_map]
    · cases h

theorem weakPart_mem {s : State} {k : Nat} {p : Spot} (hw : p.win ≠ .laneStore) (h n : Nat) :
    s.weakPart k h n p ∈ s.sources k (upto h n) (p.win == .paged && !p.uncached) := by
  rw [State.weakPart, if_neg (by simpa using hw)]
  exact choosePart_mem _ (sources_ne_nil _ _ _ _)

theorem length_weakPart (s : State) (k h n : Nat) (p : Spot) : (s.weakPart k h n p).length = n := by
  by_cases hw : p.win = .laneStore
  · rw [State.weakPart, if_pos (by simpa using hw), readHomes_eq, List.length_map, length_upto]
  · rw [length_of_mem_sources (weakPart_mem hw h n), length_upto]

theorem length_weakBytes (s : State) (k h n : Nat) (p : Spot) : (s.weakBytes k p h n).length = n := by
  obtain ⟨hcover, -⟩ := eightParts_spec (n / 8 + 2) h n (.inr (by omega))
  have hl := congrArg List.length hcover
  rw [List.length_flatMap, length_upto] at hl
  simp only [length_upto] at hl
  rw [State.weakBytes, List.length_flatMap]
  simpa only [length_weakPart] using hl

/-- A part whose every source is the same list of bytes. -/
theorem weakPart_of {s : State} {k a m : Nat} {p : Spot} {b : List Byte} (hw : p.win ≠ .laneStore)
    (h : ∀ x ∈ s.sources k (upto a m) (p.win == .paged && !p.uncached), x = b) : s.weakPart k a m p = b :=
  h _ (weakPart_mem hw a m)

theorem copies_none {c : Core} {line : Nat} (h : c.l1.get none line = none) : c.copies.get none line = none := by
  rw [Core.copies]; split
  · rfl
  · exact h

/-- The sources of a part, where the slot's L0 holds no copy of it, nor the core's L1 of a byte that is not pending: those that serve give
each byte as it is pending or at home, but for the home alone. -/
theorem eq_of_mem_sources {s : State} {k : Nat} {hs : List Nat} {cached : Bool} {b : List Byte} (f : Nat → Byte)
    (hl0 : ∀ h ∈ hs, (s.slot (issuerOfThread k)).l0.get none (h / 128) = none)
    (hpend : ∀ h ∈ hs, ((s.core (coreOfThread k)).pending h).getD (s.readHome h) = f h)
    (hl1 : ∀ h ∈ hs, (s.core (coreOfThread k)).pending h = none → (s.core (coreOfThread k)).l1.get none (h / 128) = none)
    (hhome : ∀ h ∈ hs, (s.core (coreOfThread k)).pending h = none ∨ s.passesOver k (s.core (coreOfThread k)) h = true → s.readHome h = f h)
    (hb : b ∈ s.sources k hs cached) : b = hs.map f := by
  simp only [State.sources, List.mem_append, partFrom_eq, Option.mem_toList] at hb
  obtain (hb | hb) | hb := hb
  · refine eq_map_of_mapM hb fun h hh y hy => ?_
    rw [← hpend h hh]
    cases hp : (s.core (coreOfThread k)).pending h with
    | none => rw [hp] at hy; exact (Option.some_inj.1 hy).symm
    | some x => rw [hp] at hy; exact (Option.some_inj.1 hy).symm
  · split at hb
    · simp only [List.mem_append, Option.mem_toList] at hb
      obtain hb | hb := hb
      · refine eq_map_of_mapM hb fun h hh y hy => ?_
        rw [← hpend h hh]
        cases hp : (s.core (coreOfThread k)).pending h with
        | none => rw [hp, copies_none (hl1 h hh hp)] at hy; cases hy
        | some x => rw [hp] at hy; exact (Option.some_inj.1 hy).symm
      · refine eq_map_of_mapM hb fun h hh y hy => ?_
        rw [hl0 h hh] at hy; cases hy
    · cases hb
  · split at hb
    · next hall =>
      rw [List.mem_singleton.1 hb]
      refine List.map_congr_left fun h hh => hhome h hh ?_
      simpa using List.all_eq_true.1 hall h hh
    · cases hb

/-- Bytes of which the core holds nothing are read at their homes. -/
theorem weakBytes_atHome {s : State} {k h m : Nat} (p : Spot) (ho : ∀ j < m, s.OnlyAtHome k (h + j)) :
    s.weakBytes k p h m = s.readHomes h m := by
  rw [readHomes_eq]
  refine weakBytes_of s.readHome fun a n _ hlo hhi => ?_
  by_cases hw : p.win = .laneStore
  · rw [State.weakPart, if_pos (by simpa using hw), readHomes_eq]
  have hat : ∀ x ∈ upto a n, s.OnlyAtHome k x := fun x hx => by
    obtain ⟨h1, h2⟩ := mem_upto.1 hx
    have hj := ho (x - h) (by omega)
    rwa [Nat.add_sub_cancel' (by omega : h ≤ x)] at hj
  refine weakPart_of hw fun b hb => eq_of_mem_sources s.readHome (fun x hx => ?_) (fun x hx => ?_) (fun x hx _ => ?_) (fun _ _ _ => rfl) hb
  all_goals obtain ⟨hp, hl1, hl0⟩ := hat x hx
  · exact hl0
  · rw [hp]; rfl
  · exact hl1

theorem passesOver_of {s : State} {k h : Nat} {c : Core} {w : Who} {clk : Nat} (hw : c.who.get none h = some w)
    (hb : ((s.thr k).uid, clk) ∈ w.by_) : s.passesOver k c h = false := by
  rw [State.passesOver, hw]
  simp only [Bool.not_eq_false', List.any_eq_true]
  exact ⟨_, hb, by simp [Thread.follows]⟩

/-- Bytes that the thread stored itself are what it reads. -/
theorem weakBytes_storedItself {s : State} {k h : Nat} {p : Spot} {bs : List Byte} (hw : p.win ≠ .laneStore)
    (ho : ∀ j < bs.length, s.StoredItself k (h + j) (bs.getD j 0) ∧ (s.slot (issuerOfThread k)).l0.get none ((h + j) / 128) = none) :
    s.weakBytes k p h bs.length = bs := by
  have hat : ∀ x, h ≤ x → x < h + bs.length → s.StoredItself k x (bs.getD (x - h) 0)
      ∧ (s.slot (issuerOfThread k)).l0.get none (x / 128) = none := fun x h1 h2 => by
    have hj := ho (x - h) (by omega)
    rwa [Nat.add_sub_cancel' h1] at hj
  have hall := weakBytes_of (s := s) (k := k) (h := h) (n := bs.length) (p := p) (fun x => bs.getD (x - h) 0) fun a n _ hlo hhi => by
    have hin : ∀ x ∈ upto a n, h ≤ x ∧ x < h + bs.length := fun x hx => by have := mem_upto.1 hx; omega
    refine weakPart_of hw fun b hb =>
      eq_of_mem_sources _ (fun x hx => ?_) (fun x hx => ?_) (fun x hx hn => ?_) (fun x hx hn => ?_) hb
    all_goals obtain ⟨⟨hp, w, hwho, clk, hby⟩, hl0⟩ := hat x (hin x hx).1 (hin x hx).2
    · exact hl0
    · rw [hp]; rfl
    · rw [hp] at hn; cases hn
    · rw [hp, passesOver_of hwho hby] at hn
      obtain hn | hn := hn <;> cases hn
  rw [hall, map_getD_upto]

-- The words that loaded bytes give (R179).

theorem toNat_append_byte {n : Nat} (x : BitVec n) (a : Byte) : (x ++ a).toNat = a.toNat + 256 * x.toNat := by
  rw [BitVec.toNat_append, ← Nat.shiftLeft_add_eq_or_of_lt a.isLt, Nat.shiftLeft_eq]
  omega

/-- A byte or a halfword, extended. -/
theorem extended_word {n : Nat} (hn : 0 < n) (sg : Bool) (x : BitVec n) :
    BitVec.ofNat 32 (if sg then wrap 32 (sgn n x.toNat) else x.toNat) = if sg then x.signExtend 32 else x.setWidth 32 := by
  cases sg with
  | false => exact BitVec.ofNat_toNat _ _
  | true =>
    simp only [if_true]
    rw [sgn_toNat hn, wrap_eq_toNat_ofInt, BitVec.ofNat_toNat, BitVec.setWidth_eq]; rfl

theorem quad_word (w x y z : Byte) : BitVec.ofNat 32 (leNat [w, x, y, z]) = z ++ y ++ x ++ w := by
  have h : leNat [w, x, y, z] = (z ++ y ++ x ++ w).toNat := by
    rw [toNat_append_byte, toNat_append_byte, toNat_append_byte]; rfl
  rw [h, BitVec.ofNat_toNat, BitVec.setWidth_eq]

theorem loadWords_quads (sg : Bool) (m : Nat) : ∀ b : List Byte, b.length = 4 * (m + 1) →
    (upto 0 (m + 1)).map (fun i => BitVec.ofNat 32 (leNat ((b.drop (4 * i)).take 4))) = wordsFrom sg b := by
  induction m with
  | zero =>
    intro b hb
    match b, hb with
    | [w, x, y, z], _ => exact congrArg (fun t => [t]) (quad_word w x y z)
  | succ m ih =>
    intro b hb
    match b, hb with
    | w :: x :: y :: z :: r, hb =>
      have hr : r.length = 4 * (m + 1) := by simpa [Nat.mul_add] using hb
      have hne : r ≠ [] := by rintro rfl; simp at hr
      have hshift : upto 1 (m + 1) = (upto 0 (m + 1)).map (· + 1) := by
        simp [upto_eq, List.range'_eq_map_range, Nat.add_comm]
      rw [wordsFrom, if_neg hne, ← ih r hr, upto, List.map_cons, Nat.zero_add, hshift, List.map_map]
      exact congrArg₂ List.cons (quad_word w x y z) rfl

theorem loadWords_eq (sg : Bool) {b : List Byte} (h : b.length = 1 ∨ b.length = 2 ∨ b.length = 4 ∨ b.length = 8 ∨ b.length = 16) :
    loadWords sg b = wordsFrom sg b := by
  obtain h | h | h | h | h := h
  · match b, h with
    | [x], _ => exact congrArg (fun y => [y]) (extended_word (by decide) sg x)
  · match b, h with
    | [x, y], _ =>
      have h16 := extended_word (by decide) sg (y ++ x)
      rw [toNat_append_byte] at h16
      exact congrArg (fun y => [y]) h16
  · rw [← loadWords_quads sg 0 b h, loadWords, h]; rfl
  · rw [← loadWords_quads sg 1 b h, loadWords, h]; rfl
  · rw [← loadWords_quads sg 3 b h, loadWords, h]; rfl

-- The instructions.

theorem signedSize_eq (z : BitVec 3) : (z.toNat == 1 || z.toNat == 3) = (z == 1 || z == 3) := by revert z; decide

theorem loadLane_eq (s : State) (z : BitVec 3) (e : Nat × Spot) :
    s.loadLane e.1 e.2 (weakSize z) = ((s.readyToLoad (weakSize z) e).weakBytes e.1 e.2 e.2.home (weakSize z),
      (s.readyToLoad (weakSize z) e).afterLoad e.1 e.2) := rfl

theorem weakLoad_of {s : State} {z : BitVec 3} {d : BitVec 7} {g : BitVec 5} {eas : List (Nat × DWord)}
    (ha : s.Allowed (askWeak (weakSize z) g false) true eas) :
    s.weakLoad z.toNat d g eas = .ok (s.loaded z d (s.spotsOf (askWeak (weakSize z) g false) eas)) := by
  show (s.checkLanes (weakAsk (memSize z.toNat) g.toNat false) true eas >>= _) = _
  rw [memSize_eq]
  have hc : s.checkLanes (weakAsk (weakSize z) g.toNat false) true eas = .ok (s.spotsOf (askWeak (weakSize z) g false) eas) := checkLanes_of ha
  rw [hc, State.loaded]
  have hw : ∀ (u : State) (e : Nat × Spot), loadWords (z.toNat == 1 || z.toNat == 3) (u.weakBytes e.1 e.2 e.2.home (weakSize z))
      = wordsFrom (z == 1 || z == 3) (u.weakBytes e.1 e.2 e.2.home (weakSize z)) := fun u e => by
    rw [signedSize_eq, loadWords_eq _ (by rw [length_weakBytes]; exact weakSize_cases z)]
  show Except.ok _ = Except.ok _
  simp only [loadLane_eq, hw]

theorem weakStore_of {s : State} {z : BitVec 3} {d : BitVec 7} {g : BitVec 5} {eas : List (Nat × DWord)}
    (ha : s.Allowed (askWeak (weakSize z) g true) false eas)
    (hw : s.checkWindow ((s.spotsOf (askWeak (weakSize z) g true) eas).map fun x => (x.1, upto x.2.home (weakSize z))) = .ok ()) :
    s.weakStore z.toNat d g eas = .ok (s.stored z d ((s.spotsOf (askWeak (weakSize z) g true) eas).zip eas)) := by
  rw [State.weakStore, memSize_eq]
  have hc : s.checkLanes (weakAsk (weakSize z) g.toNat true) false eas = .ok (s.spotsOf (askWeak (weakSize z) g true) eas) := checkLanes_of ha
  have hw' : s.checkWindow ((s.spotsOf (askWeak (weakSize z) g true) eas).map fun e => (e.1, e.2.homes (weakSize z))) = .ok () := hw
  simp only [hc]
  show (s.checkWindow ((s.spotsOf (askWeak (weakSize z) g true) eas).map fun e => (e.1, e.2.homes (weakSize z))) >>= _) = _
  rw [hw']
  rfl

/-- Settles O33. -/
theorem weakLoadsAndStoresComplete : Obligations.WeakLoadsAndStoresComplete := by
  intro s z d i g o c n
  refine ⟨fun e he hp ha => ?_, fun e he hp ha hw => ?_, fun k h m p => weakBytes_atHome p, fun k h p bs => weakBytes_storedItself,
    fun k h m p hw _ _ => weakPart_mem hw h m⟩
  · simp only [List.mem_cons, List.not_mem_nil, or_false] at he
    obtain rfl | rfl := he
    · rw [exec_ld, execLd]
      simp only [eaOffset_eq, memSize_eq]
      exact issueWord_of hp (weakLoad_of ha)
    · rw [exec_ldx, execLdx]
      simp only [eaIndexed_eq, memSize_eq]
      exact issueWord_of hp (weakLoad_of ha)
  · simp only [List.mem_cons, List.not_mem_nil, or_false] at he
    obtain rfl | rfl := he
    · rw [exec_st, execSt]
      simp only [eaOffset_eq, memSize_eq]
      exact issueWord_of hp (weakStore_of ha hw)
    · rw [exec_stx, execStx]
      simp only [eaIndexed_eq, memSize_eq]
      exact issueWord_of hp (weakStore_of ha hw)

end Sys2Proof.Machine
end

section
/-! PROOFS. Strong loads and stores: where an allowed access goes, and the bytes and words of a strong load
(R98, R101, R181). -/

namespace Sys2Proof.Machine

-- What an access that passes its checks has met.

/-- An access that passes is aligned, and goes to the window of its address; in the device page at its offset. -/
theorem checkAccess_ok {s : State} {k : Nat} {a : Ask} {ea : DWord} {p : Spot} (h : s.checkAccess k a ea = .ok p) :
    ea.toNat % a.align = 0 ∧ p.win = winOf ea.toNat ∧ (p.win = .device → p.home = homeDev (ea.toNat - deviceBase)) := by
  have hopen : ∀ q, s.openSpot k a q = .ok p → p = q := fun q hq => by
    rw [State.openSpot] at hq
    split at hq
    · cases hq
    · cases hq; rfl
  rw [State.checkAccess] at h
  split at h
  · cases h
  next ha =>
  have hal : ea.toNat % a.align = 0 := by simpa using ha
  split at h
  · cases h
  split at h
  · cases h
  dsimp only at h
  split at h
  · cases h
  split at h
  · cases h
  refine ⟨hal, ?_⟩
  have hnot : ∀ {w : Win} {P : Prop}, winOf ea.toNat = w → w ≠ .device → winOf ea.toNat = .device → P :=
    fun hw hne hd => absurd (hw.symm.trans hd) hne
  split at h
  next hw =>
    split at h
    · cases h
    · obtain rfl := Except.ok.inj h
      exact ⟨rfl, hnot hw (by decide)⟩
  next hw =>
    split at h
    · cases h
    · obtain rfl := Except.ok.inj h
      exact ⟨rfl, hnot hw (by decide)⟩
  next hw =>
    split at h
    · cases h
    split at h
    · cases h
    · obtain rfl := hopen _ h
      exact ⟨rfl, hnot hw (by decide)⟩
  next hw =>
    split at h
    · cases h
    split at h
    · cases h
    split at h
    · cases h
    · obtain rfl := Except.ok.inj h
      exact ⟨rfl, fun _ => rfl⟩
  next hteam hlane hshared hdev =>
    split at h
    · cases h
    split at h
    · cases h
    split at h
    · cases h
    split at h
    · cases h
    · obtain rfl := hopen _ h
      exact ⟨rfl, fun hd => absurd hd hdev⟩

theorem mem_spotsOf {s : State} {a : Ask} {ks : List (Nat × DWord)} {e : Nat × Spot} (h : e ∈ s.spotsOf a ks) :
    ∃ ea, (e.1, ea) ∈ ks ∧ s.checkAccess e.1 a ea = .ok e.2 := by
  obtain ⟨x, hx, hm⟩ := List.mem_filterMap.1 h
  cases hc : s.checkAccess x.1 a x.2 with
  | error f => rw [hc] at hm; cases hm
  | ok p => rw [hc] at hm; cases hm; exact ⟨x.2, hx, hc⟩

-- Strong loads.

theorem strongSize_cases (z : BitVec 2) : 2 ^ z.toNat = 1 ∨ 2 ^ z.toNat = 2 ∨ 2 ^ z.toNat = 4 ∨ 2 ^ z.toNat = 8 := by revert z; decide

theorem length_leBytes (n x : Nat) : (leBytes n x).length = n := by
  induction n generalizing x with
  | zero => rfl
  | succ n ih => rw [leBytes, List.length_cons, ih]

theorem length_statusRow (s : State) (c : Nat) : (s.statusRow c).length = 16 := by
  simp only [State.statusRow, List.length_append, length_leBytes]

/-- A strong load reads as many bytes as it asks for: one of the device page is aligned, within a status row. -/
theorem length_readDev {p : Spot} {va n : Nat} (hn : n = 1 ∨ n = 2 ∨ n = 4 ∨ n = 8) (ha : va % n = 0) (hw : p.win = winOf va)
    (hd : p.win = .device → p.home = homeDev (va - deviceBase)) (t : State) : (t.readDev p n).length = n := by
  rw [State.readDev]
  split
  next hdev =>
    simp only [Bool.and_eq_true, beq_iff_eq] at hdev
    have hge : deviceBase ≤ va := by
      have hwin := hw.symm.trans hdev.1
      rw [winOf] at hwin
      split at hwin
      · cases hwin
      split at hwin
      · cases hwin
      split at hwin
      · cases hwin
      split at hwin
      · cases hwin
      split at hwin
      next h => exact h.1
      · cases hwin
    have ho : (p.home - homeDev 0) % n = 0 := by
      have hh := hd hdev.1
      simp only [homeDev, deviceBase] at hh hge ⊢
      obtain rfl | rfl | rfl | rfl := hn <;> omega
    rw [List.length_take, List.length_drop, length_statusRow]
    obtain rfl | rfl | rfl | rfl := hn <;> omega
  · rw [readHomes_eq, List.length_map, length_upto]

-- Orders (R113).

theorem isRel_iff (o : BitVec 2) : isRel o = true ↔ 2 ≤ o.toNat := by revert o; decide

theorem isAcq_iff (o : BitVec 2) : isAcq o = true ↔ o.toNat % 2 = 1 := by rw [isAcq, beq_iff_eq]

theorem orderBefore_eq (s : State) (o : BitVec 2) (scope : Nat) :
    s.orderBefore o scope = if 2 ≤ o.toNat then s.issue.foldl (fun t k => t.release k scope) s else s := by
  rw [State.orderBefore]; exact if_congr (isRel_iff o) rfl rfl

theorem orderAfter_eq (s : State) (o : BitVec 2) (scope : Nat) :
    s.orderAfter o scope = if o.toNat % 2 = 1 then s.issue.foldl (fun t k => t.refresh k scope) s else s := by
  rw [State.orderAfter]; exact if_congr (isAcq_iff o) rfl rfl

/-- What a strong load's bytes give its registers, for an access that passed its checks. -/
theorem strongWords_eq {s : State} {z : BitVec 2} {g : BitVec 5} {wr : Bool} {ks : List (Nat × DWord)} {e : Nat × Spot}
    (he : e ∈ s.spotsOf (askStrong (2 ^ z.toNat) g wr) ks) (t : State) :
    loadWords false (t.readDev e.2 (2 ^ z.toNat)) = wordsFrom false (t.readDev e.2 (2 ^ z.toNat)) := by
  obtain ⟨ea, -, hc⟩ := mem_spotsOf he
  obtain ⟨ha, hw, hd⟩ := checkAccess_ok hc
  have hl := length_readDev (strongSize_cases z) ha hw hd t
  refine loadWords_eq false ?_
  rw [hl]
  have := strongSize_cases z
  tauto

/-- Settles O34. -/
theorem strongLoadsAndStoresComplete : Obligations.StrongLoadsAndStoresComplete := by
  intro s o z d g sc n
  constructor
  · intro hp ha u
    rw [exec_lds, execLds]
    refine issueWord_of hp ?_
    have hc : s.checkLanes { size := strongSize z, align := strongSize z, g := g.toNat, perm := 1, opc := 0x42 } true (s.eaPtr g.toNat)
        = .ok (s.spotsOf (askStrong n g false) (s.ptrEas g)) := checkLanes_of ha
    show (s.checkLanes { size := strongSize z, align := strongSize z, g := g.toNat, perm := 1, opc := 0x42 } true (s.eaPtr g.toNat) >>= _) = _
    rw [hc]
    show Except.ok _ = Except.ok _
    rw [orderAfter_eq]
    have hu : (s.spotsOf (askStrong n g false) (s.ptrEas g)).foldl (fun t e =>
        (t.beforeAccess e.1 e.2 n).variable e.1 ((t.beforeAccess e.1 e.2 n).toBlock e.1 d.toNat
          (loadWords false ((t.beforeAccess e.1 e.2 n).readDev e.2 n)))) s = u :=
      List.foldl_ext _ _ _ fun t e he => by rw [strongWords_eq he]; rfl
    rw [← hu]
    rfl
  · intro hp ha l hw u rel
    rw [exec_sts, execSts]
    refine issueWord_of hp ?_
    have hc : s.checkLanes { size := strongSize z, align := strongSize z, g := g.toNat, perm := 2, wr := true, need := { w := true }, opc := 0x43 }
        false (s.eaPtr g.toNat) = .ok l := checkLanes_of ha
    have hw' : s.checkWindow (l.map fun e => (e.1, e.2.homes (strongSize z))) = .ok () := hw
    show (s.checkLanes { size := strongSize z, align := strongSize z, g := g.toNat, perm := 2, wr := true, need := { w := true }, opc := 0x43 }
      false (s.eaPtr g.toNat) >>= _) = _
    rw [hc]
    show (s.checkWindow (l.map fun e => (e.1, e.2.homes (strongSize z))) >>= _) = _
    rw [hw']
    show Except.ok _ = Except.ok _
    rw [orderBefore_eq]
    have h1 : (isRel o && strongSize z == 4 && decide (1 ≤ sc.toNat)) = true ↔ rel = true ∧ 1 ≤ sc.toNat := by
      simp only [rel, n, strongSize, Bool.and_eq_true, decide_eq_true_eq, beq_iff_eq, isRel_iff]
    have h2 : (isRel o && strongSize z == 4 && decide (2 ≤ sc.toNat)) = true ↔ rel = true ∧ 2 ≤ sc.toNat := by
      simp only [rel, n, strongSize, Bool.and_eq_true, decide_eq_true_eq, beq_iff_eq, isRel_iff]
    simp only [h1, h2]
    rfl

end Sys2Proof.Machine
end

section
/-! PROOFS. Atomics: their operations, the read-modify-write of one lane, and the frame of a strong store (R101, R182 to R185). -/

namespace Sys2Proof.Machine

-- Little-endian numbers.

theorem leNat_lt (b : List Byte) : leNat b < 2 ^ (8 * b.length) := by
  induction b with
  | nil => exact Nat.one_pos
  | cons x b ih =>
    have hx := x.isLt
    rw [leNat, List.length_cons, show 8 * (b.length + 1) = 8 + 8 * b.length by ring, pow_add]
    omega

theorem leNat_leBytes (n x : Nat) : leNat (leBytes n x) = x % 2 ^ (8 * n) := by
  induction n generalizing x with
  | zero => simp [leBytes, leNat, Nat.mod_one]
  | succ n ih =>
    rw [leBytes, leNat, ih, BitVec.toNat_ofNat, show 8 * (n + 1) = 8 + 8 * n by ring, pow_add, Nat.mod_mul]
    rfl

theorem length_readHomes (s : State) (h n : Nat) : (s.readHomes h n).length = n := by
  rw [readHomes_eq, List.length_map, length_upto]

-- The read-modify-write of a lane depends on its function at numbers of its bytes only.

theorem rmw_congr {s : State} {k : Nat} {p : Spot} {va : DWord} {n : Nat} {f f' : Nat → Option Nat}
    (h : ∀ m < 2 ^ (8 * n), f m = f' m) : s.rmw k p va n f = s.rmw k p va n f' := by
  have hm : leNat ((s.beforeAccess k p n).readHomes p.home n) < 2 ^ (8 * n) := by
    have hl := leNat_lt ((s.beforeAccess k p n).readHomes p.home n)
    rwa [length_readHomes] at hl
  rw [State.rmw, State.rmw, h _ hm]

/-- ATOM's operations, on numbers and on bit vectors (R183). -/
theorem atomOp_eq (f : Nat) (sg : Bool) {n : Nat} (hn : 0 < n) {m a : Nat} (hm : m < 2 ^ n) (ha : a < 2 ^ n) :
    atomOp f sg n m a = (bvAtom f sg (BitVec.ofNat n m) (BitVec.ofNat n a)).toNat := by
  obtain ⟨x, rfl⟩ : ∃ x : BitVec n, m = x.toNat := ⟨BitVec.ofNat n m, by rw [BitVec.toNat_ofNat, Nat.mod_eq_of_lt hm]⟩
  obtain ⟨y, rfl⟩ : ∃ y : BitVec n, a = y.toNat := ⟨BitVec.ofNat n a, by rw [BitVec.toNat_ofNat, Nat.mod_eq_of_lt ha]⟩
  simp only [atomOp, bvAtom, BitVec.ofNat_toNat, BitVec.setWidth_eq, sgn_toNat hn]
  have hless : (if sg = true then decide (y.toInt < x.toInt) else decide (y.toNat < x.toNat)) = if sg = true then y.slt x else y.ult x := by
    cases sg <;> rfl
  have hmore : (if sg = true then decide (x.toInt < y.toInt) else decide (x.toNat < y.toNat)) = if sg = true then x.slt y else x.ult y := by
    cases sg <;> rfl
  rw [hless, hmore]
  simp only [apply_ite BitVec.toNat, BitVec.toNat_add, BitVec.toNat_and, BitVec.toNat_or, BitVec.toNat_xor]
  rfl

/-- FATOM's operations, on whole registers (R185). -/
theorem fatomOp_eq (ty : BitVec 2) (f : BitVec 4) {m a : Nat} (hm : m < 2 ^ (if ty = 1 then 64 else 32)) (ha : a < 2 ^ (if ty = 1 then 64 else 32)) :
    fatomOp ty.toNat f.toNat m a = (perElem ty.toNat (fun fm xs =>
      if f = 0 then fAdd fm .rne (arg fm xs 0) (arg fm xs 1) else fMinMax fm (f == 2) (xs.getD 0 0) (xs.getD 1 0)) [m, a]).1 := by
  have helem : ∀ fm x y, fatomElem fm f.toNat x y = (if f = 0 then fAdd fm .rne (fm.decode x) (fm.decode y)
      else fMinMax fm (f == 2) x y).1 := fun fm x y => by
    have h0 : f.toNat = 0 ↔ f = 0 := by revert f; decide
    have h2 : (f.toNat == 2) = (f == 2) := by revert f; decide
    rw [fatomElem, h2, apply_ite Prod.fst]
    exact if_congr h0 rfl rfl
  have hcases : ty = 0 ∨ ty = 1 ∨ ty = 2 ∨ ty = 3 := by clear hm ha; revert ty; decide
  obtain rfl | rfl | rfl | rfl := hcases
  · exact helem f32 m a
  · exact helem f64 m a
  all_goals
    have hm' : m / 65536 % 65536 = m / 65536 := Nat.mod_eq_of_lt (by simp at hm; omega)
    have ha' : a / 65536 % 65536 = a / 65536 := Nat.mod_eq_of_lt (by simp at ha; omega)
    simp [fatomOp, perElem, helem, arg, hm', ha', mul_comm]

-- The instructions.

theorem atomVal_lt (s : State) (k : Nat) (wide : Bool) (r : BitVec 7) : s.atomVal k wide r < 2 ^ (8 * atomSize wide) := by
  cases wide
  · exact (s.v k r.toNat).isLt
  · exact (s.v64 k r.toNat).isLt

/-- No lane of a word outside deterministic grids is performed as a binned addition (R385). -/
theorem fatom_noBins {s : State} {g : BitVec 5} {p : Nat × DWord → Bool} (h : ∀ k ∈ s.issue, s.isDet k = false) :
    ((s.eaPtr g.toNat).filter fun e => s.isDet e.1 && p e) = []
    ∧ ((s.eaPtr g.toNat).filter fun e => !(s.isDet e.1 && p e)) = s.eaPtr g.toNat := by
  have hd : ∀ e ∈ s.eaPtr g.toNat, s.isDet e.1 = false := fun e he => by
    obtain ⟨k, hk, rfl⟩ := List.mem_map.1 he
    exact h k hk
  exact ⟨List.filter_eq_nil_iff.2 fun e he => by simp [hd e he], List.filter_eq_self.2 fun e he => by simp [hd e he]⟩

theorem checkLanes_atomic {s : State} {wide : Bool} {n op : Nat} {g : BitVec 5} (hn : atomSize wide = n)
    (ha : s.Allowed (askAtomic n g op) true (s.ptrEas g)) :
    s.checkLanes (atomAsk wide g.toNat op) true (s.eaPtr g.toNat) = .ok (s.spotsOf (askAtomic n g op) (s.ptrEas g)) := by
  subst hn; exact checkLanes_of ha

theorem rmw_atom (t : State) (k : Nat) (p : Spot) (va : DWord) (f : Nat) (sg wide : Bool) {x : Nat} (hx : x < 2 ^ (8 * atomSize wide)) :
    (t.rmw k p va (atomSize wide) fun m => some (atomOp f sg (8 * atomSize wide) m x))
      = t.rmw k p va (atomSize wide) fun m =>
        some (bvAtom f sg (BitVec.ofNat (8 * atomSize wide) m) (BitVec.ofNat (8 * atomSize wide) x)).toNat :=
  rmw_congr fun m hm => by rw [atomOp_eq f sg (by cases wide <;> decide) hm hx]

theorem rmw_fatom (t : State) (k : Nat) (p : Spot) (va : DWord) (ty : BitVec 2) (f : BitVec 4) {x : Nat} (hx : x < 2 ^ (8 * atomSize (ty == 1))) :
    (t.rmw k p va (atomSize (ty == 1)) fun m => some (fatomOp ty.toNat f.toNat m x))
      = t.rmw k p va (atomSize (ty == 1)) fun m => some (perElem ty.toNat (fun fm xs =>
        if f = 0 then fAdd fm .rne (arg fm xs 0) (arg fm xs 1) else fMinMax fm (f == 2) (xs.getD 0 0) (xs.getD 1 0)) [m, x]).1 := by
  have hs : 8 * atomSize (ty == 1) = if ty = 1 then 64 else 32 := by clear hx; revert ty; decide
  refine rmw_congr fun m hm => ?_
  rw [hs] at hm hx
  rw [fatomOp_eq ty f hm hx]

/-- Releases and the lanes' read-modify-writes, before the acquires: ATOM's body, once its accesses are allowed. -/
theorem atom_computes {s : State} {f : BitVec 4} {d a : BitVec 7} {g : BitVec 5} {o : BitVec 2} {sc : BitVec 3} {ty : BitVec 2}
    (hp : s.Passes { instr := .atom f d a g o sc ty, place := .both, ops := [.dst d (decide (2 ≤ ty.toNat)), .src a (decide (2 ≤ ty.toNat)), .g g] })
    (ha : s.Allowed (askAtomic (atomSize (decide (2 ≤ ty.toNat))) g 0x46) true (s.ptrEas g)) :
    let wide := decide (2 ≤ ty.toNat)
    let n := atomSize wide
    exec (.atom f d a g o sc ty) s = .next ((((s.spotsOf (askAtomic n g 0x46) (s.ptrEas g)).zip (s.ptrEas g)).foldl (fun t e =>
      let r := t.rmw e.1.1 e.1.2 e.2.2 n fun m =>
        some (bvAtom f.toNat (ty.toNat % 2 == 0) (BitVec.ofNat (8 * n) m) (BitVec.ofNat (8 * n) (s.atomVal e.1.1 wide a))).toNat
      let t := if 2 ≤ o.toNat ∧ 1 ≤ sc.toNat then r.2.mayNotify e.1.2 else r.2
      let t := if 2 ≤ o.toNat ∧ 2 ≤ sc.toNat then t.mayStart e.1.1 e.1.2 (r.1 % 2 ^ 32) else t
      t.variable e.1.1 (s.oldTo e.1.1 wide d r.1)) (s.orderBefore o sc.toNat)).orderAfter o sc.toNat) := by
  rw [exec_atom, execAtom]
  refine issueWord_of hp ?_
  show (s.checkLanes (atomAsk (decide (2 ≤ ty.toNat)) g.toNat 0x46) true (s.eaPtr g.toNat) >>= _) = _
  rw [checkLanes_atomic rfl ha]
  have h1 : (isRel o && decide (1 ≤ sc.toNat)) = true ↔ 2 ≤ o.toNat ∧ 1 ≤ sc.toNat := by
    simp only [Bool.and_eq_true, decide_eq_true_eq, isRel_iff]
  have h2 : (isRel o && decide (2 ≤ sc.toNat)) = true ↔ 2 ≤ o.toNat ∧ 2 ≤ sc.toNat := by
    simp only [Bool.and_eq_true, decide_eq_true_eq, isRel_iff]
  refine congrArg Except.ok (congrArg (fun t : State => t.orderAfter o sc.toNat) (List.foldl_ext _ _ _ fun t e _ => ?_))
  dsimp only
  rw [rmw_atom _ _ _ _ _ _ _ (atomVal_lt s e.1.1 _ a)]
  simp only [h1, h2]

theorem acas_computes {s : State} {d a b : BitVec 7} {g : BitVec 5} {o : BitVec 2} {sc : BitVec 3} {ty : BitVec 2} {p : BitVec 4}
    (hp : s.Passes { instr := .acas d a b g o sc ty p, place := .both
                     ops := [.dst d (decide (2 ≤ ty.toNat)), .src a (decide (2 ≤ ty.toNat)), .src b (decide (2 ≤ ty.toNat)), .g g, .pdst p.toNat] })
    (ha : s.Allowed (askAtomic (atomSize (decide (2 ≤ ty.toNat))) g 0x47) true (s.ptrEas g)) :
    let wide := decide (2 ≤ ty.toNat)
    let n := atomSize wide
    exec (.acas d a b g o sc ty p) s = .next ((((s.spotsOf (askAtomic n g 0x47) (s.ptrEas g)).zip (s.ptrEas g)).foldl (fun t e =>
      let r := t.rmw e.1.1 e.1.2 e.2.2 n fun m => if m = s.atomVal e.1.1 wide a then some (s.atomVal e.1.1 wide b) else none
      r.2.variable e.1.1 (s.oldTo e.1.1 wide d r.1 ++ [.pred e.1.1 p.toNat (r.1 == s.atomVal e.1.1 wide a)]))
        (s.orderBefore o sc.toNat)).orderAfter o sc.toNat) := by
  rw [exec_acas, execAcas]
  refine issueWord_of hp ?_
  show (s.checkLanes (atomAsk (decide (2 ≤ ty.toNat)) g.toNat 0x47) true (s.eaPtr g.toNat) >>= _) = _
  rw [checkLanes_atomic rfl ha]
  rfl

theorem fatom_computes {s : State} {f : BitVec 4} {d a : BitVec 7} {g : BitVec 5} {o : BitVec 2} {sc : BitVec 3} {ty : BitVec 2}
    (hp : s.Passes { instr := .fatom f d a g o sc ty, ops := [.dst d (ty == 1), .src a (ty == 1), .g g] }) (hdet : ∀ k ∈ s.issue, s.isDet k = false)
    (ha : s.Allowed (askAtomic (atomSize (ty == 1)) g 0x48) true (s.ptrEas g)) :
    let n := atomSize (ty == 1)
    exec (.fatom f d a g o sc ty) s = .next ((((s.spotsOf (askAtomic n g 0x48) (s.ptrEas g)).zip (s.ptrEas g)).foldl (fun t e =>
      let r := t.rmw e.1.1 e.1.2 e.2.2 n fun m => some (perElem ty.toNat (fun fm xs =>
        if f = 0 then fAdd fm .rne (arg fm xs 0) (arg fm xs 1) else fMinMax fm (f == 2) (xs.getD 0 0) (xs.getD 1 0)) [m, s.atomVal e.1.1 (ty == 1) a]).1
      r.2.variable e.1.1 (s.oldTo e.1.1 (ty == 1) d r.1)) (s.orderBefore o sc.toNat)).orderAfter o sc.toNat) := by
  rw [exec_fatom, execFatom]
  refine issueWord_of hp ?_
  obtain ⟨hbin, hrest⟩ := fatom_noBins (g := g) (p := fun e => f == 0 && (decide (ty.toNat < 2) && (s.regionAt (s.ctxOf e.1) e.2.toNat).isSome)) hdet
  simp only [Bool.and_assoc, hbin, hrest]
  rw [checkLanes_atomic rfl ha]
  refine congrArg Except.ok (congrArg (fun t : State => t.orderAfter o sc.toNat) (List.foldl_ext _ _ _ fun t e _ => ?_))
  rw [rmw_fatom _ _ _ _ _ _ (atomVal_lt s e.1.1 _ a)]

-- What a strong store of one lane changes (R98, R101).

theorem viewOfThread_of {s : State} {k : Nat} (h : s.isDet k = false) : s.viewOfThread k = 0 := by
  rw [State.viewOfThread]
  split
  · rfl
  next hc =>
    have ht : (s.team (s.thr k).team).task = none := by
      rw [Bool.not_eq_true] at hc
      simpa [State.isDet, hc] using h
    rw [State.view, ht]

/-- Additions under way of other threads let a thread's access be. -/
theorem ownBins_of {s : State} {k : Nat} (hb : ∀ u ∈ s.bins, u.th ≠ k) (h n : Nat) : s.ownBins k h n = s := by
  have hnone : ∀ (p : BinUpd → Bool) (l : List BinUpd), (∀ u ∈ l, p u = false) → binsAhead p l = [] := by
    intro p l hl
    induction l with
    | nil => rfl
    | cons u l ih =>
      rw [binsAhead, ih fun v hv => hl v (List.mem_cons_of_mem _ hv), hl u List.mem_cons_self]
      rfl
  rw [State.ownBins]
  split
  · rfl
  · rw [State.flushBins, hnone _ _ fun u hu => by simp [hb u hu]]
    simp

theorem addTlb_spec (s : State) {k : Nat} (hc : isCmd k = false) (e : TlbEntry) : ∃ tlb dies,
    s.addTlb k e = { s.setCore (coreOfThread k) { s.core (coreOfThread k) with tlb := tlb } with dies := dies } := by
  rw [State.addTlb, if_neg (by rw [hc]; decide)]
  exact ⟨_, _, rfl⟩

/-- A core with no store to go home, and no other thread's additions: an access changes the translations held alone. -/
structure State.Quiet (s : State) (k : Nat) : Prop where
  compute : isCmd k = false
  cores : Tab.risingFrom 0 s.cores = true
  pending : s.NothingPending k
  bins : ∀ u ∈ s.bins, u.th ≠ k

theorem State.Quiet.keepTranslation {s : State} {k : Nat} (h : s.Quiet k) (o : Option TlbEntry) : ∃ cores dies,
    (match o with | some e => s.addTlb k e | none => s) = { s with cores := cores, dies := dies } ∧ State.Quiet { s with cores := cores, dies := dies } k := by
  cases o with
  | none => exact ⟨s.cores, s.dies, rfl, h⟩
  | some e =>
    obtain ⟨tlb, dies, he⟩ := addTlb_spec s h.compute e
    have hcore := core_setCore h.cores (coreOfThread k) (coreOfThread k) { s.core (coreOfThread k) with tlb := tlb }
    rw [if_pos rfl] at hcore
    refine ⟨_, dies, he, h.compute, setCore_rising h.cores _ _, ?_, h.bins⟩
    show (State.core (s.setCore _ _) (coreOfThread k)).pend = [] ∧ (State.core (s.setCore _ _) (coreOfThread k)).pubs = []
    rw [hcore]
    exact h.pending

theorem State.Quiet.beforeStrong {s : State} {k : Nat} (h : s.Quiet k) (p : Spot) : ∃ cores dies,
    s.beforeStrong k p = { s with cores := cores, dies := dies } ∧ State.Quiet { s with cores := cores, dies := dies } k := by
  obtain ⟨cores, dies, he, hq⟩ := h.keepTranslation p.entry
  refine ⟨cores, dies, ?_, hq⟩
  obtain ⟨hpend, hpubs⟩ := hq.pending
  have hflush : State.flushLine { s with cores := cores, dies := dies } (coreOfThread k) (p.home / 128) = { s with cores := cores, dies := dies } := by
    rw [State.flushLine, hpend, hpubs]
    rfl
  rw [State.beforeStrong]
  show (if _ then (match p.entry with | some e => s.addTlb k e | none => s)
    else (match p.entry with | some e => s.addTlb k e | none => s).flushLine (coreOfThread k) (p.home / 128)) = _
  rw [he, hflush, ite_self]

theorem State.Quiet.beforeAccess {s : State} {k : Nat} (h : s.Quiet k) (p : Spot) (n : Nat) : ∃ cores dies,
    s.beforeAccess k p n = { s with cores := cores, dies := dies } ∧ State.Quiet { s with cores := cores, dies := dies } k := by
  obtain ⟨cores, dies, he, hq⟩ := h.beforeStrong p
  exact ⟨cores, dies, by rw [State.beforeAccess, he, ownBins_of hq.bins], hq⟩

/-- Writes at real homes change memory, the bytes that engines own, the host's lines and poison alone. -/
theorem writeHomes_spec : ∀ (bs : List Byte) (s : State) (h : Nat), h + bs.length ≤ 2 ^ 110 → ∃ host poison mem owned ownedBad,
    s.writeHomes h bs = { s with host := host, poison := poison, mem := mem, owned := owned, ownedBad := ownedBad }
  | [], s, _, _ => ⟨s.host, s.poison, s.mem, s.owned, s.ownedBad, rfl⟩
  | b :: bs, s, h, hl => by
    rw [List.length_cons] at hl
    obtain ⟨host, poison, owned, ownedBad, he, -⟩ := writeHome_spec s b (show h < 2 ^ 110 by omega)
    obtain ⟨host', poison', mem', owned', ownedBad', he'⟩ := writeHomes_spec bs (s.writeHome h b) (h + 1) (by omega)
    refine ⟨host', poison', mem', owned', ownedBad', ?_⟩
    rw [State.writeHomes, he', he]

theorem storeHomes_spec {s : State} {h : Nat} {bs : List Byte} (hl : h + bs.length ≤ 2 ^ 110) : ∃ host poison mem owned ownedBad,
    s.storeHomes h bs = { s with host := host, poison := poison, mem := mem, owned := owned, ownedBad := ownedBad } := by
  obtain ⟨host, poison, mem, owned, ownedBad, he⟩ := writeHomes_spec bs s h hl
  rw [State.storeHomes, State.clearPoison, he]
  split
  · exact ⟨_, _, _, _, _, rfl⟩
  · exact ⟨_, _, _, _, _, rfl⟩

theorem readHome_clearPoison (s : State) (h n a : Nat) : (s.clearPoison h n).readHome a = s.readHome a := by
  rw [State.clearPoison]; split <;> rfl

/-- What a real home reads after an access stores bytes. -/
theorem readHome_storeHomes {s : State} (hm : Memory.wf s.mem = true) (ho : Tab.risingFrom 0 s.owned = true) {h a : Nat} {bs : List Byte}
    (hl : h + bs.length ≤ 2 ^ 110) (ha : a < 2 ^ 110) :
    (s.storeHomes h bs).readHome a = if h ≤ a ∧ a < h + bs.length then bs.getD (a - h) 0 else s.readHome a := by
  rw [State.storeHomes, readHome_clearPoison, (readHome_writeHomes bs s h hm ho hl).2 a ha]

theorem dropLine_spec (s : State) (k h n : Nat) : ∃ slots cores, s.dropLine k h n = { s with slots := slots, cores := cores } := by
  rw [State.dropLine]
  split
  · exact ⟨s.slots, s.cores, rfl⟩
  · exact ⟨_, _, rfl⟩

/-- A strong store of one lane to a page: it stores its bytes at home, and changes besides the copies and translations held, the host's
lines and poison alone. -/
theorem State.Quiet.homeStore {s : State} {k : Nat} (h : s.Quiet k) (hd : s.isDet k = false) {p : Spot} (hw : p.win = .paged) (va : DWord)
    {bs : List Byte} (hm : Memory.wf s.mem = true) (ho : Tab.risingFrom 0 s.owned = true) (hl : p.home + bs.length ≤ 2 ^ 110) :
    (∃ cores dies slots host poison mem owned ownedBad, s.homeStore k p va bs
      = { s with cores := cores, dies := dies, slots := slots, host := host, poison := poison, mem := mem, owned := owned, ownedBad := ownedBad })
    ∧ ∀ a < 2 ^ 110, (s.homeStore k p va bs).readHome a = if p.home ≤ a ∧ a < p.home + bs.length then bs.getD (a - p.home) 0 else s.readHome a := by
  obtain ⟨cores, dies, he, hq⟩ := h.beforeAccess p bs.length
  obtain ⟨cores', dies', he', -⟩ := hq.beforeStrong p
  obtain ⟨host, poison, mem, owned, ownedBad, hs⟩ := storeHomes_spec (s := { s with cores := cores', dies := dies' }) hl
  obtain ⟨slots, cores'', hdrop⟩ := dropLine_spec (State.storeHomes { s with cores := cores', dies := dies' } p.home bs) k p.home bs.length
  have hwrote : ∀ t : State, t.wrote p = t := fun t => by
    rw [State.wrote, State.devStored, hw]; rfl
  have hall : s.homeStore k p va bs = { State.storeHomes { s with cores := cores', dies := dies' } p.home bs with slots := slots, cores := cores'' } := by
    rw [State.homeStore, viewOfThread_of hd, hwrote, State.noteWrite, if_pos (by rfl), State.strongWrite, he]
    rw [he', hdrop]
  constructor
  · refine ⟨cores'', dies', slots, host, poison, mem, owned, ownedBad, ?_⟩
    rw [hall, hs]
  · intro a ha
    rw [hall]
    exact readHome_storeHomes (s := { s with cores := cores', dies := dies' }) hm ho hl ha

/-- Settles O37. -/
theorem atomicsUpdateLaneByLane : Obligations.AtomicsUpdateLaneByLane := by
  constructor
  · intro s f d a b g o sc ty p after before wide n val old
    have hafter : ∀ t : State, after t = t.orderAfter o sc.toNat := fun t => (orderAfter_eq t o sc.toNat).symm
    have hbefore : before = s.orderBefore o sc.toNat := (orderBefore_eq s o sc.toNat).symm
    rw [hbefore]
    simp only [hafter]
    refine ⟨fun hp ha => atom_computes hp ha, fun hp ha => acas_computes hp ha, ?_⟩
    intro hp hdet ha
    have hn : (if ty = 1 then 8 else 4) = atomSize (ty == 1) := by simp [atomSize]
    rw [hn] at ha ⊢
    exact fatom_computes hp hdet ha
  · intro s k p va n x hc hm ht hn hd hb hw hl r
    have hq : s.Quiet k := ⟨hc, tidy_cores ht, hn, hb⟩
    obtain ⟨cores, dies, he, hq'⟩ := hq.beforeAccess p n
    have ho := tidy_owned ht
    have hlen : p.home + (leBytes n x).length ≤ 2 ^ 110 := by rw [length_leBytes]; exact hl
    obtain ⟨-, hread⟩ := hq'.homeStore hd hw va (bs := leBytes n x) hm ho hlen
    rw [length_leBytes] at hread
    have hr : r = (leNat (s.readHomes p.home n), State.homeStore { s with cores := cores, dies := dies } k p va (leBytes n x)) := by
      show s.rmw k p va n _ = _
      rw [State.rmw, he, readHomes_eq, readHomes_eq]; rfl
    have hnone : s.rmw k p va n (fun _ => none) = (leNat (s.readHomes p.home n), { s with cores := cores, dies := dies }) := by
      rw [State.rmw, he, readHomes_eq, readHomes_eq]; rfl
    rw [hr, hnone]
    refine ⟨rfl, ?_, fun h hh hout => ?_, rfl, fun h _ => rfl⟩
    · have hbytes : (State.homeStore { s with cores := cores, dies := dies } k p va (leBytes n x)).readHomes p.home n = leBytes n x := by
        have hmap := map_getD_upto (leBytes n x) p.home
        rw [length_leBytes] at hmap
        refine (readHomes_eq _ _ _).trans (Eq.trans (List.map_congr_left fun a ha => ?_) hmap)
        obtain ⟨h1, h2⟩ := mem_upto.1 ha
        rw [hread a (by omega), if_pos ⟨h1, h2⟩]
      rw [hbytes, leNat_leBytes]
    · rw [hread h hh, if_neg (by omega)]; rfl

end Sys2Proof.Machine
end

section
/-! PROOFS. Binned additions: what GADD sends, what the bank ALU's event performs, and the number that the bins denote
(R75 to R77, R94, R107, R186, R384). -/

namespace Sys2Proof.Machine

-- The number that bins denote (R76, R77).

theorem floorScale_eq (n e : Int) : floorScale n e = ⌊(n : ℚ) * (2 : ℚ) ^ e⌋ := by
  rw [floorScale]
  split
  next h =>
    obtain ⟨k, rfl⟩ := Int.eq_ofNat_of_zero_le h
    have hq : (n : ℚ) * (2 : ℚ) ^ (k : Int) = ((n * 2 ^ k : Int) : ℚ) := by push_cast; rw [zpow_natCast]
    rw [Int.toNat_natCast, hq, Int.floor_intCast]
  next h =>
    obtain ⟨k, hk⟩ := Int.eq_ofNat_of_zero_le (show 0 ≤ -e by omega)
    obtain rfl : e = -(k : Int) := by omega
    have hq : (n : ℚ) * (2 : ℚ) ^ (-(k : Int)) = (n : ℚ) / ((2 ^ k : Nat) : ℚ) := by
      rw [zpow_neg, zpow_natCast]; push_cast; rw [div_eq_mul_inv]
    rw [neg_neg, Int.toNat_natCast, hq, Rat.floor_intCast_div_natCast]
    push_cast; rfl

theorem foldl_binValue (l : List Int) (a : Int) : l.foldl (fun a b => a * 2 ^ 32 + b) a = a * 2 ^ (32 * l.length) + binValue l := by
  induction l generalizing a with
  | nil => simp [binValue]
  | cons b l ih =>
    have hb : binValue (b :: l) = b * 2 ^ (32 * l.length) + binValue l := by
      rw [binValue, List.foldl_cons, ih]; ring
    rw [List.foldl_cons, ih, hb, List.length_cons, mul_add, pow_add]
    ring

theorem binValue_cons (b : Int) (l : List Int) : binValue (b :: l) = b * 2 ^ (32 * l.length) + binValue l := by
  rw [binValue, List.foldl_cons, foldl_binValue]; ring

/-- Adding bin by bin adds the numbers that the bins denote. -/
theorem binValue_binSum (neg : Bool) : ∀ (bins : List Int) (parts : List Nat), bins.length = parts.length →
    binValue (binSum neg bins parts) = binValue bins + (if neg then -binValue (parts.map (↑)) else binValue (parts.map (↑)))
  | [], [], _ => by cases neg <;> rfl
  | b :: bins, p :: parts, h => by
    have hl : bins.length = parts.length := by simpa using h
    have ih := binValue_binSum neg bins parts hl
    have hs : binSum neg (b :: bins) (p :: parts) = (if neg then b - p else b + p) :: binSum neg bins parts := rfl
    have hlen : (binSum neg bins parts).length = bins.length := by simp [binSum, hl]
    rw [hs, binValue_cons, ih, binValue_cons, List.map_cons, binValue_cons, hlen, List.length_map, ← hl]
    cases neg <;> simp <;> ring

/-- The digits of a number to base 2^32, high first. -/
def digits32 (t : Nat) : Nat → List Nat
  | 0 => []
  | n + 1 => t / 2 ^ (32 * n) % 2 ^ 32 :: digits32 t n

theorem length_digits32 (t n : Nat) : (digits32 t n).length = n := by
  induction n with
  | zero => rfl
  | succ n ih => rw [digits32, List.length_cons, ih]

theorem binValue_digits32 (t n : Nat) : binValue ((digits32 t n).map (↑)) = ((t % 2 ^ (32 * n) : Nat) : Int) := by
  induction n with
  | zero => simp [digits32, binValue, Nat.mod_one]
  | succ n ih =>
    rw [digits32, List.map_cons, binValue_cons, ih, List.length_map, length_digits32, show 32 * (n + 1) = 32 * n + 32 by ring, pow_add,
      Nat.mod_mul]
    push_cast
    ring

theorem binParts_eq (e : Int) (dbl : Bool) (m : Nat) (x : Int) :
    binParts e dbl m x = digits32 (⌊(m : ℚ) * (2 : ℚ) ^ (x - (e - 32 * ((binCount dbl : Int) - 1) - 31))⌋).toNat (binCount dbl) := by
  rw [binParts, floorScale_eq]
  cases dbl <;> rfl

/-- Settles the clause of O38 about the bins. -/
theorem binSum_exact (e : Int) (dbl neg : Bool) (m : Nat) (x : Int) (bins : List Int) (hl : bins.length = binCount dbl)
    (hlt : (m : ℚ) * (2 : ℚ) ^ x < (2 : ℚ) ^ (e + 1)) :
    let t := ⌊(m : ℚ) * (2 : ℚ) ^ (x - (e - 32 * ((binCount dbl : Int) - 1) - 31))⌋
    binValue (binSum neg bins (binParts e dbl m x)) = binValue bins + (if neg then -t else t) := by
  intro t
  have ht0 : 0 ≤ t := Int.floor_nonneg.2 (by positivity)
  have hlt' : t < 2 ^ (32 * binCount dbl) := by
    have h1 : (m : ℚ) * (2 : ℚ) ^ (x - (e - 32 * ((binCount dbl : Int) - 1) - 31)) < (2 : ℚ) ^ (32 * binCount dbl) := by
      have hsplit : x - (e - 32 * ((binCount dbl : Int) - 1) - 31) = x + ((32 * binCount dbl : Nat) - (e + 1)) := by push_cast; ring
      rw [hsplit, zpow_add₀ two_ne_zero, ← mul_assoc, zpow_sub₀ two_ne_zero, zpow_natCast]
      have hpos : (0 : ℚ) < 2 ^ (e + 1) := by positivity
      rw [← mul_div_assoc, div_lt_iff₀ hpos, mul_comm]
      exact mul_lt_mul_of_pos_left hlt (by positivity)
    exact Int.floor_lt.2 (by exact_mod_cast h1)
  have hmod : ((t.toNat % 2 ^ (32 * binCount dbl) : Nat) : Int) = t := by
    rw [Nat.mod_eq_of_lt (by zify; rw [Int.toNat_of_nonneg ht0]; exact hlt'), Int.toNat_of_nonneg ht0]
  rw [binParts_eq, binValue_binSum neg _ _ (by rw [length_digits32, hl]), binValue_digits32, hmod]

-- The updates that come before one, and what performing them leaves of the list (R94, R384).

theorem binsAhead_sublist (p : BinUpd → Bool) (l : List BinUpd) : (binsAhead p l).Sublist l := by
  induction l with
  | nil => exact List.Sublist.refl _
  | cons u l ih =>
    rw [binsAhead]
    split
    · exact ih.cons_cons u
    · exact ih.cons u

theorem mem_binsAhead {p : BinUpd → Bool} {u : BinUpd} : ∀ {l : List BinUpd}, u ∈ l → p u = true → u ∈ binsAhead p l
  | v :: l, h, hp => by
    rw [binsAhead]
    obtain rfl | h := List.mem_cons.1 h
    · rw [if_pos (by rw [hp]; rfl)]; exact List.mem_cons_self
    · split
      · exact List.mem_cons_of_mem _ (mem_binsAhead h hp)
      · exact mem_binsAhead h hp

/-- Each of them comes before one that satisfies the test, at its shadow. -/
theorem binsAhead_cause {p : BinUpd → Bool} : ∀ {l : List BinUpd}, ∀ v ∈ binsAhead p l, ∃ x ∈ binsAhead p l, p x = true ∧ v.shadow = x.shadow
  | u :: l, v, hv => by
    have hih : ∀ v ∈ binsAhead p l, ∃ x ∈ u :: binsAhead p l, p x = true ∧ v.shadow = x.shadow := fun v hv => by
      obtain ⟨x, hx, hp⟩ := binsAhead_cause v hv
      exact ⟨x, List.mem_cons_of_mem _ hx, hp⟩
    rw [binsAhead] at hv ⊢
    split at hv
    next hc =>
      rw [if_pos hc]
      obtain rfl | hv := List.mem_cons.1 hv
      · rw [Bool.or_eq_true, List.any_eq_true] at hc
        obtain hc | ⟨x, hx, hc⟩ := hc
        · exact ⟨v, List.mem_cons_self, hc, rfl⟩
        · simp only [Bool.and_eq_true, beq_iff_eq] at hc
          obtain ⟨y, hy, hp, hs⟩ := hih x hx
          exact ⟨y, hy, hp, hc.1.symm.trans hs⟩
      · exact hih v hv
    next hc =>
      rw [if_neg hc]
      exact binsAhead_cause v hv

theorem msix_spec (s : State) (v : Nat) : ∃ host, s.msix v = { s with host := host } := by
  rw [State.msix]
  split
  · exact ⟨_, rfl⟩
  · exact ⟨_, rfl⟩

/-- A record changes the log, the fault counts and, by a message, the host's state. -/
theorem noteFault_spec (s : State) (ctx code place : Nat) : ∃ host faults truncated,
    s.noteFault ctx code place = { s with host := host, faults := faults, truncated := truncated } := by
  rw [State.noteFault]
  split
  · exact ⟨_, _, _, rfl⟩
  split
  · exact ⟨_, _, _, rfl⟩
  split
  · obtain ⟨host, he⟩ := msix_spec { s with faults := s.faults ++ [{ ctx := ctx, first := code, count := 1, clk := s.clk, place := place }] } 2047
    exact ⟨host, _, _, he⟩
  · exact ⟨_, _, _, rfl⟩

theorem logRecord_spec (s : State) (r : Record) : ∃ log logSeq host faults truncated,
    s.logRecord r = { s with log := log, logSeq := logSeq, host := host, faults := faults, truncated := truncated } := by
  obtain ⟨host, faults, truncated, he⟩ := noteFault_spec
    { s with log := _, logSeq := _ } r.ctx r.code r.order
  exact ⟨_, _, host, faults, truncated, he⟩

theorem bins_writeHome (s : State) (h : Nat) (b : Byte) : (s.writeHome h b).bins = s.bins := by
  by_cases hh : h < 2 ^ 110
  · obtain ⟨host, poison, owned, ownedBad, e, -⟩ := writeHome_spec s b hh
    rw [e]
  · rw [State.writeHome, if_neg hh]; rfl

theorem bins_writeHomes (bs : List Byte) : ∀ (s : State) (h : Nat), (s.writeHomes h bs).bins = s.bins := by
  induction bs with
  | nil => exact fun _ _ => rfl
  | cons b bs ih => exact fun s h => by rw [State.writeHomes, ih, bins_writeHome]

/-- Performing an update takes none off the list. -/
theorem bins_binUpdate (s : State) (u : BinUpd) : (s.binUpdate u).bins = s.bins := by
  have hlog : ∀ r : Record, (s.logRecord r).bins = s.bins := fun r => by
    obtain ⟨log, logSeq, host, faults, truncated, he⟩ := logRecord_spec s r
    rw [he]
  rw [State.binUpdate]
  split
  · exact hlog _
  dsimp only
  split
  · obtain ⟨slots, cores, he⟩ := dropLine_spec (s.writeHomes u.shadow (binBytes (binSum u.neg (binsOf (binCount u.f64)
      (s.readHomes u.shadow (8 * binCount u.f64))) (binParts u.e u.f64 u.mant u.exp)))) u.th u.shadow (8 * binCount u.f64)
    rw [he]; exact bins_writeHomes _ _ _
  · exact hlog _

theorem bins_foldl_binUpdate (l : List BinUpd) : ∀ s : State, (l.foldl State.binUpdate s).bins = s.bins := by
  induction l with
  | nil => exact fun _ => rfl
  | cons u l ih => exact fun s => by rw [List.foldl_cons, ih, bins_binUpdate]

/-- The updates that an event performs now: those that come before its own and whose lines no collective step owns. -/
def State.dueBins (s : State) (u : BinUpd) (id : Nat) : List BinUpd :=
  (binsAhead (fun x => x.th == u.th && decide (x.id ≤ id)) s.bins).filter fun x => !(s.binWaits x)

/-- The bank ALU's event: it performs what is due, and comes again for its own update where that waits. -/
theorem exec_bankAlu {s : State} {u : BinUpd} {id : Nat} (hu : u ∈ s.bins) (hid : u.id = id) (huniq : ∀ v ∈ s.bins, v.id = id → v = u) :
    let t := (s.dueBins u id).foldl State.binUpdate { s with bins := s.bins.filter fun v => !((s.dueBins u id).any fun x => x.id == v.id) }
    exec (.bankAluBinUpdate id) s = .next (if u ∈ s.dueBins u id then t else t.scheduleAt (s.clk + 1) (.bankAluBinUpdate id))
      ∧ (u ∉ s.dueBins u id → u ∈ t.bins) := by
  intro t
  have hbins : t.bins = s.bins.filter fun v => !((s.dueBins u id).any fun x => x.id == v.id) := bins_foldl_binUpdate _ _
  have hsub : ∀ x ∈ s.dueBins u id, x ∈ s.bins := fun x hx =>
    (binsAhead_sublist _ _).subset (List.mem_filter.1 hx).1
  have hdue : ((s.dueBins u id).any fun x => x.id == id) = true ↔ u ∈ s.dueBins u id := by
    rw [List.any_eq_true]
    constructor
    · rintro ⟨x, hx, he⟩
      have hx' := huniq x (hsub x hx) (by simpa using he)
      rwa [hx'] at hx
    · exact fun h => ⟨u, h, by simp [hid]⟩
  have hleft : u ∉ s.dueBins u id → u ∈ t.bins := fun h => by
    rw [hbins, List.mem_filter, hid]
    exact ⟨hu, by rw [Bool.not_eq_true', ← Bool.not_eq_true, hdue]; exact h⟩
  refine ⟨?_, hleft⟩
  rw [exec_bankAluBinUpdate, execBankAluBinUpdate, firstThat_eq_some_of hu (by simp [hid]) fun v hv h => huniq v hv (by simpa using h)]
  have hany : (t.bins.any fun x => x.id == id) = true ↔ ¬ u ∈ s.dueBins u id := by
    rw [List.any_eq_true]
    constructor
    · rintro ⟨x, hx, he⟩ hin
      rw [hbins, List.mem_filter] at hx
      have hxid : x.id = id := by simpa using he
      rw [hxid, hdue.2 hin] at hx
      exact absurd hx.2 (by decide)
    · exact fun h => ⟨u, hleft h, by simp [hid]⟩
  show Host.Outcome.next (if (t.bins.any fun x => x.id == id) = true then t.scheduleAt (s.clk + 1) (.bankAluBinUpdate id) else t) = _
  by_cases h : u ∈ s.dueBins u id
  · rw [if_neg (fun hc => hany.1 hc h), if_pos h]
  · rw [if_pos (hany.2 h), if_neg h]

theorem mem_insertEvent (t : Nat) (e : Instr) (l : List (Nat × Instr)) : (t, e) ∈ insertEvent t e l := by
  induction l with
  | nil => exact List.mem_singleton.2 rfl
  | cons x l ih =>
    rw [insertEvent]
    split
    · exact List.mem_cons_self
    · exact List.mem_cons_of_mem _ ih

/-- Settles O38. -/
theorem binnedAdditionsAreExact : Obligations.BinnedAdditionsAreExact := by
  refine ⟨fun s a g o sc ty xs id u => ⟨fun hp hc hw => ?_, fun hno => ?_, fun hu hid huniq howns => ?_, fun hu hid huniq hnone => ?_⟩,
    fun e dbl neg m x bins => ?_⟩
  · rw [exec_gadd, execGadd]
    refine issueWord_of hp ?_
    have hc' : s.checkGadds g.toNat ty.toNat 0x49 ((s.eaPtr g.toNat).map fun e => (e.1, e.2, s.atomVal e.1 (ty == 1) a)) = .ok xs := by
      rw [State.eaPtr, List.map_map]; exact hc
    show (s.checkGadds g.toNat ty.toNat 0x49 ((s.eaPtr g.toNat).map fun e => (e.1, e.2, s.atomVal e.1 (ty == 1) a)) >>= _) = _
    rw [hc']
    show (s.checkGaddWindow xs >>= _) = _
    rw [hw, ← orderBefore_eq]
    rfl
  · rw [exec_bankAluBinUpdate, execBankAluBinUpdate, firstThat_none.2 fun v hv => by simpa using hno v hv]
  · have hnot : u ∉ s.dueBins u id := fun h => by
      have hw := (List.mem_filter.1 h).2
      rw [State.binWaits, howns] at hw
      exact absurd hw (by decide)
    obtain ⟨he, hleft⟩ := exec_bankAlu hu hid huniq
    rw [if_neg hnot] at he
    exact ⟨_, he, hleft hnot, mem_insertEvent _ _ _⟩
  · have hall : s.dueBins u id = binsAhead (fun x => x.th == u.th && decide (x.id ≤ id)) s.bins :=
      List.filter_eq_self.2 fun x hx => by rw [State.binWaits, hnone x ((binsAhead_sublist _ _).subset hx)]; rfl
    have hmem : u ∈ binsAhead (fun x => x.th == u.th && decide (x.id ≤ id)) s.bins := mem_binsAhead hu (by simp [hid])
    obtain ⟨he, -⟩ := exec_bankAlu hu hid huniq
    rw [hall, if_pos hmem] at he
    refine ⟨he, binsAhead_sublist _ _, hmem, fun v hv hth hle => mem_binsAhead hv (by simp [hth, hle]), fun v hv => ?_⟩
    obtain ⟨x, hx, hp, hs⟩ := binsAhead_cause v hv
    simp only [Bool.and_eq_true, beq_iff_eq, decide_eq_true_eq] at hp
    exact ⟨x, hx, hp.1, hp.2, hs⟩
  · intro n unit t hl hlt
    have hn : n = (binCount dbl : Int) := by cases dbl <;> rfl
    have h := binSum_exact e dbl neg m x bins (by rw [hn] at hl; exact_mod_cast hl) hlt
    rwa [← hn] at h

end Sys2Proof.Machine
end

section
/-! PROOFS. Faults that no handler may take: the record, the threads that wait and the context that is to be saved (R363 to R369);
TRAP and FWRET (R152, R155). -/

namespace Sys2Proof.Machine

-- Folds of updates.

/-- What relates each step of a fold relates its ends. -/
theorem foldl_rel {α : Type} {f : State → α → State} {R : State → State → Prop} (hr : ∀ s, R s s) (ht : ∀ a b c, R a b → R b c → R a c)
    (hf : ∀ s x, R s (f s x)) (l : List α) (s : State) : R s (l.foldl f s) := by
  induction l generalizing s with
  | nil => exact hr s
  | cons x l ih => exact ht _ _ _ (hf s x) (ih _)

theorem foldl_updThr_spec (f : Nat → Thread → Thread) (l : List Nat) (s : State) : ∃ threads,
    l.foldl (fun s k => s.updThr k (f k)) s = { s with threads := threads } :=
  foldl_rel (R := fun s t => ∃ threads, t = { s with threads := threads }) (fun s => ⟨s.threads, rfl⟩)
    (by rintro a _ _ ⟨x, rfl⟩ ⟨y, rfl⟩; exact ⟨y, rfl⟩) (fun _ _ => ⟨_, rfl⟩) l s

/-- One update in each of some threads. -/
theorem thr_foldl_updThr (f : Nat → Thread → Thread) {l : List Nat} (hl : l.Nodup) {s : State} (hs : Tab.risingFrom 0 s.threads = true) :
    Tab.risingFrom 0 (l.foldl (fun s k => s.updThr k (f k)) s).threads = true
    ∧ ∀ j, (l.foldl (fun s k => s.updThr k (f k)) s).thr j = if j ∈ l then f j (s.thr j) else s.thr j := by
  induction l generalizing s with
  | nil => exact ⟨hs, fun j => by rw [if_neg List.not_mem_nil]; rfl⟩
  | cons k l ih =>
    obtain ⟨hk, hl⟩ := List.nodup_cons.1 hl
    obtain ⟨hrise, hthr⟩ := ih hl (setThr_rising hs k (f k (s.thr k)))
    refine ⟨hrise, fun j => (hthr j).trans ?_⟩
    rw [thr_setThr hs]
    by_cases hj : j = k
    · subst hj
      rw [if_neg hk, if_pos rfl, if_pos List.mem_cons_self]
    · rw [if_neg hj]
      exact if_congr (by rw [List.mem_cons]; tauto) rfl rfl

theorem foldl_updCore_spec (f : Core → Core) (l : List Nat) (s : State) : ∃ cores,
    l.foldl (fun s c => s.updCore c f) s = { s with cores := cores } :=
  foldl_rel (R := fun s t => ∃ cores, t = { s with cores := cores }) (fun s => ⟨s.cores, rfl⟩)
    (by rintro a _ _ ⟨x, rfl⟩ ⟨y, rfl⟩; exact ⟨y, rfl⟩) (fun _ _ => ⟨_, rfl⟩) l s

/-- One update in each of some cores. -/
theorem core_foldl_updCore (f : Core → Core) {l : List Nat} (hl : l.Nodup) {s : State} (hs : Tab.risingFrom 0 s.cores = true) :
    Tab.risingFrom 0 (l.foldl (fun s c => s.updCore c f) s).cores = true
    ∧ ∀ j, (l.foldl (fun s c => s.updCore c f) s).core j = if j ∈ l then f (s.core j) else s.core j := by
  induction l generalizing s with
  | nil => exact ⟨hs, fun j => by rw [if_neg List.not_mem_nil]; rfl⟩
  | cons k l ih =>
    obtain ⟨hk, hl⟩ := List.nodup_cons.1 hl
    obtain ⟨hrise, hcore⟩ := ih hl (setCore_rising hs k (f (s.core k)))
    refine ⟨hrise, fun j => (hcore j).trans ?_⟩
    rw [core_setCore hs]
    by_cases hj : j = k
    · subst hj
      rw [if_neg hk, if_pos rfl, if_pos List.mem_cons_self]
    · rw [if_neg hj]
      exact if_congr (by rw [List.mem_cons]; tauto) rfl rfl

theorem poll_spec (s : State) (t : Nat) (e : Instr) : ∃ agenda, s.poll t e = { s with agenda := agenda } := by
  rw [State.poll]
  split
  · exact ⟨s.agenda, rfl⟩
  · exact ⟨_, rfl⟩

theorem foldl_poll_spec {α : Type} (t : State → Nat) (e : α → Instr) (l : List α) (s : State) : ∃ agenda,
    l.foldl (fun s x => s.poll (t s) (e x)) s = { s with agenda := agenda } :=
  foldl_rel (R := fun s t => ∃ agenda, t = { s with agenda := agenda }) (fun s => ⟨s.agenda, rfl⟩)
    (by rintro a _ _ ⟨x, rfl⟩ ⟨y, rfl⟩; exact ⟨y, rfl⟩) (fun s x => poll_spec s (t s) (e x)) l s

-- A context is to be saved on a die (R324, R369).

/-- An entry that is no default is read back, whatever the order of the keys. -/
theorem get_put_of_ne {α : Type} [DecidableEq α] {d v : α} (h : v ≠ d) (t : Tab α) (k : Nat) : (t.put d k v).get d k = v := by
  rw [Tab.put, if_neg h, Tab.get_ins_self]

theorem stopOnDie_other {s : State} {ctx d : Nat} (h : (s.cx ctx).dies.get .running d ≠ .running) : s.stopOnDie ctx d = s := by
  rw [State.stopOnDie]
  split
  next e => exact absurd e h
  · rfl

/-- A running context that is to be saved on a die: it is being saved there, and so is each core that runs it. -/
theorem stopOnDie_running {s : State} {ctx d : Nat} (hs : Tab.risingFrom 0 s.cores = true) (h : (s.cx ctx).dies.get .running d = .running) :
    let t := s.stopOnDie ctx d
    (∃ ctxs cores agenda, t = { s with ctxs := ctxs, cores := cores, agenda := agenda })
    ∧ (t.cx ctx).dies.get .running d = .saving ∧ ∀ n, dieOfCore n = d → (s.core n).ctx = ctx → (t.core n).saving = true := by
  intro t
  have hnodup : ∀ p : Nat → Bool, ((upto (96 * d) 96).filter p).Nodup := fun p => by
    rw [upto_eq]; exact (List.nodup_range' ..).filter p
  let x : Ctx := { s.cx ctx with dies := (s.cx ctx).dies.put .running d .saving }
  let held := (upto (96 * d) 96).filter fun c => (s.core c).reserved == some ctx && !(s.core c).restoring
  let cs := (upto (96 * d) 96).filter fun c => (s.core c).ctx == ctx
  obtain ⟨cores, he⟩ := foldl_updCore_spec (fun k => { k with reserved := none }) held (s.setCx ctx x)
  obtain ⟨hrise, hheld⟩ := core_foldl_updCore (fun k => { k with reserved := none }) (hnodup _) (l := held) (s := s.setCx ctx x) hs
  rw [he] at hrise hheld
  obtain ⟨cores', he'⟩ := foldl_updCore_spec (fun k => { k with saving := true }) cs { s.setCx ctx x with cores := cores }
  obtain ⟨-, hcs⟩ := core_foldl_updCore (fun k => { k with saving := true }) (hnodup _) (l := cs) (s := { s.setCx ctx x with cores := cores }) hrise
  rw [he'] at hcs
  obtain ⟨agenda, he''⟩ := foldl_poll_spec (fun s => s.clk + 1) Instr.coreSave (if cs.isEmpty then [96 * d] else cs)
    { s.setCx ctx x with cores := cores' }
  have ht : t = { s.setCx ctx x with cores := cores', agenda := agenda } := by
    refine Eq.trans ?_ he''
    show s.stopOnDie ctx d = _
    rw [State.stopOnDie, h]
    exact congrArg (fun u : State => (if cs.isEmpty then [96 * d] else cs).foldl (fun s c => s.poll (s.clk + 1) (.coreSave c)) u)
      ((congrArg (fun u : State => cs.foldl (fun s c => s.updCore c fun k => { k with saving := true }) u) he).trans he')
  rw [ht]
  refine ⟨⟨_, cores', agenda, rfl⟩, ?_, fun n hn hc => ?_⟩
  · have hne : x ≠ {} := fun e => by
      have hd : (s.cx ctx).dies.put .running d .saving = [] := congrArg Ctx.dies e
      have hg := get_put_of_ne (d := CtxDie.running) (v := .saving) (by decide) (s.cx ctx).dies d
      rw [hd] at hg
      cases hg
    show ((s.ctxs.put {} ctx x).get {} ctx).dies.get .running d = .saving
    rw [get_put_of_ne hne]
    exact get_put_of_ne (show CtxDie.saving ≠ .running by decide) _ _
  · have hin : n ∈ cs := by
      rw [List.mem_filter, mem_upto]
      refine ⟨?_, by rw [hc]; exact beq_self_eq_true ctx⟩
      rw [dieOfCore] at hn
      omega
    exact (congrArg Core.saving (hcs n)).trans (by rw [if_pos hin])

theorem stopOnDie_spec {s : State} (hs : Tab.risingFrom 0 s.cores = true) (ctx d : Nat) :
    let t := s.stopOnDie ctx d
    (∃ ctxs cores agenda, t = { s with ctxs := ctxs, cores := cores, agenda := agenda })
    ∧ ((s.cx ctx).dies.get .running d = .running →
      (t.cx ctx).dies.get .running d = .saving ∧ ∀ n, dieOfCore n = d → (s.core n).ctx = ctx → (t.core n).saving = true) := by
  by_cases h : (s.cx ctx).dies.get .running d = .running
  · obtain ⟨hspec, hsave⟩ := stopOnDie_running hs h
    exact ⟨hspec, fun _ => hsave⟩
  · intro t
    exact ⟨⟨s.ctxs, s.cores, s.agenda, stopOnDie_other h⟩, fun h' => absurd h' h⟩

-- The run that a fault stops.

theorem setRun_tidy {s : State} (h : s.tidy = true) (r : Run) : (s.setRun r).tidy = true := by
  rw [State.setRun]
  split
  · have hs := setSlot_rising (tidy_slots h) s.cur { s.slot s.cur with phase := .running r }
    simp only [State.tidy, Bool.and_eq_true] at h ⊢
    exact ⟨⟨⟨⟨⟨⟨⟨⟨⟨⟨h.1.1.1.1.1.1.1.1.1.1, h.1.1.1.1.1.1.1.1.1.2⟩, h.1.1.1.1.1.1.1.1.2⟩, h.1.1.1.1.1.1.1.2⟩, hs⟩, h.1.1.1.1.1.2⟩,
      h.1.1.1.1.2⟩, h.1.1.1.2⟩, h.1.1.2⟩, h.1.2⟩, h.2⟩
  · exact h

/-- A thread that differs from another in its registers alone. -/
def Thread.SameButRegs (y x : Thread) : Prop :=
  ∃ v tm preds ptr rsv, y = { x with v := v, tm := tm, preds := preds, ptr := ptr, rsv := rsv }

theorem Thread.SameButRegs.refl (x : Thread) : x.SameButRegs x := ⟨x.v, x.tm, x.preds, x.ptr, x.rsv, rfl⟩

theorem Thread.SameButRegs.trans {x y z : Thread} (h : z.SameButRegs y) (h' : y.SameButRegs x) : z.SameButRegs x := by
  obtain ⟨v, tm, preds, ptr, rsv, rfl⟩ := h
  obtain ⟨v', tm', preds', ptr', rsv', rfl⟩ := h'
  exact ⟨v, tm, preds, ptr, rsv, rfl⟩

theorem onThr_sameButRegs (w : RegWrite) (k : Nat) (x : Thread) : (w.onThr k x).SameButRegs x := by
  cases w with
  | vreg | temp | pred | ptr | rsv =>
    rw [RegWrite.onThr]
    split
    · exact ⟨_, _, _, _, _, rfl⟩
    · exact .refl x
  | ureg | gfield | tile => exact .refl x

theorem thr_writeRegs (ws : List RegWrite) {s : State} (h : s.tidy = true) (k : Nat) : ((s.writeRegs ws).thr k).SameButRegs (s.thr k) := by
  have hone : ∀ (w : RegWrite) (s : State), s.tidy = true → ((s.writeReg w).thr k).SameButRegs (s.thr k) := fun w s h => by
    have hset : ((s.setReg w).thr k).SameButRegs (s.thr k) := by
      rw [thr_setReg h]; exact onThr_sameButRegs w k _
    rw [State.writeReg]
    split
    · exact hset
    · obtain ⟨p, e⟩ := cleanReg_spec (s.setReg w) w
      rw [e]; exact hset
  induction ws generalizing s with
  | nil => exact .refl _
  | cons w ws ih =>
    have ht : (s.writeReg w).tidy = true := writeRegs_tidy (ws := [w]) h
    exact (ih ht).trans (hone w s h)

/-- Every thread leaves the run: its results are complete, and the issuer stops there. -/
theorem leaveRun_all {s : State} (h : s.tidy = true) {r : Run} (hr : (s.slot s.cur).phase = .running r) {gone : List Nat}
    (hall : ∀ k ∈ r.threads, k ∈ gone) : ∃ slots threads groups poisonReg,
    s.leaveRun gone = { s with slots := slots, threads := threads, groups := groups, poisonReg := poisonReg }
    ∧ ((s.leaveRun gone).slot s.cur).phase = .idle ∧ Tab.risingFrom 0 (s.leaveRun gone).threads = true
    ∧ ∀ k, ((s.leaveRun gone).thr k).SameButRegs (s.thr k) := by
  have hleft : (r.threads.filter fun k => !gone.contains k).isEmpty = true := by
    rw [List.isEmpty_iff, List.filter_eq_nil_iff]
    intro k hk
    simpa using hall k hk
  have htidy := setRun_tidy h { r with fixed := [] }
  obtain ⟨slots, he⟩ := setRun_spec s { r with fixed := [] }
  obtain ⟨threads, groups, poisonReg, hw⟩ := writeRegs_spec (r.fixed.map (·.write)) (s.setRun { r with fixed := [] })
  have hl : s.leaveRun gone = ((s.setRun { r with fixed := [] }).writeRegs (r.fixed.map (·.write))).updSlot s.cur fun sl =>
      { sl with phase := .idle, nextAt := s.clk + 1 } := by
    rw [State.leaveRun, run_of_running hr]
    simp only [hleft, if_true, State.landAll, run_of_running hr]
  have hrise := tidy_threads (writeRegs_tidy (ws := r.fixed.map (·.write)) htidy)
  have hslot := tidy_slots (writeRegs_tidy (ws := r.fixed.map (·.write)) htidy)
  refine ⟨(s.leaveRun gone).slots, threads, groups, poisonReg, ?_, ?_, ?_, fun k => ?_⟩
  · rw [hl, hw, he]; rfl
  · rw [hl]
    exact (congrArg Slot.phase (slot_setSlot hslot s.cur s.cur _)).trans (by rw [if_pos rfl])
  · rw [hl]; exact hrise
  · rw [hl]
    refine (thr_writeRegs _ htidy k).trans ?_
    rw [he]; exact .refl _

-- The record (R365, R368).

/-- In a clk that has no record yet, a record stands behind those of the clks before. -/
theorem logRecord_appends {s : State} {r : Record} (hn : s.freshRecords = 0) (hl : s.log.length < 4096) : ∃ host faults truncated,
    s.logRecord r = { s with log := s.log ++ [{ r with clk := s.clk, seq := s.logSeq % 2 ^ 32 }], logSeq := s.logSeq + 1, host := host
                             faults := faults, truncated := truncated } := by
  have hlog : (s.log.take (s.log.length - 0) ++ (insertRecord { r with clk := s.clk } (s.log.drop (s.log.length - 0))).mapIdx
      fun i x => { x with seq := (s.logSeq - 0 + i) % 2 ^ 32 }) = s.log ++ [{ r with clk := s.clk, seq := s.logSeq % 2 ^ 32 }] := by
    rw [Nat.sub_zero, List.take_length, List.drop_length]; rfl
  obtain ⟨host, faults, truncated, he⟩ := noteFault_spec
    { s with log := s.log ++ [{ r with clk := s.clk, seq := s.logSeq % 2 ^ 32 }], logSeq := s.logSeq + 1 } r.ctx r.code r.order
  refine ⟨host, faults, truncated, Eq.trans ?_ he⟩
  rw [State.logRecord, hn]
  simp only [hlog]
  rw [show (s.log ++ [({ r with clk := s.clk, seq := s.logSeq % 2 ^ 32 } : Record)]).length - 4096 = 0 by
    rw [List.length_append, List.length_singleton]; omega, List.drop_zero]

theorem laneMask_eq {ks : List Nat} (h : ∀ k ∈ ks, isCmd k = false) :
    laneMask ks = ks.foldl (fun m k => m ||| BitVec.twoPow 64 (k % 64)) 0 :=
  List.foldl_ext _ _ _ fun m k hk => by rw [laneOfThread, h k hk]; rfl

/-- What a stopped thread becomes where it waits at its resumption point. -/
def Thread.heldAt (x : Thread) (rpc : DWord) (rpos : Nat) : Thread :=
  { x with pc := rpc, pos := rpos, wait := .rejoining, nextWait := none, nextPc := none, nextWinb := none }

/-- The threads that a fault stops keep what belongs to their run, under the fault's name. -/
def State.runKept (s : State) (rpc : DWord) (rpos : Nat) (ks : List Nat) : State :=
  ks.foldl (fun t x => t.updThr x (·.keepRun s.nextId rpc rpos)) { s with nextId := s.nextId + 1 }

/-- The stopped threads wait behind a record. -/
def State.heldBehind (s : State) (r : Record) (rpc : DWord) (rpos : Nat) (ks : List Nat) : State :=
  ks.foldl (fun t x => t.updThr x (·.heldAt rpc rpos)) (s.logRecord r)

theorem heldBehind_spec {s : State} (hs : Tab.risingFrom 0 s.threads = true) {r : Record} (hn : s.freshRecords = 0) (hl : s.log.length < 4096)
    (rpc : DWord) (rpos : Nat) {ks : List Nat} (hnd : ks.Nodup) :
    let t := s.heldBehind r rpc rpos ks
    (∃ threads host faults truncated, t = { s with
      log := s.log ++ [{ r with clk := s.clk, seq := s.logSeq % 2 ^ 32 }], logSeq := s.logSeq + 1, host := host, faults := faults
      truncated := truncated, threads := threads })
    ∧ ∀ k, t.thr k = if k ∈ ks then (s.thr k).heldAt rpc rpos else s.thr k := by
  intro t
  obtain ⟨host, faults, truncated, hlog⟩ := logRecord_appends (s := s) (r := r) hn hl
  obtain ⟨threads, ht⟩ := foldl_updThr_spec (fun _ x => x.heldAt rpc rpos) ks (s.logRecord r)
  obtain ⟨-, hthr⟩ := thr_foldl_updThr (fun _ x => x.heldAt rpc rpos) hnd (s := s.logRecord r) (by rw [hlog]; exact hs)
  refine ⟨⟨threads, host, faults, truncated, ht.trans (by rw [hlog])⟩, fun k => ?_⟩
  have hk : (s.logRecord r).thr k = s.thr k := by rw [hlog]; rfl
  rw [← hk]
  exact hthr k

/-- A fault that no handler may take: a record, the threads at their resumption points, and the context to be saved. -/
theorem firmwareTakes_logged {s : State} {f : Flt} {ks : List Nat} (hk : ∀ k ∈ ks, isCmd k = false) (hne : ks ≠ []) (hcode : f.code ≠ 0x22)
    (hcls : f.cls ≠ 0 ∨ f.sup = true) (pc : DWord) (pos : Nat) (rpc : DWord) (rpos : Nat) : ∃ flags,
    let t := (s.runKept rpc rpos ks).heldBehind { s.recordOf f pc pos ks with flags := flags, id := s.nextId } rpc rpos ks
    s.firmwareTakes f pc pos rpc rpos ks = t.stopOnDie (t.ctxOf (ks.headD 0)) (dieOfThread (ks.headD 0)) := by
  have hhead : isCmd (ks.headD 0) = false := by
    cases ks with
    | nil => exact absurd rfl hne
    | cons k ks => exact hk k List.mem_cons_self
  have hno : (f.cls == 0 && !f.sup) = false := by
    obtain h | h := hcls
    · simp [h]
    · simp [h]
  have hcmd : ¬ isCmd (ks.headD 0) = true := by rw [hhead]; decide
  cases htbl : (s.runKept rpc rpos ks).trapTable (ks.headD 0) with
  | none =>
    refine ⟨(s.recordOf f pc pos ks).flags + (if false then 4 else 0), ?_⟩
    rw [State.runKept] at htbl ⊢
    simp only [State.firmwareTakes, State.newId, if_neg hcode, if_neg hcmd, htbl]
    rfl
  | some t =>
    refine ⟨(s.recordOf f pc pos ks).flags + (if ks.any ((s.runKept rpc rpos ks).slotActive t) then 4 else 0), ?_⟩
    rw [State.runKept] at htbl ⊢
    simp only [State.firmwareTakes, State.newId, if_neg hcode, if_neg hcmd, htbl, hno, Bool.false_and]
    rfl

/-- The one late register mark that each thread of a stopped run keeps. -/
def State.latesKept (s : State) (r : Run) : State :=
  r.threads.foldl (fun t k => t.updThr k fun x => { x with lateRun := r.late }) (s.leaveRun r.threads)

/-- A fault at the current word of a run stops all its threads there. -/
theorem takeFault_all {s : State} {r : Run} {f : Flt} (hr : (s.slot s.cur).phase = .running r) (hne : r.threads ≠ []) (hstops : f.stops = none)
    (hcode : f.code ≠ 0) (hskip : f.skip = 0) : s.takeFault f = (s.latesKept r).firmwareTakes f r.pc r.pos r.pc r.pos r.threads := by
  have hall : (r.threads.filter fun k => r.threads.contains k) = r.threads :=
    List.filter_eq_self.2 fun k hk => List.contains_iff_mem.2 hk
  have hemp : ¬ r.threads.isEmpty = true := by rw [List.isEmpty_iff]; exact hne
  rw [State.takeFault]
  simp only [run_of_running hr, hstops, Option.getD_none, hall, if_neg hcode, if_neg hemp, hskip, Nat.add_zero]
  rfl

theorem clk_latesKept {s : State} (ht : s.tidy = true) {r : Run} (hr : (s.slot s.cur).phase = .running r) : (s.latesKept r).clk = s.clk := by
  obtain ⟨slots, threads, groups, poisonReg, he, -⟩ := leaveRun_all ht hr (gone := r.threads) fun k hk => hk
  obtain ⟨threads', he'⟩ := foldl_updThr_spec (fun _ x => { x with lateRun := r.late }) r.threads (s.leaveRun r.threads)
  rw [State.latesKept, he', he]

/-- What the steps before the record leave of the state, and of the threads that a fault stops. -/
theorem runKept_spec {s : State} (ht : s.tidy = true) {r : Run} (hr : (s.slot s.cur).phase = .running r) (hnd : r.threads.Nodup) (rpc : DWord)
    (rpos : Nat) :
    let u := (s.latesKept r).runKept rpc rpos r.threads
    (∃ slots threads groups poisonReg nextId,
      u = { s with slots := slots, threads := threads, groups := groups, poisonReg := poisonReg, nextId := nextId })
    ∧ (u.slot s.cur).phase = .idle ∧ Tab.risingFrom 0 u.threads = true ∧ ∀ k, (u.thr k).team = (s.thr k).team := by
  intro u
  obtain ⟨slots, threads, groups, poisonReg, he, hidle, hrise, hregs⟩ := leaveRun_all ht hr (gone := r.threads) fun k hk => hk
  obtain ⟨threads1, he1⟩ := foldl_updThr_spec (fun _ x => { x with lateRun := r.late }) r.threads (s.leaveRun r.threads)
  obtain ⟨hrise1, hthr1⟩ := thr_foldl_updThr (fun _ x => { x with lateRun := r.late }) hnd hrise
  obtain ⟨threads2, he2⟩ := foldl_updThr_spec (fun _ x => x.keepRun (s.latesKept r).nextId rpc rpos) r.threads
    { s.latesKept r with nextId := (s.latesKept r).nextId + 1 }
  obtain ⟨hrise2, hthr2⟩ := thr_foldl_updThr (fun _ x => x.keepRun (s.latesKept r).nextId rpc rpos) hnd
    (s := { s.latesKept r with nextId := (s.latesKept r).nextId + 1 }) hrise1
  have hu : u = { s.leaveRun r.threads with threads := threads2, nextId := (s.latesKept r).nextId + 1 } := he2.trans (by rw [State.latesKept, he1])
  refine ⟨⟨slots, threads2, groups, poisonReg, _, hu.trans (by rw [he])⟩, ?_, hrise2, fun k => ?_⟩
  · rw [hu]; exact hidle
  · have h2 : (u.thr k).team = ((s.latesKept r).thr k).team := (congrArg Thread.team (hthr2 k)).trans (by split <;> rfl)
    have h1 : ((s.latesKept r).thr k).team = ((s.leaveRun r.threads).thr k).team := (congrArg Thread.team (hthr1 k)).trans (by split <;> rfl)
    obtain ⟨_, _, _, _, _, hteam⟩ := hregs k
    rw [h2, h1, hteam]

/-- Settles O23. -/
theorem trapsAndFaultsOfNoHandlerAreTaken : Obligations.TrapsAndFaultsOfNoHandlerAreTaken := by
  refine ⟨fun s i => ⟨fun hp hi => ?_, fun hc => ?_, fun hc => ?_⟩, ?_⟩
  · rw [exec_trap, execTrap, State.issueMany, issueFault_none.2 hp]
    have hno : ¬ (i.toNat = 2047 ∧ (!s.onCommand) = true) := by
      rintro ⟨h1, h2⟩
      obtain hi | hi := hi
      · exact hi (BitVec.eq_of_toNat_eq h1)
      · rw [hi] at h2; exact absurd h2 (by decide)
    simp only [if_neg hno]
  · rw [exec_fwret, execFwret, State.issueWord, issueFault_class (f := { code := 0x20 }) (by simp only [State.classFault, hc])]
  · rw [exec_fwret, execFwret, State.issueWord, issueFault_class (f := { code := 0x01 }) (by simp only [State.classFault, hc])]
  · intro s r f ht hr hne hnd hstops hcode0 hcode hskip hcmd hcls hlanes hlen hfresh t
    obtain ⟨flags, htake⟩ := firmwareTakes_logged (s := s.latesKept r) hcmd hne hcode hcls r.pc r.pos r.pc r.pos
    obtain ⟨⟨slots, threads, groups, poisonReg, nextId, hu⟩, hidle, hrise, hteam⟩ := runKept_spec ht hr hnd r.pc r.pos
    have hcores : Tab.risingFrom 0 s.cores = true := tidy_cores ht
    obtain ⟨⟨threads', host, faults, truncated, hx⟩, hthr⟩ := heldBehind_spec hrise
      (r := { (s.latesKept r).recordOf f r.pc r.pos r.threads with flags := flags, id := (s.latesKept r).nextId })
      (by rw [hu]; exact hfresh) (by rw [hu]; exact hlen) r.pc r.pos hnd
    rw [← takeFault_all hr hne hstops hcode0 hskip] at htake
    generalize ((s.latesKept r).runKept r.pc r.pos r.threads).heldBehind _ r.pc r.pos r.threads = x at htake hx hthr
    have hhead : isCmd (r.threads.headD 0) = false := by
      cases hl : r.threads with
      | nil => exact absurd hl hne
      | cons k ks => exact hcmd k (by rw [hl]; exact List.mem_cons_self)
    have hxteam : (x.thr (r.threads.headD 0)).team = (s.thr (r.threads.headD 0)).team := by
      rw [hthr, ← hteam]; split <;> rfl
    have hctx : x.ctxOf (r.threads.headD 0) = s.ctxOf (r.threads.headD 0) := by
      rw [State.ctxOf, State.ctxOf, hhead, hxteam, hx, hu]; rfl
    change s.takeFault f = x.stopOnDie (x.ctxOf (r.threads.headD 0)) (dieOfThread (r.threads.headD 0)) at htake
    rw [hctx] at htake
    have hxcores : x.cores = s.cores := by rw [hx, hu]
    have hxctxs : x.ctxs = s.ctxs := by rw [hx, hu]
    obtain ⟨⟨ctxs, cores, agenda, hstop⟩, hsave⟩ := stopOnDie_spec (s := x) (by rw [hxcores]; exact hcores) (s.ctxOf (r.threads.headD 0))
      (dieOfThread (r.threads.headD 0))
    rw [← htake] at hstop hsave
    have hxcore : ∀ n, x.core n = s.core n := fun n => by rw [State.core, hxcores]; rfl
    have hxcx : ∀ n, x.cx n = s.cx n := fun n => by rw [State.cx, hxctxs]; rfl
    simp only [hxcore, hxcx] at hsave
    refine ⟨{ (s.latesKept r).recordOf f r.pc r.pos r.threads with
      flags := flags, id := (s.latesKept r).nextId, clk := s.clk, seq := s.logSeq % 2 ^ 32 }, ?_, rfl, rfl, rfl, rfl, rfl, rfl, rfl, ?_, ?_, ?_,
      hsave, fun k hk => ?_⟩
    · rw [show t = _ from hstop]
      show x.log = _
      rw [hx, hu]
    · show (s.latesKept r).clk % 2 ^ 64 / 64 = _
      rw [clk_latesKept ht hr]
    · show laneMask (f.lanes.getD r.threads) = _
      rw [hlanes, Option.getD_none, laneMask_eq hcmd]
    · rw [show t = _ from hstop]
      show (x.slot s.cur).phase = _
      rw [hx]; exact hidle
    · have hk' : t.thr k = ((s.latesKept r).runKept r.pc r.pos r.threads |>.thr k).heldAt r.pc r.pos := by
        rw [show t = _ from hstop]
        exact (hthr k).trans (if_pos hk)
      rw [hk']
      exact ⟨rfl, rfl, rfl⟩

end Sys2Proof.Machine
end

section
/-! PROOFS. Handlers: the slot that delivery writes, the return from a handler, and the threads of one fault that resume together
(R363, R367). -/

namespace Sys2Proof.Machine

-- What firmware writes.

/-- A write at any home changes memory and what stands beside it, and the grids that hold back writes. -/
theorem writeHome_any (s : State) (h : Nat) (b : Byte) : ∃ host poison mem owned ownedBad grids,
    s.writeHome h b = { s with host := host, poison := poison, mem := mem, owned := owned, ownedBad := ownedBad, grids := grids } := by
  by_cases hh : h < 2 ^ 110
  · obtain ⟨host, poison, owned, ownedBad, e, -⟩ := writeHome_spec s b hh
    exact ⟨host, poison, _, owned, ownedBad, s.grids, e⟩
  · rw [State.writeHome, if_neg hh]
    exact ⟨s.host, s.poison, s.mem, s.owned, s.ownedBad, _, rfl⟩

/-- A state that differs from another in memory and what stands beside it alone. -/
def State.OnlyMemory (t s : State) : Prop := ∃ host poison mem owned ownedBad grids torcOver,
  t = { s with host := host, poison := poison, mem := mem, owned := owned, ownedBad := ownedBad, grids := grids, torcOver := torcOver }

theorem State.OnlyMemory.refl (s : State) : s.OnlyMemory s := ⟨s.host, s.poison, s.mem, s.owned, s.ownedBad, s.grids, s.torcOver, rfl⟩

theorem State.OnlyMemory.trans {a b c : State} (h : b.OnlyMemory a) (h' : c.OnlyMemory b) : c.OnlyMemory a := by
  obtain ⟨_, _, _, _, _, _, _, rfl⟩ := h
  obtain ⟨x1, x2, x3, x4, x5, x6, x7, rfl⟩ := h'
  exact ⟨x1, x2, x3, x4, x5, x6, x7, rfl⟩

theorem engineWrites_onlyMemory (s : State) (l : List (Nat × Byte)) : (s.engineWrites l).OnlyMemory s := by
  have hover : (s.overTorc (l.map (·.1))).OnlyMemory s := by
    rw [State.overTorc]; split
    · exact .refl s
    · exact ⟨_, _, _, _, _, _, _, rfl⟩
  have hfold : ∀ t : State, (l.foldl (fun s e => s.engineWriteByte e.1 e.2) t).OnlyMemory t := fun t =>
    foldl_rel (R := fun a b => b.OnlyMemory a) .refl (fun _ _ _ => .trans)
      (fun s e => by
        obtain ⟨x1, x2, x3, x4, x5, x6, he⟩ := writeHome_any s e.1 e.2
        exact ⟨x1, x2, x3, x4, x5, x6, s.torcOver, he⟩) l t
  have hclear : ∀ t : State, (t.clearWhole (l.map (·.1))).OnlyMemory t := fun t => by
    rw [State.clearWhole]; split
    · exact .refl t
    · exact ⟨_, _, _, _, _, _, _, rfl⟩
  exact (hover.trans (hfold _)).trans (hclear _)

theorem firmwareWrite_onlyMemory (s : State) (k va : Nat) (bs : List Byte) : (s.firmwareWrite k va bs).OnlyMemory s := by
  rw [State.firmwareWrite]
  split
  · exact .refl s
  · exact engineWrites_onlyMemory _ _

-- Where firmware's write of a handler slot goes.

theorem parts_slot {va : Nat} (h : va % 128 = 0) : parts va 128 = [(va, 128)] := by
  have hle : 128 ≤ 2 ^ 12 - va % 2 ^ 12 := by omega
  rw [parts, pageParts, if_neg (by decide)]
  exact if_pos hle

theorem engineHomes_slot {s : State} {a : Agent} {n : Need} {va : Nat} {p : Spot} (hp : s.engineSpot a n va 128 = .ok p) (h : va % 128 = 0) :
    s.engineHomes a n (parts va 128) = .ok (upto p.home 128) := by
  rw [parts_slot h, State.engineHomes, hp]
  exact congrArg Except.ok (List.append_nil _)

/-- Writing bytes at consecutive homes one by one. -/
theorem foldl_writeHomes (s : State) (h : Nat) (bs : List Byte) :
    ((upto h bs.length).zip bs).foldl (fun s e => s.engineWriteByte e.1 e.2) s = s.writeHomes h bs := by
  induction bs generalizing s h with
  | nil => rfl
  | cons b bs ih => exact ih _ _

theorem readHome_clearWhole (s : State) (hs : List Nat) (a : Nat) : (s.clearWhole hs).readHome a = s.readHome a := by
  rw [State.clearWhole]; split <;> rfl

theorem readHome_firmwareWrite {s : State} (ht : s.tidy = true) (hm : Memory.wf s.mem = true) {k va : Nat} {bs : List Byte} {p : Spot}
    (hp : s.engineSpot { unit := k, ctx := s.ctxOf k } { w := true } va 128 = .ok p) (hva : va % 128 = 0) (hl : p.home + 128 ≤ 2 ^ 110)
    (hbs : bs.length = 128) {j : Nat} (hj : j < 128) : (s.firmwareWrite k va bs).readHome (p.home + j) = bs.getD j 0 := by
  rw [State.firmwareWrite, hbs, engineHomes_slot hp hva]
  show (State.engineWrites s ((upto p.home 128).zip bs)).readHome _ = _
  have hover : ∃ torcOver, s.overTorc (((upto p.home 128).zip bs).map (·.1)) = { s with torcOver := torcOver } := by
    rw [State.overTorc]; split
    · exact ⟨s.torcOver, rfl⟩
    · exact ⟨_, rfl⟩
  obtain ⟨torcOver, he⟩ := hover
  rw [State.engineWrites, readHome_clearWhole, he]
  have hw := foldl_writeHomes { s with torcOver := torcOver } p.home bs
  rw [hbs] at hw
  rw [hw, (readHome_writeHomes bs { s with torcOver := torcOver } p.home hm (show Tab.risingFrom 0 s.owned = true from tidy_owned ht) (by omega)).2 _ (by omega),
    if_pos (by omega), Nat.add_sub_cancel_left]

-- The bytes of a slot.

theorem length_bytes (r : Record) : r.bytes.length = 64 := by simp only [Record.bytes, List.length_append, length_leBytes]

theorem length_slotTail (s : State) (k : Nat) (pc : DWord) (pos : Nat) : (s.slotTail k pc pos).length = 64 := by
  simp only [State.slotTail, List.length_append, length_leBytes, List.length_flatMap, List.map_const', length_upto, List.sum_replicate]
  rfl

/-- The 128 bytes that delivery writes. -/
def State.slotBytes (s : State) (r : Record) (rpc : DWord) (rpos k : Nat) : List Byte :=
  ({ r with flags := r.flags + 2 } : Record).bytes ++ s.slotTail k rpc rpos

theorem length_slotBytes (s : State) (r : Record) (rpc : DWord) (rpos k : Nat) : (s.slotBytes r rpc rpos k).length = 128 := by
  rw [State.slotBytes, List.length_append, length_bytes, length_slotTail]

/-- A part of a list of bytes, by what stands before it. -/
theorem take_drop_mid {a b c : List Byte} {n k : Nat} (ha : a.length = n) (hb : b.length = k) : ((a ++ (b ++ c)).drop n).take k = b := by
  rw [List.drop_left' ha, List.take_left' hb]

theorem drop_slotBytes (s : State) (r : Record) (rpc : DWord) (rpos k n : Nat) :
    (s.slotBytes r rpc rpos k).drop (0x40 + n) = (s.slotTail k rpc rpos).drop n := by
  rw [State.slotBytes, ← List.drop_drop, List.drop_left' (length_bytes _)]

theorem slotBytes_pc (s : State) (r : Record) (rpc : DWord) (rpos k : Nat) :
    ((s.slotBytes r rpc rpos k).drop 0x40).take 8 = leBytes 8 rpc.toNat := by
  rw [drop_slotBytes s r rpc rpos k 0, List.drop_zero]
  simp only [State.slotTail, List.append_assoc]
  exact List.take_left' (length_leBytes _ _)

/-- Of pieces of four bytes one after another, each stands at four times its place. -/
theorem take_drop_flatMap {f : Nat → List Byte} (hf : ∀ i, (f i).length = 4) (len a n : Nat) (hn : n < len) (c : List Byte) :
    (((upto a len).flatMap f ++ c).drop (4 * n)).take 4 = f (a + n) := by
  induction len generalizing a n with
  | zero => exact absurd hn (Nat.not_lt_zero _)
  | succ len ih =>
    rw [upto, List.flatMap_cons, List.append_assoc]
    cases n with
    | zero => exact List.take_left' (hf a)
    | succ n =>
      rw [show 4 * (n + 1) = 4 + 4 * n by omega, ← List.drop_drop, List.drop_left' (hf a), ih (a + 1) n (by omega)]
      exact congrArg f (by omega)

theorem slotBytes_temp (s : State) (r : Record) (rpc : DWord) (rpos k : Nat) {n : Nat} (hn : n < 6) :
    ((s.slotBytes r rpc rpos k).drop (0x50 + 4 * n)).take 4 = leBytes 4 ((s.thr k).tm.get 0 n).toNat := by
  rw [show 0x50 + 4 * n = 0x40 + (16 + 4 * n) by omega, drop_slotBytes, ← List.drop_drop]
  have hd : (s.slotTail k rpc rpos).drop 16 = (upto 0 6).flatMap (fun n => leBytes 4 ((s.thr k).tm.get 0 n).toNat) ++ leBytes 24 0 := by
    rw [State.slotTail, List.append_assoc]
    exact List.drop_left' (by simp only [List.length_append, length_leBytes])
  rw [hd, take_drop_flatMap (fun i => length_leBytes _ _) 6 0 n hn, Nat.zero_add]

theorem getD_slotBytes (s : State) (r : Record) (rpc : DWord) (rpos k n : Nat) :
    (s.slotBytes r rpc rpos k).getD (0x40 + n) 0 = (s.slotTail k rpc rpos).getD n 0 := by
  rw [State.slotBytes, List.getD_append_right _ _ _ _ (by rw [length_bytes]; omega), length_bytes, Nat.add_sub_cancel_left]

/-- The bytes of a slot's tail behind the PC: run position, window base and ACTIVE. -/
theorem slotTail_split (s : State) (k : Nat) (rpc : DWord) (rpos : Nat) : ∃ c : List Byte,
    s.slotTail k rpc rpos = leBytes 8 rpc.toNat ++ ([BitVec.ofNat 8 rpos, BitVec.ofNat 8 ((s.thr k).winb / 16), 1] ++ c) := by
  refine ⟨leBytes 5 0 ++ ((upto 0 6).flatMap (fun n => leBytes 4 ((s.thr k).tm.get 0 n).toNat) ++ leBytes 24 0), ?_⟩
  simp only [State.slotTail, List.append_assoc]
  rfl

theorem slotTail_getD (s : State) (k : Nat) (rpc : DWord) (rpos n : Nat) (hn : n < 3) : (s.slotTail k rpc rpos).getD (8 + n) 0
    = [BitVec.ofNat 8 rpos, BitVec.ofNat 8 ((s.thr k).winb / 16), 1].getD n 0 := by
  obtain ⟨c, hc⟩ := slotTail_split s k rpc rpos
  rw [hc, List.getD_append_right _ _ _ _ (by rw [length_leBytes]; omega), length_leBytes, Nat.add_sub_cancel_left]
  exact List.getD_append _ _ _ _ hn

theorem bytes_split (r : Record) : ∃ a c : List Byte, r.bytes = BitVec.ofNat 8 r.code :: a ++ (leBytes 4 r.info ++ c) ∧ a.length = 27 := by
  refine ⟨leBytes 1 r.cls ++ leBytes 2 r.ctx ++ leBytes 2 r.stop ++ leBytes 1 r.slot ++ leBytes 1 r.layer
    ++ leBytes 8 r.lanes.toNat ++ leBytes 8 r.pc.toNat ++ leBytes 1 r.runpos ++ leBytes 1 r.flags ++ leBytes 1 r.src ++ leBytes 1 r.rows,
    leBytes 8 r.addr.toNat ++ leBytes 4 r.cmd ++ leBytes 4 r.seq ++ leBytes 8 r.hbt ++ leBytes 8 0, ?_, ?_⟩
  · simp only [Record.bytes, List.append_assoc, List.cons_append]
    rfl
  · simp only [List.length_append, length_leBytes]

theorem ofNat_leNat_leBytes {n w : Nat} (h : w = 8 * n) (x : BitVec w) : BitVec.ofNat w (leNat (leBytes n x.toNat)) = x := by
  subst h
  rw [leNat_leBytes, Nat.mod_eq_of_lt x.isLt, BitVec.ofNat_toNat, BitVec.setWidth_eq]

/-- The clause of O24 about the slot's bytes. -/
theorem slotBytes_hold (s : State) (r : Record) (rpc : DWord) (rpos k : Nat) :
    let b := s.slotBytes r rpc rpos k
    r.bytes.length = 64 ∧ b.length = 128 ∧ BitVec.ofNat 64 (leNat ((b.drop 0x40).take 8)) = rpc
    ∧ b.getD 0x48 0 = BitVec.ofNat 8 rpos ∧ b.getD 0x49 0 = BitVec.ofNat 8 ((s.thr k).winb / 16) ∧ b.getD 0x4A 0 = 1
    ∧ (∀ n < 6, BitVec.ofNat 32 (leNat ((b.drop (0x50 + 4 * n)).take 4)) = (s.thr k).tm.get 0 n)
    ∧ b.getD 0 0 = BitVec.ofNat 8 r.code ∧ leNat ((b.drop 0x1C).take 4) = r.info % 2 ^ 32 := by
  obtain ⟨a, c, hb, ha⟩ := bytes_split { r with flags := r.flags + 2 }
  have hb' : s.slotBytes r rpc rpos k = BitVec.ofNat 8 r.code :: a ++ (leBytes 4 r.info ++ (c ++ s.slotTail k rpc rpos)) := by
    rw [State.slotBytes, hb, List.append_assoc, List.append_assoc]
  refine ⟨length_bytes r, length_slotBytes s r rpc rpos k, ?_, ?_, ?_, ?_, fun n hn => ?_, ?_, ?_⟩
  · rw [slotBytes_pc]; exact ofNat_leNat_leBytes (n := 8) rfl rpc
  · exact (getD_slotBytes s r rpc rpos k 8).trans (slotTail_getD s k rpc rpos 0 (by decide))
  · exact (getD_slotBytes s r rpc rpos k 9).trans (slotTail_getD s k rpc rpos 1 (by decide))
  · exact (getD_slotBytes s r rpc rpos k 10).trans (slotTail_getD s k rpc rpos 2 (by decide))
  · rw [slotBytes_temp s r rpc rpos k hn]; exact ofNat_leNat_leBytes (n := 4) rfl _
  · rw [hb']; rfl
  · rw [hb', take_drop_mid (by rw [List.length_cons, ha]) (length_leBytes _ _), leNat_leBytes]

-- Tables.

/-- In a table of rising keys an entry is what its key reads. -/
theorem Tab.get_of_mem {α : Type} (d : α) : ∀ {t : Tab α} {lo : Nat} {e : Nat × α}, Tab.risingFrom lo t = true → e ∈ t → lo ≤ e.1 ∧ Tab.get d t e.1 = e.2
  | (k, v) :: t, lo, e, ht, he => by
    simp only [Tab.risingFrom, Bool.and_eq_true, decide_eq_true_eq] at ht
    rcases List.mem_cons.1 he with rfl | he
    · exact ⟨ht.1, by rw [Tab.get, if_pos rfl]⟩
    · obtain ⟨hle, hg⟩ := Tab.get_of_mem d ht.2 he
      exact ⟨by omega, by rw [Tab.get, if_neg (by omega), if_neg (by omega), hg]⟩

theorem Tab.nodup_keys {α : Type} : ∀ {t : Tab α} {lo : Nat}, Tab.risingFrom lo t = true → (t.map (·.1)).Nodup
  | [], _, _ => .nil
  | (k, v) :: t, lo, ht => by
    simp only [Tab.risingFrom, Bool.and_eq_true, decide_eq_true_eq] at ht
    refine List.nodup_cons.2 ⟨fun hk => ?_, Tab.nodup_keys ht.2⟩
    obtain ⟨e, he, hek⟩ := List.mem_map.1 hk
    have hle := (Tab.get_of_mem v ht.2 he).1
    have hek : e.1 = k := hek
    omega

/-- Values put at keys in turn read back at them. -/
theorem get_foldl_put {α : Type} [DecidableEq α] (d : α) (f : Nat → α) (n : Nat) : ∀ (len a : Nat) {t : Tab α}, Tab.risingFrom 0 t = true →
    ((upto a len).foldl (fun acc i => Tab.put d acc i (f i)) t).get d n = if a ≤ n ∧ n < a + len then f n else t.get d n
  | 0, a, t, _ => by rw [if_neg (by omega)]; rfl
  | len + 1, a, t, ht => by
    refine (get_foldl_put d f n len (a + 1) (Tab.rising_put d (f a) ht)).trans ?_
    rw [Tab.get_put d (f a) ht]
    by_cases h : n = a
    · subst h; rw [if_neg (by omega), if_pos rfl, if_pos (by omega)]
    · rw [if_neg h]; exact if_congr (by omega) rfl rfl

-- Reads at homes do not see registers, threads and issuers.

/-- A state with other issuers, threads, groups and poison marks of registers, and another next number. -/
def State.beside (s : State) (slots : Tab Slot) (threads : Tab Thread) (groups : Tab Group) (poisonReg : List (EccPlace × Nat × Nat)) (nextId : Nat) : State :=
  { s with slots := slots, threads := threads, groups := groups, poisonReg := poisonReg, nextId := nextId }

section
variable (s : State) (slots : Tab Slot) (threads : Tab Thread) (groups : Tab Group) (poisonReg : List (EccPlace × Nat × Nat)) (nextId : Nat)

theorem walkFrom_beside (ctx va n table : Nat) (path : Path) :
    (s.beside slots threads groups poisonReg nextId).walkFrom ctx va n table path = s.walkFrom ctx va n table path := by
  induction n generalizing table path with
  | zero => rfl
  | succ n ih => rw [State.walkFrom, State.walkFrom]; simp only [ih]; rfl

theorem engineSpot_beside (a : Agent) (n : Need) (va len : Nat) :
    (s.beside slots threads groups poisonReg nextId).engineSpot a n va len = s.engineSpot a n va len := by
  have hw : (s.beside slots threads groups poisonReg nextId).walk a.ctx va = s.walk a.ctx va := walkFrom_beside ..
  have ht : (s.beside slots threads groups poisonReg nextId).translateFor a.unit a.ctx va n = s.translateFor a.unit a.ctx va n := by
    rw [State.translateFor, State.translate, hw]; rfl
  rw [State.engineSpot, ht]; rfl

theorem engineHomes_beside (a : Agent) (n : Need) (l : List (Nat × Nat)) :
    (s.beside slots threads groups poisonReg nextId).engineHomes a n l = s.engineHomes a n l := by
  induction l with
  | nil => rfl
  | cons p l ih => rw [State.engineHomes, State.engineHomes, engineSpot_beside, ih]

theorem engineRead_beside (a : Agent) (va n : Nat) :
    (s.beside slots threads groups poisonReg nextId).engineRead a va n = s.engineRead a va n := by
  rw [State.engineRead, engineHomes_beside]; rfl

end

-- Delivery.

/-- R367: a thread sent to the handler enters at its address, and nothing but memory changes beside it. -/
theorem deliverTo_enters {s : State} (hs : s.tidy = true) (t : TrapTable) (r : Record) (rpc : DWord) (rpos k : Nat) :
    let u := s.deliverTo t r rpc rpos k
    let x := u.thr k
    x.pc = t.pc ∧ x.pos = 0 ∧ x.winb = 0 ∧ x.wait = .ready ∧ x.tmKept = (s.thr k).tmMask
    ∧ (∀ j, j ≠ k → u.thr j = s.thr j) ∧ u.groups = s.groups ∧ u.teams = s.teams ∧ u.log = s.log := by
  obtain ⟨host, poison, mem, owned, ownedBad, grids, torcOver, he⟩ :=
    firmwareWrite_onlyMemory s k (t.slotOf (s.thr k).lid) (s.slotBytes r rpc rpos k)
  have hd : s.deliverTo t r rpc rpos k = (s.firmwareWrite k (t.slotOf (s.thr k).lid) (s.slotBytes r rpc rpos k)).updThr k fun x =>
      { x with pc := t.pc, pos := 0, winb := 0, tmKept := x.tmMask, wait := .ready, nextWait := none, nextPc := none, nextWinb := none } := rfl
  rw [he] at hd
  rw [hd]
  have hthr := thr_setThr (s := { s with host := host, poison := poison, mem := mem, owned := owned, ownedBad := ownedBad, grids := grids
                                         torcOver := torcOver }) (show Tab.risingFrom 0 s.threads = true from tidy_threads hs) k
  simp only [updThr_eq, hthr, if_true, true_and]
  exact ⟨rfl, fun j hj => if_neg hj, rfl, rfl, rfl⟩

theorem readHome_updThr (s : State) (k : Nat) (f : Thread → Thread) (h : Nat) : (s.updThr k f).readHome h = s.readHome h := rfl

theorem readHome_deliverTo {s : State} (hs : s.tidy = true) (hm : Memory.wf s.mem = true) {t : TrapTable} {r : Record} {rpc : DWord} {rpos k : Nat}
    {p : Spot} (hp : s.engineSpot { unit := k, ctx := s.ctxOf k } { w := true } (t.slotOf (s.thr k).lid) 128 = .ok p)
    (hva : t.slotOf (s.thr k).lid % 128 = 0) (hl : p.home + 128 ≤ 2 ^ 110) {j : Nat} (hj : j < 128) :
    (s.deliverTo t r rpc rpos k).readHome (p.home + j) = (s.slotBytes r rpc rpos k).getD j 0 := by
  rw [State.deliverTo]
  exact (readHome_updThr _ k _ _).trans (readHome_firmwareWrite hs hm hp hva hl (length_slotBytes s r rpc rpos k) hj)

-- The return from a handler.

/-- What the bytes of a slot's tail make of a thread that returns from its handler. -/
def Thread.returned (x : Thread) (b : List Byte) : Thread :=
  { x.settle with
    pc := BitVec.ofNat 64 (leNat (b.take 8)), pos := (b.getD 8 0).toNat, winb := 16 * ((b.getD 9 0).toNat % 16)
    tm := (upto 0 6).foldl (fun acc n => Tab.put 0 acc n (BitVec.ofNat 32 (leNat ((b.drop (16 + 4 * n)).take 4)))) []
    tmMask := x.tmKept, wait := .rejoining, nextWait := none, nextPc := none }

theorem returned_tm (x : Thread) (b : List Byte) {n : Nat} (hn : n < 6) :
    (x.returned b).tm.get 0 n = BitVec.ofNat 32 (leNat ((b.drop (16 + 4 * n)).take 4)) :=
  (get_foldl_put 0 (fun n => BitVec.ofNat 32 (leNat ((b.drop (16 + 4 * n)).take 4))) n 6 0 rfl).trans (if_pos (by omega))

/-- The return of one thread: memory changes, and the thread. -/
theorem handlerReturn_of {s : State} (hs : Tab.risingFrom 0 s.threads = true) {t : TrapTable} {k : Nat} {b : List Byte} {p : Bool}
    (hb : s.engineRead { unit := k, ctx := s.ctxOf k } (t.slotOf (s.thr k).lid + 0x40) 64 = .ok (b, p)) :
    (∀ j, (s.handlerReturn t k).thr j = if j = k then (s.thr k).returned b else s.thr j)
    ∧ Tab.risingFrom 0 (s.handlerReturn t k).threads = true
    ∧ (s.handlerReturn t k).slots = s.slots ∧ (s.handlerReturn t k).cur = s.cur := by
  obtain ⟨host, poison, mem, owned, ownedBad, grids, torcOver, he⟩ :=
    firmwareWrite_onlyMemory s k (t.slotOf (s.thr k).lid + 0x4A) [0]
  have hd : s.handlerReturn t k = (s.firmwareWrite k (t.slotOf (s.thr k).lid + 0x4A) [0]).updThr k (·.returned b) := by
    rw [State.handlerReturn, hb]; rfl
  rw [he] at hd
  rw [hd]
  exact ⟨thr_setThr (s := { s with host := host, poison := poison, mem := mem, owned := owned, ownedBad := ownedBad, grids := grids
                                   torcOver := torcOver }) hs k (x := _), setThr_rising hs k _, rfl, rfl⟩

-- The threads of one fault resume together.

theorem mem_laneOrder {ks : List Nat} {k : Nat} : k ∈ laneOrder ks ↔ k ∈ ks := by
  have hl : laneOfThread k < 64 := by rw [laneOfThread]; split <;> omega
  simp only [laneOrder, List.mem_flatMap, List.mem_filter, beq_iff_eq, mem_upto]
  exact ⟨fun ⟨_, _, h, _⟩ => h, fun h => ⟨_, by omega, h, rfl⟩⟩

theorem nodup_laneOrder {ks : List Nat} (h : ks.Nodup) : (laneOrder ks).Nodup := by
  refine List.nodup_flatMap.2 ⟨fun l _ => h.filter _, ?_⟩
  have hu : (upto 0 64).Nodup := by rw [upto_eq]; exact List.nodup_range'
  refine hu.imp fun {a b} hab => ?_
  intro k ha hb
  simp only [List.mem_filter, beq_iff_eq] at ha hb
  exact hab (ha.2.symm.trans hb.2)

theorem mem_stoppedBy {s : State} (hs : Tab.risingFrom 0 s.threads = true) {fid k : Nat} :
    k ∈ s.stoppedBy fid ↔ fid ∈ (s.thr k).fids ∧ (s.thr k).live = true ∧ (s.thr k).wait ≠ .exited := by
  simp only [State.stoppedBy, List.mem_map, List.mem_filter, Bool.and_eq_true, List.contains_iff_mem, bne_iff_ne]
  constructor
  · rintro ⟨e, ⟨he, ⟨hf, hl⟩, hw⟩, rfl⟩
    rw [State.thr, (Tab.get_of_mem {} hs he).2]
    exact ⟨hf, hl, hw⟩
  · rintro ⟨hf, hl, hw⟩
    rcases Tab.get_mem {} (t := s.threads) (n := k) with h | h
    · rw [State.thr, h] at hl; cases hl
    · exact ⟨_, ⟨h, ⟨hf, hl⟩, hw⟩, rfl⟩

theorem nodup_stoppedBy {s : State} (hs : Tab.risingFrom 0 s.threads = true) (fid : Nat) : (s.stoppedBy fid).Nodup :=
  (Tab.nodup_keys hs).sublist (List.filter_sublist.map _)

/-- The values of a list, each once. -/
theorem foldl_addNew {α β : Type} (g : α → β) (has : List β → α → Bool) (hhas : ∀ l a, has l a = true ↔ g a ∈ l) : ∀ (l : List α) (acc : List β),
    acc.Nodup → let r := l.foldl (fun acc k => if has acc k then acc else acc ++ [g k]) acc
      r.Nodup ∧ ∀ p, p ∈ r ↔ p ∈ acc ∨ ∃ k ∈ l, p = g k
  | [], acc, h => ⟨h, by simp⟩
  | k :: l, acc, h => by
    by_cases hk : has acc k = true
    · obtain ⟨hn, hm⟩ := foldl_addNew g has hhas l acc h
      rw [List.foldl_cons, if_pos hk]
      refine ⟨hn, fun p => (hm p).trans ⟨?_, ?_⟩⟩
      · rintro (hp | ⟨j, hj, rfl⟩)
        · exact .inl hp
        · exact .inr ⟨j, List.mem_cons_of_mem _ hj, rfl⟩
      · rintro (hp | ⟨j, hj, rfl⟩)
        · exact .inl hp
        · rcases List.mem_cons.1 hj with rfl | hj
          · exact .inl ((hhas _ _).1 hk)
          · exact .inr ⟨j, hj, rfl⟩
    · have hnew : g k ∉ acc := fun h => hk ((hhas _ _).2 h)
      obtain ⟨hn, hm⟩ := foldl_addNew g has hhas l (acc ++ [g k]) (List.nodup_append.2
        ⟨h, List.nodup_singleton _, fun x hx y hy he => hnew (by rw [List.mem_singleton] at hy; rw [← hy, ← he]; exact hx)⟩)
      rw [List.foldl_cons, if_neg hk]
      refine ⟨hn, fun p => (hm p).trans ?_⟩
      simp only [List.mem_append, List.mem_cons, List.not_mem_nil, or_false, exists_eq_or_imp, or_assoc]

/-- The resumption points of some threads, each once. -/
def State.pointsOf (s : State) (ks : List Nat) : List (DWord × Nat) :=
  ks.foldl (fun acc k => if acc.any (fun (p : DWord × Nat) => p.1 == (s.thr k).pc && p.2 == (s.thr k).pos) then acc
    else acc ++ [((s.thr k).pc, (s.thr k).pos)]) []

/-- The issue sets in which some threads resume. -/
def State.setsOf (s : State) (ks : List Nat) : List (DWord × Nat × List Nat) :=
  (s.pointsOf ks).map fun p => (p.1, p.2, ks.filter fun k => (s.thr k).pc == p.1 && (s.thr k).pos == p.2)

theorem pointsOf_spec (s : State) (ks : List Nat) :
    (s.pointsOf ks).Nodup ∧ ∀ p, p ∈ s.pointsOf ks ↔ ∃ k ∈ ks, p = ((s.thr k).pc, (s.thr k).pos) := by
  obtain ⟨hn, hm⟩ := foldl_addNew (fun k => ((s.thr k).pc, (s.thr k).pos))
    (fun acc k => acc.any (fun (p : DWord × Nat) => p.1 == (s.thr k).pc && p.2 == (s.thr k).pos))
    (fun l k => by
      simp only [List.any_eq_true, Bool.and_eq_true, beq_iff_eq]
      exact ⟨fun ⟨p, hp, h1, h2⟩ => by rw [← h1, ← h2]; exact hp, fun h => ⟨_, h, rfl, rfl⟩⟩) ks [] .nil
  exact ⟨hn, fun p => (hm p).trans (by simp only [List.not_mem_nil, false_or])⟩

theorem setsOf_spec {s : State} {ks : List Nat} {mine : List Nat} (hmem : ∀ k, k ∈ ks ↔ k ∈ mine) :
    (∀ e ∈ s.setsOf ks, ∀ k, k ∈ e.2.2 ↔ k ∈ mine ∧ (s.thr k).pc = e.1 ∧ (s.thr k).pos = e.2.1)
    ∧ (∀ k ∈ mine, ∃ e ∈ s.setsOf ks, k ∈ e.2.2) ∧ ((s.setsOf ks).map fun e => (e.1, e.2.1)).Nodup := by
  obtain ⟨hn, hm⟩ := pointsOf_spec s ks
  refine ⟨fun e he k => ?_, fun k hk => ?_, ?_⟩
  · obtain ⟨p, -, rfl⟩ := List.mem_map.1 he
    simp only [List.mem_filter, Bool.and_eq_true, beq_iff_eq, hmem]
  · refine ⟨_, List.mem_map.2 ⟨((s.thr k).pc, (s.thr k).pos), (hm _).2 ⟨k, (hmem k).2 hk, rfl⟩, rfl⟩, ?_⟩
    simp only [List.mem_filter, BEq.rfl, Bool.and_self, and_true]
    exact (hmem k).2 hk
  · rw [State.setsOf, List.map_map]
    exact (List.map_id _).symm ▸ hn

/-- The threads of a fault are all back from it. -/
abbrev State.AllBack (s : State) (fid : Nat) : Prop :=
  ∀ k ∈ s.stoppedBy fid, (s.thr k).wait = .rejoining ∧ (s.thr k).fids.head? = some fid

theorem headD_eq_iff {l : List Nat} {fid : Nat} (h : fid ≠ 0) : l.headD 0 = fid ↔ l.head? = some fid := by
  cases l with
  | nil => simpa using h.symm
  | cons x l => simp

theorem rejoin_waits {s : State} {fid : Nat} (hf : fid ≠ 0)
    (h : ∃ k ∈ s.stoppedBy fid, (s.thr k).wait ≠ .rejoining ∨ (s.thr k).fids.head? ≠ some fid) : s.rejoin fid = s := by
  obtain ⟨k, hk, hw⟩ := h
  have hany : ((laneOrder (s.stoppedBy fid)).any fun k => (s.thr k).wait != .rejoining || (s.thr k).fids.headD 0 != fid) = true := by
    refine List.any_eq_true.2 ⟨k, mem_laneOrder.2 hk, ?_⟩
    rw [Bool.or_eq_true, bne_iff_ne, bne_iff_ne, ne_eq ((s.thr k).fids.headD 0), headD_eq_iff hf]
    exact hw
  simp only [State.rejoin, hany, Bool.or_true, if_true]

theorem rejoin_goes {s : State} {fid : Nat} (hf : fid ≠ 0) (hne : s.stoppedBy fid ≠ []) (h : s.AllBack fid) :
    s.rejoin fid = (laneOrder (s.stoppedBy fid)).foldl (fun s k => s.updThr k (·.takeUp fid))
      (s.updSlot (issuerOfThread ((laneOrder (s.stoppedBy fid)).headD 0)) fun sl =>
        { sl with resume := sl.resume ++ s.setsOf (laneOrder (s.stoppedBy fid)) }) := by
  have hany : ((laneOrder (s.stoppedBy fid)).any fun k => (s.thr k).wait != .rejoining || (s.thr k).fids.headD 0 != fid) = false := by
    refine List.any_eq_false.2 fun k hk => ?_
    obtain ⟨hw, hh⟩ := h k (mem_laneOrder.1 hk)
    rw [hw, (headD_eq_iff hf).2 hh]
    simp
  have hemp : (laneOrder (s.stoppedBy fid)).isEmpty = false := by
    obtain ⟨k, hk⟩ := List.exists_mem_of_ne_nil _ hne
    rw [Bool.eq_false_iff, ne_eq, List.isEmpty_iff]
    exact List.ne_nil_of_mem (mem_laneOrder.2 hk)
  rw [State.rejoin]
  simp only [hany, hemp, decide_eq_false hf, Bool.or_false, Bool.false_eq_true, if_false]
  rfl

theorem thr_rejoin {s : State} (hs : Tab.risingFrom 0 s.threads = true) {fid : Nat} (hf : fid ≠ 0) (hne : s.stoppedBy fid ≠ [])
    (h : s.AllBack fid) (k : Nat) : (s.rejoin fid).thr k = if k ∈ s.stoppedBy fid then (s.thr k).takeUp fid else s.thr k := by
  rw [rejoin_goes hf hne h]
  exact ((thr_foldl_updThr (fun _ x => x.takeUp fid) (nodup_laneOrder (nodup_stoppedBy hs fid)) (s := s.updSlot _ _) hs).2 k).trans
    (if_congr mem_laneOrder rfl rfl)

theorem slot_rejoin {s : State} (hs : Tab.risingFrom 0 s.slots = true) {fid : Nat} (hf : fid ≠ 0) (hne : s.stoppedBy fid ≠ [])
    (h : s.AllBack fid) (i : Nat) : (s.rejoin fid).slot i = if i = issuerOfThread ((laneOrder (s.stoppedBy fid)).headD 0)
      then { s.slot i with resume := (s.slot i).resume ++ s.setsOf (laneOrder (s.stoppedBy fid)) } else s.slot i := by
  rw [rejoin_goes hf hne h]
  obtain ⟨threads, he⟩ := foldl_updThr_spec (fun _ x => x.takeUp fid) (laneOrder (s.stoppedBy fid))
    (s.updSlot (issuerOfThread ((laneOrder (s.stoppedBy fid)).headD 0)) fun sl =>
      { sl with resume := sl.resume ++ s.setsOf (laneOrder (s.stoppedBy fid)) })
  rw [he]
  refine (slot_setSlot hs _ i _).trans ?_
  split
  · next hi => rw [hi]
  · rfl

/-- The state after the run has left a thread that trap 2047 returns, and the thread has the numbers of its faults. -/
structure State.LeftBy (u s : State) (k : Nat) (fids : List Nat) : Prop where
  shape : ∃ slots threads groups poisonReg nextId, u = s.beside slots threads groups poisonReg nextId
  idle : (u.slot s.cur).phase = .idle
  threads : Tab.risingFrom 0 u.threads = true
  slots : Tab.risingFrom 0 u.slots = true
  self : (u.thr k).SameButRegs { s.thr k with fids := fids }
  others : ∀ j, j ≠ k → (u.thr j).SameButRegs (s.thr j)

theorem leaveRun_slots {s : State} (h : s.tidy = true) {r : Run} (hr : (s.slot s.cur).phase = .running r) {gone : List Nat}
    (hall : ∀ k ∈ r.threads, k ∈ gone) : Tab.risingFrom 0 (s.leaveRun gone).slots = true := by
  have hleft : (r.threads.filter fun k => !gone.contains k).isEmpty = true := by
    rw [List.isEmpty_iff, List.filter_eq_nil_iff]
    intro k hk
    simpa using hall k hk
  have htidy := setRun_tidy h { r with fixed := [] }
  have hl : s.leaveRun gone = ((s.setRun { r with fixed := [] }).writeRegs (r.fixed.map (·.write))).updSlot s.cur fun sl =>
      { sl with phase := .idle, nextAt := s.clk + 1 } := by
    rw [State.leaveRun, run_of_running hr]
    simp only [hleft, if_true, State.landAll, run_of_running hr]
  rw [hl]
  exact setSlot_rising (tidy_slots (writeRegs_tidy htidy)) _ _

/-- The numbers of the faults a returning thread is of: a fresh one for a thread of none. -/
def State.returnFids (s : State) (k : Nat) : List Nat := if (s.thr k).fids.isEmpty then [s.nextId] else (s.thr k).fids

/-- The state in which the threads of no fault have a fresh number. -/
def State.numbered (s : State) (fresh : Nat) (ks : List Nat) : State :=
  ks.foldl (fun s k => s.updThr k fun x => { x with fids := [fresh] }) { s with nextId := fresh + 1 }

theorem numbered_one {s : State} (hs : s.tidy = true) (k : Nat) : ∃ u : State,
    s.numbered s.nextId ([k].filter fun j => (s.thr j).fids.isEmpty) = u ∧ (∃ threads, u = { s with threads := threads, nextId := s.nextId + 1 })
    ∧ u.tidy = true ∧ u.thr k = { s.thr k with fids := s.returnFids k } ∧ ∀ j, j ≠ k → u.thr j = s.thr j := by
  refine ⟨_, rfl, ?_⟩
  have hs' : ({ s with nextId := s.nextId + 1 } : State).tidy = true := hs
  rw [State.returnFids, List.filter_cons]
  by_cases he : (s.thr k).fids.isEmpty = true
  · rw [if_pos he, if_pos he]
    have ht : (({ s with nextId := s.nextId + 1 } : State).setThr k { s.thr k with fids := [s.nextId] }).tidy = true :=
      setThr_tidy hs' k (show (s.thr k).tidy = true from tidy_thr hs k)
    have hthr := thr_setThr (tidy_threads hs') k (x := { s.thr k with fids := [s.nextId] })
    exact ⟨⟨_, rfl⟩, ht, (hthr k).trans (if_pos rfl), fun j hj => (hthr j).trans (if_neg hj)⟩
  · rw [if_neg he, if_neg he]
    exact ⟨⟨s.threads, rfl⟩, hs', rfl, fun j _ => rfl⟩

theorem trapReturn_one {s : State} (hs : s.tidy = true) {t : TrapTable} {k : Nat} (hi : s.issue = [k]) (ht : s.trapTable k = some t)
    (ha : s.slotActive t k = true) (hp : s.pointOk k (s.slotPoint t k).1 (s.slotPoint t k).2 = true) :
    ∃ u : State, u.LeftBy s k (s.returnFids k) ∧ s.trapReturn = ((u.handlerReturn t k).rejoin ((s.returnFids k).headD 0), []) := by
  obtain ⟨r, hr, hrk⟩ : ∃ r, (s.slot s.cur).phase = .running r ∧ r.threads = [k] := by
    rw [State.issue, State.run] at hi
    split at hi
    · next r hr => exact ⟨r, hr, hi⟩
    · cases hi
  have hgood : ([k].filter fun k => s.slotActive t k && s.pointOk k (s.slotPoint t k).1 (s.slotPoint t k).2) = [k] := by
    rw [List.filter_cons, ha, hp]; rfl
  have hbad : ([k].filter fun j => !([k].contains j)) = [] := by simp
  obtain ⟨v, hv, ⟨threads, hve⟩, hvt, hvk, hvo⟩ := numbered_one hs k
  have htr : s.trapReturn = (((v.leaveRun [k]).handlerReturn t k).rejoin ((v.thr k).fids.headD 0), []) := by
    have hv' : ([k].filter fun j => (State.thr { s with nextId := s.nextId + 1 } j).fids.isEmpty).foldl
        (fun s' j => s'.updThr j fun x => { x with fids := [s.nextId] }) { s with nextId := s.nextId + 1 } = v := hv
    rw [State.trapReturn, hi]
    simp only [List.headD_cons, ht, hgood, hbad, State.newId, hv', List.isEmpty_cons, List.isEmpty_nil, Bool.false_eq_true, if_false, if_true,
      List.map_cons, List.map_nil, dedup, List.filter_nil, List.foldl_cons, List.foldl_nil]
  have hvr : (v.slot v.cur).phase = .running r := by rw [hve]; exact hr
  have hall : ∀ j ∈ r.threads, j ∈ [k] := fun j hj => hrk ▸ hj
  obtain ⟨slots, threads', groups, poisonReg, he, hidle, hrise, hsame⟩ := leaveRun_all hvt hvr hall
  have hcur : v.cur = s.cur := by rw [hve]
  refine ⟨v.leaveRun [k], ⟨⟨slots, threads', groups, poisonReg, s.nextId + 1, ?_⟩, hcur ▸ hidle, hrise, leaveRun_slots hvt hvr hall, ?_, ?_⟩, ?_⟩
  · rw [he, hve]; rfl
  · rw [← hvk]; exact hsame k
  · intro j hj; rw [← hvo j hj]; exact hsame j
  · rw [htr, hvk]

/-- The clause of O24 about the threads of one fault. -/
theorem rejoin_together (s : State) {fid : Nat} (hf : fid ≠ 0) :
    let mine := s.stoppedBy fid
    ((∃ k ∈ mine, (s.thr k).wait ≠ .rejoining ∨ (s.thr k).fids.head? ≠ some fid) → s.rejoin fid = s)
    ∧ (s.tidy = true → mine ≠ [] → (∀ k ∈ mine, (s.thr k).wait = .rejoining ∧ (s.thr k).fids.head? = some fid) →
        ∀ k ∈ mine, ((s.rejoin fid).thr k).wait = .ready ∧ ((s.rejoin fid).thr k).fids = (s.thr k).fids.tail
          ∧ ((s.rejoin fid).thr k).pc = (s.thr k).pc ∧ ((s.rejoin fid).thr k).pos = (s.thr k).pos)
    ∧ (∀ i, s.tidy = true → mine ≠ [] → (∀ k ∈ mine, issuerOfThread k = i ∧ (s.thr k).wait = .rejoining ∧ (s.thr k).fids.head? = some fid) →
        ∃ sets : List (DWord × Nat × List Nat), ((s.rejoin fid).slot i).resume = (s.slot i).resume ++ sets
          ∧ (∀ e ∈ sets, ∀ k, k ∈ e.2.2 ↔ k ∈ mine ∧ (s.thr k).pc = e.1 ∧ (s.thr k).pos = e.2.1)
          ∧ (∀ k ∈ mine, ∃ e ∈ sets, k ∈ e.2.2) ∧ (sets.map fun e => (e.1, e.2.1)).Nodup) := by
  refine ⟨rejoin_waits hf, fun hs hne hall k hk => ?_, fun i hs hne hall => ?_⟩
  · rw [thr_rejoin (tidy_threads hs) hf hne hall, if_pos hk]
    exact ⟨rfl, List.drop_one, rfl, rfl⟩
  · have hback : s.AllBack fid := fun k hk => (hall k hk).2
    refine ⟨s.setsOf (laneOrder (s.stoppedBy fid)), ?_, setsOf_spec fun k => mem_laneOrder⟩
    have hi : i = issuerOfThread ((laneOrder (s.stoppedBy fid)).headD 0) := by
      obtain ⟨k, hk⟩ := List.exists_mem_of_ne_nil _ hne
      have hk := mem_laneOrder.2 hk
      cases hl : laneOrder (s.stoppedBy fid) with
      | nil => rw [hl] at hk; cases hk
      | cons x l => exact (hall x (mem_laneOrder.1 (hl ▸ List.mem_cons_self))).1.symm
    rw [slot_rejoin (tidy_slots hs) hf hne hback, if_pos hi]

theorem stoppedBy_of_rejoin_ne {s : State} {fid : Nat} (h : s.rejoin fid ≠ s) : fid ≠ 0 ∧ s.stoppedBy fid ≠ [] ∧ s.AllBack fid := by
  have hf : fid ≠ 0 := fun he => h (by simp only [State.rejoin, decide_eq_true he, Bool.true_or, if_true])
  refine ⟨hf, fun hn => h ?_, fun k hk => ?_⟩
  · have hl : laneOrder (s.stoppedBy fid) = [] := by
      rw [List.eq_nil_iff_forall_not_mem]
      intro k hk
      rw [mem_laneOrder, hn] at hk
      cases hk
    simp only [State.rejoin, hl, List.isEmpty_nil, Bool.or_true, Bool.true_or, if_true]
  · by_contra hc
    exact h (rejoin_waits hf ⟨k, hk, not_and_or.1 hc⟩)

/-- What threads resuming leaves of any thread and of any issuer's run. -/
theorem rejoin_keeps {s : State} (hs : Tab.risingFrom 0 s.threads = true) (hl : Tab.risingFrom 0 s.slots = true) (fid : Nat) :
    (∀ k, (s.rejoin fid).thr k = s.thr k ∨ (s.rejoin fid).thr k = (s.thr k).takeUp fid)
    ∧ ∀ i, ((s.rejoin fid).slot i).phase = (s.slot i).phase := by
  by_cases h : s.rejoin fid = s
  · rw [h]; exact ⟨fun _ => .inl rfl, fun _ => rfl⟩
  · obtain ⟨hf, hne, hall⟩ := stoppedBy_of_rejoin_ne h
    refine ⟨fun k => ?_, fun i => ?_⟩
    · rw [thr_rejoin hs hf hne hall]
      split
      · exact .inr rfl
      · exact .inl rfl
    · rw [slot_rejoin hl hf hne hall]
      split <;> rfl

/-- R367: what trap 2047 gives the thread that it returns. -/
theorem trapReturn_gives {s w : State} {t : TrapTable} {k : Nat} {b : List Byte} {p : Bool} (hw : w.LeftBy s k (s.returnFids k))
    (hb : s.engineRead { unit := k, ctx := s.ctxOf k } (t.slotOf (s.thr k).lid + 0x40) 64 = .ok (b, p)) (hlive : (s.thr k).live = true) :
    let u := (w.handlerReturn t k).rejoin ((s.returnFids k).headD 0)
    (u.slot s.cur).phase = .idle
      ∧ (let y := u.thr k
        y.pc = BitVec.ofNat 64 (leNat (b.take 8)) ∧ y.pos = (b.getD 8 0).toNat ∧ y.winb = 16 * ((b.getD 9 0).toNat % 16)
        ∧ y.tmMask = (s.thr k).tmKept ∧ (∀ n < 6, y.tm.get 0 n = BitVec.ofNat 32 (leNat ((b.drop (16 + 4 * n)).take 4)))
        ∧ (y.wait = .rejoining ∨ y.wait = .ready) ∧ ((s.thr k).fids = [] → 0 < s.nextId → (∀ e ∈ s.threads, s.nextId ∉ e.2.fids) → y.wait = .ready)) := by
  obtain ⟨⟨slots, threads, groups, poisonReg, nextId, he⟩, hidle, hrise, hslots, ⟨v, tm, preds, ptr, rsv, hself⟩, hothers⟩ := hw
  have hctx : w.ctxOf k = s.ctxOf k := by rw [State.ctxOf, hself, he]; rfl
  have hlid : (w.thr k).lid = (s.thr k).lid := by rw [hself]
  have hb' : w.engineRead { unit := k, ctx := w.ctxOf k } (t.slotOf (w.thr k).lid + 0x40) 64 = .ok (b, p) := by
    rw [hctx, hlid, he, engineRead_beside, hb]
  obtain ⟨hthr, hrise', hslots', -⟩ := handlerReturn_of hrise hb'
  have hx : (w.handlerReturn t k).thr k = (w.thr k).returned b := (hthr k).trans (if_pos rfl)
  have hfids : ((w.handlerReturn t k).thr k).fids = s.returnFids k := by rw [hx, hself]; rfl
  obtain ⟨hkeep, hphase⟩ := rejoin_keeps hrise' (hslots' ▸ hslots) ((s.returnFids k).headD 0)
  have hready : (s.thr k).fids = [] → 0 < s.nextId → (∀ e ∈ s.threads, s.nextId ∉ e.2.fids) →
      (((w.handlerReturn t k).rejoin ((s.returnFids k).headD 0)).thr k).wait = .ready := by
    intro hnil hpos hfresh
    have hret : s.returnFids k = [s.nextId] := by rw [State.returnFids, hnil]; rfl
    have hmem : ∀ j, j ∈ (w.handlerReturn t k).stoppedBy s.nextId → j = k := by
      intro j hj
      by_contra hjk
      obtain ⟨v', tm', preds', ptr', rsv', hj'⟩ := hothers j hjk
      have hin := ((mem_stoppedBy hrise').1 hj).1
      rw [hthr, if_neg hjk, hj'] at hin
      rcases Tab.get_mem {} (t := s.threads) (n := j) with h | h
      · rw [State.thr, h] at hin; cases hin
      · exact hfresh _ h hin
    have hk : k ∈ (w.handlerReturn t k).stoppedBy s.nextId := by
      refine (mem_stoppedBy hrise').2 ⟨by rw [hfids, hret]; exact List.mem_singleton_self _, ?_, ?_⟩
      · rw [hx, hself]; exact hlive
      · rw [hx]; exact Wait.noConfusion
    have hall : (w.handlerReturn t k).AllBack s.nextId := fun j hj => by
      rw [hmem j hj, hfids, hret, hx]; exact ⟨rfl, rfl⟩
    rw [hret, List.headD_cons, thr_rejoin hrise' (by omega) (List.ne_nil_of_mem hk) hall, if_pos hk]
    rfl
  refine ⟨(hphase s.cur).trans ?_, ?_⟩
  · rw [State.slot, hslots']; exact hidle
  · have htm : ∀ n < 6, ((w.thr k).returned b).tm.get 0 n = BitVec.ofNat 32 (leNat ((b.drop (16 + 4 * n)).take 4)) :=
      fun n hn => returned_tm _ b hn
    have hmask : ((w.thr k).returned b).tmMask = (s.thr k).tmKept := by rw [hself]; rfl
    rcases hkeep k with h | h
    · rw [h, hx] at hready
      rw [h, hx]
      exact ⟨rfl, rfl, rfl, hmask, htm, .inl rfl, hready⟩
    · rw [h, hx] at hready
      rw [h, hx]
      exact ⟨rfl, rfl, rfl, hmask, htm, .inr rfl, hready⟩

/-- R367: on a compute slot, trap 2047 in one thread whose handler slot is ACTIVE and holds a point of a run returns that thread. -/
theorem trap_returns {s : State} (hs : s.tidy = true) {t : TrapTable} {k : Nat} {b : List Byte} {p : Bool}
    (hb : s.engineRead { unit := k, ctx := s.ctxOf k } (t.slotOf (s.thr k).lid + 0x40) 64 = .ok (b, p))
    (hp : s.Passes { instr := .trap 2047, place := .both }) (hc : s.onCommand = false) (hi : s.issue = [k]) (ht : s.trapTable k = some t)
    (ha : s.slotActive t k = true) (hpt : s.pointOk k (s.slotPoint t k).1 (s.slotPoint t k).2 = true) (hlive : (s.thr k).live = true) :
    ∃ u, exec (.trap 2047) s = .next u ∧ (u.slot s.cur).phase = .idle
      ∧ (let y := u.thr k
        y.pc = BitVec.ofNat 64 (leNat (b.take 8)) ∧ y.pos = (b.getD 8 0).toNat ∧ y.winb = 16 * ((b.getD 9 0).toNat % 16)
        ∧ y.tmMask = (s.thr k).tmKept ∧ (∀ n < 6, y.tm.get 0 n = BitVec.ofNat 32 (leNat ((b.drop (16 + 4 * n)).take 4)))
        ∧ (y.wait = .rejoining ∨ y.wait = .ready) ∧ ((s.thr k).fids = [] → 0 < s.nextId → (∀ e ∈ s.threads, s.nextId ∉ e.2.fids) → y.wait = .ready)) := by
  obtain ⟨w, hw, htr⟩ := trapReturn_one hs hi ht ha hpt
  refine ⟨_, ?_, trapReturn_gives hw hb hlive⟩
  rw [exec_trap, execTrap, issueMany_of (t := (w.handlerReturn t k).rejoin ((s.returnFids k).headD 0)) (fs := []) hp]
  · rfl
  · rw [hc, if_pos ⟨rfl, rfl⟩, htr]

-- The clause of trap 2047 does not ask for a compute slot.

/-- Thread 0 in a run of a command core's slot: context 1 maps its first gigabyte to the same physical addresses, its trap table is at
0x108000, and the handler slot of thread 0, at 0x10A000, is ACTIVE and holds position 2 of the run at 0x180000 as the point to resume at. -/
def misplaced : State :=
  let run : Run := { pc := 0x190000, pos := 1, words := [0, 0], stalls := [0, 0], threads := [0] }
  let s : State := { cur := cmdIssuer, slots := [(cmdIssuer, { phase := .running run })], nextId := 1, threads := [(0, { live := true })]
                     teams := [(0, { ctx := 1 })], ctxs := [(1, { root := 0x1000, privB := 0x108000, privS := 4096 })] }
  let s := ((s.writeHomes 0x1000 (leBytes 8 0x203D)).writeHomes 0x2000 (leBytes 8 0x303D)).writeHomes 0x3000 (leBytes 8 0x3F)
  let s := s.writeHomes 0x108000 (leBytes 8 0x180000 ++ leBytes 8 0 ++ leBytes 8 0x10A000 ++ leBytes 4 1)
  let s := s.writeHomes 0x180000 ([0x00100000, 0, 0x06000000, 0x02000000].flatMap fun x => leBytes 4 x)
  s.writeHomes 0x10A040 (leBytes 8 0x180000 ++ [1, 2, 1])

/-- The trap table of `misplaced`. -/
def misplacedTable : TrapTable := { pc := 0x180000, deliver := 0, base := 0x10A000, count := 1 }

/-- The run of a command core's slot faults at its word instead of returning to the slot's point. -/
theorem trap_misplaced : ∀ u, exec (.trap 2047) misplaced = .next u →
    (u.thr 0).pc ≠ ((misplaced.handlerReturn misplacedTable 0).thr 0).pc := by
  have h : (match exec (.trap 2047) misplaced with
      | .next u => decide ((u.thr 0).pc ≠ ((misplaced.handlerReturn misplacedTable 0).thr 0).pc) | _ => true) = true := by decide +kernel
  intro u hu
  rw [hu] at h
  exact of_decide_eq_true h

/-- Refutes O24: the clause of trap 2047 holds on a compute slot (`trap_returns`) but does not ask for one. Where the slot in turn is a
command core's and its run holds a compute thread, trap 2047 raises TRAP_INSN (R119) and the thread waits at the word. -/
theorem not_handlersAreEnteredAndReturnedFrom : ¬ Obligations.HandlersAreEnteredAndReturnedFrom := by
  unfold Obligations.HandlersAreEnteredAndReturnedFrom
  intro h
  obtain ⟨-, -, hreturn, -⟩ := h
  obtain ⟨⟨b, p⟩, hb⟩ : Fine (misplaced.engineRead { unit := 0, ctx := misplaced.ctxOf 0 }
      (misplacedTable.slotOf (misplaced.thr 0).lid + 0x40) 64) := by
    cases he : misplaced.engineRead { unit := 0, ctx := misplaced.ctxOf 0 } (misplacedTable.slotOf (misplaced.thr 0).lid + 0x40) 64 with
    | ok x => exact ⟨x, rfl⟩
    | error f =>
      have hne : (misplaced.engineRead { unit := 0, ctx := misplaced.ctxOf 0 } (misplacedTable.slotOf (misplaced.thr 0).lid + 0x40) 64).toOption.isSome
        = true := by decide +kernel
      rw [he] at hne
      cases hne
  obtain ⟨hpc, -, -, -, -, -, hexec⟩ := hreturn misplaced misplacedTable 0 b p (by decide +kernel) hb
  obtain ⟨u, hu, -, hupc, -⟩ := hexec (issueFault_none.1 (by decide +kernel)) (by decide +kernel) rfl (by decide +kernel) (by decide +kernel)
    (by decide +kernel) (by decide +kernel)
  exact trap_misplaced u hu (hupc.trans hpc.symm)

end Sys2Proof.Machine
end

section
/-! PROOFS. Tape records (R250 to R252). -/

namespace Sys2Proof.Machine

/-- The value that a code and its stored bytes stand for, against the new value (R252). -/
def slotBefore (c : Nat) (b : List Byte) (x : Word) : Word :=
  if c = 1 then x else if c = 0 then 0
  else if c = 2 then BitVec.ofNat 32 (wrap 32 ((x.toNat : Int) - sgn 16 (leNat b))) else BitVec.ofNat 32 (leNat b)

theorem sgn_wrap {d : Int} (h : -32768 ≤ d ∧ d ≤ 32767) : sgn 16 (wrap 16 d) = d := by
  rw [wrap_eq_toNat_ofInt, sgn_toNat (by decide), BitVec.toInt_ofInt]
  exact Int.bmod_eq_of_le (by omega) (by omega)

/-- A difference that fits 16 bits gives the previous value back. -/
theorem sub_difference (p c : Word) : BitVec.ofNat 32 (wrap 32 ((c.toNat : Int) - (c - p).toInt)) = p := by
  rw [wrap_eq_toNat_ofInt, BitVec.ofNat_toNat, BitVec.setWidth_eq, Int.sub_eq_add_neg, BitVec.ofInt_add, BitVec.ofInt_neg, BitVec.ofInt_toInt,
    BitVec.ofInt_natCast, BitVec.ofNat_toNat, BitVec.setWidth_eq, ← BitVec.sub_eq_add_neg]
  exact sub_sub_cancel c p

theorem slotBefore_codeSlot (p c : Word) : slotBefore (codeSlot p c).1 (codeSlot p c).2 c = p := by
  rw [codeSlot]
  by_cases h1 : p = c
  · rw [if_pos h1]; exact h1.symm
  rw [if_neg h1]
  by_cases h0 : p = 0
  · rw [if_pos h0]; exact h0.symm
  rw [if_neg h0]
  have hd : sgn 32 (c - p).toNat = (c - p).toInt := sgn_toNat (by decide) _
  by_cases h2 : -32768 ≤ sgn 32 (c - p).toNat ∧ sgn 32 (c - p).toNat ≤ 32767
  · rw [if_pos h2]
    have hle : leNat (leBytes 2 (wrap 16 (sgn 32 (c - p).toNat))) = wrap 16 (sgn 32 (c - p).toNat) := by
      rw [leNat_leBytes, Nat.mod_eq_of_lt]
      rw [wrap_eq_toNat_ofInt]; exact BitVec.isLt _
    have h : slotBefore 2 (leBytes 2 (wrap 16 (sgn 32 (c - p).toNat))) c
      = BitVec.ofNat 32 (wrap 32 ((c.toNat : Int) - sgn 16 (leNat (leBytes 2 (wrap 16 (sgn 32 (c - p).toNat)))))) := rfl
    refine h.trans ?_
    rw [hle, sgn_wrap h2, hd, sub_difference]
  · rw [if_neg h2]
    exact ofNat_leNat_leBytes (n := 4) rfl p

theorem codeSlot_len (p c : Word) : (codeSlot p c).2.length = codeLen (codeSlot p c).1 ∧ (codeSlot p c).1 < 4 := by
  rw [codeSlot]
  split
  · exact ⟨rfl, by decide⟩
  split
  · exact ⟨rfl, by decide⟩
  split
  · exact ⟨rfl, show (2 : Nat) < 4 by decide⟩
  · exact ⟨rfl, show (3 : Nat) < 4 by decide⟩

theorem codeSlot_short (p c : Word) : (codeSlot p c).2.length ≤ 4 := by
  rw [(codeSlot_len p c).1, codeLen]
  split
  · decide
  · split <;> decide

/-- The codes of some slots, and what they store, give the previous values back. -/
theorem recoverSlots_codes : ∀ (prev xs : List Word), prev.length = xs.length →
    recoverSlots ((prev.zip xs).map fun e => (codeSlot e.1 e.2).1) ((prev.zip xs).flatMap fun e => (codeSlot e.1 e.2).2) xs = prev
  | [], [], _ => rfl
  | [], x :: xs, h => absurd h.symm (Nat.succ_ne_zero _)
  | p :: prev, [], h => absurd h (Nat.succ_ne_zero _)
  | p :: prev, x :: xs, h => by
    have hl := (codeSlot_len p x).1
    simp only [List.zip_cons_cons, List.map_cons, List.flatMap_cons, recoverSlots, List.take_left' hl, List.drop_left' hl,
      recoverSlots_codes prev xs (Nat.succ.inj h)]
    exact congrArg (· :: prev) (slotBefore_codeSlot p x)

theorem length_recordBytes (kind : Nat) (prev xs : List Word) :
    (recordBytes kind prev xs).length = ((prev.zip xs).map fun e => (codeSlot e.1 e.2).2.length).sum + 3 := by
  simp only [recordBytes, List.length_append, length_leBytes, List.length_flatMap, List.map_map]
  rfl

/-- Settles O46. -/
theorem tapeRecordsRecoverTheirSlots : Obligations.TapeRecordsRecoverTheirSlots := by
  unfold Obligations.TapeRecordsRecoverTheirSlots
  intro kind prev xs hlen
  refine ⟨recoverSlots_codes prev xs hlen, fun e _ => codeSlot_len e.1 e.2, length_recordBytes kind prev xs, fun h4 => ?_, fun _ _ _ => ?_⟩
  · have hsum : ((prev.zip xs).map fun e => (codeSlot e.1 e.2).2.length).sum ≤ (prev.zip xs).length * 4 := by
      refine (List.sum_le_card_nsmul _ 4 fun n hn => ?_).trans_eq (by rw [List.length_map, smul_eq_mul])
      obtain ⟨e, -, rfl⟩ := List.mem_map.1 hn
      exact codeSlot_short e.1 e.2
    have hz : (prev.zip xs).length ≤ 4 := by rw [List.length_zip]; omega
    rw [length_recordBytes]
    omega
  · exact List.getLast?_concat ..

end Sys2Proof.Machine
end

section
/-! PROOFS. Reservoirs and the generator (R260 to R263, R408). -/

namespace Sys2Proof.Machine

-- The value of a finite encoding (R66).

theorem pow2_eq (e : Int) : pow2 e = (2 : ℚ) ^ e := by
  rw [pow2]
  split
  · next h =>
    obtain ⟨n, rfl⟩ := Int.eq_ofNat_of_zero_le h
    rw [Int.toNat_natCast, zpow_natCast]; push_cast; rfl
  · next h =>
    obtain ⟨n, hn⟩ := Int.eq_ofNat_of_zero_le (show 0 ≤ -e by omega)
    rw [hn, Int.toNat_natCast, show e = -(n : ℤ) by omega, zpow_neg, zpow_natCast]; push_cast; rw [one_div]

theorem smant_cast (neg : Bool) (m : Nat) : ((smant neg m : Int) : ℚ) = if neg = true then -(m : ℚ) else m := by
  rw [smant]; split <;> push_cast <;> rfl

/-- A finite encoding decodes to a significand and an exponent of its value. -/
theorem decode_finite {f : Fmt} {n : Nat} (h : fpFinite f n = true) : ∃ m e, f.decode n = .fin (bit n (f.width - 1)) m e
    ∧ (FVal.fin (bit n (f.width - 1)) m e).rat = some (fpRat f n) := by
  simp only [fpFinite, Bool.and_eq_true, decide_eq_true_eq, bne_iff_ne] at h
  have hne : n / 2 ^ (f.prec - 1) % 2 ^ (f.width - f.prec) ≠ 2 ^ f.ebits - 1 := h.2
  have hbit : (bit n (f.width - 1) = true) = (n / 2 ^ (f.width - 1) % 2 = 1) := by rw [bit, beq_iff_eq]
  have hfield : field n f.frac f.ebits = n / 2 ^ (f.prec - 1) % 2 ^ (f.width - f.prec) := rfl
  have hm : field n 0 f.frac = n % 2 ^ (f.prec - 1) := by rw [field, pow_zero, Nat.div_one]; rfl
  have hv : ∀ m e, (FVal.fin (bit n (f.width - 1)) m e).rat
      = some (if n / 2 ^ (f.width - 1) % 2 = 1 then -((m : ℚ) * 2 ^ e) else (m : ℚ) * 2 ^ e) := by
    intro m e
    rw [FVal.rat, smant_cast, pow2_eq]
    simp only [hbit]
    split
    · rw [neg_mul]
    · rfl
  by_cases h0 : n / 2 ^ (f.prec - 1) % 2 ^ (f.width - f.prec) = 0
  · refine ⟨n % 2 ^ (f.prec - 1), f.emin - f.frac, ?_, ?_⟩
    · rw [Fmt.decode]; simp only [hfield, hm]; rw [if_neg hne, if_pos h0]
    · rw [hv, fpRat, if_pos h0]; rfl
  · refine ⟨2 ^ (f.prec - 1) + n % 2 ^ (f.prec - 1), ((n / 2 ^ (f.prec - 1) % 2 ^ (f.width - f.prec) : Nat) : Int) - f.bias - f.frac, ?_, ?_⟩
    · rw [Fmt.decode]; simp only [hfield, hm]; rw [if_neg hne, if_neg h0]; rfl
    · rw [hv, fpRat, if_neg h0]; rfl

theorem rat_ne_zero_iff {neg : Bool} {m : Nat} {e : Int} {x : ℚ} (h : (FVal.fin neg m e).rat = some x) : x ≠ 0 ↔ m ≠ 0 := by
  rw [FVal.rat, smant_cast, pow2_eq, Option.some_inj] at h
  have hp : (2 : ℚ) ^ e ≠ 0 := zpow_ne_zero _ (by norm_num)
  rw [← h, mul_ne_zero_iff]
  constructor
  · rintro ⟨hm, -⟩ rfl
    exact hm (by cases neg <;> simp)
  · intro hm
    refine ⟨?_, hp⟩
    split
    · exact neg_ne_zero.2 (Nat.cast_ne_zero.2 hm)
    · exact Nat.cast_ne_zero.2 hm

-- The acceptance test (R260).

theorem rsvWeight_of {w : Word} (h : fpFinite f32 w.toNat = true) (hs : w.getLsbD 31 = false) : rsvWeight w = w := by
  obtain ⟨m, e, hd, -⟩ := decode_finite h
  have hneg : bit w.toNat (f32.width - 1) = false := by
    rw [← hs, BitVec.getLsbD, Nat.testBit_eq_decide_div_mod_eq, bit]
    rfl
  rw [hneg] at hd
  rw [rsvWeight, fOf, hd]
  rfl

theorem rsvAccept_iff {u : Nat} {ws w : Word} (hws : fpFinite f32 ws.toNat = true) (hw : fpFinite f32 w.toNat = true) :
    rsvAccept u ws w = true ↔
      fpRat f32 ws.toNat ≠ 0 ∧ fpRat f32 w.toNat ≠ 0 ∧ u * fpRat f32 ws.toNat < fpRat f32 w.toNat * 2 ^ 24 := by
  obtain ⟨m, e, hd, hr⟩ := decode_finite hws
  obtain ⟨m', e', hd', hr'⟩ := decode_finite hw
  rw [rsvAccept, fOf, fOf, hd, hd', hr']
  by_cases h0 : fpRat f32 w.toNat = 0
  · rw [h0, show (some (0 : ℚ)).filter (· != 0) = none by simp]
    simp
  · rw [show (some (fpRat f32 w.toNat)).filter (· != 0) = some (fpRat f32 w.toNat) by simp [h0]]
    simp only [hr, Bool.and_eq_true, decide_eq_true_eq, rat_ne_zero_iff hr]
    exact ⟨fun ⟨a, b⟩ => ⟨a, h0, b⟩, fun ⟨a, _, b⟩ => ⟨a, b⟩⟩

/-- R260: an update takes the candidate exactly when the test accepts it. -/
theorem update_takes (r : Rsv) (c p w : Word) (m v : Nat) (hw : fpFinite f32 w.toNat = true) (hs : w.getLsbD 31 = false) :
    let z := r.update c p w m v
    fpFinite f32 z.wsum.toNat = true → z.m = m
      ∧ (fpRat f32 z.wsum.toNat ≠ 0 ∧ fpRat f32 w.toNat ≠ 0 ∧ v * fpRat f32 z.wsum.toNat < fpRat f32 w.toNat * 2 ^ 24 → z.sample = c ∧ z.phat = p)
      ∧ (¬ (fpRat f32 z.wsum.toNat ≠ 0 ∧ fpRat f32 w.toNat ≠ 0 ∧ v * fpRat f32 z.wsum.toNat < fpRat f32 w.toNat * 2 ^ 24) →
        z.sample = r.sample ∧ z.phat = r.phat) := by
  intro z hz
  have hok : ∀ {a b : Word}, (if rsvAccept v (rsvSum r.wsum (rsvWeight w)) (rsvWeight w) = true then a else b)
      = if rsvAccept v z.wsum w = true then a else b := by
    intro a b
    rw [rsvWeight_of hw hs, show z.wsum = rsvSum r.wsum w from congrArg (rsvSum r.wsum) (rsvWeight_of hw hs)]
  have hsample : z.sample = if rsvAccept v z.wsum w = true then c else r.sample := hok
  have hphat : z.phat = if rsvAccept v z.wsum w = true then p else r.phat := hok
  rw [hsample, hphat]
  refine ⟨rfl, fun h => ?_, fun h => ?_⟩
  · rw [if_pos ((rsvAccept_iff hz hw).2 h), if_pos ((rsvAccept_iff hz hw).2 h)]; exact ⟨rfl, rfl⟩
  · rw [if_neg (mt (rsvAccept_iff hz hw).1 h), if_neg (mt (rsvAccept_iff hz hw).1 h)]; exact ⟨rfl, rfl⟩

-- The instructions.

theorem rsvCap_eq (n : Nat) : rsvCap n = if n < 2 ^ 32 then n else 2 ^ 32 - 1 := by
  rw [rsvCap, Nat.min_eq_min, Nat.min_def]; split <;> split <;> omega

theorem toBlock_four (s : State) (k d : Nat) (f : Nat → Word) :
    s.toBlock k d ((upto 0 4).map f) = (List.range 4).map fun i => s.toV k (d + i) (f i) := rfl

theorem getD_rsvWords (x : BitVec 128) {n : Nat} (h : n < 4) : (rsvWords x).getD n 0 = x.extractLsb' (32 * n) 32 := by
  interval_cases n <;> rfl

/-- The tag of a merge's draw. -/
theorem mergeTag : ∀ q : BitVec 3, BitVec.ofNat 32 (q.toNat + 2 ^ 31) = (1#1 ++ q.setWidth 31 : BitVec 32) := by decide

/-- Settles O48. -/
theorem reservoirsAndTheGeneratorComplete : Obligations.ReservoirsAndTheGeneratorComplete := by
  unfold Obligations.ReservoirsAndTheGeneratorComplete
  intro s q qs d a b u vk
  refine ⟨fun hp => ?_, fun hp => ?_, fun hp => ?_, fun hp => ?_, fun hp hb => ?_, fun hp hb => ?_, update_takes, fun hp => ?_⟩
  · rw [exec_rsvupd, execRsvupd, issuePlain_of hp]
    simp only [rsvCap_eq, ← BitVec.ofNat_toNat]
    rfl
  · rw [exec_rsvmrg, execRsvmrg, issuePlain_of hp]
    simp only [rsvCap_eq, mergeTag]
    rfl
  · rw [exec_rsvinit, execRsvinit, issuePlain_of hp]
  · rw [exec_rsvfin, execRsvfin, issuePlain_of hp]
    rfl
  · rw [exec_rsvget, execRsvget, issuePlain_of hp]
    refine congrArg Host.Outcome.next (List.foldl_ext _ _ _ fun t k _ => congrArg (t.variable k) ?_)
    split
    · exact toBlock_four s k d.toNat _
    · next hne =>
      have hb4 : b.toNat < 4 := by
        rcases Nat.lt_or_ge b.toNat 4 with h | h
        · exact h
        · exact absurd (BitVec.eq_of_toNat_eq (show b.toNat = 4 by omega)) hne
      rw [getD_rsvWords _ hb4]
  · rw [exec_rsvset, execRsvset, issuePlain_of hp]
    rfl
  · rw [exec_clove, execClove, issuePlain_of hp]
    refine congrArg Host.Outcome.next (List.foldl_ext _ _ _ fun t k _ => congrArg (t.variable k) (congrArg (fun x => [s.toV k d.toNat x]) ?_))
    split
    · exact if_congr (Nat.div_eq_zero_iff.trans (or_iff_right (by decide))) rfl rfl
    · rfl

end Sys2Proof.Machine
end

section
/-! PROOFS. Slot rings (R190, R191): what a claim does to its block, and the words that claim and hand on. -/

namespace Sys2Proof.Machine

/-- What is done to each element in turn, where it may be. -/
theorem foldl_of_inTurn {α : Type} {ok : State → α → Prop} {eff f : State → α → State} (h : ∀ s x, ok s x → f s x = eff s x) :
    ∀ {l : List α} {s : State}, InTurn ok eff s l → l.foldl f s = l.foldl eff s
  | [], _, _ => rfl
  | x :: l, s, ⟨hx, hl⟩ => by
    rw [List.foldl_cons, List.foldl_cons, h s x hx]
    exact foldl_of_inTurn h hl

-- Memory whose bytes can be written and read back.

/-- Memory in its canonical form, with rising keys among the bytes that engines own. -/
structure State.Writable (s : State) : Prop where
  mem : Memory.wf s.mem = true
  owned : Tab.risingFrom 0 s.owned = true

theorem writeHomes_writable {s : State} (h : s.Writable) (bs : List Byte) {a : Nat} (hl : a + bs.length ≤ 2 ^ 110) :
    (s.writeHomes a bs).Writable := by
  induction bs generalizing s a with
  | nil => exact h
  | cons b bs ih =>
    rw [List.length_cons] at hl
    obtain ⟨hm, ho⟩ := writeHome_rising h.mem h.owned (show a < 2 ^ 110 by omega) b
    exact ih ⟨hm, ho⟩ (by omega)

/-- A number in memory depends on its bytes alone. -/
theorem blockNat_congr {s t : State} {h off n : Nat} (hr : ∀ a, h + off ≤ a → a < h + off + n → t.readHome a = s.readHome a) :
    t.blockNat h off n = s.blockNat h off n := by
  rw [State.blockNat, State.blockNat, readHomes_eq, readHomes_eq]
  exact congrArg leNat (List.map_congr_left fun a ha => (hr a (mem_upto.1 ha).1 (mem_upto.1 ha).2))

theorem blockNat_lt (s : State) (h off : Nat) : s.blockNat h off 4 < 2 ^ 32 := by
  have hlt := leNat_lt (s.readHomes (h + off) 4)
  rwa [readHomes_eq, List.length_map, length_upto, ← readHomes_eq] at hlt

/-- A number of 4 bytes written to a block. -/
theorem blockNat_writeHomes {s : State} (hs : s.Writable) {h off x : Nat} (hl : h + off + 4 ≤ 2 ^ 110) (hx : x < 2 ^ 32) :
    (s.writeHomes (h + off) (leBytes 4 x)).blockNat h off 4 = x := by
  have hread : (s.writeHomes (h + off) (leBytes 4 x)).readHomes (h + off) 4 = leBytes 4 x := by
    refine List.ext_getElem (by rw [readHomes_eq, List.length_map, length_upto, length_leBytes]) fun i h1 h2 => ?_
    rw [length_leBytes] at h2
    have hi := (readHome_writeHomes (leBytes 4 x) s (h + off) hs.mem hs.owned (by rw [length_leBytes]; omega)).2 (h + off + i) (by omega)
    rw [if_pos (by rw [length_leBytes]; omega), Nat.add_sub_cancel_left, List.getD_eq_getElem _ _ (by rw [length_leBytes]; exact h2)] at hi
    simp only [readHomes_eq, List.getElem_map, upto_eq, List.getElem_range', one_mul]
    exact hi
  rw [State.blockNat, hread, leNat_leBytes, Nat.mod_eq_of_lt hx]

theorem readHome_writeHomes_off {s : State} (hs : s.Writable) {a h : Nat} {bs : List Byte} (hl : h + bs.length ≤ 2 ^ 110) (ha : a < 2 ^ 110)
    (hout : a < h ∨ h + bs.length ≤ a) : (s.writeHomes h bs).readHome a = s.readHome a := by
  rw [(readHome_writeHomes bs s h hs.mem hs.owned hl).2 a ha, if_neg (by omega)]

-- The state of a slot.

/-- The two bits of one of the four slots of a byte, after those of one of them are set. -/
theorem field_setField : ∀ (b : Fin 256) (i j v : Fin 4),
    (b.val - field b.val (2 * i) 2 * 4 ^ i.val + v * 4 ^ i.val) % 256 / 2 ^ (2 * j.val) % 2 ^ 2
      = if j = i then v.val else b.val / 2 ^ (2 * j.val) % 2 ^ 2 := by decide +kernel

theorem slotState_congr {s t : State} {h k : Nat} (hr : t.readHome (h + 0x10 + k / 4) = s.readHome (h + 0x10 + k / 4)) :
    t.slotState h k = s.slotState h k := by rw [State.slotState, State.slotState, hr]

theorem setSlotState_eq (s : State) (h k v : Nat) : ∃ b, s.setSlotState h k v = s.writeHomes (h + 0x10 + k / 4) [b] := ⟨_, rfl⟩

theorem slotState_setSlotState {s : State} (hs : s.Writable) {h k v : Nat} (hl : h + 128 ≤ 2 ^ 110) (hk : k < 256) (hv : v < 4) {j : Nat} (hj : j < 256) :
    (s.setSlotState h k v).slotState h j = if j = k then v else s.slotState h j := by
  have hread := readHome_writeHome (Tab.rising_of_wf hs.mem) hs.owned (h := h + 0x10 + k / 4) (a := h + 0x10 + j / 4)
    (BitVec.ofNat 8 ((s.readHome (h + 0x10 + k / 4)).toNat - field (s.readHome (h + 0x10 + k / 4)).toNat (2 * (k % 4)) 2 * 4 ^ (k % 4)
      + v * 4 ^ (k % 4))) (by omega) (by omega)
  rw [State.slotState, State.setSlotState, hread]
  by_cases hb : j / 4 = k / 4
  · rw [if_pos (by omega), BitVec.toNat_ofNat, State.slotState, hb]
    refine (field_setField ⟨_, (s.readHome (h + 0x10 + k / 4)).isLt⟩ ⟨k % 4, by omega⟩ ⟨j % 4, by omega⟩ ⟨v, hv⟩).trans (if_congr ?_ rfl rfl)
    rw [Fin.mk.injEq]
    omega
  · rw [if_neg (by omega), if_neg (fun he => hb (by rw [he]))]
    rfl

-- A claim (R191).

/-- The number of slots counted on a side: NFILL or NFREE. -/
def State.countOf (s : State) (h : Nat) (filled : Bool) : Nat := if filled then s.blockNat h 8 4 / 65536 % 512 else s.blockNat h 8 4 % 512

/-- The counts' word after one is taken off a side. -/
def takenOff (w : Nat) (filled : Bool) : Nat :=
  let lo := if filled then 16 else 0
  w - field w lo 9 * 2 ^ lo + (field w lo 9 + 511) % 512 * 2 ^ lo

theorem takenOff_counts {w : Nat} (hw : w < 2 ^ 32) (filled : Bool) : takenOff w filled < 2 ^ 32
    ∧ (let count := fun (w : Nat) (filled : Bool) => if filled then w / 65536 % 512 else w % 512
      (0 < count w filled → count (takenOff w filled) filled + 1 = count w filled) ∧ count (takenOff w filled) (!filled) = count w (!filled)) := by
  cases filled
  · simp only [takenOff, field, Bool.false_eq_true, if_false, Bool.not_false, if_true, pow_zero, Nat.div_one, mul_one,
      show 2 ^ 9 = 512 from rfl]
    omega
  · simp only [takenOff, field, Bool.not_true, Bool.false_eq_true, if_false, if_true, show 2 ^ 9 = 512 from rfl, show 2 ^ 16 = 65536 from rfl]
    omega

theorem advanceIdx_eq (n w : Nat) : advanceIdx n w = if w % 256 + 1 = n then (if w / 256 % 2 = 1 then 0 else 256) else w % 512 + 1 := by
  rw [advanceIdx]
  refine if_congr Iff.rfl ?_ rfl
  split <;> omega

theorem ringClaim_spec {s : State} {h : Nat} (fill : Bool) (hl : h + 128 ≤ 2 ^ 110) (hm : Memory.wf s.mem = true) (ht : s.tidy = true) :
    let off := if fill then 0 else 4
    let w := s.blockNat h off 4
    let r := s.ringClaim h fill
    r.1 = w % 512 ∧ r.2.slotState h (w % 256) = (if fill then 1 else 3)
      ∧ (∀ j, j < 256 → j ≠ w % 256 → r.2.slotState h j = s.slotState h j)
      ∧ ((0 < s.countOf h (!fill) → r.2.countOf h (!fill) + 1 = s.countOf h (!fill)) ∧ r.2.countOf h fill = s.countOf h fill)
      ∧ r.2.blockNat h off 4 = (if w % 256 + 1 = s.ringSlots h then (if w / 256 % 2 = 1 then 0 else 256) else w % 512 + 1)
      ∧ r.2.blockNat h 0x0C 4 = s.blockNat h 0x0C 4 := by
  intro off w r
  have hoff : off = 0 ∨ off = 4 := by cases fill <;> simp [off]
  have hs : s.Writable := ⟨hm, tidy_owned ht⟩
  have hw : w % 256 < 256 := Nat.mod_lt _ (by decide)
  have hset : (if fill then 1 else 3) < 4 := by split <;> decide
  -- The three writes: the slot's state, the count, the index.
  obtain ⟨b, hs1⟩ := setSlotState_eq s h (w % 256) (if fill then 1 else 3)
  have h1 : (s.setSlotState h (w % 256) (if fill then 1 else 3)).Writable := by
    rw [hs1]; exact writeHomes_writable hs _ (by rw [List.length_singleton]; omega)
  have hread1 : ∀ a, a < h + 0x10 → a < 2 ^ 110 → (s.setSlotState h (w % 256) (if fill then 1 else 3)).readHome a = s.readHome a :=
    fun a ha ha' => by rw [hs1]; exact readHome_writeHomes_off hs (by rw [List.length_singleton]; omega) ha' (by omega)
  have hcount1 : (s.setSlotState h (w % 256) (if fill then 1 else 3)).blockNat h 8 4 = s.blockNat h 8 4 :=
    blockNat_congr fun a _ _ => hread1 a (by omega) (by omega)
  obtain ⟨htaken, htake, hkeep⟩ := takenOff_counts (blockNat_lt s h 8) (!fill)
  obtain ⟨s1, hs1'⟩ : ∃ s1, s1 = s.setSlotState h (w % 256) (if fill then 1 else 3) := ⟨_, rfl⟩
  rw [← hs1'] at h1 hread1 hcount1
  have hs2 : s1.ringCount h (!fill) false = s1.writeHomes (h + 8) (leBytes 4 (takenOff (s.blockNat h 8 4) (!fill))) := by
    rw [← hcount1]; rfl
  obtain ⟨s2, hs2'⟩ : ∃ s2, s2 = s1.ringCount h (!fill) false := ⟨_, rfl⟩
  have h2 : s2.Writable := by
    rw [hs2', hs2]; exact writeHomes_writable h1 _ (by rw [length_leBytes]; omega)
  have hread2 : ∀ a, a < h + 8 ∨ h + 12 ≤ a → a < 2 ^ 110 → s2.readHome a = s1.readHome a := fun a ha ha' => by
    rw [hs2', hs2]; exact readHome_writeHomes_off h1 (by rw [length_leBytes]; omega) ha' (by rw [length_leBytes]; omega)
  have hslots : s2.ringSlots h = s.ringSlots h := by
    rw [State.ringSlots, State.ringSlots, blockNat_congr (s := s) fun a _ _ => (hread2 a (by omega) (by omega)).trans (hread1 a (by omega) (by omega))]
  have hr : r = (w % 512, s2.writeHomes (h + off) (leBytes 4 (advanceIdx (s.ringSlots h) w))) := by
    rw [← hslots, hs2', hs1']; rfl
  have hread3 : ∀ a, a < h + off ∨ h + off + 4 ≤ a → a < 2 ^ 110 → r.2.readHome a = s2.readHome a := fun a ha ha' => by
    rw [hr]; exact readHome_writeHomes_off h2 (by rw [length_leBytes]; omega) ha' (by rw [length_leBytes]; omega)
  have hstate : ∀ j, j < 256 → r.2.slotState h j = s1.slotState h j := fun j hj =>
    slotState_congr ((hread3 _ (by omega) (by omega)).trans (hread2 _ (by omega) (by omega)))
  have hcounts : r.2.blockNat h 8 4 = takenOff (s.blockNat h 8 4) (!fill) := by
    rw [blockNat_congr (s := s2) fun a _ _ => hread3 a (by omega) (by omega), hs2', hs2, blockNat_writeHomes h1 (by omega) htaken]
  have hadv : advanceIdx (s.ringSlots h) w < 2 ^ 32 := by
    rw [advanceIdx_eq]; split
    · split <;> decide
    · omega
  refine ⟨by rw [hr], ?_, fun j hj hne => ?_, ⟨fun hpos => ?_, ?_⟩, ?_, ?_⟩
  · rw [hstate _ hw, hs1', slotState_setSlotState hs hl hw hset hw, if_pos rfl]
  · rw [hstate j hj, hs1', slotState_setSlotState hs hl hw hset hj, if_neg hne]
  · rw [State.countOf, hcounts]; exact htake hpos
  · rw [State.countOf, hcounts]
    rw [Bool.not_not] at hkeep
    exact hkeep
  · rw [hr, blockNat_writeHomes h2 (by omega) hadv, advanceIdx_eq]
  · exact blockNat_congr fun a _ _ =>
      ((hread3 a (by omega) (by omega)).trans (hread2 a (by omega) (by omega))).trans (hread1 a (by omega) (by omega))

-- The words.

theorem claimOrWait_claims {s : State} {fill : Bool} {d : BitVec 7} {e : Nat × Spot} (h : s.mayClaim fill e) :
    s.claimOrWait fill d e.1 e.2 = s.claimed fill d e := by
  have h : (s.beforeStrong e.1 e.2).claimable e.2.home fill = true := h
  rw [State.claimOrWait]
  simp only [h, if_true]
  rfl

/-- Settles O40. -/
theorem slotRingsClaimAndHandOn : Obligations.SlotRingsClaimAndHandOn := by
  unfold Obligations.SlotRingsClaimAndHandOn
  intro s d a g l
  refine ⟨fun hp hc hl => ?_, fun hp hc hl => ?_, fun e he hp hc => ?_, fun h fill hl hm ht => ringClaim_spec fill hl hm ht⟩
  · rw [exec_slwait, execSlwait]
    refine issueWord_of hp ?_
    show (s.checkBlocks g.toNat (fun _ => none) >>= _) = _
    rw [hc]
    exact congrArg (fun t : State => Except.ok t.ringsMoved) (foldl_of_inTurn (fun _ _ => claimOrWait_claims) hl)
  · rw [exec_slfree, execSlfree]
    refine issueWord_of hp ?_
    show (s.checkBlocks g.toNat (fun _ => none) >>= _) = _
    rw [hc]
    exact congrArg (fun t : State => Except.ok t.ringsMoved) (foldl_of_inTurn (fun _ _ => claimOrWait_claims) hl)
  · rcases List.mem_pair.1 he with rfl | rfl
    · rw [exec_slrel, execSlrel]
      refine issueWord_of hp ?_
      show (s.checkBlocks g.toNat (fun k => some (s.slotOf a k, false)) >>= _) = _
      rw [show s.checkBlocks g.toNat (fun k => some (s.slotOf a k, false)) = .ok l from hc]
      rfl
    · rw [exec_slcommit, execSlcommit]
      refine issueWord_of hp ?_
      show (s.checkBlocks g.toNat (fun k => some (s.slotOf a k, true)) >>= _) = _
      rw [show s.checkBlocks g.toNat (fun k => some (s.slotOf a k, true)) = .ok l from hc]
      rfl

end Sys2Proof.Machine
end

section
/-! PROOFS. Binned regions (R206, R207, R399). -/

namespace Sys2Proof.Machine

theorem torcOwns_append (s : State) (l m : List Nat) : s.torcOwns (l ++ m) = (s.torcOwns l || s.torcOwns m) := by
  rw [State.torcOwns, State.torcOwns, State.torcOwns, List.any_append, Bool.and_or_distrib_left]

/-- No Torc step owns a line of some homes where it owns none of any part's. -/
theorem torcOwns_flatMap {α : Type} {s : State} {l : List α} {f : α → List Nat} (h : ∀ x ∈ l, s.torcOwns (f x) = false) :
    s.torcOwns (l.flatMap f) = false := by
  induction l with
  | nil => exact Bool.and_false _
  | cons x l ih =>
    rw [List.flatMap_cons, torcOwns_append, h x List.mem_cons_self, ih fun y hy => h y (List.mem_cons_of_mem _ hy)]
    rfl

theorem filterMap_none {α β : Type} (l : List α) : l.filterMap (fun _ => (none : Option β)) = [] :=
  List.filterMap_eq_nil_iff.2 fun _ _ => rfl

/-- The elements of one lane, with their region. -/
def State.laneElems (s : State) (r : Region) (a b : BitVec 7) (k : Nat) : List FinElem :=
  got (s.finElems k r (upto (s.v k a.toNat).toNat (s.v k b.toNat).toNat)) []

theorem finLane_of {s : State} {r : Region} {a b : BitVec 7} {k : Nat} (hc : (s.v k a.toNat).toNat + (s.v k b.toNat).toNat ≤ r.count)
    (hf : Fine (s.finElems k r (upto (s.v k a.toNat).toNat (s.v k b.toNat).toNat))) : s.finLane r a b k = .ok (s.laneElems r a b k) := by
  rw [State.finLane, if_neg (by omega), got_of hf []]
  rfl

/-- What a group has to finalise where every lane passes. -/
theorem finGroup_of {s : State} {id : Nat} {a b : BitVec 7} {g k : Nat} {r : Region} (hr : (s.cx (s.ctxOf k)).regions.get none id = some r)
    (hl : ∀ m ∈ s.issuedOf g, s.finLane r a b m = .ok (s.laneElems r a b m))
    (ht : ∀ m ∈ s.issuedOf g, ∀ x ∈ s.laneElems r a b m, s.torcOwns (upto x.shadow.home 32 ++ upto x.primary.home r.elem) = false) :
    s.finGroup id a b g k = .ok ((s.issuedOf g).flatMap fun m => (s.laneElems r a b m).map fun x => (r, x)) := by
  have hall : (s.issuedOf g).map (fun m => (m, s.finLane r a b m)) = (s.issuedOf g).map fun m => (m, .ok (s.laneElems r a b m)) :=
    List.map_congr_left fun m hm => by rw [hl m hm]
  have htorc : s.torcOwns (((s.issuedOf g).flatMap (s.laneElems r a b)).flatMap fun x => upto x.shadow.home 32 ++ upto x.primary.home r.elem) = false :=
    torcOwns_flatMap fun x hx => by
      obtain ⟨m, hm, hx⟩ := List.mem_flatMap.1 hx
      exact ht m hm x hx
  rw [State.finGroup, hr]
  simp only [hall, List.filterMap_map, Function.comp_def, filterMap_none, List.flatMap_map]
  rw [show laneFault [] true = none from rfl]
  simp only [htorc, Bool.false_eq_true, if_false, List.map_flatMap]

/-- Where every group passes, the elements are finalised in lane order. -/
theorem finAll_of {s : State} {id : Nat} {a b : BitVec 7} (clear : Bool) {f : Nat × Nat → List (Region × FinElem)}
    (h : ∀ e ∈ s.issueGroups, s.finGroup id a b e.1 e.2 = .ok (f e)) :
    let xs := s.issueGroups.flatMap f
    let lanes := laneOrder (dedup (xs.map fun x => x.2.k))
    s.finAll id a b clear = ((lanes.flatMap fun k => xs.filter fun x => x.2.k == k).foldl (fun t x => t.finalise x.1 clear x.2)
      (s.flushBins fun u => lanes.contains u.th), []) := by
  have hall : s.issueGroups.map (fun e => (e.1, s.finGroup id a b e.1 e.2)) = s.issueGroups.map fun e => (e.1, .ok (f e)) :=
    List.map_congr_left fun e he => by rw [h e he]
  rw [State.finAll]
  simp only [hall, List.filterMap_map, Function.comp_def, filterMap_none, List.flatMap_map, List.any_nil, Bool.false_eq_true, if_false]
  rfl

/-- Settles O41. -/
theorem binnedRegionsComplete : Obligations.BinnedRegionsComplete := by
  unfold Obligations.BinnedRegionsComplete
  intro s id g a b
  refine ⟨⟨fun hp hl => ?_, fun hp => ?_⟩, fun e he => ?_⟩
  · rw [exec_binctlDecl, execBinctlDecl]
    refine issueMany_of (fs := []) hp (perGroup_of (fun t e hok => ?_) hl)
    obtain ⟨⟨u, hu⟩, hpoison, hbad, hmeets⟩ := hok
    show (t.engineChecks e.2 (rowAsk 32 1 g false) false [(t.ptrOf e.2 g.toNat).toNat] >>= _) = _
    rw [hu]
    show (if (t.engineBytes e.2 (t.ptrOf e.2 g.toNat).toNat 32).2 = true then _ else _) = _
    exact (if_neg (Bool.eq_false_iff.1 hpoison)).trans ((if_neg (Bool.eq_false_iff.1 hbad)).trans (if_neg (Bool.eq_false_iff.1 hmeets)))
  · rw [exec_binctlFree, execBinctlFree, issuePlain_of hp]
    refine congrArg Host.Outcome.next (List.foldl_ext _ _ _ fun t e _ => ?_)
    cases (t.cx (t.ctxOf e.2)).regions.get none id.toNat <;> rfl
  · intro region first count elems xs lanes hp hgroups htorc
    have hf : ∀ x ∈ s.issueGroups, s.finGroup id.toNat a b x.1 x.2 = .ok (match region x.2 with
        | none => []
        | some r => (s.issuedOf x.1).flatMap fun k => (elems k r).map fun y => (r, y)) := by
      intro x hx
      obtain ⟨r, hr, hlanes⟩ := hgroups x hx
      rw [hr]
      refine finGroup_of hr (fun m hm => finLane_of (hlanes m hm).1 (hlanes m hm).2) fun m hm y hy => ?_
      refine htorc (r, y) (List.mem_flatMap.2 ⟨x, hx, ?_⟩)
      rw [hr]
      exact List.mem_flatMap.2 ⟨m, hm, List.mem_map.2 ⟨y, hy, rfl⟩⟩
    rcases List.mem_pair.1 he with rfl | rfl
    · rw [exec_binctlFin, execBinctlFin]
      exact issueMany_of (fs := []) hp (congrArg Except.ok (finAll_of false hf))
    · rw [exec_binctlFinclr, execBinctlFinclr]
      exact issueMany_of (fs := []) hp (congrArg Except.ok (finAll_of true hf))

end Sys2Proof.Machine
end

section
/-! PROOFS. Fences and barriers (R37 to R39, R99, R102, R106, R187 to R189). -/

namespace Sys2Proof.Machine

theorem Tab.get_upd {α : Type} [DecidableEq α] (d : α) {t : Tab α} (ht : Tab.risingFrom 0 t = true) (n : Nat) (f : α → α) :
    (t.upd d n f).get d n = f (t.get d n) := (Tab.get_put d _ ht).trans (if_pos rfl)

-- What a refresh and the end of a wait leave.

/-- A state whose issuers, cores and threads alone may differ, the threads other than `k` not. -/
structure State.TurnOf (t s : State) (k : Nat) : Prop where
  shape : ∃ slots cores threads, t = { s with slots := slots, cores := cores, threads := threads }
  others : ∀ j, j ≠ k → t.thr j = s.thr j
  rising : Tab.risingFrom 0 t.threads = true

theorem State.TurnOf.refl {s : State} (h : Tab.risingFrom 0 s.threads = true) (k : Nat) : s.TurnOf s k :=
  ⟨⟨s.slots, s.cores, s.threads, rfl⟩, fun _ _ => rfl, h⟩

theorem setThr_turn {s : State} (h : Tab.risingFrom 0 s.threads = true) (k : Nat) (x : Thread) : (s.setThr k x).TurnOf s k :=
  ⟨⟨s.slots, s.cores, _, rfl⟩, fun j hj => (thr_setThr h k j x).trans (if_neg hj), setThr_rising h k x⟩

/-- A refresh notes in its thread when it was, and drops copies. -/
theorem refresh_turn {s : State} (h : Tab.risingFrom 0 s.threads = true) (k c : Nat) :
    (s.refresh k c).TurnOf s k ∧ ((s.refresh k c).thr k = s.thr k ∨ (s.refresh k c).thr k = { s.thr k with acqAt := s.clk }) := by
  rw [State.refresh]
  have hk : (s.setThr k { s.thr k with acqAt := s.clk }).thr k = { s.thr k with acqAt := s.clk } := (thr_setThr h k k _).trans (if_pos rfl)
  have ho : ∀ j, j ≠ k → (s.setThr k { s.thr k with acqAt := s.clk }).thr j = s.thr j := fun j hj => (thr_setThr h k j _).trans (if_neg hj)
  have hr : Tab.risingFrom 0 (s.setThr k { s.thr k with acqAt := s.clk }).threads = true := setThr_rising h k _
  split
  · exact ⟨.refl h k, .inl rfl⟩
  · dsimp only
    split
    · exact ⟨⟨⟨_, _, _, rfl⟩, ho, hr⟩, .inr hk⟩
    · exact ⟨⟨⟨_, _, _, rfl⟩, ho, hr⟩, .inr hk⟩

theorem tryWait_turn {s : State} (h : Tab.risingFrom 0 s.threads = true) (k : Nat) : (s.tryWait k).TurnOf s k := by
  rw [State.tryWait]
  split
  · exact .refl h k
  · split
    · split
      · exact setThr_turn h k _
      · exact .refl h k
    · split
      · next b _ _ =>
        obtain ⟨⟨⟨slots, cores, threads, he⟩, ho, hr⟩, -⟩ :=
          refresh_turn (setThr_rising h k { s.thr k with barWait := none, atBar := false }) k (b / 16)
        refine ⟨⟨slots, cores, threads, he⟩, fun j hj => (ho j hj).trans ?_, hr⟩
        exact (thr_setThr h k j _).trans (if_neg hj)
      · exact .refl h k

/-- A wait for a phase that is released ends. -/
theorem tryWait_ends {s : State} (h : Tab.risingFrom 0 s.threads = true) {k b : Nat} (hheld : (s.thr k).held = []) (hw : (s.thr k).barWait = some b)
    (hp : (s.thr k).phases.get 0 b ≤ s.released k b) : ((s.tryWait k).thr k).barWait = none ∧ ((s.tryWait k).thr k).atBar = false := by
  have hthr := (thr_setThr h k k { s.thr k with barWait := none, atBar := false }).trans (if_pos rfl)
  have he : s.tryWait k = (s.setThr k { s.thr k with barWait := none, atBar := false }).refresh k (b / 16) := by
    rw [State.tryWait, hheld]
    simp only [List.isEmpty_nil, Bool.not_true, Bool.false_eq_true, if_false, hw, if_pos hp]
    rfl
  rw [he]
  obtain ⟨-, hk | hk⟩ := refresh_turn (setThr_rising h k { s.thr k with barWait := none, atBar := false }) k (b / 16)
  · rw [hk, hthr]; exact ⟨rfl, rfl⟩
  · rw [hk, hthr]; exact ⟨rfl, rfl⟩

/-- The waits of some threads are looked at in turn: each that is over ends. -/
theorem foldl_tryWait {s : State} (h : Tab.risingFrom 0 s.threads = true) {ms : List Nat} (hn : ms.Nodup) :
    (∃ slots cores threads, ms.foldl State.tryWait s = { s with slots := slots, cores := cores, threads := threads })
    ∧ (∀ j, j ∉ ms → (ms.foldl State.tryWait s).thr j = s.thr j)
    ∧ ∀ m ∈ ms, ∀ b, (s.thr m).held = [] → (s.thr m).barWait = some b → (s.thr m).phases.get 0 b ≤ s.released m b →
      ((ms.foldl State.tryWait s).thr m).barWait = none ∧ ((ms.foldl State.tryWait s).thr m).atBar = false := by
  induction ms generalizing s with
  | nil => exact ⟨⟨s.slots, s.cores, s.threads, rfl⟩, fun _ _ => rfl, fun m hm => absurd hm List.not_mem_nil⟩
  | cons k ms ih =>
    obtain ⟨hk, hn⟩ := List.nodup_cons.1 hn
    obtain ⟨⟨slots, cores, threads, he⟩, ho, hr⟩ := tryWait_turn h k
    obtain ⟨⟨slots', cores', threads', he'⟩, ho', hends⟩ := ih hr hn
    refine ⟨⟨slots', cores', threads', ?_⟩, fun j hj => ?_, fun m hm b hheld hw hp => ?_⟩
    · rw [List.foldl_cons, he', he]
    · obtain ⟨hjk, hj⟩ := not_or.1 (mt List.mem_cons.2 hj)
      exact (ho' j hj).trans (ho j hjk)
    · rw [List.foldl_cons]
      rcases List.mem_cons.1 hm with rfl | hm
      · rw [ho' m hk]; exact tryWait_ends h hheld hw hp
      · have hmk : m ≠ k := fun he => hk (he ▸ hm)
        have hrel : (s.tryWait k).released m b = s.released m b := by
          rw [State.released, State.released, ho m hmk, he]; rfl
        exact hends m hm b (by rw [ho m hmk]; exact hheld) (by rw [ho m hmk]; exact hw) (by rw [hrel, ho m hmk]; exact hp)

-- A new phase.

theorem nextPhase_group {s : State} (hs : s.tidy = true) (o : BarOf) {b : Nat} (hb : b < 16) :
    ((s.nextPhase o b).grp o.grp).bars.get {} b
      = { (s.grp o.grp).bars.get {} b with arrived := 0, released := ((s.grp o.grp).bars.get {} b).released + 1 } := by
  have hbars : Tab.risingFrom 0 (s.grp o.grp).bars = true := by
    have hg := tidy_grp hs o.grp
    simp only [Group.tidy, Bool.and_eq_true] at hg
    exact hg.2
  rw [State.nextPhase, if_pos hb, updGrp_eq, grp_setGrp (tidy_groups hs), if_pos rfl]
  exact Tab.get_upd {} hbars b fun x => { x with arrived := 0, released := x.released + 1 }

theorem nextPhase_team {s : State} (hs : s.tidy = true) (o : BarOf) {b : Nat} (hb : 16 ≤ b) :
    ((s.nextPhase o b).team o.team).bars.get {} (b - 16)
      = { (s.team o.team).bars.get {} (b - 16) with
          count := 0, released := ((s.team o.team).bars.get {} (b - 16)).released + 1, releasing := false } := by
  rw [State.nextPhase, if_neg (by omega), updTeam_eq, team_setTeam (tidy_teams hs), if_pos rfl]
  exact Tab.get_upd {} (tidy_team hs o.team) (b - 16) fun x => { x with count := 0, released := x.released + 1, releasing := false }

theorem nextPhase_spec (s : State) (o : BarOf) (b : Nat) : ∃ groups teams, s.nextPhase o b = { s with groups := groups, teams := teams } := by
  rw [State.nextPhase]
  split
  · exact ⟨_, s.teams, rfl⟩
  · exact ⟨s.groups, _, rfl⟩

/-- The counts of a barrier after its phase is released. -/
def State.PhaseDone (u s : State) (o : BarOf) (b : Nat) : Prop :=
  (b < 16 → ((u.grp o.grp).bars.get {} b).arrived = 0 ∧ ((u.grp o.grp).bars.get {} b).released = ((s.grp o.grp).bars.get {} b).released + 1)
    ∧ (16 ≤ b → ((u.team o.team).bars.get {} (b - 16)).count = 0
      ∧ ((u.team o.team).bars.get {} (b - 16)).released = ((s.team o.team).bars.get {} (b - 16)).released + 1)

theorem nextPhase_done {s : State} (hs : s.tidy = true) (o : BarOf) (b : Nat) : (s.nextPhase o b).PhaseDone s o b :=
  ⟨fun hb => by rw [nextPhase_group hs o hb]; exact ⟨rfl, rfl⟩, fun hb => by rw [nextPhase_team hs o hb]; exact ⟨rfl, rfl⟩⟩

theorem mem_members {s : State} (hs : Tab.risingFrom 0 s.threads = true) {o : BarOf} {b m : Nat} (h : m ∈ s.members o b) :
    (b < 16 → (s.thr m).grp = o.grp) ∧ (16 ≤ b → (s.thr m).team = o.team) := by
  obtain ⟨e, he, rfl⟩ := List.mem_map.1 h
  obtain ⟨he, hsame⟩ := List.mem_filter.1 he
  rw [State.thr, (Tab.get_of_mem {} hs he).2]
  simp only [Bool.and_eq_true] at hsame
  refine ⟨fun hb => ?_, fun hb => ?_⟩
  · simpa only [if_pos hb, beq_iff_eq] using hsame.2
  · simpa only [if_neg (show ¬ b < 16 by omega), beq_iff_eq] using hsame.2

theorem nodup_members {s : State} (hs : Tab.risingFrom 0 s.threads = true) (o : BarOf) (b : Nat) : (s.members o b).Nodup :=
  (Tab.nodup_keys hs).sublist (List.filter_sublist.map _)

theorem released_nextPhase {s : State} (hs : s.tidy = true) {o : BarOf} {b m : Nat} (h : m ∈ s.members o b) :
    (s.nextPhase o b).released m b = s.released m b + 1 := by
  obtain ⟨hg, ht⟩ := mem_members (tidy_threads hs) h
  obtain ⟨groups, teams, he⟩ := nextPhase_spec s o b
  have hthr : (s.nextPhase o b).thr m = s.thr m := by rw [he]; rfl
  rw [State.released, State.released, hthr]
  by_cases hb : b < 16
  · rw [if_pos hb, if_pos hb, hg hb, nextPhase_group hs o hb]
  · rw [if_neg hb, if_neg hb, ht (by omega), nextPhase_team hs o (by omega)]

/-- R38, R39: a full barrier whose threads hold no arrival, and whose release takes no time, releases its phase. -/
theorem checkBarrier_releases {s : State} (hs : s.tidy = true) {o : BarOf} {b : Nat} (hfull : s.barFull o b = true) (hslow : s.slowBar o b = false)
    (hheld : ∀ m ∈ s.members o b, (s.thr m).held = []) :
    (s.checkBarrier o b).PhaseDone s o b ∧ ∀ m ∈ s.members o b, (s.thr m).barWait = some b → (s.thr m).phases.get 0 b ≤ s.released m b + 1 →
      ((s.checkBarrier o b).thr m).barWait = none ∧ ((s.checkBarrier o b).thr m).atBar = false := by
  obtain ⟨groups, teams, he⟩ := nextPhase_spec s o b
  have hmem : (s.nextPhase o b).members o b = s.members o b := by rw [he]; rfl
  have hthr : ∀ m, (s.nextPhase o b).thr m = s.thr m := fun m => by rw [he]; rfl
  have hcount : ∀ ms : List Nat, (∀ m ∈ ms, (s.thr m).held = []) → ms.foldl (fun s m => s.countHeld m b) (s.nextPhase o b) = s.nextPhase o b := by
    intro ms hms
    induction ms with
    | nil => rfl
    | cons m ms ih =>
      have hm : (s.nextPhase o b).countHeld m b = s.nextPhase o b := by
        rw [State.countHeld, hthr, hms m List.mem_cons_self]; rfl
      rw [List.foldl_cons, hm]
      exact ih fun m hm => hms m (List.mem_cons_of_mem _ hm)
  have hfuel : s.heldFuel o b = 1 := by
    have hsum : ((s.members o b).map fun m => (s.thr m).held.length).sum = 0 := List.sum_eq_zero fun n hn => by
      obtain ⟨m, hm, hm'⟩ := List.mem_map.1 hn
      rw [← hm', hheld m hm]; rfl
    rw [State.heldFuel, hsum]
  have hrise : Tab.risingFrom 0 (s.nextPhase o b).threads = true := by
    rw [he]; exact (show Tab.risingFrom 0 s.threads = true from tidy_threads hs)
  obtain ⟨⟨slots, cores, threads, hw⟩, -, hends⟩ := foldl_tryWait hrise (nodup_members (tidy_threads hs) o b)
  have hslow' : ((s.members o b).foldl State.tryWait (s.nextPhase o b)).slowBar o b = false := by
    have hcores : (((s.members o b).foldl State.tryWait (s.nextPhase o b)).team o.team).cores = (s.team o.team).cores := by
      have hn : ((s.nextPhase o b).team o.team).cores = (s.team o.team).cores := by
        rw [State.nextPhase]
        split
        · rfl
        · rw [updTeam_eq, team_setTeam (tidy_teams hs), if_pos rfl]
      rw [hw]; exact hn
    rw [State.slowBar, hcores]; exact hslow
  have hcheck : s.checkBarrier o b = (s.members o b).foldl State.tryWait (s.nextPhase o b) := by
    rw [State.checkBarrier, hfull, hslow, hfuel, State.releasePhase]
    simp only [hmem, hcount _ hheld, hslow', State.releasePhase, Bool.not_true, Bool.false_eq_true, if_false, ite_self]
  obtain ⟨hgroup, hteam⟩ := nextPhase_done hs o b
  rw [hcheck]
  refine ⟨⟨fun hb => ?_, fun hb => ?_⟩, fun m hm hwait hp => ?_⟩
  · rw [hw]; exact hgroup hb
  · rw [hw]; exact hteam hb
  · exact hends m hm b (by rw [hthr]; exact hheld m hm) (by rw [hthr]; exact hwait) (by rw [released_nextPhase hs hm, hthr]; exact hp)

/-- R39: the release of a team on several cores is due 24 clk later. -/
theorem checkBarrier_later {s : State} (hs : s.tidy = true) {o : BarOf} {b : Nat} (hfull : s.barFull o b = true) (hslow : s.slowBar o b = true)
    (hr : ((s.team o.team).bars.get {} (b - 16)).releasing = false) :
    ((s.checkBarrier o b).team o.team).bars.get {} (b - 16) = { (s.team o.team).bars.get {} (b - 16) with releasing := true }
      ∧ (s.clk + 24, Instr.barrierRelease true o.team (b - 16)) ∈ (s.checkBarrier o b).agenda := by
  have he : s.checkBarrier o b = s.releaseLater o b := by
    rw [State.checkBarrier, hfull, hslow, hr]; rfl
  rw [he]
  refine ⟨?_, mem_insertEvent _ _ _⟩
  have ht := team_setTeam (tidy_teams hs) o.team o.team
    { s.team o.team with bars := (s.team o.team).bars.upd {} (b - 16) fun x => { x with releasing := true } }
  rw [if_pos rfl] at ht
  exact (congrArg (fun t : Team => t.bars.get {} (b - 16)) ht).trans
    (Tab.get_upd {} (tidy_team hs o.team) (b - 16) fun x => { x with releasing := true })

theorem barFull_iff {s : State} {o : BarOf} {n : Nat} (hn : n < 16) :
    s.barFull o n = true ↔ s.members o n ≠ [] ∧ ∀ m ∈ s.members o n, s.hasArrived m n = true := by
  rw [State.barFull, if_pos hn]
  simp only [Bool.and_eq_true, Bool.not_eq_true', List.all_eq_true, List.isEmpty_eq_false_iff]

/-- Settles O39. -/
theorem fencesAndBarriersComplete : Obligations.FencesAndBarriersComplete := by
  unfold Obligations.FencesAndBarriersComplete
  refine ⟨fun s sc b i k h own => ?_, fun s o b _ hs => ?_⟩
  · refine ⟨fun hp => ?_, fun hp => ?_, fun hp => ?_, fun hp => ?_, fun hf hh => ?_, fun hp => ?_, fun hp => ?_, fun hp => ?_, fun ha => ?_,
      fun ha hheld hfull => ?_, barFull_iff, rfl⟩
    · rw [exec_phase, execPhase, issuePlain_of hp]; rfl
    · rw [exec_phasePub, execPhasePub, issuePlain_of hp]; rfl
    · rw [exec_phaseAcq, execPhaseAcq, issuePlain_of hp]; rfl
    · rw [exec_fencesc, execFencesc, issuePlain_of hp]; rfl
    · rw [exec_fencescComplete, execFencescComplete, hf]
      exact if_pos (by rw [State.beats]; omega)
    · rw [exec_barArrive, execBarArrive, issuePlain_of hp]; rfl
    · rw [exec_barWait, execBarWait, issuePlain_of hp]; rfl
    · rw [exec_barSync, execBarSync, issuePlain_of hp]; rfl
    · rw [State.arrive, if_pos]
      rw [Bool.or_eq_true, List.contains_iff_mem]; exact ha
    · rw [State.arrive, if_neg, State.checkBarrier, hfull]
      · rfl
      · rw [Bool.or_eq_true, List.contains_iff_mem, ha]; simpa using hheld
  · obtain ⟨groups, teams, he⟩ := nextPhase_spec s o b
    obtain ⟨hgroup, hteam⟩ := nextPhase_done hs o b
    refine ⟨⟨hgroup, hteam, by rw [he], by rw [he]⟩, fun hfull hslow hheld => ?_, checkBarrier_later hs, fun hb hr ho => ?_⟩
    · obtain ⟨⟨hg, ht⟩, hends⟩ := checkBarrier_releases hs hfull hslow hheld
      exact ⟨hg, ht, hends⟩
    · have howner : ({ grp := o.team, team := o.team } : BarOf) = o := by rw [BarOf.mk.injEq]; exact ⟨ho.symm, rfl⟩
      rw [exec_barrierRelease, execBarrierRelease, hr]
      rw [howner, show 16 + (b - 16) = b by omega]
      rfl

end Sys2Proof.Machine
end

section
/-! PROOFS. Table lookups and the queue of table loads (R171 to R173, R409). -/

namespace Sys2Proof.Machine

/-- One table load of some threads' results in flight, whose landing the load decides. -/
def State.holdAll (s : State) (ks : List Nat) (d : BitVec 7) (v : Word) (ids : List Nat) : List Nat × State :=
  ks.foldl (fun (acc : List Nat × State) m =>
    let (id, s) := acc.2.hold m [acc.2.toV m d.toNat v]
    (acc.1 ++ [id], s)) (ids, s)

theorem hold_spec (s : State) (th : Nat) (ws : List RegWrite) : ∃ slots p, p.th = th ∧ p.uid = (s.thr th).uid ∧ p.writes = ws
    ∧ s.hold th ws = (p.id, { s with slots := slots, nextId := s.nextId + 1, pend := s.pend ++ [p] }) := by
  obtain ⟨slots, he⟩ := setRun_spec s { s.run with late := s.run.late ++ ws.map (·.id) }
  rw [State.hold, State.noteLate, he]
  exact ⟨slots, { id := s.nextId, th := th, uid := (s.thr th).uid, run := (State.run { s with slots := slots }).id
                  pc := (State.run { s with slots := slots }).pc, pos := (State.run { s with slots := slots }).pos, writes := ws }, rfl, rfl, rfl, rfl⟩

theorem holdAll_spec (d : BitVec 7) (v : Word) (ks : List Nat) (s : State) (ids : List Nat) : ∃ slots nextId ps,
    s.holdAll ks d v ids = (ids ++ ps.map (·.id), { s with slots := slots, nextId := nextId, pend := s.pend ++ ps })
    ∧ ps.map (fun p => (p.th, p.uid, p.writes)) = ks.map fun m => (m, (s.thr m).uid, [s.toV m d.toNat v]) := by
  induction ks generalizing s ids with
  | nil => exact ⟨s.slots, s.nextId, [], by rw [List.map_nil, List.append_nil, List.append_nil]; rfl, rfl⟩
  | cons m ks ih =>
    obtain ⟨slots, p, hth, huid, hws, he⟩ := hold_spec s m [s.toV m d.toNat v]
    obtain ⟨slots', nextId, ps, hps, hmap⟩ := ih { s with slots := slots, nextId := s.nextId + 1, pend := s.pend ++ [p] } (ids ++ [p.id])
    refine ⟨slots', nextId, p :: ps, ?_, ?_⟩
    · refine Eq.trans ?_ (hps.trans ?_)
      · rw [State.holdAll, List.foldl_cons]
        simp only [he]
        rfl
      · rw [List.append_assoc, List.append_assoc]; rfl
    · rw [List.map_cons, hmap, hth, huid, hws]
      rfl

/-- Where the checks pass and the bank is free, a load joins the queue. -/
theorem lutldGroup_queues {s : State} {t : Nat} {d : BitVec 7} {g : BitVec 5} {gr k : Nat} {p : Spot}
    (hp : s.checkAccess k { size := 3088, align := 16, g := g.toNat, perm := 1, noDevice := true } (s.ptrOf k g.toNat) = .ok p)
    (hf : s.engineFault (s.agentOf k) {} (s.ptrOf k g.toNat).toNat 3088 = none) :
    let bank := (s.core (coreOfThread k)).loadBank t
    let l := (s.grp gr).latch.get {} t
    let ahead := (s.core (coreOfThread k)).loads.filter fun x => x.t == t
    let h := s.holdAll (s.issuedOf gr) d (((s.core (coreOfThread k)).tables.get {} t).version + BitVec.ofNat 32 (ahead.length + 1)) []
    s.lutldGroup t d g gr k = if l.latched && l.bank == bank then .error { code := 0x02, info := 0x80 + t } else
      .ok ((h.2.updCore (coreOfThread k) fun c =>
        { c with loads := c.loads ++ [{ t := t, grp := gr, ctx := h.2.ctxOf k, ptr := h.2.ptrOf k g.toNat, begun := false, bank := bank
                                        pend := h.1, image := [] }] }).poll (h.2.clk + 1) (.lutldLoadBegin (coreOfThread k) t)) := by
  have hlanes : s.checkLanes { size := 3088, align := 16, g := g.toNat, perm := 1, noDevice := true } false [(k, s.ptrOf k g.toNat)] = .ok [(k, p)] := by
    rw [checkLanes_of (fun e he => by rw [List.mem_singleton.1 he]; exact ⟨p, hp, fun h => absurd h (by decide)⟩), State.spotsOf,
      List.filterMap_cons, hp]
    rfl
  rw [State.lutldGroup]
  simp only [hlanes, hf]
  rfl

/-- Settles O30. -/
theorem tableLookupsAndLoadsComplete : Obligations.TableLookupsAndLoadsComplete := by
  unfold Obligations.TableLookupsAndLoadsComplete
  refine ⟨fun s t d a hp => ?_, fun s t d g hp => ⟨fun hl => ?_, fun gr k hs => ?_⟩⟩
  · rw [exec_lut, execLut, issuePlain_of hp]
    refine congrArg Host.Outcome.next ?_
    simp only [List.foldl_map]
    rfl
  · rw [exec_lutld, execLutld]
    exact issueMany_of (fs := []) hp (perGroup_of (fun u e he => got_of he u) hl)
  · intro c ahead bank latch hp hf
    obtain ⟨p, hp⟩ := hp
    have hq := lutldGroup_queues (t := t.toNat) (d := d) (gr := gr) hp hf
    have hbank : (s.core (coreOfThread k)).loadBank t.toNat = bank := rfl
    simp only [hbank] at hq
    refine ⟨fun ⟨hlatched, hb⟩ => hq.trans (if_pos ?_), fun hfree => ?_⟩
    · rw [Bool.and_eq_true, beq_iff_eq]; exact ⟨hlatched, hb⟩
    · obtain ⟨slots, nextId, ps, hh, hmap⟩ := holdAll_spec d (((s.core (coreOfThread k)).tables.get {} t.toNat).version
        + BitVec.ofNat 32 (ahead.length + 1)) (s.issuedOf gr) s []
      have hq := hq.trans (if_neg (by rw [Bool.and_eq_true, beq_iff_eq]; exact hfree))
      rw [show (s.core (coreOfThread k)).loads.filter (fun x => x.t == t.toNat) = ahead from rfl, hh] at hq
      obtain ⟨agenda, ha⟩ := poll_spec (State.updCore { s with slots := slots, nextId := nextId, pend := s.pend ++ ps } (coreOfThread k) fun c =>
        { c with loads := c.loads ++ [{ t := t.toNat, grp := gr, ctx := s.ctxOf k, ptr := s.ptrOf k g.toNat, begun := false, bank := bank
                                        pend := ps.map (·.id), image := [] }] }) (s.clk + 1) (.lutldLoadBegin (coreOfThread k) t.toNat)
      refine ⟨_, ps.map (·.id), hq.trans (congrArg Except.ok ha), ?_, List.take_left, ?_, ?_, rfl, rfl⟩
      · exact congrArg Core.loads ((core_setCore (s := { s with slots := slots, nextId := nextId, pend := s.pend ++ ps })
          (show Tab.risingFrom 0 s.cores = true from tidy_cores hs) (coreOfThread k) (coreOfThread k) _).trans (if_pos rfl))
      · exact congrArg (List.map Pending.id) List.drop_left
      · exact (congrArg (List.map fun p : Pending => (p.th, p.uid, p.writes)) List.drop_left).trans hmap

end Sys2Proof.Machine
end

section
/-! PROOFS. Tape instructions: TCTL.bind in a state whose thread table holds a thread twice (R258). -/

namespace Sys2Proof.Machine

theorem fine_of_isSome {ε α : Type} {x : Except ε α} (h : x.toOption.isSome = true) : Fine x := by
  cases x with
  | ok a => exact ⟨a, rfl⟩
  | error e => cases h

/-- A state whose thread table holds thread 0 twice, first with a bound tape whose header cannot be written, then with another pointer.
Context 1 maps its first gigabyte to the same physical addresses, where the first entry's pointer, 0, names the descriptor of a tape at
0x8000. -/
def doubled : State :=
  let run : Run := { pc := 0x190000, words := [0], stalls := [0], threads := [0] }
  let tape : Tape := { bound := true, base := 0x10000000000, budget := 64 }
  let s : State := { slots := [(0, { phase := .running run })], nextId := 1, threads := [(0, { tape := tape }), (0, { ptr := [(0, 0x4000)] })]
                     groups := [(0, { g := [(0, { limit := 0x10000, perm := 3 })] })], teams := [(0, { ctx := 1 })], ctxs := [(1, { root := 0x1000 })] }
  let s := ((s.writeHomes 0x1000 (leBytes 8 0x203D)).writeHomes 0x2000 (leBytes 8 0x303D)).writeHomes 0x3000 (leBytes 8 0x3F)
  s.writeHomes 0 (leBytes 8 0x8000 ++ leBytes 4 128 ++ leBytes 4 64)

/-- The descriptor at address 0 of `doubled`. -/
def doubledDesc : TapeDesc := { base := 0x8000, stride := 128, budget := 64, idBase := 0, mode := 0 }

/-- `doubled` once the tape bound before is synced, and once the new area is translated. -/
def doubledSynced : State := doubled.issue.foldl State.syncThread doubled

def doubledKept : State :=
  doubled.issue.foldl (fun t k => t.keepWay (t.agentOf k) { w := true } (doubledDesc.area (doubled.thr k).lid) (64 + doubledDesc.budget)) doubledSynced

/-- The tape of thread 0 after an outcome. -/
def tapeAfter (o : Host.Outcome State Fault Refusal) : Option DWord := match o with | .next u => some (u.thr 0).tape.base | _ => none

/-- The failing sync leaves the first entry of thread 0 as any absent thread, so that the descriptor is read at the second one's pointer. -/
theorem bind_doubled : tapeAfter (exec (.tctlBind 0) doubled) = some 0x10000000000 := by decide +kernel

/-- Refutes O47: its clause of TCTL.bind reads the group's descriptor at the pointer that the thread has before the old tapes are synced, the
model at the one it has after. They differ where the table of threads holds a thread twice (not tidy): a sync whose header write fails puts
back the tape of the sync before (R406), and where that leaves the first entry with no content, the second one counts. -/
theorem not_tapeInstructionsComplete : ¬ Obligations.TapeInstructionsComplete := by
  unfold Obligations.TapeInstructionsComplete
  intro h
  obtain ⟨-, -, -, -, -, hbind, -⟩ := h doubled 0 0 0 0 0 0 0
  have hgroups : doubled.issueGroups = [(0, 0)] := by decide +kernel
  have hissue : doubled.issue = [0] := by decide +kernel
  have hexec := hbind (fun _ => doubledDesc) (issueFault_none.1 (by decide +kernel))
    (fun e he => by
      rw [hgroups, List.mem_singleton] at he
      rw [he]
      exact ⟨fine_of_isSome (by decide +kernel), show parseTapeDesc (doubledSynced.engineBytes 0 (doubled.ptrOf 0 0).toNat 32).1 = some doubledDesc by
        decide +kernel⟩)
    (fun k hk => by
      rw [hissue, List.mem_singleton] at hk
      rw [hk]
      refine ⟨show doubledSynced.enginePartFault (doubledSynced.agentOf 0) { w := true } (parts (doubledDesc.area (doubled.thr 0).lid)
        (64 + doubledDesc.budget)) = none by decide +kernel, fun hs _ => ?_, fine_of_isSome (show (doubledKept.bindTape doubledDesc 0).toOption.isSome = true by
        decide +kernel)⟩
      have hheld : doubledSynced.torcHeld = [] := by decide +kernel
      exact (congrArg (fun t : Tab Bool => !t.isEmpty && hs.any fun h => t.get false (h / 128)) hheld).trans rfl)
    (fine_of_isSome (by decide +kernel))
  have hb := bind_doubled
  rw [hexec] at hb
  exact absurd hb (by decide +kernel)

end Sys2Proof.Machine
end

section
/-! PROOFS. Task instructions (R264 to R274, R410, R411). -/

namespace Sys2Proof.Machine

theorem laneOks {κ : Type} {l : List κ} {f : κ → Except Flt Spot} (h : ∀ k ∈ l, Fine (f k)) : ∃ ps, lanesOf (l.map f) = .ok ps :=
  ⟨_, lanesOf_of (g := fun k => got (f k) { home := 0, win := .paged }) fun k hk => got_of (h k hk) _⟩

theorem any_false_of {α : Type} {l : List α} {p : α → Bool} (h : ∀ x ∈ l, p x = false) : l.any p = false :=
  List.any_eq_false.2 fun x hx => Bool.eq_false_iff.1 (h x hx)

theorem writes_variable {s : State} (th : Nat) {ws : List RegWrite} (h : ws.isEmpty = false) :
    (s.variable th ws).pend.map (·.writes) = s.pend.map (·.writes) ++ [ws] := by
  obtain ⟨slots, he⟩ := setRun_spec s { s.run with late := s.run.late ++ ws.map (·.id) }
  rw [State.variable, State.variableFrom, h, State.noteLate, he]
  exact List.map_append

theorem servedRegs_nonempty (g d : Nat) (r : Served) : (servedRegs g d r).isEmpty = false := by cases r <;> rfl

theorem pend_refresh (s : State) (k c : Nat) : (s.refresh k c).pend = s.pend := by
  rw [State.refresh]
  split
  · rfl
  · dsimp only; split <;> rfl

/-- R271, R272: a group that is answered has its result registers pending. -/
theorem tqget_answers {t u : State} {gr low q d : Nat} {r : Served} (hc : (t.grp gr).chunks = []) (ha : t.askedBefore (dieOfThread gr) q = false)
    (hs : t.serve (coreOfThread gr) q = (r, u)) (hr : r ≠ .wait) :
    (t.tqget gr low q d).pend.map (·.writes) = u.pend.map (·.writes) ++ [servedRegs gr d r] := by
  have hv := writes_variable (s := u) low (servedRegs_nonempty gr d r)
  rw [State.tqget, hc]
  simp only [List.any_nil, Bool.false_eq_true, if_false, ha, hs]
  cases r with
  | chunk lo hi pc arg task => rw [pend_refresh]; exact hv
  | empty => exact hv
  | wait => exact absurd rfl hr

theorem depop_of {s : State} {d a : BitVec 7} {f : Nat → Word → Option Word}
    (h : ∀ k ∈ s.issue, s.ownsCtr (dieOfThread k) (s.ctrOf a k) (s.ctxOf k) = true) :
    s.depop d a f = .ok ((s.issue.foldl (fun t k =>
      let old := t.ctrValue (dieOfThread k) (s.ctrOf a k)
      let t := match f k old with
        | some v => (t.release k 2).ctrWrite (dieOfThread k) (s.ctrOf a k) v
        | none => t.refresh k 2
      t.variable k [s.toV k d.toNat old]) s).serveLater (dieOfThread (s.issue.headD 0))) := by
  rw [State.depop, any_false_of fun k hk => by rw [h k hk]; rfl]
  rfl

/-- Settles O49. -/
theorem taskInstructionsComplete : Obligations.TaskInstructionsComplete := by
  unfold Obligations.TaskInstructionsComplete
  intro s g dm ctr sig xd q die d a b
  refine ⟨fun hp x => ?_, ?_, fun hp hq => ?_, fun t gr low r u hc ha hs hr => tqget_answers hc ha hs hr, fun e he hp => ?_⟩
  · intro leaders bytes hl
    obtain ⟨ps, hps⟩ := laneOks fun k hk => (hl k hk).1
    have hxs : lanesOf (leaders.map fun k =>
        (s.childGrid k (bytes k).1 dm ctr sig).map fun y => (k, (bytes k).2, y)) = .ok (leaders.map fun k => (k, false, x k)) :=
      lanesOf_of fun k hk => by
        obtain ⟨-, hbad, hchild⟩ := hl k hk
        rw [hbad, hchild]; rfl
    rw [exec_spawn, execSpawn]
    refine issueWord_of hp ?_
    show (lanesOf (leaders.map fun k => s.laneEngine k { size := 128, align := 64, g := g.toNat, perm := 1 }) >>= fun _ =>
      lanesOf (leaders.map fun k => (s.childGrid k (bytes k).1 dm ctr sig).map fun y => (k, (bytes k).2, y)) >>= fun xs =>
        Except.ok (xs.foldl (fun t x => t.spawnOne x.1 x.2.1 x.2.2) s)) = _
    rw [hps, hxs]
    exact congrArg Except.ok List.foldl_map
  · intro dest bytes hp hl
    obtain ⟨ps, hps⟩ := laneOks fun k hk => (hl k hk).1
    have hes : lanesOf (s.issue.map fun k => match s.entryBad (dest k) q.toNat (s.ctxOf k) (bytes k).1 with
        | some i => Except.error (taskFlt i)
        | none => .ok (k, (bytes k).1, (bytes k).2)) = .ok (s.issue.map fun k => (k, (bytes k).1, false)) :=
      lanesOf_of fun k hk => by
        obtain ⟨-, hbad, hentry⟩ := hl k hk
        rw [hbad, hentry]
    rw [exec_tqadd, execTqadd]
    refine issueWord_of hp ?_
    show (lanesOf (s.issue.map fun k => s.laneEngine k { size := 32, align := 8, g := g.toNat, perm := 1 }) >>= fun _ =>
      lanesOf (s.issue.map fun k => match s.entryBad (dest k) q.toNat (s.ctxOf k) (bytes k).1 with
        | some i => Except.error (taskFlt i)
        | none => .ok (k, (bytes k).1, (bytes k).2)) >>= fun es =>
        Except.ok (es.foldl (fun t e => (((if e.2.2 then t.poisonedSource e.1 7 q.toNat else t).release e.1 (if xd = 1 then 3 else 2)).addTask
          (dest e.1) q.toNat e.1 e.2.1 (s.ptrOf e.1 g.toNat)).serveLater (dest e.1)) s)) = _
    rw [hps, hes]
    exact congrArg Except.ok List.foldl_map
  · rw [exec_tqget, execTqget]
    refine issueWord_of hp ?_
    rw [any_false_of fun k hk => by rw [hq k hk]; exact bne_self_eq_false' _]
    rfl
  · intro c hown
    rcases List.mem_cons.1 he with rfl | he
    · rw [exec_depopSet, execDepopSet]; exact issueWord_of hp (depop_of hown)
    rcases List.mem_pair.1 he with rfl | rfl
    · rw [exec_depopAdd, execDepopAdd]; exact issueWord_of hp (depop_of hown)
    · rw [exec_depopGet, execDepopGet]; exact issueWord_of hp (depop_of hown)

end Sys2Proof.Machine
end

section
/-! PROOFS. Strand instructions (R276 to R280, R410). -/

namespace Sys2Proof.Machine

/-- A lane that must wait: it waits at the word, and no other thread changes. -/
theorem blockAt_spec {t : State} (ht : t.tidy = true) (k : Nat) (w : Wait) : let x := (t.blockAt k w).thr k
    x.nextWait = some w ∧ x.blkPc = t.run.pc ∧ x.blkPos = t.run.pos ∧ (t.blockAt k w).waiters = t.waiters ++ [k]
      ∧ ∀ i, i ≠ k → (t.blockAt k w).thr i = t.thr i := by
  have hthr := thr_setThr (s := { t with nextId := t.nextId + 1, waiters := t.waiters ++ [k] }) (show Tab.risingFrom 0 t.threads = true from tidy_threads ht)
    k (x := { t.thr k with nextWait := some w, blkPc := t.run.pc, blkPos := t.run.pos, arr := t.nextId })
  have hk : (t.blockAt k w).thr k = { t.thr k with nextWait := some w, blkPc := t.run.pc, blkPos := t.run.pos, arr := t.nextId } :=
    (hthr k).trans (if_pos rfl)
  refine ⟨by rw [hk], by rw [hk], by rw [hk], rfl, fun i hi => (hthr i).trans (if_neg hi)⟩

theorem stageRec_of_outStrand {s : State} {k o : Nat} {x : Nat × Pipe × Nat × Nat × Strand} (h : s.outStrand k o = .ok x) :
    ∃ st, s.stageRec k = some (x.1, x.2.1, x.2.2.1, st) ∧ st.out o = x.2.2.2.1 ∧ x.2.1.strand (st.out o) = some x.2.2.2.2 := by
  rw [State.outStrand] at h
  split at h
  · cases h
  · next d p i st hrec =>
    split at h
    · cases h
    · next t hstrand =>
      split at hstrand
      · cases hstrand
      · cases h
        exact ⟨st, hrec, rfl, hstrand⟩

theorem stageRec_of_inStrand {s : State} {k : Nat} {x : Nat × Pipe × Nat × Strand} (h : s.inStrand k = .ok x) :
    ∃ i st, s.stageRec k = some (x.1, x.2.1, i, st) ∧ st.input = x.2.2.1 ∧ x.2.1.strand st.input = some x.2.2.2 := by
  rw [State.inStrand] at h
  split at h
  · cases h
  · next d p i st hrec =>
    split at h
    · cases h
    · next t hstrand =>
      split at hstrand
      · cases hstrand
      · cases h
        exact ⟨i, st, hrec, rfl, hstrand⟩

/-- R278: a full strand takes no bead. -/
theorem tryPush_full {s : State} {k o : Nat} {va : DWord} {seq : Word} {put : State → State} {x : Nat × Pipe × Nat × Nat × Strand}
    (h : s.outStrand k o = .ok x) (hf : x.2.2.2.2.full = true) : s.tryPush k o va seq put = .ok none := by
  obtain ⟨st, hrec, -, hstrand⟩ := stageRec_of_outStrand h
  rw [State.tryPush, hrec]
  simp only [hstrand, hf, if_true]

/-- R279: a strand with no bead, while some stage may still push one, gives none. -/
theorem tryPop_empty {s : State} {k d : Nat} {va : DWord} {put : State → List RegWrite → State} {x : Nat × Pipe × Nat × Strand}
    (h : s.inStrand k = .ok x) (hb : x.2.2.2.beads = []) (hr : (s.core (coreOfThread k)).revoked = false) (hc : x.2.1.allClosed x.2.2.1 = false) :
    s.tryPop k va d put = .ok none := by
  obtain ⟨i, st, hrec, hin, hstrand⟩ := stageRec_of_inStrand h
  rw [← hin] at hc
  rw [State.tryPop, hrec]
  simp only [hr, hstrand, hb, hc, Bool.false_eq_true, if_false]

theorem lanesMap_of {α β : Type} {l : List Nat} {f : Nat → Except Flt α} {g : Nat → α} (q : Nat → α → β) (h : ∀ k ∈ l, f k = .ok (g k)) :
    lanesOf (l.map fun k => (f k).map (q k)) = .ok (l.map fun k => q k (g k)) :=
  lanesOf_of fun k hk => by rw [h k hk]; rfl

/-- R280: the stage's first close closes the strand, and a repeated one does nothing. -/
theorem closeOut_eq (s : State) (k o : Nat) : s.closeOut k o = match s.outStrand k o with
    | .error _ => s
    | .ok x => if x.2.2.1 ∈ x.2.2.2.2.closed then s else
      (s.updPipe x.1 x.2.1.launch fun p => p.updStrand x.2.2.2.1 fun st => { st with closed := st.closed ++ [x.2.2.1] }).moveBlock
        x.1 x.2.1.launch x.2.2.2.1 := by
  rw [State.closeOut]
  cases s.outStrand k o with
  | error f => rfl
  | ok x => exact if_congr List.contains_iff_mem rfl rfl

/-- Settles O50. -/
theorem strandInstructionsComplete : Obligations.StrandInstructionsComplete := by
  unfold Obligations.StrandInstructionsComplete
  intro s d g o o2
  refine ⟨fun t k w ht => blockAt_spec ht k w, fun outs hout => ?_, fun ins hin => ?_, fun outs hout ho => ⟨fun hp => ?_, fun hp => ?_⟩⟩
  · intro bead push eff hp hl
    refine ⟨?_, fun k hk hf => tryPush_full (hout k hk) hf⟩
    obtain ⟨ps, hps⟩ := laneOks (l := s.issue) (f := fun k =>
      s.laneEngine k { size := beadAsk ((s.outStrand k o.toNat).map (·.2.2.2.2.bead)), align := 16, g := g.toNat, perm := 1 })
      fun k hk => by rw [hout k hk]; exact (hl k hk).1
    have hclosed : lanesOf ((s.issue.map fun k => (k, outs k)).map fun x =>
        if x.2.2.2.2.2.closed.contains x.2.2.2.1 then Except.error (taskFlt 0x95) else .ok ()) = .ok (s.issue.map fun _ => ()) := by
      rw [List.map_map]
      refine lanesOf_of fun k hk => if_neg ?_
      rw [List.contains_iff_mem]; exact (hl k hk).2
    rw [exec_spush, execSpush]
    refine issueWord_of hp ?_
    show (lanesOf (s.issue.map _) >>= fun _ => lanesOf (s.issue.map fun k => (s.outStrand k o.toNat).map fun x => (k, x)) >>= fun xs =>
      lanesOf (xs.map fun x => if x.2.2.2.2.2.closed.contains x.2.2.2.1 then Except.error (taskFlt 0x95) else .ok ()) >>= fun _ =>
        Except.ok (s.issue.foldl eff s)) = _
    rw [hps, lanesMap_of (fun k x => (k, x)) hout]
    show (lanesOf ((s.issue.map fun k => (k, outs k)).map _) >>= _) = _
    rw [hclosed]
    rfl
  · intro pop eff
    refine ⟨fun hp hl => ⟨?_, fun k hk hb hr hc => tryPop_empty (hin k hk) hb hr hc⟩, fun hp => ?_⟩
    · obtain ⟨ps, hps⟩ := laneOks (l := s.issue) (f := fun k => s.laneEngine k
          { size := beadAsk ((s.inStrand k).map (·.2.2.2.bead)), align := 16, g := g.toNat, perm := 2, wr := true, need := { w := true } })
        fun k hk => by rw [hin k hk]; exact hl k hk
      rw [exec_spop, execSpop]
      refine issueWord_of hp ?_
      show (lanesOf (s.issue.map _) >>= fun _ => lanesOf (s.issue.map fun k => (s.inStrand k).map fun x => (k, x)) >>= fun _ =>
        Except.ok (s.issue.foldl eff s)) = _
      rw [hps, lanesMap_of (fun k x => (k, x)) hin]
      rfl
    · rw [exec_sctlStat, execSctlStat]
      refine issueWord_of hp ?_
      show (lanesOf (s.issue.map fun k => (s.inStrand k).map fun x => (k, x.2.1.status x.2.2.1 x.2.2.2)) >>= _) = _
      rw [lanesMap_of (fun k x => (k, x.2.1.status x.2.2.1 x.2.2.2)) hin]
      exact congrArg Except.ok List.foldl_map
  · rw [exec_sctlClose, execSctlClose]
    refine issueWord_of hp ?_
    show (lanesOf (s.issue.map fun k => s.outStrand k o2.toNat) >>= _) = _
    rw [lanesOf_of hout]
    exact congrArg (fun t : State => Except.ok ((t.runStrands).checkPipes (dieOfThread (s.issue.headD 0))))
      (List.foldl_ext _ _ _ fun t k _ => closeOut_eq (t.release k 2) k o2.toNat)
  · have hne : o2 ≠ 2 := by rintro rfl; exact absurd ho (by decide)
    rw [exec_sctlStat, execSctlStat]
    refine issueWord_of hp ?_
    simp only [if_neg hne]
    show (lanesOf (s.issue.map fun k => (s.outStrand k o2.toNat).map fun x => (k, x.2.1.status x.2.2.2.1 x.2.2.2.2)) >>= _) = _
    rw [lanesMap_of (fun k x => (k, x.2.1.status x.2.2.2.1 x.2.2.2.2)) hout]
    exact congrArg Except.ok List.foldl_map

end Sys2Proof.Machine
end

section
/-! PROOFS. The command instructions: CPX SEMADD in a state whose thread table is out of order (R292). -/

namespace Sys2Proof.Machine

/-- A state whose thread table is out of order: command context 0's thread, which waits on semaphore 0 and has no other content, stands
before thread 0, which it hides. Semaphore 0 belongs to context 0, and the run of the command core in turn has no thread. -/
def hidden : State :=
  { cur := cmdIssuer, semOwner := [(0, 1)], threads := [(cmdBase, { wait := .sem 0 false 0 122 }), (0, { winb := 16 })] }

/-- What an outcome leaves in flight. -/
def writesAfter (o : Host.Outcome State Fault Refusal) : List (List RegWrite) := match o with | .next u => u.pend.map (·.writes) | _ => []

/-- The old value is in flight for the registers that D names before the semaphore is served. -/
theorem semadd_hidden : writesAfter (exec (.cpxSemadd 0 0 0) hidden) = [[.vreg 0 0 0, .vreg 0 1 0]] := by decide +kernel

/-- Refutes O51: its clause of SEMADD names the registers of D in the state after the contexts that wait on the semaphore are woken, the
model in the state before. They differ where the table of threads is out of order (not tidy): a thread that its wait alone kept in the
table leaves it as it wakes, and a thread that it hid comes to light, with another window base. -/
theorem not_commandInstructionsComplete : ¬ Obligations.CommandInstructionsComplete := by
  unfold Obligations.CommandInstructionsComplete
  intro h
  obtain ⟨-, -, -, -, hadd, -⟩ := h hidden 0 0 0 0 0 0 0 0 0 0
  have hexec := hadd (issueFault_none.1 (by decide +kernel)) fun _ => by decide +kernel
  have hw := semadd_hidden
  rw [hexec] at hw
  exact absurd hw (by decide +kernel)

end Sys2Proof.Machine
end

section
/-! PROOFS. The pickers and the begin of a run (R29 to R34, R284). -/

namespace Sys2Proof.Machine

-- The best of a list.

theorem foldl_min_spec (l : List Nat) (b : Nat) :
    (l.foldl Nat.min b = b ∨ l.foldl Nat.min b ∈ l) ∧ l.foldl Nat.min b ≤ b ∧ ∀ x ∈ l, l.foldl Nat.min b ≤ x := by
  induction l generalizing b with
  | nil => exact ⟨.inl rfl, le_refl b, fun x hx => absurd hx List.not_mem_nil⟩
  | cons y l ih =>
    obtain ⟨hmem, hle, hall⟩ := ih (Nat.min b y)
    refine ⟨?_, hle.trans (Nat.min_le_left b y), fun x hx => ?_⟩
    · rw [List.foldl_cons]
      rcases hmem with h | h
      · rw [h]
        rcases min_choice b y with hb | hy
        · exact .inl hb
        · exact .inr (List.mem_cons.2 (.inl hy))
      · exact .inr (List.mem_cons_of_mem _ h)
    · rcases List.mem_cons.1 hx with rfl | hx
      · exact hle.trans (Nat.min_le_right b x)
      · exact hall x hx

/-- The least of a list that is not empty. -/
theorem least_spec {l : List Nat} (h : l ≠ []) : l.foldl Nat.min (l.headD 0) ∈ l ∧ ∀ x ∈ l, l.foldl Nat.min (l.headD 0) ≤ x := by
  obtain ⟨hmem, -, hall⟩ := foldl_min_spec l (l.headD 0)
  refine ⟨hmem.elim (fun he => ?_) id, hall⟩
  rw [he]
  cases l with
  | nil => exact absurd rfl h
  | cons x l => exact List.mem_cons_self

theorem foldl_max_spec {α : Type} (f : α → Nat) (l : List α) (b : Nat) : let m := l.foldl (fun m k => Nat.max m (f k)) b
    (m = b ∨ ∃ k ∈ l, f k = m) ∧ b ≤ m ∧ ∀ k ∈ l, f k ≤ m := by
  induction l generalizing b with
  | nil => exact ⟨.inl rfl, le_refl b, fun x hx => absurd hx List.not_mem_nil⟩
  | cons y l ih =>
    obtain ⟨hmem, hle, hall⟩ := ih (Nat.max b (f y))
    refine ⟨?_, (Nat.le_max_left b (f y)).trans hle, fun x hx => ?_⟩
    · rw [List.foldl_cons]
      rcases hmem with h | ⟨k, hk, h⟩
      · rw [h, Nat.max_eq_max]
        rcases max_choice b (f y) with h | h
        · exact .inl h
        · exact .inr ⟨y, List.mem_cons_self, h.symm⟩
      · exact .inr ⟨k, List.mem_cons_of_mem _ hk, h⟩
    · rcases List.mem_cons.1 hx with rfl | hx
      · exact (Nat.le_max_right b (f x)).trans hle
      · exact hall x hx

/-- The greatest of a list of positive numbers that is not empty. -/
theorem greatest_spec {α : Type} {f : α → Nat} {l : List α} (h : l ≠ []) (hp : ∀ k ∈ l, 0 < f k) :
    let m := l.foldl (fun m k => Nat.max m (f k)) 0
    (∃ k ∈ l, f k = m) ∧ ∀ k ∈ l, f k ≤ m := by
  obtain ⟨hmem, -, hall⟩ := foldl_max_spec f l 0
  refine ⟨hmem.resolve_left fun h0 => ?_, hall⟩
  obtain ⟨k, hk⟩ := List.exists_mem_of_ne_nil _ h
  have := hp k hk
  have := hall k hk
  omega

/-- Of two numbers the one of greater value, the lesser number on a tie, is no worse than the other. -/
def Better (f : Nat → Nat) (r p : Nat) : Prop := f p ≤ f r ∧ (f p = f r → r ≤ p)

theorem Better.refl (f : Nat → Nat) (p : Nat) : Better f p p := ⟨le_refl _, fun _ => le_refl _⟩

theorem Better.trans {f : Nat → Nat} {a b c : Nat} (h : Better f a b) (h' : Better f b c) : Better f a c :=
  ⟨h'.1.trans h.1, fun he => (h.2 (by have := h.1; have := h'.1; omega)).trans (h'.2 (by have := h.1; have := h'.1; omega))⟩

/-- The best of a list by value, the least on a tie. -/
theorem foldl_best_spec (f : Nat → Nat) (l : List Nat) (b : Nat) : let r := l.foldl (fun b p => if f b < f p ∨ (f b = f p ∧ p < b) then p else b) b
    (r = b ∨ r ∈ l) ∧ Better f r b ∧ ∀ p ∈ l, Better f r p := by
  induction l generalizing b with
  | nil => exact ⟨.inl rfl, .refl f b, fun x hx => absurd hx List.not_mem_nil⟩
  | cons y l ih =>
    rw [List.foldl_cons]
    by_cases hy : f b < f y ∨ (f b = f y ∧ y < b)
    · rw [if_pos hy]
      obtain ⟨hmem, hb, hall⟩ := ih y
      have hyb : Better f y b := ⟨by omega, by omega⟩
      refine ⟨.inr ?_, hb.trans hyb, fun p hp => ?_⟩
      · rcases hmem with h | h
        · rw [h]; exact List.mem_cons_self
        · exact List.mem_cons_of_mem _ h
      · rcases List.mem_cons.1 hp with rfl | hp
        · exact hb
        · exact hall p hp
    · rw [if_neg hy]
      obtain ⟨hmem, hb, hall⟩ := ih b
      have hby : Better f b y := ⟨by omega, by omega⟩
      refine ⟨hmem.imp_right (List.mem_cons_of_mem _), hb, fun p hp => ?_⟩
      rcases List.mem_cons.1 hp with rfl | hp
      · exact hb.trans hby
      · exact hall p hp

/-- The first of greatest value among the numbers below a bound. -/
theorem foldl_first_spec (f : Nat → Nat) : ∀ (n a b : Nat), b < a → (∀ l < a, Better f b l) →
    let r := (upto a n).foldl (fun b l => if f b < f l then l else b) b
    r < a + n ∧ ∀ l < a + n, Better f r l
  | 0, a, b, hb, h => ⟨hb, h⟩
  | n + 1, a, b, hb, h => by
    rw [upto, List.foldl_cons, show a + (n + 1) = a + 1 + n by omega]
    by_cases ha : f b < f a
    · rw [if_pos ha]
      refine foldl_first_spec f n (a + 1) a (by omega) fun l hl => ?_
      rcases Nat.lt_or_ge l a with hla | hla
      · have := (h l hla).1
        exact ⟨by omega, by omega⟩
      · rw [show l = a by omega]; exact .refl f a
    · rw [if_neg ha]
      refine foldl_first_spec f n (a + 1) b (by omega) fun l hl => ?_
      rcases Nat.lt_or_ge l a with hla | hla
      · exact h l hla
      · rw [show l = a by omega]; exact ⟨by omega, by omega⟩

-- Candidates (R31, R32).

theorem mem_readyOf {s : State} {i k : Nat} :
    k ∈ s.readyOf i ↔ issuerOfThread k = i ∧ s.isReady k = true ∧ s.hasTurn k = true := by
  simp only [State.readyOf, List.mem_map, List.mem_filter, Bool.and_eq_true, beq_iff_eq]
  constructor
  · rintro ⟨e, ⟨-, ⟨hi, hr⟩, ht⟩, rfl⟩
    exact ⟨hi, hr, ht⟩
  · rintro ⟨hi, hr, ht⟩
    rcases Tab.get_mem {} (t := s.threads) (n := k) with h | h
    · have hlive : (s.thr k).live = true := by
        simp only [State.isReady, Bool.and_eq_true] at hr
        exact hr.1.1.1
      rw [State.thr, h] at hlive
      cases hlive
    · exact ⟨_, ⟨h, ⟨hi, hr⟩, ht⟩, rfl⟩

theorem mem_candidates {s : State} {i k : Nat} :
    k ∈ s.candidates i ↔ issuerOfThread k = i ∧ s.isReady k = true ∧ s.hasTurn k = true ∧ s.yieldsTo k = false := by
  rw [State.candidates, List.mem_filter, mem_readyOf, Bool.not_eq_true']
  tauto

/-- Candidates stand in ascending order. -/
theorem sorted_candidates {s : State} (hs : s.tidy = true) (i : Nat) : (s.candidates i).Pairwise (· < ·) := by
  have hkeys : ∀ {t : Tab Thread} {lo : Nat}, Tab.risingFrom lo t = true → (t.map (·.1)).Pairwise (· < ·) := by
    intro t
    induction t with
    | nil => exact fun _ => .nil
    | cons e t ih =>
      intro lo ht
      simp only [Tab.risingFrom, Bool.and_eq_true, decide_eq_true_eq] at ht
      refine List.pairwise_cons.2 ⟨fun k hk => ?_, ih ht.2⟩
      obtain ⟨x, hx, rfl⟩ := List.mem_map.1 hk
      exact (Tab.get_of_mem {} ht.2 hx).1
  exact ((hkeys (tidy_threads hs)).sublist (List.filter_sublist.map _)).sublist List.filter_sublist

theorem head_le {l : List Nat} (h : l.Pairwise (· < ·)) {k : Nat} {r : List Nat} (he : l = k :: r) {j : Nat} (hj : j ∈ l) : k ≤ j := by
  rw [he] at h hj
  rcases List.mem_cons.1 hj with rfl | hj
  · exact le_refl _
  · exact Nat.le_of_lt ((List.pairwise_cons.1 h).1 j hj)

theorem nextContext_eq (last : Nat) (cand : List Nat) :
    nextContext last cand = ((cand.filter fun k => decide (cmdBase + last ≤ k)).head?.or cand.head?).toList := by
  unfold nextContext
  generalize (cand.filter fun k => decide (cmdBase + last ≤ k)) = above
  match above, cand with
  | _ :: _, _ => rfl
  | [], _ :: _ => rfl
  | [], [] => rfl

/-- R284: the context a command core takes next is the first from its base on, or else the first of all. -/
theorem nextContext_spec {cand : List Nat} (hs : cand.Pairwise (· < ·)) (hne : cand ≠ []) (last : Nat) : ∃ k ∈ cand, nextContext last cand = [k]
    ∧ ((∃ j ∈ cand, cmdBase + last ≤ j) → cmdBase + last ≤ k ∧ ∀ j ∈ cand, cmdBase + last ≤ j → k ≤ j)
    ∧ ((∀ j ∈ cand, j < cmdBase + last) → ∀ j ∈ cand, k ≤ j) := by
  obtain ⟨above, ha⟩ : ∃ above, above = cand.filter fun k => decide (cmdBase + last ≤ k) := ⟨_, rfl⟩
  have hmem : ∀ j, j ∈ above ↔ j ∈ cand ∧ cmdBase + last ≤ j := fun j => by rw [ha, List.mem_filter, decide_eq_true_eq]
  have hsorted : above.Pairwise (· < ·) := ha ▸ hs.filter _
  rw [nextContext_eq, ← ha]
  match above, cand, hne with
  | k :: r, cand, _ =>
    obtain ⟨hk, hle⟩ := (hmem k).1 List.mem_cons_self
    exact ⟨k, hk, rfl, fun _ => ⟨hle, fun j hj hjl => head_le hsorted rfl ((hmem j).2 ⟨hj, hjl⟩)⟩,
      fun h => absurd (h k hk) (Nat.not_lt.2 hle)⟩
  | [], k :: r, _ =>
    exact ⟨k, List.mem_cons_self, rfl, fun ⟨j, hj, hjl⟩ => absurd ((hmem j).2 ⟨hj, hjl⟩) List.not_mem_nil,
      fun _ j hj => head_le hs rfl hj⟩

-- The choice of a PC (R33).

theorem mem_dedup {l : List Nat} {x : Nat} : x ∈ dedup l ↔ x ∈ l := by
  induction l with
  | nil => exact Iff.rfl
  | cons y l ih =>
    rw [dedup, List.mem_cons, List.mem_filter, ih, List.mem_cons, bne_iff_ne]
    by_cases hx : x = y
    · simp [hx]
    · simp [hx]

theorem mem_pcsOf {s : State} {cand : List Nat} {p : Nat} : p ∈ pcsOf s cand ↔ ∃ k ∈ cand, (s.thr k).pc.toNat = p := by
  rw [pcsOf, mem_dedup, List.mem_map]

/-- Whether a PC may be chosen: the lowest, or one whose run is no rejoin point. -/
def State.eligible (s : State) (cand : List Nat) (p : DWord) : Prop :=
  (∀ k ∈ cand, p.toNat ≤ ((s.thr k).pc).toNat) ∨ ∀ k, cand.find? (fun k => (s.thr k).pc == p) = some k → (s.peekCode k p).getLsbD 19 = false

/-- The PCs that may be chosen, as numbers. -/
def State.eligPcs (s : State) (cand : List Nat) : List Nat :=
  let pcs := pcsOf s cand
  pcs.filter fun p => p == pcs.foldl Nat.min (pcs.headD 0) || !(match firstThat (fun k => (s.thr k).pc.toNat == p) cand with
    | some k => bit (s.peekCode k (BitVec.ofNat 64 p)).toNat 19
    | none => false)

theorem mem_eligPcs {s : State} {cand : List Nat} (hne : cand ≠ []) (p : DWord) :
    p.toNat ∈ s.eligPcs cand ↔ (∃ k ∈ cand, (s.thr k).pc = p) ∧ s.eligible cand p := by
  have hpcs : pcsOf s cand ≠ [] := by
    obtain ⟨k, hk⟩ := List.exists_mem_of_ne_nil _ hne
    exact List.ne_nil_of_mem (mem_pcsOf.2 ⟨k, hk, rfl⟩)
  obtain ⟨hlmem, hlow⟩ := least_spec hpcs
  have hexists : (∃ k ∈ cand, (s.thr k).pc.toNat = p.toNat) ↔ ∃ k ∈ cand, (s.thr k).pc = p := by
    simp only [BitVec.toNat_inj]
  have hlowest : p.toNat = (pcsOf s cand).foldl Nat.min ((pcsOf s cand).headD 0) ↔
      (∃ k ∈ cand, (s.thr k).pc = p) ∧ ∀ k ∈ cand, p.toNat ≤ ((s.thr k).pc).toNat := by
    constructor
    · intro he
      refine ⟨hexists.1 (mem_pcsOf.1 (he ▸ hlmem)), fun k hk => ?_⟩
      rw [he]; exact hlow _ (mem_pcsOf.2 ⟨k, hk, rfl⟩)
    · rintro ⟨hex, hle⟩
      obtain ⟨k, hk, hke⟩ := mem_pcsOf.1 hlmem
      refine Nat.le_antisymm ?_ (hlow _ (mem_pcsOf.2 (hexists.2 hex)))
      rw [← hke]; exact hle k hk
  have hfind : ∀ k, (firstThat (fun k => (s.thr k).pc.toNat == p.toNat) cand = some k) ↔ cand.find? (fun k => (s.thr k).pc == p) = some k := by
    have hfun : (fun k => (s.thr k).pc.toNat == p.toNat) = fun k => (s.thr k).pc == p := by
      funext k; rw [Bool.eq_iff_iff, beq_iff_eq, beq_iff_eq, BitVec.toNat_inj]
    intro k; rw [firstThat_eq, hfun]
  have hbit : ∀ w : Word, bit w.toNat 19 = w.getLsbD 19 := fun w => by
    rw [bit, BitVec.getLsbD, Nat.testBit_eq_decide_div_mod_eq]; rfl
  have hrejoin : (match firstThat (fun k => (s.thr k).pc.toNat == p.toNat) cand with
      | some k => bit (s.peekCode k (BitVec.ofNat 64 p.toNat)).toNat 19
      | none => false) = false ↔ ∀ k, cand.find? (fun k => (s.thr k).pc == p) = some k → (s.peekCode k p).getLsbD 19 = false := by
    cases hf : firstThat (fun k => (s.thr k).pc.toNat == p.toNat) cand with
    | none => exact iff_of_true rfl fun k hk => by rw [← hfind, hf] at hk; cases hk
    | some j =>
      simp only [BitVec.ofNat_toNat, BitVec.setWidth_eq, hbit, ← hfind, hf, Option.some_inj, forall_eq']
  rw [State.eligPcs, List.mem_filter, Bool.or_eq_true, beq_iff_eq, Bool.not_eq_true', hrejoin, hlowest, mem_pcsOf, hexists, State.eligible]
  exact ⟨fun ⟨hex, h⟩ => ⟨hex, h.imp_left And.right⟩, fun ⟨hex, h⟩ => ⟨hex, h.imp_left fun hle => ⟨hex, hle⟩⟩⟩

theorem choosePc_young {s : State} {cand : List Nat} (hne : cand ≠ []) (hage : ∀ k ∈ cand, (s.thr k).age < 64) :
    (s.choosePc cand).2 = false ∧ (∃ k ∈ cand, (s.thr k).pc = (s.choosePc cand).1) ∧ s.eligible cand (s.choosePc cand).1
      ∧ ∀ k ∈ cand, s.eligible cand (s.thr k).pc → population s cand (s.thr k).pc ≤ population s cand (s.choosePc cand).1
        ∧ (population s cand (s.thr k).pc = population s cand (s.choosePc cand).1 → (s.choosePc cand).1.toNat ≤ (s.thr k).pc.toNat) := by
  have hnil : (cand.filter fun k => decide (64 ≤ (s.thr k).age)) = [] :=
    List.filter_eq_nil_iff.2 fun k hk => by have := hage k hk; simp; omega
  obtain ⟨hmem, -, hbest⟩ := foldl_best_spec (fun p => population s cand (BitVec.ofNat 64 p)) (s.eligPcs cand) ((s.eligPcs cand).headD 0)
  have hchoose : s.choosePc cand = (BitVec.ofNat 64 ((s.eligPcs cand).foldl (fun b p =>
      if population s cand (BitVec.ofNat 64 b) < population s cand (BitVec.ofNat 64 p)
        ∨ (population s cand (BitVec.ofNat 64 b) = population s cand (BitVec.ofNat 64 p) ∧ p < b) then p else b) ((s.eligPcs cand).headD 0)), false) := by
    rw [State.choosePc]
    simp only [hnil, List.isEmpty_nil, if_true]
    rfl
  obtain ⟨r, hr⟩ : ∃ r, r = (s.eligPcs cand).foldl (fun b p =>
      if population s cand (BitVec.ofNat 64 b) < population s cand (BitVec.ofNat 64 p)
        ∨ (population s cand (BitVec.ofNat 64 b) = population s cand (BitVec.ofNat 64 p) ∧ p < b) then p else b) ((s.eligPcs cand).headD 0) := ⟨_, rfl⟩
  rw [← hr] at hmem hbest hchoose
  have hlow : ∃ p : DWord, p.toNat ∈ s.eligPcs cand := by
    have hpcs : pcsOf s cand ≠ [] := by
      obtain ⟨k, hk⟩ := List.exists_mem_of_ne_nil _ hne
      exact List.ne_nil_of_mem (mem_pcsOf.2 ⟨k, hk, rfl⟩)
    obtain ⟨hlmem, hlow⟩ := least_spec hpcs
    obtain ⟨k, hk, hke⟩ := mem_pcsOf.1 hlmem
    exact ⟨(s.thr k).pc, (mem_eligPcs hne _).2 ⟨⟨k, hk, rfl⟩, .inl fun j hj => hke ▸ hlow _ (mem_pcsOf.2 ⟨j, hj, rfl⟩)⟩⟩
  have hin : r ∈ s.eligPcs cand := by
    rcases hmem with h | h
    · obtain ⟨p, hp⟩ := hlow
      rw [h]
      cases hl : s.eligPcs cand with
      | nil => rw [hl] at hp; cases hp
      | cons x l => exact List.mem_cons_self
    · exact h
  obtain ⟨k, hk, hke⟩ : ∃ k ∈ cand, (s.thr k).pc.toNat = r := mem_pcsOf.1 (List.mem_filter.1 hin).1
  have hpc : BitVec.ofNat 64 r = (s.thr k).pc := by rw [← hke, BitVec.ofNat_toNat, BitVec.setWidth_eq]
  rw [hchoose, hpc]
  rw [← hke] at hin hbest
  obtain ⟨-, helig⟩ := (mem_eligPcs hne _).1 hin
  refine ⟨rfl, ⟨k, hk, rfl⟩, helig, fun j hj hje => ?_⟩
  have hb := hbest _ ((mem_eligPcs hne _).2 ⟨⟨j, hj, rfl⟩, hje⟩)
  simp only [Better, BitVec.ofNat_toNat, BitVec.setWidth_eq] at hb
  exact hb

theorem choosePc_aged {s : State} {cand : List Nat} (h : ∃ k ∈ cand, 64 ≤ (s.thr k).age) :
    (s.choosePc cand).2 = true ∧ ∃ k ∈ cand, (s.thr k).pc = (s.choosePc cand).1
      ∧ ∀ j ∈ cand, (s.thr j).age ≤ (s.thr k).age ∧ ((s.thr j).age = (s.thr k).age → (s.thr k).pc.toNat ≤ (s.thr j).pc.toNat) := by
  obtain ⟨aged, haged⟩ : ∃ aged, aged = cand.filter fun k => decide (64 ≤ (s.thr k).age) := ⟨_, rfl⟩
  have hmem : ∀ k, k ∈ aged ↔ k ∈ cand ∧ 64 ≤ (s.thr k).age := fun k => by rw [haged, List.mem_filter, decide_eq_true_eq]
  have hne : aged ≠ [] := by
    obtain ⟨k, hk, ha⟩ := h
    exact List.ne_nil_of_mem ((hmem k).2 ⟨hk, ha⟩)
  obtain ⟨⟨m, hm, hme⟩, hmax⟩ := greatest_spec (f := fun k => (s.thr k).age) hne fun k hk => by have := ((hmem k).1 hk).2; omega
  obtain ⟨e, he⟩ : ∃ e, e = aged.foldl (fun m k => Nat.max m (s.thr k).age) 0 := ⟨_, rfl⟩
  rw [← he] at hme hmax
  have holdest : ((aged.filter fun k => (s.thr k).age == e).map fun k => (s.thr k).pc.toNat) ≠ [] :=
    List.ne_nil_of_mem (List.mem_map.2 ⟨m, List.mem_filter.2 ⟨hm, beq_iff_eq.2 hme⟩, rfl⟩)
  obtain ⟨hlmem, hlow⟩ := least_spec holdest
  obtain ⟨k, hk, hke⟩ := List.mem_map.1 hlmem
  obtain ⟨hk, hkage⟩ := List.mem_filter.1 hk
  have hchoose : s.choosePc cand = ((s.thr k).pc, true) := by
    have hempty : aged.isEmpty = false := by rw [Bool.eq_false_iff, ne_eq, List.isEmpty_iff]; exact hne
    rw [State.choosePc, ← haged]
    simp only [hempty, Bool.false_eq_true, if_false, ← he]
    rw [← hke, BitVec.ofNat_toNat, BitVec.setWidth_eq]
  rw [beq_iff_eq] at hkage
  rw [hchoose]
  refine ⟨rfl, k, ((hmem k).1 hk).1, rfl, fun j hj => ⟨?_, fun hje => ?_⟩⟩
  · rcases Nat.lt_or_ge (s.thr j).age 64 with hlt | hge
    · have := ((hmem k).1 hk).2; omega
    · rw [hkage]; exact hmax j ((hmem j).2 ⟨hj, hge⟩)
  · have hjin : j ∈ aged := (hmem j).2 ⟨hj, by have := ((hmem k).1 hk).2; omega⟩
    rw [hke]
    exact hlow _ (List.mem_map.2 ⟨j, List.mem_filter.2 ⟨hjin, beq_iff_eq.2 (by omega)⟩, rfl⟩)

-- The issue set (R33).

/-- The layer that a quarter of the issue set comes from. -/
def State.issueLayer (s : State) (cand : List Nat) (pc : DWord) (forced : Bool) (q : Nat) : Nat :=
  let old := (cand.filter fun k => (s.thr k).pc == pc && k % 64 / 8 == q && decide (64 ≤ (s.thr k).age))
  if forced && !old.isEmpty then
    let e := old.foldl (fun m k => Nat.max m (s.thr k).age) 0
    let ls := (old.filter fun k => (s.thr k).age == e).map layerOfThread
    ls.foldl Nat.min (ls.headD 0)
  else fullestLayer s cand pc q

theorem mem_inCell {s : State} {cand : List Nat} {pc : DWord} {q l k : Nat} :
    k ∈ inCell s cand pc q l ↔ k ∈ cand ∧ (s.thr k).pc = pc ∧ k % 64 / 8 = q ∧ layerOfThread k = l := by
  rw [inCell, List.mem_filter, Bool.and_eq_true, Bool.and_eq_true, beq_iff_eq, beq_iff_eq, beq_iff_eq, and_assoc]

theorem mem_issueSet {s : State} {cand : List Nat} {pc : DWord} {forced : Bool} {k : Nat} :
    k ∈ s.issueSet cand pc forced ↔ k ∈ cand ∧ (s.thr k).pc = pc ∧ layerOfThread k = s.issueLayer cand pc forced (k % 64 / 8) := by
  have hset : s.issueSet cand pc forced = (upto 0 8).flatMap fun q => inCell s cand pc q (s.issueLayer cand pc forced q) := rfl
  rw [hset, List.mem_flatMap]
  constructor
  · rintro ⟨q, -, hk⟩
    obtain ⟨hc, hpc, rfl, hl⟩ := mem_inCell.1 hk
    exact ⟨hc, hpc, hl⟩
  · rintro ⟨hk, hpc, hl⟩
    exact ⟨k % 64 / 8, mem_upto.2 ⟨Nat.zero_le _, by omega⟩, mem_inCell.2 ⟨hk, hpc, rfl, hl⟩⟩

theorem layerOfThread_lt (k : Nat) : layerOfThread k < 8 := Nat.mod_lt _ (by decide)

/-- The layer with the most threads, the lowest on a tie. -/
theorem fullestLayer_spec (s : State) (cand : List Nat) (pc : DWord) (q : Nat) :
    ∀ l < 8, Better (fun l => (inCell s cand pc q l).length) (fullestLayer s cand pc q) l := by
  have hfirst : fullestLayer s cand pc q =
      (upto 1 7).foldl (fun b l => if (inCell s cand pc q b).length < (inCell s cand pc q l).length then l else b) 0 := by
    rw [fullestLayer, show upto 0 8 = 0 :: upto 1 7 from rfl, List.foldl_cons, ite_self]
  rw [hfirst]
  exact (foldl_first_spec (fun l => (inCell s cand pc q l).length) 7 1 0 (by decide)
    fun l hl => by rw [show l = 0 by omega]; exact .refl _ 0).2

theorem issueLayer_fullest {s : State} {cand : List Nat} {pc : DWord} {forced : Bool} {q : Nat}
    (h : forced = false ∨ ∀ j ∈ cand, (s.thr j).pc = pc → j % 64 / 8 = q → (s.thr j).age < 64) :
    s.issueLayer cand pc forced q = fullestLayer s cand pc q := by
  rw [State.issueLayer]
  refine if_neg fun hold => ?_
  rw [Bool.and_eq_true, Bool.not_eq_true', List.isEmpty_eq_false_iff] at hold
  obtain ⟨hf, hold⟩ := hold
  obtain ⟨k, hk⟩ := List.exists_mem_of_ne_nil _ hold
  simp only [List.mem_filter, Bool.and_eq_true, beq_iff_eq, decide_eq_true_eq] at hk
  obtain ⟨hk, ⟨hpc, hq⟩, hage⟩ := hk
  rcases h with h | h
  · rw [hf] at h; cases h
  · have := h k hk hpc hq; omega

theorem issueLayer_oldest {s : State} {cand : List Nat} {pc : DWord} {q : Nat}
    (h : ∃ j ∈ cand, (s.thr j).pc = pc ∧ j % 64 / 8 = q ∧ 64 ≤ (s.thr j).age) :
    ∃ m ∈ cand, (s.thr m).pc = pc ∧ m % 64 / 8 = q ∧ layerOfThread m = s.issueLayer cand pc true q
      ∧ ∀ j ∈ cand, (s.thr j).pc = pc → j % 64 / 8 = q → (s.thr j).age ≤ (s.thr m).age
        ∧ ((s.thr j).age = (s.thr m).age → layerOfThread m ≤ layerOfThread j) := by
  obtain ⟨old, hold⟩ : ∃ old, old = cand.filter fun k => (s.thr k).pc == pc && k % 64 / 8 == q && decide (64 ≤ (s.thr k).age) := ⟨_, rfl⟩
  have hmem : ∀ k, k ∈ old ↔ k ∈ cand ∧ (s.thr k).pc = pc ∧ k % 64 / 8 = q ∧ 64 ≤ (s.thr k).age := fun k => by
    rw [hold, List.mem_filter, Bool.and_eq_true, Bool.and_eq_true, beq_iff_eq, beq_iff_eq, decide_eq_true_eq, and_assoc]
  have hne : old ≠ [] := by
    obtain ⟨j, hj⟩ := h
    exact List.ne_nil_of_mem ((hmem j).2 hj)
  obtain ⟨⟨x, hx, hxe⟩, hmax⟩ := greatest_spec (f := fun k => (s.thr k).age) hne fun k hk => by
    obtain ⟨-, -, -, ha⟩ := (hmem k).1 hk
    omega
  obtain ⟨e, he⟩ : ∃ e, e = old.foldl (fun m k => Nat.max m (s.thr k).age) 0 := ⟨_, rfl⟩
  rw [← he] at hxe hmax
  obtain ⟨hlmem, hlow⟩ := least_spec (l := (old.filter fun k => (s.thr k).age == e).map layerOfThread)
    (List.ne_nil_of_mem (List.mem_map.2 ⟨x, List.mem_filter.2 ⟨hx, beq_iff_eq.2 hxe⟩, rfl⟩))
  obtain ⟨m, hm, hml⟩ := List.mem_map.1 hlmem
  obtain ⟨hm, hme⟩ := List.mem_filter.1 hm
  rw [beq_iff_eq] at hme
  obtain ⟨hmc, hpc, hq, hage⟩ := (hmem m).1 hm
  have hlayer : s.issueLayer cand pc true q = layerOfThread m := by
    have hempty : old.isEmpty = false := List.isEmpty_eq_false_iff.2 hne
    rw [State.issueLayer, ← hold]
    simp only [hempty, Bool.not_false, Bool.and_true, if_true, ← he]
    exact hml.symm
  refine ⟨m, hmc, hpc, hq, hlayer.symm, fun j hj hjpc hjq => ?_⟩
  rcases Nat.lt_or_ge (s.thr j).age 64 with hlt | hge
  · exact ⟨by omega, by omega⟩
  · have hjold := (hmem j).2 ⟨hj, hjpc, hjq, hge⟩
    refine ⟨hme ▸ hmax j hjold, fun hje => ?_⟩
    rw [hml]
    exact hlow _ (List.mem_map.2 ⟨j, List.mem_filter.2 ⟨hjold, beq_iff_eq.2 (by omega)⟩, rfl⟩)

/-- Every quarter with a candidate at the PC has a thread in the issue set. -/
theorem issueSet_meets {s : State} {cand : List Nat} {pc : DWord} {forced : Bool} {j : Nat} (hj : j ∈ cand) (hpc : (s.thr j).pc = pc) :
    ∃ k ∈ s.issueSet cand pc forced, k % 64 / 8 = j % 64 / 8 := by
  by_cases hold : forced = false ∨ ∀ i ∈ cand, (s.thr i).pc = pc → i % 64 / 8 = j % 64 / 8 → (s.thr i).age < 64
  · have hcell := (fullestLayer_spec s cand pc (j % 64 / 8) _ (layerOfThread_lt j)).1
    have hin : 0 < (inCell s cand pc (j % 64 / 8) (layerOfThread j)).length :=
      List.length_pos_of_mem (mem_inCell.2 ⟨hj, hpc, rfl, rfl⟩)
    obtain ⟨k, hk⟩ := List.exists_mem_of_length_pos (Nat.lt_of_lt_of_le hin hcell)
    obtain ⟨hk, hkpc, hkq, hkl⟩ := mem_inCell.1 hk
    exact ⟨k, mem_issueSet.2 ⟨hk, hkpc, by rw [hkq, hkl, issueLayer_fullest hold]⟩, hkq⟩
  · rw [not_or, Bool.not_eq_false] at hold
    obtain ⟨rfl, hold⟩ := hold
    push Not at hold
    obtain ⟨m, hm, hmpc, hmq, hml, -⟩ := issueLayer_oldest hold
    exact ⟨m, mem_issueSet.2 ⟨hm, hmpc, by rw [hml, hmq]⟩, hmq⟩

-- The begin of a run (R34).

/-- One state differs from another in its threads alone, whose traps are the same. -/
def State.SameTraps (s t : State) : Prop :=
  ∃ threads, t = { s with threads := threads } ∧ (Tab.risingFrom 0 s.threads = true → Tab.risingFrom 0 threads = true
    ∧ ∀ k, (t.thr k).trapFlags = (s.thr k).trapFlags ∧ (t.thr k).traps = (s.thr k).traps)

theorem State.SameTraps.refl (s : State) : s.SameTraps s := ⟨s.threads, rfl, fun h => ⟨h, fun _ => ⟨rfl, rfl⟩⟩⟩

theorem State.SameTraps.trans {a b c : State} (h : a.SameTraps b) (h' : b.SameTraps c) : a.SameTraps c := by
  obtain ⟨x, rfl, hx⟩ := h
  obtain ⟨y, rfl, hy⟩ := h'
  refine ⟨y, rfl, fun h => ?_⟩
  obtain ⟨hrx, hx⟩ := hx h
  obtain ⟨hry, hy⟩ := hy hrx
  exact ⟨hry, fun k => ⟨(hy k).1.trans (hx k).1, (hy k).2.trans (hx k).2⟩⟩

theorem sameTraps_updThr {f : Thread → Thread} (hf : ∀ t, (f t).trapFlags = t.trapFlags ∧ (f t).traps = t.traps) (s : State) (k : Nat) :
    s.SameTraps (s.updThr k f) := by
  refine ⟨_, rfl, fun h => ⟨setThr_rising h _ _, fun j => ?_⟩⟩
  rw [updThr_eq, thr_setThr h]
  by_cases hj : j = k
  · rw [if_pos hj, hj]; exact hf _
  · rw [if_neg hj]; exact ⟨rfl, rfl⟩

theorem applyAges_sameTraps (s : State) (i : Nat) (ks cand : List Nat) : s.SameTraps (s.applyAges i ks cand) := by
  have hfold : ∀ (f : Nat → Thread → Thread), (∀ k t, (f k t).trapFlags = t.trapFlags ∧ (f k t).traps = t.traps) → ∀ (l : List Nat) (s : State),
      s.SameTraps (l.foldl (fun s k => s.updThr k (f k)) s) := fun f hf l s =>
    foldl_rel (R := State.SameTraps) State.SameTraps.refl (fun _ _ _ => State.SameTraps.trans)
      (fun s k => sameTraps_updThr (hf k) s k) l s
  rw [State.applyAges]
  split
  · exact .refl s
  · exact (hfold (fun k t => { t with age := if ks.contains k then 0 else Nat.min (t.age + 1) 1023 }) (fun _ _ => ⟨rfl, rfl⟩) cand s).trans
      (hfold (fun _ t => { t with yielded := false }) (fun _ _ => ⟨rfl, rfl⟩) _ _)

theorem dueTraps_none {s : State} {pc : DWord} {pos : Nat} {ks : List Nat} (h : ∀ k ∈ ks, (s.thr k).traps = []) (n : Nat) :
    s.dueTraps pc pos ks n = (ks, s) := by
  cases n with
  | zero => rfl
  | succ n =>
    have hnone : (ks.findSome? fun k => (s.thr k).traps.head?) = none :=
      List.findSome?_eq_none_iff.2 fun k hk => by rw [h k hk]; rfl
    rw [State.dueTraps, hnone]

/-- Where no trap is due, every thread of the issue set stays. -/
theorem boundaryTraps_none {s : State} {pc : DWord} {pos : Nat} {ks : List Nat}
    (h : pos = 0 → ∀ k ∈ ks, (s.thr k).trapFlags = 0 ∧ (s.thr k).traps = []) : s.boundaryTraps pc pos ks = (ks, s) := by
  rw [State.boundaryTraps]
  by_cases hpos : pos = 0
  · have hdue : (ks.filter fun k => (s.thr k).trapFlags != 0) = [] :=
      List.filter_eq_nil_iff.2 fun k hk => by rw [(h hpos k hk).1]; decide
    simp only [hdue, List.isEmpty_nil, if_true, if_pos hpos]
    rw [show (ks.filter fun k => !([] : List Nat).contains k) = ks from List.filter_eq_self.2 fun _ _ => rfl]
    exact dueTraps_none (fun k hk => (h hpos k hk).2) _
  · exact if_neg hpos

/-- One state differs from another in its slots and its tables of code and translations alone. -/
def State.SameThreads (s t : State) : Prop :=
  ∃ slots cores cmds dies, t = { s with slots := slots, cores := cores, cmds := cmds, dies := dies }
    ∧ (Tab.risingFrom 0 s.slots = true → Tab.risingFrom 0 slots = true)

theorem State.SameThreads.refl (s : State) : s.SameThreads s := ⟨s.slots, s.cores, s.cmds, s.dies, rfl, id⟩

theorem State.SameThreads.trans {a b c : State} (h : a.SameThreads b) (h' : b.SameThreads c) : a.SameThreads c := by
  obtain ⟨x, y, z, w, rfl, hx⟩ := h
  obtain ⟨x', y', z', w', rfl, hx'⟩ := h'
  exact ⟨x', y', z', w', rfl, fun h => hx' (hx h)⟩

theorem addTlb_sameThreads (s : State) (k : Nat) (e : TlbEntry) : s.SameThreads (s.addTlb k e) := by
  rw [State.addTlb]
  split
  · exact ⟨s.slots, s.cores, _, s.dies, rfl, id⟩
  · exact ⟨s.slots, _, s.cmds, _, rfl, id⟩

theorem keepCode_sameThreads (s : State) (k va : Nat) (f : Fetched) : s.SameThreads (s.keepCode k va f) := by
  unfold State.keepCode
  extract_lets tr ctx pc lo n lines s₁ s₂
  have h₁ : s.SameThreads s₁ := by
    show s.SameThreads (if f.read then _ else s)
    split
    · exact foldl_rel (R := State.SameThreads) State.SameThreads.refl (fun _ _ _ => State.SameThreads.trans)
        (fun s e => addTlb_sameThreads s k e) _ s
    · exact .refl s
  have h₂ : s₁.SameThreads s₂ := by
    show s₁.SameThreads (if isCmd k then s₁ else _)
    split
    · exact .refl s₁
    · exact ⟨_, s₁.cores, s₁.cmds, s₁.dies, rfl, fun h => setSlot_rising h _ _⟩
  refine (h₁.trans h₂).trans ?_
  cases lines with
  | none => exact .refl s₂
  | some ws => exact ⟨s₂.slots, _, s₂.cmds, s₂.dies, rfl, id⟩

/-- A fold of updates that leaves each of its threads in some condition. -/
theorem thr_foldl_of {P : Thread → Prop} {f : Nat → Thread → Thread} (hf : ∀ k t, P (f k t)) {l : List Nat} {s : State}
    (hs : Tab.risingFrom 0 s.threads = true) {k : Nat} (hk : k ∈ l ∨ P (s.thr k)) : P ((l.foldl (fun s k => s.updThr k (f k)) s).thr k) := by
  induction l generalizing s with
  | nil => exact hk.resolve_left List.not_mem_nil
  | cons x l ih =>
    refine ih (setThr_rising hs _ _) ?_
    show k ∈ l ∨ P ((s.setThr x (f x (s.thr x))).thr k)
    rw [thr_setThr hs]
    by_cases hx : k = x
    · rw [if_pos hx]; exact .inr (hf _ _)
    · rw [if_neg hx]
      exact hk.imp_left fun h => (List.mem_cons.1 h).resolve_left hx

/-- A thread as a run begins at a position. -/
def Thread.beginAt (pos : Nat) (t : Thread) : Thread :=
  if pos = 0 then { t.settle with wait := .issued, awaits := [], tm := [], tmMask := 0, pos := 0, lateRun := [] }
  else { t with wait := .issued, awaits := [], pos := 0, lateRun := [] }

theorem Thread.wait_beginAt (pos : Nat) (t : Thread) : (t.beginAt pos).wait = .issued := by
  rw [Thread.beginAt]
  split <;> rfl

/-- A slot takes a run whose threads have just become issued. -/
theorem issued_of {s : State} (ht : Tab.risingFrom 0 s.threads = true) (hl : Tab.risingFrom 0 s.slots = true) (f : Thread → Thread)
    (hf : ∀ t, (f t).wait = .issued) (i : Nat) (g : State → Slot → Slot) (ks : List Nat) :
    let t := ks.foldl (fun s k => s.updThr k f) s
    (t.updSlot i (g t)).slot i = g t (s.slot i) ∧ ∀ k ∈ ks, ((t.updSlot i (g t)).thr k).wait = .issued := by
  intro t
  obtain ⟨threads, he⟩ := foldl_updThr_spec (fun _ => f) ks s
  have hslots : t.slots = s.slots := by show (ks.foldl _ s).slots = _; rw [he]
  refine ⟨?_, fun k hk => thr_foldl_of (P := fun t => t.wait = .issued) (f := fun _ => f) (fun _ => hf) ht (.inl hk)⟩
  rw [updSlot_eq, slot_setSlot (hslots ▸ hl), if_pos rfl, State.slot, hslots, State.slot]

/-- R34: the run that a chosen issue set begins. -/
theorem runIssue_spec {s : State} (hs : s.tidy = true) {i : Nat} {pc : DWord} {pos : Nat} {ks cd : List Nat} {fe : Fetched}
    (hphase : (s.slot i).phase = .chosen pc pos ks cd) (hne : ks ≠ [])
    (hready : ∀ k ∈ ks, s.isReady k = true ∧ (pos = 0 → (s.thr k).trapFlags = 0 ∧ (s.thr k).traps = []))
    (hfetch : ((s.updSlot i fun x => { x with phase := .idle, last := if cmdIssuer ≤ i then ks.headD 0 - cmdBase + 1 else x.last }).applyAges i ks cd).fetch
      (ks.headD 0) pc.toNat = .ok fe)
    (hcheck : checkRun fe.words pc.toNat = none) (hpos : pos ≤ runLen (fe.words.getD 0 0).toNat) :
    ∃ r, ((s.beginRun i).slot i).phase = .running r ∧ r.pc = pc ∧ r.threads = ks ∧ r.fixed = []
      ∧ r.words = (fe.words.drop 2).take (runLen (fe.words.getD 0 0).toNat) ∧ r.pos = Nat.max pos 1
      ∧ ∀ k ∈ ks, ((s.beginRun i).thr k).wait = .issued := by
  rw [State.beginRun, hphase]
  simp only
  obtain ⟨v, hv⟩ : ∃ v, v = s.updSlot i fun x => { x with phase := .idle, last := if cmdIssuer ≤ i then ks.headD 0 - cmdBase + 1 else x.last } := ⟨_, rfl⟩
  rw [← hv] at hfetch ⊢
  have hthr : ∀ k, v.thr k = s.thr k := fun k => by rw [hv]; rfl
  have hrise : Tab.risingFrom 0 v.threads = true := by rw [hv]; exact (tidy_threads hs : Tab.risingFrom 0 s.threads = true)
  have hslots : Tab.risingFrom 0 v.slots = true := by rw [hv]; exact setSlot_rising (tidy_slots hs) _ _
  have hfilter : ks.filter v.isReady = ks := List.filter_eq_self.2 fun k hk => by rw [hv]; exact (hready k hk).1
  have hempty : ks.isEmpty = false := List.isEmpty_eq_false_iff.2 hne
  rw [hfilter, hempty, if_neg Bool.false_ne_true]
  obtain ⟨u, hu⟩ : ∃ u, u = v.applyAges i ks cd := ⟨_, rfl⟩
  rw [← hu] at hfetch ⊢
  obtain ⟨threads, hages, hsame⟩ := hu ▸ applyAges_sameTraps v i ks cd
  obtain ⟨hthreads, htraps⟩ := hsame hrise
  have hslots : Tab.risingFrom 0 u.slots = true := by rw [hages]; exact hslots
  have hrise : Tab.risingFrom 0 u.threads = true := by rw [hages]; exact hthreads
  have hnone : u.boundaryTraps pc pos ks = (ks, u) := boundaryTraps_none fun h0 k hk => by
    rw [(htraps k).1, (htraps k).2, hthr]; exact (hready k hk).2 h0
  rw [hnone]
  simp only [hempty, Bool.false_eq_true, if_false, hfetch, hcheck, if_neg (Nat.not_lt.2 hpos)]
  obtain ⟨slots, cores, cmds, dies, hkeep, hkslots⟩ := keepCode_sameThreads u (ks.headD 0) pc.toNat fe
  rw [hkeep]
  simp only [State.newId]
  obtain ⟨hslot, hwait⟩ := issued_of (s := { u with slots := slots, cores := cores, cmds := cmds, dies := dies, nextId := u.nextId + 1 })
    hrise (hkslots hslots) (Thread.beginAt pos) (Thread.wait_beginAt pos) i
    (fun v x => { x with phase := .running { makeRun u.nextId fe.words pc (Nat.max pos 1) v.clk ks with
      late := if pos = 0 then [] else ks.flatMap fun k => (u.thr k).lateRun } }) ks
  exact ⟨_, congrArg Slot.phase hslot, rfl, rfl, rfl, rfl, rfl, hwait⟩

section
variable {s : State} {i : Nat}

theorem pick_busy (h : (s.slot i).phase ≠ .idle) : s.pick i = s := by
  rw [State.pick]
  split
  · next hi => exact absurd hi h
  · rfl

theorem pick_resumes {pc : DWord} {pos : Nat} {ks : List Nat} {r : List (DWord × Nat × List Nat)} (h : (s.slot i).phase = .idle)
    (hr : (s.slot i).resume = (pc, pos, ks) :: r) :
    s.pick i = s.setSlot i { s.slot i with resume := r, phase := .chosen pc pos ks [] } := by
  simp only [State.pick, h, hr]

theorem pick_nothing (h : (s.slot i).phase = .idle) (hr : (s.slot i).resume = []) (hc : s.candidates i = []) : s.pick i = s := by
  simp only [State.pick, h, hr, hc, List.isEmpty_nil, if_true]

theorem pick_compute (h : (s.slot i).phase = .idle) (hr : (s.slot i).resume = []) (hc : s.candidates i ≠ []) (hi : i < cmdIssuer) :
    let p := s.choosePc (s.candidates i)
    s.pick i = s.setSlot i { s.slot i with phase := .chosen p.1 0 (s.issueSet (s.candidates i) p.1 p.2) (s.candidates i) } := by
  simp only [State.pick, h, hr, List.isEmpty_eq_false_iff.2 hc, Bool.false_eq_true, if_false, if_neg (Nat.not_le.2 hi)]

theorem pick_command (h : (s.slot i).phase = .idle) (hr : (s.slot i).resume = []) (hc : s.candidates i ≠ []) (hi : cmdIssuer ≤ i) {k : Nat}
    (hk : nextContext (if (s.slot i).last = 0 then 16 * (i - cmdIssuer) + 16 else (s.slot i).last) (s.candidates i) = [k]) :
    s.pick i = s.setSlot i { s.slot i with phase := .chosen (s.thr k).pc 0 [k] (s.candidates i) } := by
  simp only [State.pick, h, hr, List.isEmpty_eq_false_iff.2 hc, Bool.false_eq_true, if_false, if_pos hi, hk, List.headD_cons]

theorem beginRun_other (h : ∀ pc pos ks cd, (s.slot i).phase ≠ .chosen pc pos ks cd) : s.beginRun i = s := by
  rw [State.beginRun]
  split
  · next hp => exact absurd hp (h _ _ _ _)
  · rfl

end

/-- Settles O52: what the picker chooses by the folds over its candidates, and the run it begins by what the begin keeps of the
state: the traps of its threads, and their fetch. -/
theorem pickersChooseAndRunsBegin : Obligations.PickersChooseAndRunsBegin := by
  unfold Obligations.PickersChooseAndRunsBegin
  intro s i hs sl cand pcOf age quarter cell chosen base eligible
  have hpick : ∀ {t}, s.pick i = t → exec (.pickerDecision i) s = .next t := fun h => by rw [exec_pickerDecision, execPickerDecision, h]
  refine ⟨fun hp => hpick (pick_busy hp), fun hp hr hc => hpick (pick_nothing hp hr hc), fun pc pos ks r hp hr => hpick (pick_resumes hp hr),
    fun hp hr hc hi => hpick (pick_compute hp hr hc hi), fun hp hr hc hi => ?_, fun k => mem_candidates, fun hc hage => choosePc_young hc hage,
    fun h => choosePc_aged h, fun c pc forced => ⟨fun k hk => ?_, fun j hj hpc => issueSet_meets hj hpc,
      fun k hk j hj hpc hq => ?_, fun k hk hf l hl => ?_, fun k hk hf hex => ?_⟩, fun pc pos ks cd fe hp hne hready => ?_, fun hp => ?_⟩
  · obtain ⟨k, hk, hnext, habove, hbelow⟩ := nextContext_spec (sorted_candidates hs i) hc
      (if sl.last = 0 then 16 * (i - cmdIssuer) + 16 else sl.last)
    exact ⟨k, hk, hpick (pick_command hp hr hc hi hnext), habove, hbelow⟩
  · obtain ⟨hc, hpc, -⟩ := mem_issueSet.1 hk
    exact ⟨hc, hpc⟩
  · obtain ⟨-, -, hl⟩ := mem_issueSet.1 hk
    show j ∈ s.issueSet c pc forced ↔ _
    rw [mem_issueSet, show j % 64 / 8 = k % 64 / 8 from hq, ← hl]
    exact ⟨fun ⟨_, _, h⟩ => h, fun h => ⟨hj, hpc, h⟩⟩
  · obtain ⟨-, -, hlayer⟩ := mem_issueSet.1 hk
    rw [issueLayer_fullest hf] at hlayer
    rw [hlayer]
    exact fullestLayer_spec s c pc _ l hl
  · obtain ⟨-, -, hlayer⟩ := mem_issueSet.1 hk
    rw [hf] at hlayer
    obtain ⟨m, hm, hmpc, hmq, hml, hmax⟩ := issueLayer_oldest hex
    refine ⟨m, mem_issueSet.2 ⟨hm, hmpc, ?_⟩, hml.trans hlayer.symm, hmq, hmax⟩
    rw [hml, show m % 64 / 8 = k % 64 / 8 from hmq, hf]
  · intro u hfetch hcheck hpos
    obtain ⟨r, hphase, hpc, hks, hfixed, hwords, hrpos, hwait⟩ := runIssue_spec hs hp hne hready hfetch hcheck hpos
    exact ⟨s.beginRun i, r, rfl, hphase, hpc, hks, hfixed, hwords, hrpos, hwait⟩
  · rw [exec_runIssue, execRunIssue, beginRun_other hp]

end Sys2Proof.Machine
end

section
/-! PROOFS. The events of the machine's own units: the heartbeat and the sleepers, the distributor, granules in Handover, pipelines,
deterministic tasks, saved contexts, table loads, copy rings and CCOPY (R18 to R26, R154, R172, R193 to R197, R276 to R281, R294,
R313, R314, R324, R325). -/

namespace Sys2Proof.Machine

-- The heartbeat and the sleepers (R18, R154).

/-- One state keeps the clk, the heartbeat's count, memory and what is due of another. -/
structure State.KeepsDue (s t : State) : Prop where
  clk : t.clk = s.clk
  ticks : t.ticks = s.ticks
  mem : t.mem = s.mem
  agenda : ∀ e ∈ s.agenda, e ∈ t.agenda

theorem State.KeepsDue.refl (s : State) : s.KeepsDue s := ⟨rfl, rfl, rfl, fun _ h => h⟩

theorem State.KeepsDue.trans {a b c : State} (h : a.KeepsDue b) (h' : b.KeepsDue c) : a.KeepsDue c :=
  ⟨h'.clk.trans h.clk, h'.ticks.trans h.ticks, h'.mem.trans h.mem, fun e he => h'.agenda e (h.agenda e he)⟩

theorem mem_insertEvent_of_mem {x : Nat × Instr} (t : Nat) (e : Instr) {l : List (Nat × Instr)} (h : x ∈ l) : x ∈ insertEvent t e l := by
  induction l with
  | nil => cases h
  | cons y l ih =>
    rw [insertEvent]
    split
    · exact List.mem_cons_of_mem _ h
    · rcases List.mem_cons.1 h with rfl | h
      · exact List.mem_cons_self
      · exact List.mem_cons_of_mem _ (ih h)

theorem poll_keepsDue (s : State) (t : Nat) (e : Instr) : s.KeepsDue (s.poll t e) := by
  rw [State.poll]
  split
  · exact .refl s
  · exact ⟨rfl, rfl, rfl, fun _ h => mem_insertEvent_of_mem _ _ h⟩

theorem poll_threads (s : State) (t : Nat) (e : Instr) : (s.poll t e).threads = s.threads := by
  obtain ⟨agenda, h⟩ := poll_spec s t e
  rw [h]

/-- What is polled for is due then or later. -/
theorem poll_due (s : State) (t : Nat) (e : Instr) : ∃ x ∈ (s.poll t e).agenda, x.2 = e ∧ t ≤ x.1 := by
  rw [State.poll]
  split
  · next h =>
    obtain ⟨x, hx, hxe⟩ := List.any_eq_true.1 h
    rw [Bool.and_eq_true, beq_iff_eq, decide_eq_true_eq] at hxe
    exact ⟨x, hx, hxe⟩
  · exact ⟨(t, e), mem_insertEvent _ _ _, rfl, le_refl t⟩

/-- A heartbeat of one sleeper. -/
def State.tickSleeper (s : State) (e : Nat × Nat) : State :=
  let s := s.updThr e.1 fun t => { t with wait := .asleep e.2 }
  if e.2 = 0 then s.poll s.clk (.sleepWake e.1) else s

theorem tickSleeper_spec (s : State) (e : Nat × Nat) : s.KeepsDue (s.tickSleeper e)
    ∧ (s.tickSleeper e).threads = (s.updThr e.1 fun t => { t with wait := .asleep e.2 }).threads
    ∧ (e.2 = 0 → ∃ x ∈ (s.tickSleeper e).agenda, x.2 = .sleepWake e.1 ∧ s.clk ≤ x.1) := by
  have hupd : s.KeepsDue (s.updThr e.1 fun t => { t with wait := .asleep e.2 }) := ⟨rfl, rfl, rfl, fun _ h => h⟩
  rw [State.tickSleeper]
  by_cases h0 : e.2 = 0
  · rw [if_pos h0]
    exact ⟨hupd.trans (poll_keepsDue _ _ _), poll_threads _ _ _, fun _ => poll_due _ _ _⟩
  · rw [if_neg h0]
    exact ⟨hupd, rfl, fun h => absurd h h0⟩

theorem foldl_tickSleeper (l : List (Nat × Nat)) (s : State) : s.KeepsDue (l.foldl State.tickSleeper s) :=
  foldl_rel (R := State.KeepsDue) State.KeepsDue.refl (fun _ _ _ => State.KeepsDue.trans) (fun s e => (tickSleeper_spec s e).1) l s

/-- Each of some sleepers, once each, sleeps on for the beats given, and wakes where there is none. -/
theorem foldl_tickSleeper_spec {l : List (Nat × Nat)} (hl : (l.map (·.1)).Nodup) {s : State} (hs : Tab.risingFrom 0 s.threads = true) :
    (∀ x ∉ l.map (·.1), (l.foldl State.tickSleeper s).thr x = s.thr x)
    ∧ ∀ e ∈ l, ((l.foldl State.tickSleeper s).thr e.1).wait = .asleep e.2
      ∧ (e.2 = 0 → ∃ x ∈ (l.foldl State.tickSleeper s).agenda, x.2 = .sleepWake e.1 ∧ s.clk ≤ x.1) := by
  induction l generalizing s with
  | nil => exact ⟨fun _ _ => rfl, fun e he => absurd he List.not_mem_nil⟩
  | cons y l ih =>
    obtain ⟨hy, hl⟩ := List.nodup_cons.1 hl
    obtain ⟨hkeep, hthreads, hwake⟩ := tickSleeper_spec s y
    have hthr : ∀ x, (s.tickSleeper y).thr x = if x = y.1 then { s.thr y.1 with wait := .asleep y.2 } else s.thr x := fun x => by
      rw [State.thr, hthreads]
      exact thr_setThr hs y.1 x _
    obtain ⟨hout, hin⟩ := ih hl (s := s.tickSleeper y) (hthreads ▸ setThr_rising hs _ _)
    rw [List.foldl_cons]
    refine ⟨fun x hx => ?_, fun e he => ?_⟩
    · rw [List.map_cons, List.mem_cons, not_or] at hx
      rw [hout x hx.2, hthr, if_neg hx.1]
    · rcases List.mem_cons.1 he with rfl | he
      · refine ⟨by rw [hout e.1 hy, hthr, if_pos rfl], fun h0 => ?_⟩
        obtain ⟨x, hx, hxe⟩ := hwake h0
        exact ⟨x, (foldl_tickSleeper l _).agenda x hx, hxe⟩
      · rw [← hkeep.clk]
        exact hin e he

/-- The sleepers with beats to go, and the beats left after this one. -/
def State.sleepers (s : State) : List (Nat × Nat) :=
  s.threads.filterMap fun e => match e.2.wait with | .asleep (n + 1) => some (e.1, n) | _ => none

theorem mem_sleepers {s : State} {x c : Nat} (h : (s.thr x).wait = .asleep (c + 1)) : (x, c) ∈ s.sleepers := by
  rcases Tab.get_mem {} (t := s.threads) (n := x) with hx | hx
  · rw [State.thr, hx] at h; cases h
  · refine List.mem_filterMap.2 ⟨_, hx, ?_⟩
    show (match (s.thr x).wait with | .asleep (n + 1) => some (x, n) | _ => none) = some (x, c)
    rw [h]

theorem nodup_sleepers {s : State} (hs : s.tidy = true) : (s.sleepers.map (·.1)).Nodup := by
  refine (Tab.nodup_keys (tidy_threads hs)).sublist ?_
  have hsub : ∀ t : Tab Thread, ((t.filterMap fun e => match e.2.wait with | .asleep (n + 1) => some (e.1, n) | _ => none).map (·.1)).Sublist
      (t.map (·.1)) := by
    intro t
    induction t with
    | nil => exact .slnil
    | cons e t ih =>
      rw [List.filterMap_cons]
      split
      · exact ih.cons _
      · next y hy =>
        have : y.1 = e.1 := by
          split at hy
          · cases hy; rfl
          · cases hy
        rw [List.map_cons, List.map_cons, this]
        exact ih.cons_cons _
  exact hsub s.threads

/-- What a fold of polls for the intervals leaves due. -/
theorem intervals_due (n lo : Nat) (s : State) : let t := (upto lo n).foldl (fun s d => s.poll s.clk (.balancerInterval d)) s
    s.KeepsDue t ∧ t.threads = s.threads ∧ ∀ d, lo ≤ d → d < lo + n → ∃ e ∈ t.agenda, e.2 = .balancerInterval d ∧ s.clk ≤ e.1 := by
  induction n generalizing lo s with
  | zero => exact ⟨.refl s, rfl, fun d h h' => absurd h' (by omega)⟩
  | succ n ih =>
    have hpoll := poll_keepsDue s s.clk (.balancerInterval lo)
    obtain ⟨hkeep, hthreads, hdue⟩ := ih (lo + 1) (s.poll s.clk (.balancerInterval lo))
    refine ⟨hpoll.trans hkeep, hthreads.trans (poll_threads _ _ _), fun d hlo hhi => ?_⟩
    rcases Nat.eq_or_lt_of_le hlo with rfl | hlt
    · obtain ⟨e, he, hee⟩ := poll_due s s.clk (.balancerInterval lo)
      exact ⟨e, hkeep.agenda e he, hee⟩
    · rw [hpoll.clk] at hdue
      exact hdue d hlt (by omega)

/-- R18, R154: a heartbeat counts itself, is due again at the next multiple of 64 clk, begins the balancer's intervals every 256
beats, and takes a beat off every sleeper. -/
theorem heartbeat_spec (s : State) : ∃ t, exec .heartbeatTick s = .next t ∧ t.ticks = s.ticks + 1 ∧ t.mem = s.mem
    ∧ (∃ e ∈ t.agenda, e.2 = .heartbeatTick ∧ 64 * (s.clk / 64 + 1) ≤ e.1)
    ∧ (s.clk / 64 % 256 = 0 → ∀ d < 4, ∃ e ∈ t.agenda, e.2 = .balancerInterval d ∧ s.clk ≤ e.1)
    ∧ (s.tidy = true → ∀ x c, (s.thr x).wait = .asleep (c + 1) → (t.thr x).wait = .asleep c
      ∧ (c = 0 → ∃ e ∈ t.agenda, e.2 = .sleepWake x ∧ s.clk ≤ e.1)) := by
  obtain ⟨u, hu⟩ : ∃ u, u = s.sleepers.foldl State.tickSleeper { s with ticks := s.ticks + 1 } := ⟨_, rfl⟩
  have hsu : State.KeepsDue { s with ticks := s.ticks + 1 } u := hu ▸ foldl_tickSleeper _ _
  obtain ⟨v, hv⟩ : ∃ v, v = if u.beats % 256 = 0 then (upto 0 4).foldl (fun s d => s.poll s.clk (.balancerInterval d)) u else u := ⟨_, rfl⟩
  obtain ⟨hfold, hfthreads, hdue⟩ := intervals_due 4 0 u
  have huv : u.KeepsDue v ∧ v.threads = u.threads := by
    rw [hv]
    split
    · exact ⟨hfold, hfthreads⟩
    · exact ⟨.refl u, rfl⟩
  obtain ⟨huv, hthreads⟩ := huv
  have hexec : exec .heartbeatTick s = .next (v.poll (64 * (v.beats + 1)) .heartbeatTick) := by
    rw [exec_heartbeatTick, execHeartbeatTick, hv, hu]; rfl
  have hlast := poll_keepsDue v (64 * (v.beats + 1)) .heartbeatTick
  refine ⟨_, hexec, (hlast.ticks.trans huv.ticks).trans hsu.ticks, (hlast.mem.trans huv.mem).trans hsu.mem, ?_, fun hb d hd => ?_,
    fun hs x c hx => ?_⟩
  · obtain ⟨e, he, hee, hle⟩ := poll_due v (64 * (v.beats + 1)) .heartbeatTick
    have hle : 64 * (v.clk / 64 + 1) ≤ e.1 := hle
    rw [huv.clk.trans hsu.clk] at hle
    exact ⟨e, he, hee, hle⟩
  · have hvd : v = (upto 0 4).foldl (fun s d => s.poll s.clk (.balancerInterval d)) u := by
      rw [hv, State.beats, hsu.clk]; exact if_pos hb
    obtain ⟨e, he, hee, hle⟩ := hdue d (Nat.zero_le d) (by omega)
    rw [hsu.clk] at hle
    exact ⟨e, hlast.agenda e (hvd ▸ he), hee, hle⟩
  · obtain ⟨-, hin⟩ := foldl_tickSleeper_spec (nodup_sleepers hs) (s := { s with ticks := s.ticks + 1 }) (tidy_threads hs)
    obtain ⟨hwait, hwake⟩ := hin _ (mem_sleepers hx)
    rw [← hu] at hwait hwake
    refine ⟨?_, fun hc => ?_⟩
    · rw [State.thr, poll_threads, hthreads]; exact hwait
    · obtain ⟨e, he, hee⟩ := hwake hc
      exact ⟨e, hlast.agenda e (huv.agenda e he), hee⟩

section
variable {s : State} {n m : Nat}

theorem sleepWake_due (h : (s.thr n).wait = .asleep 0) : exec (.sleepWake n) s = .next (s.updThr n fun x => { x with wait := .ready }) := by
  rw [exec_sleepWake, execSleepWake, h]; rfl

theorem sleepWake_other (h : (s.thr n).wait ≠ .asleep 0) : exec (.sleepWake n) s = .next s := by
  rw [exec_sleepWake, execSleepWake]
  split
  · next hw => exact absurd hw h
  · rfl

-- The distributor (R24, R26).

/-- R24: the first grid of a die's list that has a team to place, a context and a tag open and a block free places it. -/
theorem teamPlace_first {g : Nat} {rest : List Nat} {a : Place} {block : List Nat} {ps : List Pos} (hg : (s.die n).grids = g :: rest)
    (hdet : (s.grid g).det = none) (hstage : (s.grid g).stage = none) (hnext : (s.grid g).nextTeam n = some a)
    (hctx : s.ctxOpen n (s.grid g).ctx = true) (htag : s.tagOpen n (s.grid g).desc.shape = true)
    (hblock : s.firstBlock n (s.grid g).ctx (s.grid g).desc none (upto 0 96) = some (block, ps)) :
    exec (.teamPlace n) s = .next ((((s.makeTeam g a block ps).updGrid g fun x =>
      { x with placed := x.placed.put 0 n (x.placed.get 0 n + 1) }).pokePlace n).pokePipes n) := by
  have hone : s.placeOne n g = some ((s.makeTeam g a block ps).updGrid g fun x => { x with placed := x.placed.put 0 n (x.placed.get 0 n + 1) }) := by
    simp only [State.placeOne, hdet, hstage, hnext, hctx, htag, hblock, Bool.not_true, Bool.or_self, Bool.false_eq_true, if_false]
  rw [exec_teamPlace, execTeamPlace, hg]
  simp only [State.placeFirst, hone]

theorem teamFinishComplete_due (hl : (s.team n).live = true) (hp : (s.team n).phase = .finishing) :
    exec (.teamFinishComplete n) s = .next (s.finishTeam n).ringsMoved := by
  rw [exec_teamFinishComplete, execTeamFinishComplete]
  exact if_pos (by rw [hl, hp]; rfl)

theorem teamFinishComplete_other (h : (s.team n).live = false ∨ (s.team n).phase ≠ .finishing) : exec (.teamFinishComplete n) s = .next s := by
  rw [exec_teamFinishComplete, execTeamFinishComplete]
  refine if_neg fun hc => ?_
  rw [Bool.and_eq_true, beq_iff_eq] at hc
  exact h.elim (fun h => by rw [h] at hc; cases hc.1) fun h => h hc.2

-- Granules in Handover (R85).

theorem handoverComplete_due {g : Nat} (h : (s.core n).gran.get .l1 m = .handover g) :
    let u := ((s.finishPublications n).dropClean n).updCore n fun c => { c with gran := c.gran.put .l1 m (.held g) }
    exec (.handoverComplete n m) s = .next (if (u.core n).restoring then
      (if (u.core n).handingOver || (u.core n).saving then u else u.endRestore n) else u.checkHeld g) := by
  intro u
  rw [exec_handoverComplete, execHandoverComplete, h]
  show (if (u.core n).restoring = true then if ((u.core n).handingOver || (u.core n).saving) = true then _ else _ else _) = _
  split
  · split <;> rfl
  · rfl

theorem handoverComplete_other (h : ∀ g, (s.core n).gran.get .l1 m ≠ .handover g) : exec (.handoverComplete n m) s = .next s := by
  rw [exec_handoverComplete, execHandoverComplete]
  split
  · next hg => exact absurd hg (h _)
  · rfl

-- Pipelines (R276, R281).

theorem pipelineResident_of {p : Pipe} (h : (s.die n).pipe m = some p) : exec (.pipelineResident n m) s =
    if p.resident = false ∧ s.ctxOpen n p.ctx = true ∧ p.cores ≤ (s.freeCores n p.ctx).length then .next (s.pipeResident n p) else .next s := by
  rw [exec_pipelineResident, execPipelineResident, h]
  simp only [Bool.and_eq_true, Bool.not_eq_true', decide_eq_true_eq, and_assoc]

theorem pipelineResident_none (h : (s.die n).pipe m = none) : exec (.pipelineResident n m) s = .next s := by
  rw [exec_pipelineResident, execPipelineResident, h]

/-- R281: an interval of a pipeline whose context runs balances it, where it is not at a deadlock. -/
theorem interval_balances {p q : Pipe} {t : State} (hp : (s.die n).pipe m = some p) (hr : p.resident = true)
    (hrun : (s.cx p.ctx).dies.get .running n = .running) (htest : s.strandTest n p = (false, t)) (hq : (t.die n).pipe m = some q) :
    s.interval n m = t.balance n q := by
  have hne : ((s.cx p.ctx).dies.get .running n != .running) = false := by rw [hrun]; rfl
  simp only [State.interval, hp, hr, Bool.not_true, Bool.false_eq_true, if_false, hne, htest, hq]

-- Deterministic tasks (R313, R314).

theorem detCommit_of {d : Det} (hl : (s.grid n).live = true) (hd : (s.grid n).det = some d) :
    exec (.detCommit n) s = .next (if d.failed then s.failStep n else s.tryCommit n d) := by
  rw [exec_detCommit, execDetCommit, hl, hd]

theorem detCommit_other (h : (s.grid n).live = false ∨ (s.grid n).det = none) : exec (.detCommit n) s = .next s := by
  rw [exec_detCommit, execDetCommit]
  split
  · next hl hd => exact h.elim (fun h => by rw [h] at hl; cases hl) fun h => by rw [h] at hd; cases hd
  · rfl

theorem tryCommit_unfinished {d : Det} (h : ∀ x, s.detTask n d.committed = some x → x.finished = false) : s.tryCommit n d = s := by
  rw [State.tryCommit]
  split
  · rfl
  · next x hx => exact if_pos (by rw [h x hx]; rfl)

theorem tryCommit_finished {d : Det} {x : DetTask} (hx : s.detTask n d.committed = some x) (hf : x.finished = true) :
    s.tryCommit n d = if d.replay = false then ((s.tableWrite n (0x40 + 8 * x.p) 8 x.digest.toNat).commitTask n x).afterCommit n x
      else let u := s.tablePoison n (0x40 + 8 * x.p) 8 x.p
        if u.tableRead n (0x40 + 8 * x.p) 8 = some x.digest.toNat then (u.commitTask n x).afterCommit n x else u.mismatch n x := by
  simp only [State.tryCommit, hx, hf, Bool.not_true, Bool.false_eq_true, if_false, Bool.not_eq_true']

-- Saved contexts (R324, R325).

theorem coreSave_notSaving (h : (s.core n).saving = false) : exec (.coreSave n) s = .next (s.closeSaves (dieOfCore n)) := by
  rw [exec_coreSave, execCoreSave, h]; rfl

theorem coreSave_notDie (h : (s.core n).saving = true) (hd : (s.cx (s.core n).ctx).dies.get .running (dieOfCore n) ≠ .saving) :
    exec (.coreSave n) s = .next s := by
  rw [exec_coreSave, execCoreSave, h]
  exact if_pos (bne_iff_ne.2 hd)

theorem foldl_updSlot_spec (f : Slot → Slot) (l : List Nat) (s : State) : ∃ slots, l.foldl (fun s i => s.updSlot i f) s = { s with slots := slots } :=
  foldl_rel (R := fun s t => ∃ slots, t = { s with slots := slots }) (fun s => ⟨s.slots, rfl⟩)
    (by rintro a _ _ ⟨x, rfl⟩ ⟨y, rfl⟩; exact ⟨y, rfl⟩) (fun _ _ => ⟨_, rfl⟩) l s

/-- R324: a core is saved once it is at rest, where the context's save area holds it. -/
theorem coreSave_tries (h : (s.core n).saving = true) (hd : (s.cx (s.core n).ctx).dies.get .running (dieOfCore n) = .saving)
    (hr : (s.core n).restoring = false) :
    let u := (upto (4 * n) 4).foldl (fun t i => t.updSlot i Slot.dropChosen) s
    (u.savedCores (s.core n).ctx (dieOfCore n) ≠ [] ∨ u.saveFits (s.core n).ctx (dieOfCore n) = true) →
    exec (.coreSave n) s = .next (if u.atRest n then (u.saveCore n).closeSaves (dieOfCore n) else u.poll (u.clk + 1) (.coreSave n)) := by
  intro u hfits
  obtain ⟨slots, hu⟩ := foldl_updSlot_spec Slot.dropChosen (upto (4 * n) 4) s
  have hcore : (u.core n).restoring = false := by rw [show u = _ from hu]; exact hr
  have hroom : ((u.savedCores (s.core n).ctx (dieOfCore n)).isEmpty && !u.saveFits (s.core n).ctx (dieOfCore n)) = false := by
    rcases hfits with h | h
    · rw [List.isEmpty_eq_false_iff.2 h]; rfl
    · rw [h, Bool.not_true, Bool.and_false]
  have htry : s.trySave n = if (u.core n).restoring then (u.unrestore n).closeSaves (dieOfCore n)
      else if (u.savedCores (s.core n).ctx (dieOfCore n)).isEmpty && !u.saveFits (s.core n).ctx (dieOfCore n) then
        (u.updCx (s.core n).ctx fun x => { x with dies := x.dies.put .running (dieOfCore n) .stoppedInPlace }).pokeHost
      else if u.atRest n then (u.saveCore n).closeSaves (dieOfCore n) else u.poll (u.clk + 1) (.coreSave n) := rfl
  rw [hcore, hroom, if_neg Bool.false_ne_true, if_neg Bool.false_ne_true] at htry
  rw [exec_coreSave, execCoreSave, h, hd, ← htry]
  rfl

/-- A core that a running context has reserved may be restored: it holds no other context, and is neither being saved nor restored. -/
structure State.RestoreOpen (s : State) (n x : Nat) : Prop where
  reserved : (s.core n).reserved = some x
  ctx : (s.core n).ctx = 0 ∨ (s.core n).ctx = x
  saving : (s.core n).saving = false
  restoring : (s.core n).restoring = false
  running : (s.cx x).dies.get .running (dieOfCore n) = .running
  room : x ∈ s.ctxsOn (dieOfCore n) ∨ (s.ctxsOn (dieOfCore n)).length < 64

theorem State.RestoreOpen.test {x : Nat} (h : s.RestoreOpen n x) : (((s.core n).ctx != 0 && (s.core n).ctx != x) || (s.core n).saving
    || (s.core n).restoring || !((s.ctxsOn (dieOfCore n)).contains x || decide ((s.ctxsOn (dieOfCore n)).length < 64))
    || !((s.cx x).dies.get .running (dieOfCore n) == .running)) = false := by
  have hc : ((s.core n).ctx != 0 && (s.core n).ctx != x) = false := by
    rcases h.ctx with h | h <;> simp [h]
  have hin : ((s.ctxsOn (dieOfCore n)).contains x || decide ((s.ctxsOn (dieOfCore n)).length < 64)) = true := by
    rw [Bool.or_eq_true, List.contains_iff_mem, decide_eq_true_eq]; exact h.room
  rw [hc, h.saving, h.restoring, hin, h.running]; rfl

theorem coreRestore_fresh {x : Nat} (h : s.RestoreOpen n x) (hv : (s.cx x).saved.get none n = none) :
    exec (.coreRestore n) s = .next (s.updCore n fun k => { k with reserved := none }) := by
  rw [exec_coreRestore, execCoreRestore, h.reserved]
  simp only [h.test, Bool.false_eq_true, if_false, hv]

/-- R325: what a save left of a core is restored where its granules are free. -/
theorem coreRestore_saved {x : Nat} (h : s.RestoreOpen n x) {v : SavedCore} (hv : (s.cx x).saved.get none n = some v) :
    exec (.coreRestore n) s = if (s.core n).freeGranules.length < s.granNeed v then .next s else .next (s.beginRestore x n v) := by
  rw [exec_coreRestore, execCoreRestore, h.reserved]
  simp only [h.test, Bool.false_eq_true, if_false, hv]

theorem coreRestore_notRunning {x : Nat} (hres : (s.core n).reserved = some x) (h : (s.cx x).dies.get .running (dieOfCore n) ≠ .running) :
    exec (.coreRestore n) s = .next s := by
  rw [exec_coreRestore, execCoreRestore, hres]
  refine if_pos ?_
  rw [beq_eq_false_iff_ne.2 h, Bool.not_false, Bool.or_true]

theorem coreRestore_none (h : (s.core n).reserved = none) : exec (.coreRestore n) s = .next s := by
  rw [exec_coreRestore, execCoreRestore, h]

-- Table loads (R172, R381).

/-- A group of a core latches a bank of a table. -/
def State.LatchesBank (s : State) (n m : Nat) (bank : Bool) : Prop :=
  ∃ e ∈ s.groups, e.2.live = true ∧ isCmd e.1 = false ∧ coreOfThread e.1 = n ∧ (e.2.latch.get {} m).latched = true ∧ (e.2.latch.get {} m).bank = bank

theorem latchesBank_iff {bank : Bool} : s.LatchesBank n m bank ↔ (s.groups.any fun e => e.2.live && !isCmd e.1 && coreOfThread e.1 == n
    && (let x := e.2.latch.get {} m; x.latched && x.bank == bank)) = true := by
  simp only [State.LatchesBank, List.any_eq_true, Bool.and_eq_true, Bool.not_eq_true', beq_iff_eq, and_assoc]

/-- A load waits for the clk after its bank's last use, and for the lines that a collective step owns. -/
def State.LoadWaits (s : State) (n m : Nat) (l : TableLoad) : Prop :=
  ((s.core n).tables.get {} m).at_ = some s.clk
    ∨ ∃ hs, s.engineHomes (s.loadAgent l) {} (parts l.ptr.toNat 3088) = .ok hs ∧ s.torcOwns hs = true

/-- The same as the model tests it. -/
def State.loadWaits (s : State) (n m : Nat) (l : TableLoad) : Bool :=
  ((s.core n).tables.get {} m).at_ == some s.clk
    || (match s.engineHomes (s.loadAgent l) {} (parts l.ptr.toNat 3088) with | .ok hs => s.torcOwns hs | .error _ => false)

theorem loadWaits_iff {l : TableLoad} : s.LoadWaits n m l ↔ s.loadWaits n m l = true := by
  rw [State.LoadWaits, State.loadWaits, Bool.or_eq_true, beq_iff_eq]
  refine or_congr Iff.rfl ?_
  cases s.engineHomes (s.loadAgent l) {} (parts l.ptr.toNat 3088) with
  | ok hs => exact ⟨by rintro ⟨_, ⟨⟩, h⟩; exact h, fun h => ⟨hs, rfl, h⟩⟩
  | error f => exact ⟨by rintro ⟨_, ⟨⟩, _⟩, fun h => absurd h Bool.false_ne_true⟩

/-- A load that reads its image: what its bytes make of it. -/
def State.loadRead (s : State) (n m : Nat) (l : TableLoad) : Except AccFault (List Byte × Bool) → State
  | .error f => s.failLoad n l f.code f.cls (f.infoWord false)
  | .ok (bs, poisoned) =>
    if poisoned then s.failLoad n l 0x1C 2 0
    else ((s.keepWay (s.loadAgent l) {} l.ptr.toNat 3088).updCore n fun c => { c with
      loads := c.loads.map fun x => if x = l then { x with begun := true, bank := !((s.core n).tables.get {} m).active, image := putBytes [] 0 bs } else x }).later
      (.lutldLoadComplete n m)

theorem lutldLoadBegin_none (h : (s.core n).loads.find? (fun l => l.t == m) = none) : exec (.lutldLoadBegin n m) s = .next s := by
  rw [exec_lutldLoadBegin, execLutldLoadBegin, firstThat_eq, h]

theorem lutldLoadBegin_some {l : TableLoad} (h : (s.core n).loads.find? (fun l => l.t == m) = some l) : exec (.lutldLoadBegin n m) s =
    let latched := s.groups.any fun e => e.2.live && !isCmd e.1 && coreOfThread e.1 == n
      && (let x := e.2.latch.get {} m; x.latched && x.bank == !((s.core n).tables.get {} m).active)
    if l.begun || latched || (s.core n).saving then .next s
    else if s.loadWaits n m l then .next (s.poll (s.clk + 1) (.lutldLoadBegin n m))
    else .next (s.loadRead n m l (s.engineRead (s.loadAgent l) l.ptr.toNat 3088)) := by
  rw [exec_lutldLoadBegin, execLutldLoadBegin, firstThat_eq, h]
  cases hread : s.engineRead (s.loadAgent l) l.ptr.toNat 3088 with
  | error f => simp only [hread, State.loadRead]; rfl
  | ok r =>
    obtain ⟨bs, poisoned⟩ := r
    cases poisoned with
    | false => simp only [hread, State.loadRead]; rfl
    | true => simp only [hread, State.loadRead]; rfl

theorem lutldLoadBegin_busy {l : TableLoad} (h : (s.core n).loads.find? (fun l => l.t == m) = some l)
    (hb : l.begun = true ∨ (s.core n).saving = true ∨ s.LatchesBank n m (!((s.core n).tables.get {} m).active)) :
    exec (.lutldLoadBegin n m) s = .next s := by
  rw [latchesBank_iff] at hb
  refine (lutldLoadBegin_some h).trans (if_pos ?_)
  rw [Bool.or_eq_true, Bool.or_eq_true]
  tauto

/-- A load that its bank lets begin waits, or reads its image. -/
theorem lutldLoadBegin_free {l : TableLoad} (h : (s.core n).loads.find? (fun l => l.t == m) = some l) (hbegun : l.begun = false)
    (hsaving : (s.core n).saving = false) (hlatch : ¬ s.LatchesBank n m (!((s.core n).tables.get {} m).active)) :
    exec (.lutldLoadBegin n m) s = if s.loadWaits n m l then .next (s.poll (s.clk + 1) (.lutldLoadBegin n m))
      else .next (s.loadRead n m l (s.engineRead (s.loadAgent l) l.ptr.toNat 3088)) := by
  rw [latchesBank_iff, Bool.not_eq_true] at hlatch
  refine (lutldLoadBegin_some h).trans (if_neg ?_)
  rw [hbegun, hsaving, hlatch]
  decide

theorem foldl_scheduleAt_spec (l : List Nat) (t : State → Nat) (e : Nat → Instr) (s : State) : ∃ agenda,
    l.foldl (fun s x => s.scheduleAt (t s) (e x)) s = { s with agenda := agenda } :=
  foldl_rel (R := fun s t => ∃ agenda, t = { s with agenda := agenda }) (fun s => ⟨s.agenda, rfl⟩)
    (by rintro a _ _ ⟨x, rfl⟩ ⟨y, rfl⟩; exact ⟨y, rfl⟩) (fun _ _ => ⟨_, rfl⟩) l s

/-- A table as a load of it completes. -/
def TableLoad.fill (l : TableLoad) (clk : Nat) (x : Table) : Table :=
  { x with version := x.version + 1, active := l.bank, at_ := some clk, bank0 := if l.bank then x.bank0 else l.image, bank1 := if l.bank then l.image else x.bank1 }

/-- A core as a load of a table completes. -/
def Core.endLoad (c : Core) (clk m : Nat) (l : TableLoad) : Core :=
  { c with loads := c.loads.filter (· != l), tables := c.tables.upd {} m (l.fill clk) }

/-- R172: a completed load fills its bank, steps the version and makes the bank active. -/
theorem lutldLoadComplete_spec {l : TableLoad} (h : (s.core n).loads.find? (fun l => l.t == m && l.begun) = some l) (hs : s.tidy = true) :
    ∃ t, exec (.lutldLoadComplete n m) s = .next t ∧ t.mem = s.mem
      ∧ (t.core n).tables.get {} m = l.fill s.clk ((s.core n).tables.get {} m) := by
  obtain ⟨agenda, hfold⟩ := foldl_scheduleAt_spec l.pend State.clk Instr.resultLands (s.updCore n fun c => c.endLoad s.clk m l)
  obtain ⟨agenda', hpoll⟩ := poll_spec { s.updCore n fun c => c.endLoad s.clk m l with agenda := agenda } (s.clk + 1) (.lutldLoadBegin n m)
  have hexec : exec (.lutldLoadComplete n m) s = .next { s.updCore n fun c => c.endLoad s.clk m l with agenda := agenda' } := by
    rw [exec_lutldLoadComplete, execLutldLoadComplete, firstThat_eq, h]
    show (let t := l.pend.foldl (fun t x => t.scheduleAt t.clk (.resultLands x)) (s.updCore n fun c => c.endLoad s.clk m l)
      Host.Outcome.next (t.poll (t.clk + 1) (.lutldLoadBegin n m))) = _
    rw [hfold]
    exact congrArg Host.Outcome.next hpoll
  have hcore := tidy_core hs n
  rw [Core.tidy, Bool.and_eq_true, Bool.and_eq_true] at hcore
  obtain ⟨⟨-, htables⟩, -⟩ := hcore
  refine ⟨_, hexec, rfl, ?_⟩
  show (State.core (s.setCore n ((s.core n).endLoad s.clk m l)) n).tables.get {} m = _
  rw [core_setCore (tidy_cores hs), if_pos rfl]
  exact Tab.get_upd {} htables m _

theorem lutldLoadComplete_none (h : (s.core n).loads.find? (fun l => l.t == m && l.begun) = none) : exec (.lutldLoadComplete n m) s = .next s := by
  rw [exec_lutldLoadComplete, execLutldLoadComplete, firstThat_eq, h]

-- Copy rings (R193 to R197) and CCOPY (R294).

theorem ringOf_key {r : CopyRing} (h : s.ringOf n m = some r) : r.key = m := by
  rw [State.ringOf, firstThat_eq] at h
  have hkey := List.find?_some (p := fun r : CopyRing => r.key == m) h
  exact beq_iff_eq.1 hkey

theorem copyCmdIssue_of {r : CopyRing} (h : s.ringOf n m = some r) : exec (.copyCmdIssue n m) s = .next (s.copyStep n r) := by
  rw [exec_copyCmdIssue, execCopyCmdIssue, h]

theorem copyCmdComplete_issued {r : CopyRing} (h : s.ringOf n m = some r) {c : CopyCmd} {cs : List CopyCmd} (hc : r.cmds = c :: cs)
    (hi : c.issued = true) : exec (.copyCmdComplete n m) s = .next (s.copyFinish n r c) := by
  rw [exec_copyCmdComplete, execCopyCmdComplete, h]
  simp only [hc, hi, if_true]

theorem copyCmdComplete_other {r : CopyRing} (h : s.ringOf n m = some r) (hc : ∀ c, r.cmds.head? = some c → c.issued = false) :
    exec (.copyCmdComplete n m) s = .next s := by
  rw [exec_copyCmdComplete, execCopyCmdComplete, h]
  cases hr : r.cmds with
  | nil => simp only [hr]
  | cons c cs => simp only [hr, hc c (by rw [hr]; rfl), Bool.false_eq_true, if_false]

theorem copyStep_away {r : CopyRing} (h : n ∈ (s.team r.team).away) : s.copyStep n r = s := by
  rw [State.copyStep]
  exact if_pos (List.contains_iff_mem.2 h)

theorem copyStep_here {r : CopyRing} (h : n ∉ (s.team r.team).away) : s.copyStep n r =
    if (s.team r.team).phase ≠ .resident then s.updRing n r.key fun x => { x with cmds := x.cmds.filter (·.issued) }
    else match r.cmds.find? (fun c => !c.issued) with
      | some c => (s.copyTry n r c).acceptAll n r.key 256
      | none => s.acceptAll n r.key 256 := by
  have hc : (s.team r.team).away.contains n = false := by
    rw [Bool.eq_false_iff, ne_eq, List.contains_iff_mem]; exact h
  rw [State.copyStep, hc, firstThat_eq]
  simp only [Bool.false_eq_true, if_false, bne_iff_ne]
  cases r.cmds.find? (fun c => !c.issued) <;> rfl

theorem copyCmd_none (h : s.ringOf n m = none) : exec (.copyCmdIssue n m) s = .next s ∧ exec (.copyCmdComplete n m) s = .next s := by
  rw [exec_copyCmdIssue, exec_copyCmdComplete, execCopyCmdIssue, execCopyCmdComplete, h]
  exact ⟨rfl, rfl⟩

theorem ccopyComplete_some {x : CCopy} {xs : List CCopy} (h : (s.cmd n).copies = x :: xs) : exec (.ccopyComplete n) s = .next (s.finishCopy n x) := by
  rw [exec_ccopyComplete, execCcopyComplete, h]

theorem ccopyComplete_none (h : (s.cmd n).copies = []) : exec (.ccopyComplete n) s = .next s := by
  rw [exec_ccopyComplete, execCcopyComplete, h]

theorem finishCopy_whole {x : CCopy} (hf : x.fail = none) (hb : x.bad = []) : s.finishCopy n x =
    (((s.writeOwned x.dests).updCmd n fun c => { c with copies := c.copies.drop 1 }).cmdDone (some n)).signal x.signal := by
  simp only [State.finishCopy, hf, hb, List.isEmpty_nil, if_true]

end

/-- Settles O53, event by event. -/
theorem ownEventsComplete : Obligations.OwnEventsComplete := by
  unfold Obligations.OwnEventsComplete
  refine ⟨fun s n m => ⟨fun t h => ?_, fun h => ?_, fun g rest a block ps hg hdet hstage hnext hctx htag hblock =>
      teamPlace_first hg hdet hstage hnext hctx htag hblock, teamFinishComplete_due, teamFinishComplete_other, heartbeat_spec s,
      sleepWake_due, sleepWake_other, fun g h => ?_, handoverComplete_other, fun p h => ⟨fun hr hc hl => ?_, fun hno => ?_⟩,
      pipelineResident_none, rfl, fun p q hp hr hrun t htest hq => interval_balances hp hr hrun htest hq, fun d hl hd => ⟨fun hf => ?_,
        fun hf hno => ?_, fun x hf hx hfin => ⟨fun hrep => ?_, fun hrep => ⟨fun hsame => ?_, fun hdiff => ?_⟩⟩⟩, detCommit_other,
      ⟨coreSave_notSaving, coreSave_notDie, fun hsav hd _ hr hfit => ⟨fun hrest => ?_, fun hrest => ?_⟩⟩,
      fun x hres hctx hsav hrest hrun hroom => ?_, fun x hres h => coreRestore_notRunning hres h, coreRestore_none⟩,
    fun s n m => ⟨⟨lutldLoadBegin_none, fun l h hb => lutldLoadBegin_busy h hb, fun l h hbegun hsav hlatch hlater => ?_,
        fun l h hbegun hsav hlatch hlater => ?_⟩, fun l h hs => ?_, lutldLoadComplete_none, fun r h => ⟨fun haway => ?_, fun hhere => ⟨fun hres => ?_, fun hres =>
          ⟨fun c hc => ?_, fun hall => ?_⟩⟩, fun c cs hc hi => copyCmdComplete_issued h hc hi, copyCmdComplete_other h⟩, copyCmd_none,
      fun x xs h => ⟨ccopyComplete_some h, finishCopy_whole⟩, ccopyComplete_none⟩⟩
  · rw [exec_teamPlace, execTeamPlace, h]
  · rw [exec_teamPlace, execTeamPlace, h]
  · intro u
    refine ⟨fun hr => ?_, fun hr hb => ?_, fun hr hh hs => ?_⟩
    · rw [handoverComplete_due h, if_neg (by rw [hr]; decide)]
    · rw [handoverComplete_due h, if_pos hr, if_pos (by rw [Bool.or_eq_true]; exact hb)]
    · rw [handoverComplete_due h, if_pos hr, if_neg (by rw [hh, hs]; decide)]
  · rw [pipelineResident_of h, if_pos ⟨hr, hc, hl⟩]
  · rw [pipelineResident_of h, if_neg ?_]
    rintro ⟨hr, hc, hl⟩
    rcases hno with hno | hno | hno
    · rw [hr] at hno; cases hno
    · rw [hc] at hno; cases hno
    · omega
  · rw [detCommit_of hl hd, if_pos hf]
  · rw [detCommit_of hl hd, if_neg (by rw [hf]; decide), tryCommit_unfinished hno]
  · rw [detCommit_of hl hd, if_neg (by rw [hf]; decide), tryCommit_finished hx hfin, if_pos hrep]
  · rw [detCommit_of hl hd, if_neg (by rw [hf]; decide), tryCommit_finished hx hfin, if_neg (by rw [hrep]; decide)]
    exact congrArg Host.Outcome.next (if_pos hsame)
  · rw [detCommit_of hl hd, if_neg (by rw [hf]; decide), tryCommit_finished hx hfin, if_neg (by rw [hrep]; decide)]
    exact congrArg Host.Outcome.next (if_neg hdiff)
  · rw [coreSave_tries hsav hd hr hfit, if_pos hrest]
  · rw [coreSave_tries hsav hd hr hfit, if_neg (by rw [hrest]; decide)]
  · have hopen : s.RestoreOpen n x := ⟨hres, hctx, hsav, hrest, hrun, hroom⟩
    refine ⟨coreRestore_fresh hopen, fun v hv => ⟨fun hn => ?_, fun hn => ?_⟩⟩
    · rw [coreRestore_saved hopen hv, if_neg (Nat.not_lt.2 hn)]
    · rw [coreRestore_saved hopen hv, if_pos hn]
  · rw [lutldLoadBegin_free h hbegun hsav hlatch, if_pos (loadWaits_iff.1 hlater)]
  · have hread := lutldLoadBegin_free h hbegun hsav hlatch
    rw [if_neg fun hw => hlater (loadWaits_iff.2 hw)] at hread
    refine ⟨fun f hf => ?_, fun bs hf => ?_, fun bs hf => ?_⟩
    · rw [hread, show s.engineRead (s.loadAgent l) l.ptr.toNat 3088 = _ from hf]; rfl
    · rw [hread, show s.engineRead (s.loadAgent l) l.ptr.toNat 3088 = _ from hf]; rfl
    · rw [hread, show s.engineRead (s.loadAgent l) l.ptr.toNat 3088 = _ from hf]; rfl
  · obtain ⟨t, hexec, hmem, htab⟩ := lutldLoadComplete_spec h hs
    refine ⟨t, hexec, hmem, ?_⟩
    intro old new
    rw [show new = l.fill s.clk old from htab]
    refine ⟨rfl, rfl, rfl, ?_⟩
    cases hb : l.bank with
    | true => exact ⟨if_pos hb, if_pos hb⟩
    | false => exact ⟨if_neg (by rw [hb]; decide), if_neg (by rw [hb]; decide)⟩
  · rw [copyCmdIssue_of h, copyStep_away haway]
  · rw [copyCmdIssue_of h, copyStep_here hhere, if_pos hres, ringOf_key h]
  · rw [copyCmdIssue_of h, copyStep_here hhere, if_neg (not_not.2 hres), hc, ringOf_key h]
  · have hnone : r.cmds.find? (fun c => !c.issued) = none := List.find?_eq_none.2 fun c hc => by rw [hall c hc]; decide
    rw [copyCmdIssue_of h, copyStep_here hhere, if_neg (not_not.2 hres), hnone, ringOf_key h]

end Sys2Proof.Machine
end

section
/-! PROOFS. The collective engine's events: its steps, chunks that arrive, ABORT and the timeouts (R299 to R302, R415 to R419). -/

namespace Sys2Proof.Machine

theorem bit_eq_testBit (w n : Nat) : bit w n = w.testBit n := by
  rw [bit, Nat.testBit_eq_decide_div_mod_eq]; rfl

theorem le_beats_iff {s : State} {n : Nat} : n ≤ s.beats ↔ 64 * n ≤ s.clk := by
  rw [State.beats, Nat.le_div_iff_mul_le (by decide), Nat.mul_comm]

-- What one step of a running block is (R299 to R301, R416).

/-- A step that breaks no rule of R416. -/
structure TStep.Fine (t : TStep) (b : TorcBlock) : Prop where
  reserved : t.reservedBad = false
  shape : t.shapeBad b = false

/-- A step's count of a LOOP. -/
def TStep.count (t : TStep) (n : Nat) : Int :=
  if t.w1.testBit 31 = true then (n : Int) + sgn 24 (t.w1 % 2 ^ 24) else (t.w1 % 2 ^ 24 : Nat)

section
variable {s : State} {i : CollRun} {t : TStep}

theorem oneStep_reserved (h : t.reservedBad = true) : s.oneStep i t = .error (tReserved 0xA0) := by
  rw [State.oneStep, if_pos h]

theorem oneStep_shape (h : t.reservedBad = false) (h' : t.shapeBad i.b = true) : s.oneStep i t = .error (tReserved 0xA1) := by
  rw [State.oneStep, if_neg (by rw [h]; decide), if_pos h']

theorem oneStep_fine (h : t.Fine i.b) : s.oneStep i t =
    if t.isData then s.runData i t
    else if t.code = 6 then .ok (if s.ctrValue i.d (t.w1 % 2 ^ 12) = 0 then s.stepped i (i.b.step + 1) id else s.stepWaits i)
    else if t.code = 7 then s.loopStep i t
    else if t.code = 8 then .ok (s.endlStep i t)
    else if t.code = 9 then
      .ok ((if bit t.w1 12 then s.semWrite (t.w1 % 2 ^ 12) (s.semValue (t.w1 % 2 ^ 12) + 1)
        else (s.ctrDec i.d (t.w1 % 2 ^ 12)).serveLater i.d).stepped i (i.b.step + 1) id)
    else .ok (s.endStep i) := by
  rw [State.oneStep, if_neg (by rw [h.reserved]; decide), if_neg (by rw [h.shape]; decide)]

theorem isData_of_code {c : Nat} (h : t.code = c) (hc : 5 < c) : t.isData = false := by
  rw [TStep.isData, Bool.and_eq_false_iff, decide_eq_false_iff_not, decide_eq_false_iff_not]
  omega

theorem oneStep_data (h : t.Fine i.b) (hd : t.isData = true) : s.oneStep i t = s.runData i t := by
  rw [oneStep_fine h, if_pos hd]

theorem oneStep_wait (h : t.Fine i.b) (hc : t.code = 6) :
    s.oneStep i t = .ok (if s.ctrValue i.d (t.w1 % 2 ^ 12) = 0 then s.stepped i (i.b.step + 1) id else s.stepWaits i) := by
  rw [oneStep_fine h, isData_of_code hc (by decide), if_neg Bool.false_ne_true, if_pos hc]

theorem oneStep_loop (h : t.Fine i.b) (hc : t.code = 7) : s.oneStep i t = s.loopStep i t := by
  rw [oneStep_fine h, isData_of_code hc (by decide), if_neg Bool.false_ne_true, if_neg (by omega), if_pos hc]

theorem oneStep_endl (h : t.Fine i.b) (hc : t.code = 8) : s.oneStep i t = .ok (s.endlStep i t) := by
  rw [oneStep_fine h, isData_of_code hc (by decide), if_neg Bool.false_ne_true, if_neg (by omega), if_neg (by omega), if_pos hc]

theorem oneStep_signal (h : t.Fine i.b) (hc : t.code = 9) : s.oneStep i t =
    .ok ((if t.w1.testBit 12 then s.semWrite (t.w1 % 2 ^ 12) (s.semValue (t.w1 % 2 ^ 12) + 1)
      else (s.ctrDec i.d (t.w1 % 2 ^ 12)).serveLater i.d).stepped i (i.b.step + 1) id) := by
  rw [oneStep_fine h, isData_of_code hc (by decide), if_neg Bool.false_ne_true, if_neg (by omega), if_neg (by omega), if_neg (by omega),
    if_pos hc, bit_eq_testBit]

theorem oneStep_end (h : t.Fine i.b) (hc : t.code = 15) : s.oneStep i t = .ok (s.endStep i) := by
  rw [oneStep_fine h, isData_of_code hc (by decide), if_neg Bool.false_ne_true, if_neg (by omega), if_neg (by omega), if_neg (by omega),
    if_neg (by omega)]

theorem loopStep_eq : s.loopStep i t = (if t.count i.n ≤ 0 then
      (s.matchEndl i t.pl (65536 - i.b.step) (i.b.step + 1) []).map fun k => (k, fun b : TorcBlock => { b with loops := b.loops.put 0 t.pl 0 })
    else .ok (i.b.step + 1, fun b : TorcBlock => { b with
      loops := b.loops.put 0 t.pl 0, opens := (t.pl, (t.count i.n).toNat, i.b.step + 1) :: b.opens })).map fun x => s.stepped i x.1 x.2 := by
  have hf : field t.w1 0 24 = t.w1 % 2 ^ 24 := by rw [field, Nat.pow_zero, Nat.div_one]
  rw [State.loopStep, State.loopNext, hf, bit_eq_testBit]
  rfl

/-- LOOP with iterations to run opens its loop. -/
theorem loopStep_opens (hc : 0 < t.count i.n) : s.loopStep i t = .ok (s.stepped i (i.b.step + 1) fun b => { b with
    loops := b.loops.put 0 t.pl 0, opens := (t.pl, (t.count i.n).toNat, i.b.step + 1) :: b.opens }) := by
  rw [loopStep_eq, if_neg (by omega)]; rfl

/-- LOOP without an iteration goes on behind its ENDL. -/
theorem loopStep_skips (hc : t.count i.n ≤ 0) {k : Nat} (hk : s.matchEndl i t.pl (65536 - i.b.step) (i.b.step + 1) [] = .ok k) :
    s.loopStep i t = .ok (s.stepped i k fun b => { b with loops := b.loops.put 0 t.pl 0 }) := by
  rw [loopStep_eq, if_pos hc, hk]; rfl

end

-- TORC_STEP.

section
variable {s : State} {die off : Nat} {b : TorcBlock}

theorem torcStep_none (h : ∀ b ∈ (s.die die).torc.blocks, b.off ≠ off) : exec (.torcStep die off) s = .next s := by
  have hnone : (s.die die).torc.blocks.find? (fun b => b.off == off) = none :=
    List.find?_eq_none.2 fun b hb => by rw [beq_iff_eq]; exact h b hb
  rw [exec_torcStep, execTorcStep, firstThat_eq, hnone]

theorem torcStep_idle (hb : (s.die die).torc.blocks.find? (fun b => b.off == off) = some b) (h : b.active = false) :
    exec (.torcStep die off) s = .next (s.slotsFreed die) := by
  rw [exec_torcStep, execTorcStep, firstThat_eq, hb]
  exact if_pos (by rw [h]; rfl)

/-- What an active block's step reads of it. -/
structure State.StepsOn (s : State) (die off : Nat) (b : TorcBlock) : Prop where
  block : (s.die die).torc.blocks.find? (fun b => b.off == off) = some b
  active : b.active = true

theorem torcStep_doomed (h : s.StepsOn die off b) {e : TEnd} (he : (s.slotsFreed die).doomOf ((s.slotsFreed die).inst die b) = some e) :
    exec (.torcStep die off) s = .next ((s.slotsFreed die).torcFault ((s.slotsFreed die).inst die b) e) := by
  rw [exec_torcStep, execTorcStep, firstThat_eq, h.block]
  simp only [h.active, Bool.not_true, Bool.false_eq_true, if_false, he]

theorem torcStep_unread (h : s.StepsOn die off b) (hd : (s.slotsFreed die).doomOf ((s.slotsFreed die).inst die b) = none) {e : TEnd}
    (he : (s.slotsFreed die).torcProg ((s.slotsFreed die).inst die b) b.step = .error e) :
    exec (.torcStep die off) s = .next ((s.slotsFreed die).torcFault ((s.slotsFreed die).inst die b) e) := by
  rw [exec_torcStep, execTorcStep, firstThat_eq, h.block]
  simp only [h.active, Bool.not_true, Bool.false_eq_true, if_false, hd, he]

/-- The state in which a step that was read is performed. -/
def State.atStep (v : State) (die : Nat) (b : TorcBlock) (i : CollRun) (bad : Bool) : State :=
  let kept := v.keepWay (torcAgent die i.b.ctx) {} (i.prog + 16 * b.step) 16
  if bad = true ∧ b.begun = false then kept.torcPoison i [0] else kept

theorem torcStep_reads (h : s.StepsOn die off b) (hd : (s.slotsFreed die).doomOf ((s.slotsFreed die).inst die b) = none) {t : TStep} {bad : Bool}
    (ht : (s.slotsFreed die).torcProg ((s.slotsFreed die).inst die b) b.step = .ok (t, bad)) :
    let i := (s.slotsFreed die).inst die b
    let u := (s.slotsFreed die).atStep die b i bad
    (∀ e, u.oneStep i t = .error e → exec (.torcStep die off) s = .next (u.torcFault i e))
      ∧ ∀ w, u.oneStep i t = .ok w → exec (.torcStep die off) s = .next w := by
  intro i u
  have hu : (if (bad && !b.begun) = true then ((s.slotsFreed die).keepWay (torcAgent die i.b.ctx) {} (i.prog + 16 * b.step) 16).torcPoison i [0]
      else (s.slotsFreed die).keepWay (torcAgent die i.b.ctx) {} (i.prog + 16 * b.step) 16) = u :=
    if_congr (by rw [Bool.and_eq_true, Bool.not_eq_true']) rfl rfl
  refine ⟨fun e he => ?_, fun w hw => ?_⟩
  · rw [← hu] at he ⊢
    rw [exec_torcStep, execTorcStep, firstThat_eq, h.block]
    simp only [h.active, Bool.not_true, Bool.false_eq_true, if_false, hd, ht]
    rw [he]
  · rw [← hu] at hw
    rw [exec_torcStep, execTorcStep, firstThat_eq, h.block]
    simp only [h.active, Bool.not_true, Bool.false_eq_true, if_false, hd, ht]
    rw [hw]

-- COLL_TIMEOUT and POOL_TIMEOUT (R417, R419).

theorem collTimeout_begun (h : s.StepsOn die off b) (hb : b.begun = true) : exec (.collTimeout die off) s =
    if b.since + 2 ^ 24 ≤ s.beats then .next (s.memberLost (s.inst die b) 0x7FF)
    else .next (s.poll (64 * (b.since + 2 ^ 24)) (.collTimeout die off)) := by
  have hfind : (s.die die).torc.blocks.find? (fun b => b.off == off && b.active && b.begun) = some b := by
    obtain ⟨hp, as, bs, hl, has⟩ := List.find?_eq_some_iff_append.1 h.block
    refine List.find?_eq_some_iff_append.2 ⟨by rw [hp, h.active, hb]; rfl, as, bs, hl, fun a ha => ?_⟩
    have := has a ha
    rw [Bool.not_eq_true'] at this
    rw [this]; rfl
  rw [exec_collTimeout, execCollTimeout, firstThat_eq, hfind]
  rfl

theorem collTimeout_none (h : ∀ b ∈ (s.die die).torc.blocks, b.off = off → b.active = false ∨ b.begun = false) :
    exec (.collTimeout die off) s = .next s := by
  have hnone : (s.die die).torc.blocks.find? (fun b => b.off == off && b.active && b.begun) = none :=
    List.find?_eq_none.2 fun b hb hc => by
      rw [Bool.and_eq_true, Bool.and_eq_true, beq_iff_eq] at hc
      obtain ⟨⟨ho, ha⟩, hg⟩ := hc
      rcases h b hb ho with h | h
      · rw [h] at ha; cases ha
      · rw [h] at hg; cases hg
  rw [exec_collTimeout, execCollTimeout, firstThat_eq, hnone]

theorem poolTest_eq : (fun o : PoolOp => o.off == off && decide (o.since + poolTicks ≤ s.beats))
    = fun o => o.off == off && decide (64 * (o.since + 2 ^ 20) ≤ s.clk) := by
  funext o
  rw [decide_eq_decide.2 le_beats_iff]; rfl

/-- A pool access that has not completed in time ends its block, now or when it begins. -/
theorem poolTimeout_due {o : PoolOp}
    (h : (s.die die).torc.poolOps.find? (fun o => o.off == off && decide (64 * (o.since + 2 ^ 20) ≤ s.clk)) = some o) :
    let v := s.updDie die fun x => { x with torc := { x.torc with poolOps := x.torc.poolOps.filter (· != o) } }
    (∀ r, v.running die o.tag = some r → r.seq = o.seq → exec (.poolTimeout die off) s = .next (v.torcFault r { code := 0x1D, cls := 2, info := 1 }))
    ∧ ((∀ r, v.running die o.tag = some r → r.seq ≠ o.seq) →
      exec (.poolTimeout die off) s = .next (v.doom die off { tag := o.tag, seq := o.seq, code := 0x1D, cls := 2, info := 1 })) := by
  intro v
  have hexec : exec (.poolTimeout die off) s = match v.running die o.tag with
      | some i => if i.seq = o.seq then .next (v.torcFault i { code := 0x1D, cls := 2, info := 1 })
        else .next (v.doom die off { tag := o.tag, seq := o.seq, code := 0x1D, cls := 2, info := 1 })
      | none => .next (v.doom die off { tag := o.tag, seq := o.seq, code := 0x1D, cls := 2, info := 1 }) := by
    rw [exec_poolTimeout, execPoolTimeout, firstThat_eq, poolTest_eq, h]
    rfl
  rw [hexec]
  refine ⟨fun r hr hseq => ?_, fun hno => ?_⟩
  · rw [hr]; exact if_pos hseq
  · cases hr : v.running die o.tag with
    | none => rfl
    | some r => exact if_neg (hno r hr)

theorem poolTimeout_none (h : ∀ o ∈ (s.die die).torc.poolOps, o.off = off → s.clk < 64 * (o.since + 2 ^ 20)) :
    exec (.poolTimeout die off) s = .next s := by
  have hnone : (s.die die).torc.poolOps.find? (fun o => o.off == off && decide (64 * (o.since + 2 ^ 20) ≤ s.clk)) = none :=
    List.find?_eq_none.2 fun o ho hc => by
      rw [Bool.and_eq_true, beq_iff_eq, decide_eq_true_eq] at hc
      have := h o ho hc.1
      omega
  rw [exec_poolTimeout, execPoolTimeout, firstThat_eq, poolTest_eq, hnone]

-- Chunks and ABORT (R302, R417, R418).

/-- R302, R418, R419: what becomes of a chunk that arrives. -/
theorem takeChunk_spec (s : State) (die : Nat) (c : Chunk) :
    (s.blockOfTag die c.tag = none → s.takeChunk die c = s.logEvent 0x1B 1 0 (torcStop die) 6 2 0)
    ∧ ∀ o, s.blockOfTag die c.tag = some o →
      (atOrBelow c.seq.toNat (s.torcNat die o 4 4) = true → s.takeChunk die c = s.logEvent 0x1B 1 (s.blockCtx die o) (torcStop die) 6 3 0)
      ∧ (atOrBelow c.seq.toNat (s.torcNat die o 4 4) = false →
        (s.roomFor die o (s.die die).torc.chunks c = none → s.takeChunk die c = s.addChunk die { c with place := .waiting })
        ∧ ∀ p, s.roomFor die o (s.die die).torc.chunks c = some p →
          (s.spillData die o c p = none → s.takeChunk die c = s.doom die o { tag := c.tag, seq := c.seq, code := 0x1D, cls := 2, info := 1 })
          ∧ ∀ t, s.spillData die o c p = some t → s.takeChunk die c = (t.acceptedAt die o c).addChunk die { c with place := p }) := by
  refine ⟨fun ho => ?_, fun o ho => ⟨fun hd => ?_, fun hd => ?_⟩⟩
  · have hstray : s.strayChunk die c = .error (0, 2) := by rw [State.strayChunk, ho]
    rw [State.takeChunk, hstray]
  · have hstray : s.strayChunk die c = .error (s.blockCtx die o, 3) := by rw [State.strayChunk, ho]; exact if_pos hd
    rw [State.takeChunk, hstray]
  · have hstray : s.strayChunk die c = .ok o := by rw [State.strayChunk, ho]; exact if_neg (by rw [hd]; decide)
    refine ⟨fun hroom => ?_, fun p hroom => ⟨fun hspill => ?_, fun t hspill => ?_⟩⟩
    · rw [State.takeChunk, hstray]
      simp only [hroom]
    · rw [State.takeChunk, hstray]
      simp only [hroom, hspill]
    · rw [State.takeChunk, hstray]
      simp only [hroom, hspill]

theorem abort_of {tag seq : BitVec 32} {rank o : Nat} (ho : s.blockOfTag die tag = some o)
    (hd : atOrBelow seq.toNat (s.torcNat die o 4 4) = false) :
    (∀ r, s.running die tag = some r → r.seq = seq →
      exec (.torcAbortReceive die tag seq rank) s = .next (s.torcFault r { code := 0x1A, info := rank }))
    ∧ ((∀ r, s.running die tag = some r → r.seq ≠ seq) →
      exec (.torcAbortReceive die tag seq rank) s = .next (s.doom die o { tag := tag, seq := seq, code := 0x1A, cls := 1, info := rank })) := by
  have hneg : ¬ atOrBelow seq.toNat (s.torcNat die o 4 4) = true := by rw [hd]; decide
  refine ⟨fun r hr hseq => ?_, fun hno => ?_⟩
  · rw [exec_torcAbortReceive, execTorcAbortReceive, ho]
    simp only [if_neg hneg, hr, if_pos hseq]
  · rw [exec_torcAbortReceive, execTorcAbortReceive, ho]
    cases hr : s.running die tag with
    | none => simp only [if_neg hneg]
    | some r => simp only [if_neg hneg, if_neg (hno r hr)]

theorem abort_none {tag seq : BitVec 32} {rank : Nat} (h : s.blockOfTag die tag = none) :
    exec (.torcAbortReceive die tag seq rank) s = .next s := by
  rw [exec_torcAbortReceive, execTorcAbortReceive, h]

theorem abort_done {tag seq : BitVec 32} {rank o : Nat} (ho : s.blockOfTag die tag = some o)
    (hd : atOrBelow seq.toNat (s.torcNat die o 4 4) = true) : exec (.torcAbortReceive die tag seq rank) s = .next s := by
  rw [exec_torcAbortReceive, execTorcAbortReceive, ho]
  exact if_pos hd

end

/-- Settles O54: a step by the kinds of `oneStep`, the other events by their cases. -/
theorem collectiveEventsComplete : Obligations.CollectiveEventsComplete := by
  unfold Obligations.CollectiveEventsComplete
  intro s die off
  refine ⟨fun b hb ha => ⟨fun e he => torcStep_doomed ⟨hb, ha⟩ he, fun hd => ⟨fun e he => torcStep_unread ⟨hb, ha⟩ hd he, fun t bad ht => ?_⟩,
      fun hbegun => ⟨fun hle => ?_, fun hlt => ?_⟩⟩,
    fun o ho => poolTimeout_due ho, poolTimeout_none, torcStep_none, fun b hb ha => torcStep_idle hb ha, collTimeout_none,
    fun tag seq src ch data => ?_, fun tag seq rank => ⟨abort_none, fun o ho => ⟨abort_done ho, fun hd => abort_of ho hd⟩⟩⟩
  · obtain ⟨herr, hok⟩ := torcStep_reads ⟨hb, ha⟩ hd ht
    intro kept u
    refine ⟨fun hr => herr _ (oneStep_reserved hr), fun hr hsh => herr _ (oneStep_shape hr hsh), fun hr hsh => ?_⟩
    have hfine : t.Fine b := ⟨hr, hsh⟩
    refine ⟨fun hdata => ⟨fun w hw => hok w ((oneStep_data hfine hdata).trans hw), fun e he => herr e ((oneStep_data hfine hdata).trans he)⟩,
      fun hc => hok _ (oneStep_wait hfine hc), fun hc hcount => hok _ ((oneStep_loop hfine hc).trans (loopStep_opens hcount)),
      fun hc hcount k hk => hok _ ((oneStep_loop hfine hc).trans (loopStep_skips hcount hk)), fun hc => hok _ (oneStep_endl hfine hc),
      fun hc hbit => hok _ ?_, fun hc hbit => hok _ ?_, fun hc => hok _ (oneStep_end hfine hc)⟩
    · refine (oneStep_signal hfine hc).trans ?_
      rw [if_pos hbit]; rfl
    · refine (oneStep_signal hfine hc).trans ?_
      rw [if_neg (by rw [hbit]; decide)]; rfl
  · rw [collTimeout_begun ⟨hb, ha⟩ hbegun, if_pos (le_beats_iff.2 hle)]
  · rw [collTimeout_begun ⟨hb, ha⟩ hbegun, if_neg fun hle => Nat.not_lt.2 (le_beats_iff.1 hle) hlt]
  · intro v c goes
    have hgoes : ∀ {t}, v.takeChunk die c = t → goes t := fun h => by
      show exec (.torcChunkArrival die tag seq src ch data) s = _
      rw [exec_torcChunkArrival, execTorcChunkArrival, ← h]; rfl
    obtain ⟨hnone, hsome⟩ := takeChunk_spec v die c
    refine ⟨fun h => hgoes (hnone h), fun o ho => ?_⟩
    obtain ⟨hdone, hopen⟩ := hsome o ho
    refine ⟨fun h => hgoes (hdone h), fun h => ?_⟩
    obtain ⟨hwaits, hroom⟩ := hopen h
    refine ⟨fun h => hgoes (hwaits h), fun p hp => ?_⟩
    obtain ⟨hrefused, hspilled⟩ := hroom p hp
    exact ⟨fun h => hgoes (hrefused h), fun t h => hgoes (hspilled t h)⟩

end Sys2Proof.Machine
end

section
/-! PROOFS. Events from outside and of the always-on logic: the host's accesses and snoops, storage errors, links, starts, the watchdog
and telemetry (R332 to R334, R342, R386, R387, R417, R423, R424, R426, R427). -/

namespace Sys2Proof.Machine

-- The host's accesses (R333).

/-- With the host port up a write at real homes leaves the host interface as it is. -/
theorem writeHome_host {s : State} (hp : s.host.port = .up) {h : Nat} (hh : h < 2 ^ 110) (b : Byte) : (s.writeHome h b).host = s.host := by
  obtain ⟨poison, owned, ownedBad, he, -⟩ := recall_spec s h
  have hhold : s.holdHostLine h = s := by rw [State.holdHostLine]; exact if_pos (.inl hp)
  rw [State.writeHome, if_pos hh, hhold, he]

theorem writeHomes_host : ∀ (bs : List Byte) {s : State} (h : Nat), s.host.port = .up → h + bs.length ≤ 2 ^ 110 → (s.writeHomes h bs).host = s.host
  | [], _, _, _, _ => rfl
  | b :: bs, s, h, hp, hl => by
    rw [List.length_cons] at hl
    have hb := writeHome_host hp (show h < 2 ^ 110 by omega) b
    rw [State.writeHomes, writeHomes_host bs (h + 1) (by rw [hb]; exact hp) (by omega), hb]

theorem storeHomes_host {s : State} (hp : s.host.port = .up) {h : Nat} {bs : List Byte} (hl : h + bs.length ≤ 2 ^ 110) :
    (s.storeHomes h bs).host = s.host := by
  have hclear : ∀ t : State, (t.clearPoison h bs.length).host = t.host := fun t => by rw [State.clearPoison]; split <;> rfl
  rw [State.storeHomes, hclear, writeHomes_host bs h hp hl]

section
variable {s : State} {pa : Nat} {data : List Byte}

/-- The conditions under which the device answers the host (R332). -/
abbrev State.Answers (s : State) (pa : Nat) (data : List Byte) : Prop :=
  s.host.port = .up ∧ data ≠ [] ∧ s.part.isHdm pa data.length = true

theorem answers_iff : (s.host.port == .up && !data.isEmpty && s.part.isHdm pa data.length) = true ↔ s.Answers pa data := by
  rw [Bool.and_eq_true, Bool.and_eq_true, beq_iff_eq, Bool.not_eq_true', List.isEmpty_eq_false_iff, and_assoc]

theorem hostAccess_off (h : ¬ s.Answers pa data) (wr : Bool) : exec (.hostCxlMemAccess pa wr data) s = .next s := by
  rw [exec_hostCxlMemAccess, execHostCxlMemAccess, if_neg (mt answers_iff.1 h)]

theorem hostAccess_on (h : s.Answers pa data) (wr : Bool) : exec (.hostCxlMemAccess pa wr data) s =
    if s.torcOwns (upto pa data.length) then .next (s.poll (s.clk + 1) (.hostCxlMemAccess pa wr data))
    else if wr then .next (s.storeHomes pa data)
    else .next { s with host := { s.host with answer := s.readHomes pa data.length, answerBad := s.isPoisoned pa data.length } } := by
  rw [exec_hostCxlMemAccess, execHostCxlMemAccess, if_pos (answers_iff.2 h)]

theorem snoop_iff : (s.host.port == .up && s.part.rangeOf pa == .host) = true ↔ s.host.port = .up ∧ s.part.rangeOf pa = .host := by
  rw [Bool.and_eq_true, beq_iff_eq, beq_iff_eq]

theorem lt_of_rangeOf_host (h : s.part.rangeOf pa = .host) : pa < 2 ^ 52 := by
  by_contra hge
  have hne : ∀ n, n ≤ 2 ^ 52 → ¬ pa < n := fun n hn hlt => hge (Nat.lt_of_lt_of_le hlt hn)
  rw [Part.rangeOf, if_neg (hne _ (by decide)), if_neg (hne _ (by decide)), if_neg (hne _ (by decide)), if_neg (hne _ (by decide)),
    if_neg (hne _ (by decide))] at h
  cases h

/-- What the host may store in a line is 128 bytes. -/
theorem hostStores_spec (v : State) (line : Nat) : ∃ bs : List Byte, bs.length = 128
    ∧ (v.hostStores line = State.storeHomes { v with free := v.free + 1 } (128 * line) bs ∨ v.hostStores line = { v with free := v.free + 1 }) := by
  refine ⟨(upto 0 128).map fun i => if v.coinFor (i + 1) then Config.freeByte (v.free * 2 ^ 40 + i) else v.readHome (128 * line + i), ?_, ?_⟩
  · rw [List.length_map, length_upto]
  · rw [State.hostStores]
    by_cases h : v.coinFor 0 = true
    · exact .inl (if_pos h)
    · exact .inr (if_neg h)

/-- What a line's store by the host leaves as it was. -/
theorem hostStores_keeps {v : State} (hp : v.host.port = .up) {line : Nat} (hl : line < 2 ^ 45) :
    (v.hostStores line).host = v.host ∧ (v.hostStores line).threads = v.threads ∧ (v.hostStores line).log = v.log
      ∧ (v.wf = true → ∀ h, h < 2 ^ 110 → h / 128 ≠ line → (v.hostStores line).readHome h = v.readHome h) := by
  obtain ⟨bs, hlen, hcases⟩ := hostStores_spec v line
  have hbound : 128 * line + bs.length ≤ 2 ^ 110 := by rw [hlen]; omega
  rcases hcases with he | he
  · obtain ⟨host, poison, mem, owned, ownedBad, hst⟩ := storeHomes_spec (s := { v with free := v.free + 1 }) hbound
    rw [he]
    refine ⟨storeHomes_host (s := { v with free := v.free + 1 }) hp hbound, by rw [hst], by rw [hst], fun hw h hh hne => ?_⟩
    obtain ⟨hmem, howned, -⟩ := wf_parts.1 hw
    rw [readHome_storeHomes (s := { v with free := v.free + 1 }) hmem (Tab.rising_of_wf howned) hbound hh, if_neg (by rw [hlen]; omega)]
    rfl
  · rw [he]
    exact ⟨rfl, rfl, rfl, fun _ _ _ _ => rfl⟩

/-- R333: a snoop takes the host's line, and what the host may have stored there comes with it. -/
theorem hostSnoop_takes (hp : s.host.port = .up) (hr : s.part.rangeOf pa = .host) (ho : s.torcOwns [pa] = false) :
    ∃ t, exec (.hostSnoop pa) s = .next t ∧ t.host.lines = s.host.lines.del (pa / 128) ∧ t.threads = s.threads
      ∧ t.log = s.log ∧ (s.wf = true → ∀ h, h < 2 ^ 110 → h / 128 ≠ pa / 128 → t.readHome h = s.readHome h) := by
  have hlt := lt_of_rangeOf_host hr
  obtain ⟨hhost, hthreads, hlog, hreads⟩ :=
    hostStores_keeps (v := { s with host := { s.host with lines := s.host.lines.del (pa / 128) } }) hp (show pa / 128 < 2 ^ 45 by omega)
  refine ⟨_, ?_, congrArg HostIf.lines hhost, hthreads, hlog, hreads⟩
  rw [exec_hostSnoop, execHostSnoop, if_pos (snoop_iff.2 ⟨hp, hr⟩), if_neg (by rw [ho]; decide)]

theorem hostSnoop_waits (hp : s.host.port = .up) (hr : s.part.rangeOf pa = .host) (ho : s.torcOwns [pa] = true) :
    exec (.hostSnoop pa) s = .next (s.poll (s.clk + 1) (.hostSnoop pa)) := by
  rw [exec_hostSnoop, execHostSnoop, if_pos (snoop_iff.2 ⟨hp, hr⟩), if_pos ho]

theorem hostSnoop_off (h : ¬ (s.host.port = .up ∧ s.part.rangeOf pa = .host)) : exec (.hostSnoop pa) s = .next s := by
  rw [exec_hostSnoop, execHostSnoop, if_neg (mt snoop_iff.1 h)]

end

-- Storage errors (R386).

/-- A slot with its copies of a line dropped. -/
def Slot.dropLine (line : Nat) (sl : Slot) : Slot := { sl with l0 := sl.l0.del line, fills := sl.fills.del line, loop := [] }

/-- A core with its copies of a line dropped, and what it can fetch again. -/
def Core.dropLine (line : Nat) (c : Core) : Core :=
  { c with code := [], records := [], tlb := [], l1 := c.l1.del line, fills := c.fills.del line }

/-- One update in each of some slots. -/
theorem slot_foldl_updSlot (f : Slot → Slot) {l : List Nat} (hl : l.Nodup) {s : State} (hs : Tab.risingFrom 0 s.slots = true) :
    ∀ j, (l.foldl (fun s c => s.updSlot c f) s).slot j = if j ∈ l then f (s.slot j) else s.slot j := by
  induction l generalizing s with
  | nil => exact fun j => by rw [if_neg List.not_mem_nil]; rfl
  | cons k l ih =>
    obtain ⟨hk, hl⟩ := List.nodup_cons.1 hl
    refine fun j => (ih hl (setSlot_rising hs k (f (s.slot k))) j).trans ?_
    rw [slot_setSlot hs]
    by_cases hj : j = k
    · subst hj
      rw [if_neg hk, if_pos rfl, if_pos List.mem_cons_self]
    · rw [if_neg hj]
      exact if_congr (by rw [List.mem_cons]; tauto) rfl rfl

theorem dropCopies_eq (s : State) (core line : Nat) : s.dropCopies core line =
    [4 * core, 4 * core + 1, 4 * core + 2, 4 * core + 3].foldl (fun s i => s.updSlot i (Slot.dropLine line)) (s.updCore core (Core.dropLine line)) := rfl

/-- R386: an error in a copy drops it, and changes nothing at any home. -/
theorem cached_spec (s : State) (die pa : Nat) : ∃ t, exec (.eccUncorrectable .cached die pa) s = .next t ∧ t.mem = s.mem ∧ t.poison = s.poison
    ∧ t.threads = s.threads ∧ (s.tidy = true → t.core die = (s.core die).dropLine (pa / 128)
      ∧ ∀ j < 4, t.slot (4 * die + j) = (s.slot (4 * die + j)).dropLine (pa / 128)) := by
  obtain ⟨slots, hdrop⟩ := foldl_updSlot_spec (Slot.dropLine (pa / 128)) [4 * die, 4 * die + 1, 4 * die + 2, 4 * die + 3]
    (s.updCore die (Core.dropLine (pa / 128)))
  rw [← dropCopies_eq] at hdrop
  refine ⟨s.dropCopies die (pa / 128), by rw [exec_eccUncorrectable, execEccUncorrectable], by rw [hdrop]; rfl, by rw [hdrop]; rfl, by rw [hdrop]; rfl,
    fun hs => ⟨?_, fun j hj => ?_⟩⟩
  · have hcore := core_setCore (tidy_cores hs) die die ((s.core die).dropLine (pa / 128))
    rw [if_pos rfl] at hcore
    rw [hdrop]
    exact hcore
  · have hslots : Tab.risingFrom 0 (s.updCore die (Core.dropLine (pa / 128))).slots = true := tidy_slots (s := s) hs
    have hslot := slot_foldl_updSlot (Slot.dropLine (pa / 128)) (l := [4 * die, 4 * die + 1, 4 * die + 2, 4 * die + 3]) (by simp) hslots (4 * die + j)
    rw [dropCopies_eq, hslot, if_pos (by simp; omega)]
    rfl

theorem strikeReg_live {s : State} {p : EccPlace} {die pa : Nat} (hp : p ∈ [EccPlace.vreg, .temp, .pred, .ptr, .rsv]) (hl : (s.thr die).live = true)
    (h15 : (p, pa) ≠ (.pred, 15)) (hno : (p, die, pa) ∉ s.poisonReg) :
    exec (.eccUncorrectable p die pa) s = .next { s with poisonReg := s.poisonReg ++ [(p, die, pa)] } := by
  have hstrike : exec (.eccUncorrectable p die pa) s = .next (s.strikeReg p die pa) := by
    simp only [List.mem_cons, List.not_mem_nil, or_false] at hp
    rcases hp with rfl | rfl | rfl | rfl | rfl <;> rfl
  have hheld : (if p == .acc then decide (die < 384) else if [EccPlace.ureg, .gfield, .tile].contains p then (s.grp die).live else (s.thr die).live) = true := by
    simp only [List.mem_cons, List.not_mem_nil, or_false] at hp
    rcases hp with rfl | rfl | rfl | rfl | rfl <;> exact hl
  have hpred : (p == .pred && pa == 15) = false := by
    rw [Bool.eq_false_iff, ne_eq, Bool.and_eq_true, beq_iff_eq, beq_iff_eq]
    rintro ⟨rfl, rfl⟩
    exact h15 rfl
  rw [hstrike, State.strikeReg]
  simp only [hheld, hpred, Bool.not_false, Bool.and_true, Bool.true_and]
  refine congrArg Host.Outcome.next (if_pos ?_)
  rw [Bool.not_eq_true', Bool.eq_false_iff, ne_eq, List.contains_iff_mem]
  exact hno

-- Links (R423, R424).

theorem mem_ratesUpTo {r x : Nat} : x ∈ ratesUpTo r ↔ x ∈ [8, 16, 32] ∧ x ≤ r := by
  rw [ratesUpTo, List.mem_filter, decide_eq_true_eq]
  simp only [List.mem_cons, List.not_mem_nil, or_false]
  tauto

theorem pickFrom_mem (i : Nat) {l : List Nat} (h : l ≠ []) : pickFrom i l ∈ l := by
  have hget : l.getD (Config.pick i % l.length) 0 ∈ l := by
    have hlt := Nat.mod_lt (Config.pick i) (List.length_pos_iff.2 h)
    rw [List.getD_eq_getElem _ _ hlt]
    exact List.getElem_mem hlt
  unfold pickFrom
  split
  · exact List.mem_cons_self
  · exact hget

/-- A trained port has a rate of R332 no higher than the one it may have. -/
theorem trained_rate (i : Nat) {top : Nat} (h : ratesUpTo top ≠ []) : pickFrom i (ratesUpTo top) ≤ top ∧ pickFrom i (ratesUpTo top) ∈ [8, 16, 32] :=
  (mem_ratesUpTo.1 (pickFrom_mem i h)).symm

theorem ratesUpTo_ne_nil {r : Nat} (h : 8 ≤ r) : ratesUpTo r ≠ [] := List.ne_nil_of_mem (mem_ratesUpTo.2 ⟨by decide, h⟩)

section
variable {s : State}

theorem hostPortDown_up (h : s.host.port = .up) : let u := s.logEvent 0x1D 2 0 0x1000 10 0x20 0
    exec .hostPortDown s = .next (State.scheduleAt { u with free := u.free + 1, host := { u.host with port := .retraining (u.clk / 64), downKey := u.free } }
      (64 * (u.clk / 64 + 2 ^ 20)) .hostRetrainTimeout) := by
  intro u
  have hneg : ¬ (s.host.port != .up) = true := by rw [h]; decide
  obtain ⟨v, hv⟩ : ∃ v, v = u := ⟨u, rfl⟩
  have hlog : s.logLink 0x20 0x1000 = v := hv.symm
  rw [exec_hostPortDown, execHostPortDown, if_neg hneg, hlog, ← hv]
  simp only [State.takeFree, State.beats]

theorem hostPortDown_other (h : s.host.port ≠ .up) : exec .hostPortDown s = .next s := by
  rw [exec_hostPortDown, execHostPortDown, if_pos (bne_iff_ne.2 h)]

theorem hostPortRetrained_retraining {since : Nat} (h : s.host.port = .retraining since) : ∃ t, exec .hostPortRetrained s = .next t
    ∧ t.host.port = .up ∧ t.host.lines = [] ∧ t.mem = s.mem ∧ t.threads = s.threads
    ∧ (8 ≤ s.host.rate → t.host.rate ≤ s.host.rate ∧ t.host.rate ∈ [8, 16, 32])
    ∧ t.host.sent = s.host.sent ++ (s.host.msixPend.filter fun e => e.2 && !(s.host.msixMask.get false e.1)).map (·.1) := by
  rw [exec_hostPortRetrained, execHostPortRetrained, h]
  exact ⟨_, rfl, rfl, rfl, rfl, rfl, fun hr => trained_rate s.free (ratesUpTo_ne_nil hr), rfl⟩

theorem hostPortRetrained_up (h : s.host.port = .up) : ∃ rate, exec .hostPortRetrained s = .next { s with free := s.free + 1, host := { s.host with rate := rate } }
    ∧ (8 ≤ s.host.rate → rate ≤ s.host.rate ∧ rate ∈ [8, 16, 32]) := by
  refine ⟨pickFrom s.free (ratesUpTo s.host.rate), ?_, fun hr => trained_rate s.free (ratesUpTo_ne_nil hr)⟩
  have hport : ({ s.host with port := .up, rate := pickFrom s.free (ratesUpTo s.host.rate) } : HostIf)
      = { s.host with rate := pickFrom s.free (ratesUpTo s.host.rate) } := by rw [← h]
  rw [exec_hostPortRetrained, execHostPortRetrained, h, ← hport]
  rfl

theorem hostPortRetrained_down (h : s.host.port = .down) : exec .hostPortRetrained s = .next s := by
  rw [exec_hostPortRetrained, execHostPortRetrained, h]

theorem hostRetrainTimeout_of {since : Nat} (h : s.host.port = .retraining since) : exec .hostRetrainTimeout s =
    if since + 2 ^ 20 ≤ s.clk / 64 then .next { s with host := { s.host with port := .down } } else .next s := by
  rw [exec_hostRetrainTimeout, execHostRetrainTimeout, h]
  rfl

theorem hostRetrainTimeout_other (h : ∀ since, s.host.port ≠ .retraining since) : exec .hostRetrainTimeout s = .next s := by
  rw [exec_hostRetrainTimeout, execHostRetrainTimeout]
  split
  · next hp => exact absurd hp (h _)
  · rfl

theorem portStop_eq (d p : Nat) : portStop d p = 256 * (8 * (d / 2) + 7) + 16 * (d % 2) + [1, 3, 10, 12].getD p 1 := by
  rw [portStop, stopAt]; ring

theorem ualinkPortDown_lost {die port : Nat} (hd : die < 4) (hp : port < 4) (h : s.portDown die port = false) :
    let u := s.logEvent 0x1D 2 0 (256 * (8 * (die / 2) + 7) + 16 * (die % 2) + [1, 3, 10, 12].getD port 1) 10 (0x30 + 4 * die + port) 0
    exec (.ualinkPortDown die port) s = .next (State.portLost { u with host := { u.host with ualDown := u.host.ualDown.put false (4 * die + port) true } } die port) := by
  rw [exec_ualinkPortDown, execUalinkPortDown, if_neg ?_, ← portStop_eq]
  · rfl
  · rw [h]
    simp only [Bool.false_eq_true, or_false]
    omega

theorem ualinkPortDown_other {die port : Nat} (h : 4 ≤ die ∨ 4 ≤ port ∨ s.portDown die port = true) : exec (.ualinkPortDown die port) s = .next s := by
  rw [exec_ualinkPortDown, execUalinkPortDown, if_pos h]

theorem poolPortDown_of : exec .poolPortDown s = if s.host.poolUp = true then
      (let u := s.logEvent 0x1D 2 0 0x1000 10 0x40 0
      .next { u with host := { u.host with poolUp := false } }) else .next s := rfl

-- Telemetry (R334).

theorem senseAll_spec (s : State) : ∃ a b c d e f, s.senseAll = ([a, b, c, d, e, f], { s with free := s.free + 6 }) := by
  simp only [State.senseAll, State.sense, State.takeFree, upto, List.foldl_cons, List.foldl_nil, List.nil_append, List.cons_append]
  exact ⟨_, _, _, _, _, _, rfl⟩

theorem nextRefresh_spec (s : State) : ∃ a b c d e f, s.nextRefresh =
    State.scheduleAt { s with free := s.free + 6 } (64 * ((s.clk / 64 / 2 ^ 20 + 1) * 2 ^ 20)) (.i3cRefresh a b c d e f) := by
  obtain ⟨a, b, c, d, e, f, h⟩ := senseAll_spec s
  refine ⟨a, b, c, d, e, f, ?_⟩
  rw [State.nextRefresh, h]
  simp only [State.beats]

theorem firstRefresh_spec (s : State) : ∃ i3c free agenda,
    s.firstRefresh = { s with host := { s.host with i3c := i3c }, free := free, agenda := agenda } := by
  obtain ⟨a, b, c, d, e, f, h⟩ := senseAll_spec s
  obtain ⟨_, _, _, _, _, _, h'⟩ := nextRefresh_spec (State.i3cRefresh { s with free := s.free + 6 } [a, b, c, d, e, f])
  rw [State.firstRefresh, h]
  exact ⟨_, _, _, h'⟩

end

-- Starts (R342, R426, R427).

theorem restart_spec (s : State) : ∃ free agenda, s.restart = { s with free := free, agenda := agenda }
    ∧ ∃ n, (s.clk + 1, Instr.powerOn n) ∈ s.restart.agenda :=
  ⟨_, _, rfl, _, mem_insertEvent _ _ _⟩

/-- What a reset of the package keeps and sets (R342, R423, R427). -/
theorem resetPackage_spec (s : State) (clear : Bool) : let t := s.resetPackage clear
    t.boot.attempts = (if clear then 0 else s.boot.attempts) ∧ t.boot.up = false ∧ t.boot.count = s.boot.count ∧ t.threads = [] ∧ t.log = s.log
      ∧ t.host.doneSeq = s.host.doneSeq ∧ ∃ n, (1, Instr.powerOn n) ∈ t.agenda := by
  intro t
  obtain ⟨b, hb, hattempts, hcount⟩ : ∃ b : Boot, (b = if clear then { s.boot with attempts := 0, causes := [] }
      else if s.boot.up then { s.boot with causes := [] } else s.boot) ∧ b.attempts = (if clear then 0 else s.boot.attempts) ∧ b.count = s.boot.count := by
    refine ⟨_, rfl, ?_⟩
    cases clear with
    | true => exact ⟨rfl, rfl⟩
    | false =>
      simp only [Bool.false_eq_true, if_false]
      split
      · exact ⟨rfl, rfl⟩
      · exact ⟨rfl, rfl⟩
  obtain ⟨u, hu⟩ : ∃ u : State, u = State.cleared { s with boot := b } := ⟨_, rfl⟩
  obtain ⟨free, agenda, he, hn⟩ := restart_spec { u with host := { u.host with mbox := s.host.mbox, doneSeq := s.host.doneSeq } }
  have ht : t = State.restart { u with host := { u.host with mbox := s.host.mbox, doneSeq := s.host.doneSeq } } := by rw [hu, hb]; rfl
  have hclk : u.clk = 0 := by rw [hu]; rfl
  refine ⟨?_, ?_, ?_, ?_, ?_, ?_, ?_⟩
  · rw [ht, he, ← hattempts, hu]; rfl
  · rw [ht, he, hu]; rfl
  · rw [ht, he, ← hcount, hu]; rfl
  · rw [ht, he, hu]; rfl
  · rw [ht, he, hu]; rfl
  · rw [ht, he]
  · rw [ht]
    obtain ⟨n, hn⟩ := hn
    exact ⟨n, hclk ▸ hn⟩

/-- The cause that an attempt ends with, of the part's own and of one that is free. -/
def Part.causeOf (p : Part) (cause : Nat) : Nat :=
  match p.startCause with
  | some c => if cause ∈ [1, 2, 3, 8, 9] then cause else if c = 6 ∧ (cause = 4 ∨ cause = 5) then cause else c
  | none => cause

theorem startCause_cases {p : Part} {c : Nat} (h : p.startCause = some c) : c = 4 ∨ c = 6 := by
  rw [Part.startCause] at h
  split at h
  · exact .inl (Option.some.inj h).symm
  · split at h
    · exact .inr (Option.some.inj h).symm
    · cases h

theorem ratesUpTo_of_startCause {p : Part} (h : p.startCause = none) : ratesUpTo p.ucie ≠ [] := by
  rw [Part.startCause] at h
  split at h
  · cases h
  · next hne => exact fun he => hne (List.isEmpty_iff.2 he)

theorem causeOf_none {p : Part} (h : p.startCause = none) (cause : Nat) : p.causeOf cause = cause := by rw [Part.causeOf, h]

theorem causeOf_zero {p : Part} {c : Nat} (h : p.startCause = some c) : p.causeOf 0 = c := by
  rw [Part.causeOf, h]
  simp

theorem causeOf_watchdog (p : Part) : p.causeOf 8 = 8 := by
  rw [Part.causeOf]
  split
  · exact if_pos (by decide)
  · rfl

theorem causeOf_ne_watchdog {p : Part} {cause : Nat} (h : cause ≠ 8) : p.causeOf cause ≠ 8 := by
  rw [Part.causeOf]
  split
  · next c hc =>
    have := startCause_cases hc
    split
    · exact h
    · split
      · exact h
      · omega
  · exact h

theorem attempt_eq (s : State) (cause : Nat) : s.attempt cause =
    if 4 ≤ Nat.min 255 (s.boot.attempts + 1) ∧ s.part.causeOf cause ≠ 8 then s.beginStart.enterMinimal (s.part.causeOf cause)
    else if 1 ≤ s.part.causeOf cause ∧ s.part.causeOf cause ≤ 9 then (s.beginStart.noteCause (s.part.causeOf cause)).restart
    else s.beginStart.finishStart := rfl

/-- R342: what a good start leaves. -/
theorem finishStart_spec (u : State) : let t := u.finishStart
    t.boot.up = true ∧ t.boot.minimal = u.boot.minimal ∧ t.boot.attempts = 0 ∧ t.boot.count = u.boot.count + 1 ∧ t.boot.causes = u.boot.causes
      ∧ t.host.ready = true ∧ t.host.port = .up ∧ t.host.rate = pickFrom u.free (ratesUpTo u.part.ucie)
      ∧ t.threads = u.threads ∧ t.teams = u.teams ∧ t.ctxs = u.ctxs ∧ t.log = u.log := by
  intro t
  have ht : ∃ v : State, t = State.scheduleAt (State.trainHost v u.part.ucie).firstRefresh (64 * (v.beats + 1)) .heartbeatTick
      ∧ v = { u with boot := { (u.boot.extendM 1 u.part.confDigest).extendM 2 u.part.fwDigest with attempts := 0, count := u.boot.count + 1, up := true }
                     host := { u.host with ready := true, ualDown := u.part.noLink, poolUp := !u.part.noPool } } := ⟨_, rfl, rfl⟩
  obtain ⟨v, ht, hv⟩ := ht
  obtain ⟨i3c, free, agenda, he⟩ := firstRefresh_spec (v.trainHost u.part.ucie)
  rw [ht, he, hv]
  exact ⟨rfl, rfl, rfl, rfl, rfl, rfl, rfl, rfl, rfl, rfl, rfl, rfl⟩

/-- R427: what minimal mode leaves. -/
theorem enterMinimal_spec (u : State) (cause : Nat) : let t := u.enterMinimal cause
    t.boot.minimal = true ∧ t.boot.up = u.boot.up ∧ t.threads = u.threads
      ∧ (cause ≠ 4 → ratesUpTo u.part.ucie ≠ [] → t.host.ready = true ∧ t.host.port = .up) := by
  intro t
  obtain ⟨v, hv⟩ : ∃ v : State, v = if cause = 9 then u.noteCause 9 else u := ⟨_, rfl⟩
  have hvu : v.boot.up = u.boot.up ∧ v.threads = u.threads ∧ v.part = u.part := by
    rw [hv]
    split
    · exact ⟨rfl, rfl, rfl⟩
    · exact ⟨rfl, rfl, rfl⟩
  obtain ⟨hup, hthreads, hpart⟩ := hvu
  obtain ⟨ok, hok⟩ : ∃ ok, ok = (cause != 4 && !(ratesUpTo v.part.ucie).isEmpty) := ⟨_, rfl⟩
  obtain ⟨w, hw⟩ : ∃ w : State, w = if ok = true then State.trainHost { v with boot := { v.boot with minimal := true }, host := { v.host with ready := ok } } v.part.ucie
    else { v with boot := { v.boot with minimal := true }, host := { v.host with ready := ok } } := ⟨_, rfl⟩
  have ht : t = State.scheduleAt w.firstRefresh (64 * (w.beats + 1)) .heartbeatTick := by
    rw [hw, hok, hv]; rfl
  have hwv : w.boot.minimal = true ∧ w.boot.up = v.boot.up ∧ w.threads = v.threads ∧ w.host.ready = ok ∧ (ok = true → w.host.port = .up) := by
    rw [hw]
    split
    · exact ⟨rfl, rfl, rfl, rfl, fun _ => rfl⟩
    · next h => exact ⟨rfl, rfl, rfl, rfl, fun h' => absurd h' h⟩
  obtain ⟨hwmin, hwup, hwthreads, hready, hport⟩ := hwv
  obtain ⟨i3c, free, agenda, he⟩ := firstRefresh_spec w
  rw [ht, he]
  refine ⟨hwmin, hwup.trans hup, hwthreads.trans hthreads, fun hc hr => ?_⟩
  have hgood : ok = true := by
    rw [hok, Bool.and_eq_true, bne_iff_ne, Bool.not_eq_true', List.isEmpty_eq_false_iff, hpart]
    exact ⟨hc, hr⟩
  exact ⟨hready.trans hgood, hport hgood⟩

/-- R426: what a failed start leaves. -/
theorem failedStart_spec (s : State) (cause : Nat) : let t := (s.beginStart.noteCause cause).restart
    t.boot.up = false ∧ t.boot.minimal = false ∧ t.boot.attempts = Nat.min 255 (s.boot.attempts + 1) ∧ t.boot.count = s.boot.count
      ∧ t.boot.causes = s.boot.causes ++ [cause] ∧ t.host.ready = false ∧ t.clk = 0 ∧ ∃ n, (1, Instr.powerOn n) ∈ t.agenda :=
  ⟨rfl, rfl, rfl, rfl, rfl, rfl, rfl, _, mem_insertEvent _ _ _⟩

/-- A start begins in a state whose causes those of the last good start no longer are (R426). -/
theorem powerOn_spec (s : State) (c : BitVec 8) : ∃ u : State, exec (.powerOn c) s = .next (u.attempt c.toNat)
    ∧ u = { s with boot := { s.boot with causes := if s.boot.up = true then [] else s.boot.causes } } := by
  refine ⟨_, ?_, rfl⟩
  rw [exec_powerOn, execPowerOn]
  by_cases h : s.boot.up = true
  · rw [if_pos h, if_pos h]
  · rw [if_neg h, if_neg h]

section
variable {s : State}

/-- R342: a start with no cause. -/
theorem powerOn_good (hp : s.part.startCause = none) (ha : s.boot.attempts < 3) : ∃ t, exec (.powerOn 0) s = .next t ∧ t.boot.up = true
    ∧ t.boot.minimal = false ∧ t.boot.attempts = 0 ∧ t.boot.count = s.boot.count + 1
    ∧ t.boot.causes = (if s.boot.up = true then [] else s.boot.causes) ∧ t.host.ready = true ∧ t.host.port = .up ∧ t.host.rate ≤ s.part.ucie
    ∧ t.host.rate ∈ [8, 16, 32] ∧ t.threads = [] ∧ t.teams = [] ∧ t.ctxs = [] ∧ t.log = s.log := by
  obtain ⟨u, hexec, hu⟩ := powerOn_spec s 0
  have hattempts : u.boot.attempts < 3 := by rw [hu]; exact ha
  have hpart : u.part = s.part := by rw [hu]
  have hcause : u.part.causeOf 0 = 0 := hpart ▸ causeOf_none hp 0
  have hfin : u.attempt (0 : BitVec 8).toNat = u.beginStart.finishStart := by
    rw [attempt_eq, show (0 : BitVec 8).toNat = 0 from rfl, hcause, if_neg ?_, if_neg (by omega)]
    rintro ⟨h4, -⟩
    have : Nat.min 255 (u.boot.attempts + 1) ≤ u.boot.attempts + 1 := Nat.min_le_right _ _
    omega
  obtain ⟨hup, hmin, hatt, hcount, hcauses, hready, hport, hrate, hthreads, hteams, hctxs, hlog⟩ := finishStart_spec u.beginStart
  obtain ⟨hle, hmem⟩ := trained_rate u.beginStart.free (ratesUpTo_of_startCause hp)
  have hbp : u.beginStart.part = s.part := hpart
  rw [hbp] at hrate
  rw [hfin] at hexec
  exact ⟨_, hexec, hup, hmin, hatt, hcount.trans (by rw [hu]; rfl), hcauses.trans (by rw [hu]; rfl), hready, hport, hrate ▸ hle, hrate ▸ hmem,
    hthreads, hteams, hctxs, hlog.trans (by rw [hu]; rfl)⟩

/-- R426: a start that ends with a cause before minimal mode. -/
theorem powerOn_fails {c : BitVec 8} {k : Nat} (hk : s.part.causeOf c.toNat = k) (h1 : 1 ≤ k) (h9 : k ≤ 9) (ha : s.boot.attempts < 3) :
    ∃ t, exec (.powerOn c) s = .next t ∧ t.boot.up = false ∧ t.boot.minimal = false
      ∧ t.boot.attempts = s.boot.attempts + 1 ∧ t.boot.count = s.boot.count
      ∧ t.boot.causes = (if s.boot.up = true then [] else s.boot.causes) ++ [k] ∧ t.host.ready = false
      ∧ t.clk = 0 ∧ ∃ n, (1, Instr.powerOn n) ∈ t.agenda := by
  obtain ⟨u, hexec, hu⟩ := powerOn_spec s c
  have hmin : Nat.min 255 (u.boot.attempts + 1) = s.boot.attempts + 1 := by
    rw [hu]; exact Nat.min_eq_right (by show s.boot.attempts + 1 ≤ 255; omega)
  have hcause : u.part.causeOf c.toNat = k := by rw [hu]; exact hk
  have hfin : u.attempt c.toNat = (u.beginStart.noteCause k).restart := by
    rw [attempt_eq, hcause, hmin, if_neg (by omega), if_pos ⟨h1, h9⟩]
  obtain ⟨hup, hminimal, hatt, hcount, hcauses, hready, hclk, hagenda⟩ := failedStart_spec u k
  rw [hfin] at hexec
  exact ⟨_, hexec, hup, hminimal, hatt.trans hmin, hcount.trans (by rw [hu]), hcauses.trans (by rw [hu]), hready, hclk, hagenda⟩

/-- R427: a start with three failed ones before it, that no step stops, leaves minimal mode. -/
theorem powerOn_minimal {c : BitVec 8} (ha : 3 ≤ s.boot.attempts) (hc : c.toNat ≠ 8) : ∃ t, exec (.powerOn c) s = .next t
    ∧ t.boot.minimal = true ∧ t.boot.up = false ∧ t.threads = []
    ∧ (s.part.startCause = none → c.toNat ≠ 4 → t.host.ready = true ∧ t.host.port = .up) := by
  obtain ⟨u, hexec, hu⟩ := powerOn_spec s c
  have hattempts : 3 ≤ u.boot.attempts := by rw [hu]; exact ha
  have hpart : u.part = s.part := by rw [hu]
  have hfin : u.attempt c.toNat = u.beginStart.enterMinimal (u.part.causeOf c.toNat) := by
    rw [attempt_eq]
    refine if_pos ⟨?_, causeOf_ne_watchdog hc⟩
    exact Nat.le_min.2 ⟨by decide, by omega⟩
  obtain ⟨hmin, hup, hthreads, hready⟩ := enterMinimal_spec u.beginStart (u.part.causeOf c.toNat)
  rw [hfin] at hexec
  refine ⟨_, hexec, hmin, hup, hthreads, fun hp h4 => hready ?_ ?_⟩
  · rw [hpart, causeOf_none hp]; exact h4
  · show ratesUpTo u.part.ucie ≠ []
    rw [hpart]; exact ratesUpTo_of_startCause hp

/-- R426: a step of a start that takes too long. -/
theorem bootStepWatchdog_spec (hu : s.boot.up = false) (hm : s.boot.minimal = false) : ∃ t, exec .bootStepWatchdog s = .next t ∧ t.boot.up = false
    ∧ t.boot.minimal = false ∧ t.boot.attempts = Nat.min 255 (s.boot.attempts + 1) ∧ t.boot.causes = s.boot.causes ++ [8]
    ∧ ∃ n, (1, Instr.powerOn n) ∈ t.agenda := by
  have hfin : s.attempt 8 = (s.beginStart.noteCause 8).restart := by
    rw [attempt_eq, causeOf_watchdog, if_neg (by omega), if_pos (by omega)]
  obtain ⟨hup, hminimal, hatt, -, hcauses, -, -, hagenda⟩ := failedStart_spec s 8
  refine ⟨_, ?_, hup, hminimal, hatt, hcauses, hagenda⟩
  rw [exec_bootStepWatchdog, execBootStepWatchdog, hu, hm, ← hfin]
  rfl

theorem bootStepWatchdog_other (h : s.boot.up = true ∨ s.boot.minimal = true) : exec .bootStepWatchdog s = .next s := by
  rw [exec_bootStepWatchdog, execBootStepWatchdog, if_pos (by rw [Bool.or_eq_true]; exact h)]

theorem i3cRefresh_spec (t0 t1 t2 t3 hub power : BitVec 16) : ∃ t, exec (.i3cRefresh t0 t1 t2 t3 hub power) s = .next t
    ∧ t.host.i3c = putBytes [] 0 (s.i3cBytes [t0, t1, t2, t3, hub, power]) ∧ t.mem = s.mem ∧ t.threads = s.threads
    ∧ ∃ a b c d e f, (64 * ((s.clk / 64 / 2 ^ 20 + 1) * 2 ^ 20), Instr.i3cRefresh a b c d e f) ∈ t.agenda := by
  obtain ⟨a, b, c, d, e, f, h⟩ := nextRefresh_spec (s.i3cRefresh [t0, t1, t2, t3, hub, power])
  refine ⟨_, by rw [exec_i3cRefresh, execI3cRefresh], ?_⟩
  rw [h]
  exact ⟨rfl, rfl, rfl, a, b, c, d, e, f, mem_insertEvent _ _ _⟩

end

/-- Settles O55, event by event. -/
theorem outsideEventsComplete : Obligations.OutsideEventsComplete := by
  unfold Obligations.OutsideEventsComplete
  intro s pa die port data
  refine ⟨⟨fun h ho => ⟨?_, ?_⟩, fun h ho wr => ?_, fun h wr => hostAccess_off h wr⟩,
    ⟨fun ⟨hp, hr⟩ ho => hostSnoop_takes hp hr ho, fun ⟨hp, hr⟩ ho => hostSnoop_waits hp hr ho, hostSnoop_off⟩,
    by rw [exec_eccUncorrectable, execEccUncorrectable], by rw [exec_eccUncorrectable, execEccUncorrectable], cached_spec s die pa, fun h => ?_,
    fun p hp hl h15 hno => strikeReg_live hp hl h15 hno, by rw [exec_meshLinkError, execMeshLinkError]; rfl, resetPackage_spec s, hostPortDown_up,
    hostPortDown_other, fun since h => ⟨hostPortRetrained_retraining h, fun hle => ?_, fun hlt => ?_⟩, hostPortRetrained_up, hostPortRetrained_down,
    hostRetrainTimeout_other, ualinkPortDown_lost, ualinkPortDown_other, fun h => ?_, fun h => ?_, i3cRefresh_spec,
    ⟨fun hp ha => ⟨powerOn_good hp ha, fun c h1 h9 => powerOn_fails (causeOf_none hp _) h1 h9 ha⟩, fun c hp ha => ?_⟩,
    fun c ha hc => powerOn_minimal ha hc, bootStepWatchdog_spec, bootStepWatchdog_other⟩
  · rw [hostAccess_on h, if_neg (by rw [ho]; decide)]; rfl
  · rw [hostAccess_on h, if_neg (by rw [ho]; decide)]; rfl
  · rw [hostAccess_on h, if_pos ho]
  · rw [exec_eccUncorrectable, execEccUncorrectable]
    exact if_pos h
  · rw [hostRetrainTimeout_of h, if_pos hle]
  · rw [hostRetrainTimeout_of h, if_neg (Nat.not_le.2 hlt)]
  · rw [poolPortDown_of, if_pos h]
  · rw [poolPortDown_of, if_neg (by rw [h]; decide)]
  · have hk := startCause_cases hp
    obtain ⟨t, hexec, hup, -, hatt, -, hcauses, -⟩ := powerOn_fails (c := 0) (k := c) (causeOf_zero hp) (by omega) (by omega) ha
    exact ⟨t, hexec, hup, hatt, hcauses⟩

end Sys2Proof.Machine
end

section
/-! PROOFS. The management interface: the commands, the mailbox, its watchdog and the vectors (R335 to R344, R427, R428). -/

namespace Sys2Proof.Machine

-- What performing a request is (R337, R428).

section
variable {s : State} {code : Nat} {bad minimal : Bool} {causes : List (Nat × Bool)} {body : State → State}

/-- A request of a code is being performed and waits for nothing. -/
structure State.Performs (s : State) (code : Nat) : Prop where
  busy : s.host.busy = true
  waiting : s.host.waiting = none
  code : s.reqNat 0 1 = code

theorem performing_of (h : s.Performs code) : s.performing code = true := by
  rw [State.performing, h.busy, h.waiting, h.code]
  simp

theorem perform_idle (h : s.host.busy = false) : s.perform code bad minimal causes body = .next s := by
  rw [State.perform, State.performing, h]; rfl

theorem perform_bad (h : s.Performs code) (hb : bad = true) : s.perform code bad minimal causes body = .next (s.respond 2 [] []) := by
  rw [State.perform, performing_of h, hb]; rfl

theorem perform_minimal (h : s.Performs code) (hb : bad = false) (hm : s.boot.minimal = true) (hn : minimal = false) :
    s.perform code bad minimal causes body = .next (s.respond 3 [] []) := by
  rw [State.perform, performing_of h, hb, hm, hn]; rfl

theorem perform_causes (h : s.Performs code) (hb : bad = false) (hm : s.boot.minimal = true → minimal = true) :
    (∀ c, causes.find? (fun e => e.2) = some c → s.perform code bad minimal causes body = .next (s.respond c.1 [] []))
    ∧ ((∀ e ∈ causes, e.2 = false) → s.perform code bad minimal causes body = .next (body s)) := by
  have hmin : (s.boot.minimal && !minimal) = false := by
    cases hs : s.boot.minimal with
    | false => rfl
    | true => rw [hm hs]; rfl
  refine ⟨fun c hc => ?_, fun hall => ?_⟩
  · rw [State.perform, performing_of h, hb, hmin, firstThat_eq, hc]; rfl
  · have hnone : causes.find? (fun e => e.2) = none := List.find?_eq_none.2 fun e he => by rw [hall e he]; decide
    rw [State.perform, performing_of h, hb, hmin, firstThat_eq, hnone]; rfl

theorem waits_false (h : s.host.busy = false ∨ s.host.waiting = none) (code : Nat) : s.waits code = false := by
  rw [State.waits]
  rcases h with h | h
  · rw [h]; rfl
  · rw [h, Option.isSome_none, Bool.and_false, Bool.false_and]

end

/-- The event of a management command performs it as its row says. -/
def Management.Runs (r : Management) (s : State) : Prop :=
  ∃ body : State → State, exec r.event s = s.perform r.code (!r.legal) r.minimal r.causes body ∧ body s = r.after

/-- R338: the commands that read and those on contexts. -/
theorem contexts_run {s : State} (hwaits : ∀ code, s.waits code = false) : ∀ r ∈ s.management.take 5, r.Runs s := by
  simp only [State.management, List.take, List.forall_mem_cons]
  refine ⟨?_, ?_, ?_, ?_, ?_, fun r hr => absurd hr List.not_mem_nil⟩
  · exact ⟨_, (exec_ident s).trans (by unfold execIdent; rfl), by rfl⟩
  · exact ⟨_, (exec_resync s).trans (by unfold execResync; rfl), by rfl⟩
  · exact ⟨_, (exec_ctxnew s).trans (by unfold execCtxnew; simp only [Bool.not_and, bne, Bool.not_not]; rfl), by rfl⟩
  · exact ⟨_, (exec_ctxdel s).trans (by unfold execCtxdel; simp only [Bool.not_and, bne, Bool.not_not]; rfl), by rfl⟩
  · exact ⟨_, (exec_resume s).trans (by unfold execResume; simp only [hwaits, Bool.false_eq_true, if_false, State.maskBad, Bool.not_and, bne, Bool.not_not, ← decide_not, Nat.not_lt]; rfl), by rfl⟩

/-- R338: CTXMAP. -/
theorem maps_run {s : State} : ∀ r ∈ (s.management.drop 5).take 5, r.Runs s := by
  simp only [State.management, List.take, List.drop, List.forall_mem_cons]
  refine ⟨?_, ?_, ?_, ?_, ?_, fun r hr => absurd hr List.not_mem_nil⟩
  · exact ⟨_, (exec_ctxmapDieShared s).trans (by unfold execCtxmapDieShared; simp only [State.mapBad, Bool.not_and, bne, Bool.not_not, ← decide_not, Nat.not_lt]; rfl), by rfl⟩
  · exact ⟨_, (exec_ctxmapQueueBind s).trans (by unfold execCtxmapQueueBind; simp only [State.mapBad, Bool.not_and, bne, Bool.not_not, ← decide_not, Nat.not_lt]; rfl), by rfl⟩
  · exact ⟨_, (exec_ctxmapCounters s).trans (by unfold execCtxmapCounters; simp only [State.mapBad, Bool.not_and, bne, Bool.not_not, ← decide_not, Nat.not_lt, Nat.not_le]; rfl), by rfl⟩
  · exact ⟨_, (exec_ctxmapSemGrant s).trans (by unfold execCtxmapSemGrant; simp only [State.mapBad, Bool.not_and, bne, Bool.not_not, ← decide_not, Nat.not_lt, Nat.not_le]; rfl), by rfl⟩
  · exact ⟨_, (exec_ctxmapInvalidate s).trans (by unfold execCtxmapInvalidate; simp only [State.mapBad, Bool.not_and, bne, Bool.not_not]; rfl), by simp only [State.ok]⟩

/-- R338: the commands on command contexts and the pool, and ATTEST. -/
theorem commands_run {s : State} (hwaits : ∀ code, s.waits code = false) : ∀ r ∈ (s.management.drop 10).take 5, r.Runs s := by
  simp only [State.management, List.take, List.drop, List.forall_mem_cons]
  refine ⟨?_, ?_, ?_, ?_, ?_, fun r hr => absurd hr List.not_mem_nil⟩
  · exact ⟨_, (exec_cmdstart s).trans (by unfold execCmdstart; simp only [Bool.not_and, bne, Bool.not_not, ← decide_not, Nat.not_lt, Nat.not_le]; rfl), by rfl⟩
  · exact ⟨_, (exec_cmdstop s).trans (by unfold execCmdstop; simp only [hwaits, Bool.false_eq_true, if_false, Bool.not_and, ← decide_not, Nat.not_lt]; rfl), by rfl⟩
  · exact ⟨_, (exec_preempt s).trans (by unfold execPreempt; simp only [hwaits, Bool.false_eq_true, if_false, State.maskBad, Bool.not_and, bne, Bool.not_not, ← decide_not, Nat.not_lt]; rfl), by rfl⟩
  · exact ⟨_, (exec_poolcfg s).trans (by unfold execPoolcfg; simp only [Bool.not_and, bne, ← decide_not, Nat.not_lt, Nat.not_le]; rfl), by rfl⟩
  · exact ⟨_, (exec_attest s).trans (by unfold execAttest; rfl), by rfl⟩

/-- R338: the commands on the measurements, the log and the package. -/
theorem rest_run {s : State} : ∀ r ∈ s.management.drop 15, r.Runs s := by
  simp only [State.management, List.drop, List.forall_mem_cons]
  refine ⟨?_, ?_, ?_, ?_, ?_, fun r hr => absurd hr List.not_mem_nil⟩
  · exact ⟨_, (exec_measureRead s).trans (by unfold execMeasureRead; simp only [Bool.not_and, bne]; rfl), by rfl⟩
  · exact ⟨_, (exec_measureExtend s).trans (by unfold execMeasureExtend; simp only [Bool.not_and, bne, ← decide_not, Nat.not_lt, Nat.not_le]; rfl), by rfl⟩
  · exact ⟨_, (exec_fwlog s).trans (by unfold execFwlog; rfl), by rfl⟩
  · exact ⟨_, (exec_degrade s).trans (by unfold execDegrade; rfl), by rfl⟩
  · exact ⟨_, (exec_reset s).trans (by unfold execReset; rfl), by rfl⟩

/-- R338: every command is performed as its row says, where nothing waits. -/
theorem management_runs {s : State} (h : s.host.busy = false ∨ s.host.waiting = none) (r : Management) (hr : r ∈ s.management) : r.Runs s := by
  have hwaits := waits_false h
  have hparts : s.management = s.management.take 5 ++ ((s.management.drop 5).take 5 ++ ((s.management.drop 10).take 5 ++ s.management.drop 15)) := rfl
  rw [hparts, List.mem_append, List.mem_append, List.mem_append] at hr
  rcases hr with hr | hr | hr | hr
  · exact contexts_run hwaits r hr
  · exact maps_run r hr
  · exact commands_run hwaits r hr
  · exact rest_run r hr

-- The mailbox (R335 to R337).

theorem msix_keeps (s : State) (v : Nat) : (s.msix v).host.busy = s.host.busy ∧ (s.msix v).host.waiting = s.host.waiting
    ∧ (s.msix v).host.doneSeq = s.host.doneSeq ∧ (s.msix v).mem = s.mem ∧ (s.msix v).threads = s.threads := by
  rw [State.msix]
  split
  · exact ⟨rfl, rfl, rfl, rfl, rfl⟩
  · exact ⟨rfl, rfl, rfl, rfl, rfl⟩

/-- R337: what a response leaves. -/
theorem respond_spec (s : State) (result : Nat) (pay extra : List Byte) : let t := s.respond result pay extra
    t.host.busy = false ∧ t.host.waiting = none ∧ t.host.doneSeq = BitVec.ofNat 16 (s.reqNat 2 2) ∧ t.mem = s.mem ∧ t.threads = s.threads := by
  intro t
  obtain ⟨u, irq, ht, hbusy, hwaiting, hdone, hmem, hthreads⟩ : ∃ (u : State) (irq : Bool), t = (if irq then u.msix 0 else u) ∧ u.host.busy = false
      ∧ u.host.waiting = none ∧ u.host.doneSeq = BitVec.ofNat 16 (s.reqNat 2 2) ∧ u.mem = s.mem ∧ u.threads = s.threads :=
    ⟨_, _, rfl, rfl, rfl, rfl, rfl, rfl⟩
  rw [ht]
  cases irq with
  | false => exact ⟨hbusy, hwaiting, hdone, hmem, hthreads⟩
  | true =>
    obtain ⟨kbusy, kwaiting, kdone, kmem, kthreads⟩ := msix_keeps u 0
    exact ⟨kbusy.trans hbusy, kwaiting.trans hwaiting, kdone.trans hdone, kmem.trans hmem, kthreads.trans hthreads⟩

section
variable {s : State} {val : BitVec 32}

theorem submit_notReady (h : s.host.ready = false) : exec (.submit val) s = .next s := by
  rw [exec_submit, execSubmit, State.submit]
  exact congrArg _ (if_pos (by rw [h]; rfl))

theorem submit_ready (h : s.host.ready = true) : exec (.submit val) s = .next (if s.host.busy then { s with host := { s.host with overrun := true } }
    else if val.toNat ≠ tabNat s.host.mbox 2 2 then s else s.accept) := by
  rw [exec_submit, execSubmit, State.submit]
  exact congrArg _ (if_neg (by rw [h]; decide))

end

/-- What a host write makes of the mailbox's bytes, at one offset. -/
def mailboxPut (off : Nat) (data : List Byte) (t : Tab Byte) (o : Nat) : Tab Byte :=
  match writtenAt off data o with | some b => if decide (o < 0x40) || decide (0x100 ≤ o) then t.put 0 o b else t | none => t

theorem writtenAt_of (off : Nat) (data : List Byte) (o : Nat) :
    writtenAt off data o = if off ≤ o ∧ o < off + data.length then some (data.getD (o - off) 0) else none := by
  rw [writtenAt]
  by_cases hlo : o < off
  · rw [if_pos hlo, if_neg (by omega)]
  · rw [if_neg hlo]
    by_cases hhi : o < off + data.length
    · rw [if_pos ⟨by omega, hhi⟩, List.getElem?_eq_getElem (by omega), List.getD_eq_getElem _ _ (by omega)]
    · rw [if_neg (by omega), List.getElem?_eq_none (by omega)]

theorem mailboxPut_of {off : Nat} {data : List Byte} {t : Tab Byte} {o : Nat} (h : off ≤ o ∧ o < off + data.length) :
    mailboxPut off data t o = if o < 0x40 ∨ 0x100 ≤ o then t.put 0 o (data.getD (o - off) 0) else t := by
  rw [mailboxPut, writtenAt_of, if_pos h]
  exact if_congr (by rw [Bool.or_eq_true, decide_eq_true_eq, decide_eq_true_eq]) rfl rfl

theorem get_foldl_mailboxPut (off : Nat) (data : List Byte) : ∀ (n lo : Nat) (t : Tab Byte), off ≤ lo → lo + n ≤ off + data.length →
    Tab.risingFrom 0 t = true → ∀ o, ((upto lo n).foldl (mailboxPut off data) t).get 0 o =
      if (lo ≤ o ∧ o < lo + n) ∧ (o < 0x40 ∨ 0x100 ≤ o) then data.getD (o - off) 0 else t.get 0 o
  | 0, lo, t, _, _, _, o => by rw [if_neg (by omega)]; rfl
  | n + 1, lo, t, hlo, hhi, ht, o => by
    rw [upto, List.foldl_cons, mailboxPut_of ⟨hlo, by omega⟩]
    by_cases hk : lo < 0x40 ∨ 0x100 ≤ lo
    · rw [if_pos hk, get_foldl_mailboxPut off data n (lo + 1) _ (by omega) (by omega) (Tab.rising_put 0 _ ht), Tab.get_put 0 _ ht]
      by_cases ho : o = lo
      · subst ho
        rw [if_neg (by omega), if_pos rfl, if_pos ⟨by omega, hk⟩]
      · rw [if_neg ho]
        exact if_congr (by omega) rfl rfl
    · rw [if_neg hk, get_foldl_mailboxPut off data n (lo + 1) _ (by omega) (by omega) ht]
      refine if_congr ?_ rfl rfl
      constructor
      · rintro ⟨h, h'⟩; exact ⟨by omega, h'⟩
      · rintro ⟨h, h'⟩
        refine ⟨?_, h'⟩
        by_contra hne
        have : o = lo := by omega
        exact hk (this ▸ h')

section
variable {s : State} {off : Nat} {data : List Byte}

/-- The state of the mailbox behind a host write, before it submits. -/
def State.written (s : State) (off : Nat) (data : List Byte) : State :=
  { s with host := { s.host with
      mbox := (upto off data.length).foldl (mailboxPut off data) s.host.mbox
      overrun := if (off ≤ 0x43 ∧ 0x43 < off + data.length) ∧ (data.getD (0x43 - off) 0).getLsbD 5 = true then false else s.host.overrun } }

theorem mailboxWrite_eq : s.mailboxWrite off data = if off ≤ 0x44 ∧ 0x48 ≤ off + data.length
    then (s.written off data).submit (leNat ((data.drop (0x44 - off)).take 4)) else s.written off data := by
  obtain ⟨v, hv⟩ : ∃ v : State, v = { s with host := { s.host with mbox := (upto off data.length).foldl (mailboxPut off data) s.host.mbox } } := ⟨_, rfl⟩
  have hover : (match writtenAt off data 0x43 with | some b => if b.getLsbD 5 then v.clearOverrun else v | none => v) = s.written off data := by
    rw [writtenAt_of]
    by_cases hin : off ≤ 0x43 ∧ 0x43 < off + data.length
    · rw [if_pos hin]
      by_cases hbit : (data.getD (0x43 - off) 0).getLsbD 5 = true
      · rw [State.written, if_pos ⟨hin, hbit⟩, hv]
        exact if_pos hbit
      · rw [State.written, if_neg fun h => hbit h.2, hv]
        exact if_neg hbit
    · rw [if_neg hin, State.written, if_neg fun h => hin h.1, hv]
  rw [← hover, hv]
  rfl

theorem mailboxWrite_off (h : (data.length ≠ 4 ∧ data.length ≠ 8) ∨ 4096 < off + data.length) : exec (.mailboxWrite off data) s = .next s := by
  rw [exec_mailboxWrite, execMailboxWrite]
  exact if_neg (by omega)

theorem mailboxWrite_on (hn : data.length = 4 ∨ data.length = 8) (hoff : off + data.length ≤ 4096) : exec (.mailboxWrite off data) s =
    if off ≤ 0x44 ∧ 0x48 ≤ off + data.length then exec (.submit (BitVec.ofNat 32 (leNat ((data.drop (0x44 - off)).take 4)))) (s.written off data)
    else .next (s.written off data) := by
  have hexec : exec (.mailboxWrite off data) s = .next (s.mailboxWrite off data) := by
    rw [exec_mailboxWrite, execMailboxWrite]
    exact if_pos ⟨hn, hoff⟩
  rw [hexec, mailboxWrite_eq]
  split
  · have hlt : leNat ((data.drop (0x44 - off)).take 4) < 2 ^ 32 := by
      refine Nat.lt_of_lt_of_le (leNat_lt _) (Nat.pow_le_pow_right (by decide) ?_)
      have := List.length_take_le 4 (data.drop (0x44 - off))
      omega
    rw [exec_submit, execSubmit, BitVec.toNat_ofNat, Nat.mod_eq_of_lt hlt]
  · rfl

theorem getD_leBytes : ∀ (n x j : Nat), j < n → (leBytes n x).getD j 0 = BitVec.ofNat 8 (x / 2 ^ (8 * j))
  | n + 1, x, 0, _ => by rw [leBytes, Nat.mul_zero, Nat.pow_zero, Nat.div_one]; rfl
  | n + 1, x, j + 1, h => by
    rw [leBytes, List.getD_cons_succ, getD_leBytes n (x / 256) j (by omega), Nat.div_div_eq_div_mul]
    rw [show 256 * 2 ^ (8 * j) = 2 ^ (8 * (j + 1)) by rw [Nat.mul_add, Nat.pow_add]; ring]

/-- R335, R336: what a host read of the page returns. -/
theorem mailboxRead_get (s : State) (at_ n : Nat) {j : Nat} (hj : j < n) : (s.mailboxRead at_ n)[j]? = some (s.mailboxByte (at_ + j)) := by
  rw [State.mailboxRead, List.getElem?_map, upto_eq, List.getElem?_range' (by omega)]
  simp

theorem status_eq (h : HostIf) : h.status = h.doneSeq.toNat + (if h.overrun then 2 ^ 29 else 0) + (if h.busy then 2 ^ 30 else 0)
    + (if h.ready then 2 ^ 31 else 0) := by
  rw [HostIf.status]
  cases h.overrun <;> cases h.busy <;> cases h.ready <;> rfl

end

-- The watchdog and the vectors (R294, R424, R428).

section
variable {s : State}

theorem mailboxWatchdog_due (hb : s.host.busy = true) (h : 64 * (s.host.busySince + 2 ^ 26) ≤ s.clk) :
    exec .mailboxWatchdog s = .next ((s.undoWait.logEvent 0x1E 2 0 0x1000 8 0 0).respond 4 [] []) := by
  rw [exec_mailboxWatchdog, execMailboxWatchdog]
  exact if_pos (by rw [hb, decide_eq_true (le_beats_iff.2 h)]; rfl)

theorem mailboxWatchdog_other (h : s.host.busy = false ∨ s.clk < 64 * (s.host.busySince + 2 ^ 26)) : exec .mailboxWatchdog s = .next s := by
  rw [exec_mailboxWatchdog, execMailboxWatchdog]
  refine if_neg fun hc => ?_
  rw [Bool.and_eq_true, decide_eq_true_eq, le_beats_iff] at hc
  rcases h with h | h
  · rw [h] at hc; cases hc.1
  · exact Nat.not_lt.2 hc.2 h

theorem msixUnmask_of {vec : Nat} (h : vec < 2048) : exec (.msixVectorUnmask vec) s =
    if s.host.msixPend.get false vec = true ∧ s.host.port = .up then .next { s with host := { s.host with
      msixMask := s.host.msixMask.put false vec false, msixPend := s.host.msixPend.put false vec false, sent := s.host.sent ++ [vec] } }
    else .next { s with host := { s.host with msixMask := s.host.msixMask.put false vec false } } := by
  rw [exec_msixVectorUnmask, execMsixVectorUnmask]
  exact (if_neg (Nat.not_le.2 h)).trans (if_congr (by rw [Bool.and_eq_true, beq_iff_eq]) rfl rfl)

theorem msixUnmask_beyond {vec : Nat} (h : 2048 ≤ vec) : exec (.msixVectorUnmask vec) s = .next s := by
  rw [exec_msixVectorUnmask, execMsixVectorUnmask]
  exact if_pos h

-- Requests that wait (R337).

theorem waits_of {m code : Nat} (hb : s.host.busy = true) (hw : s.host.waiting = some m) (hc : s.reqNat 0 1 = code) : s.waits code = true := by
  rw [State.waits, hb, hw, hc]
  simp

theorem resume_waits {m : Nat} (hb : s.host.busy = true) (hw : s.host.waiting = some m) (hc : s.reqNat 0 1 = 5) :
    exec .resume s = .next (s.doResume (s.reqNat 4 2) (maskDies m)) := by
  rw [exec_resume, execResume]
  refine (if_pos (waits_of hb hw hc)).trans ?_
  rw [hw]; rfl

theorem preempt_waits {m : Nat} (hb : s.host.busy = true) (hw : s.host.waiting = some m) (hc : s.reqNat 0 1 = 9) :
    exec .preempt s = .next (s.awaitPreempt (s.reqNat 4 2)) := by
  rw [exec_preempt, execPreempt]
  exact if_pos (waits_of hb hw hc)

theorem cmdstop_waits {m : Nat} (hb : s.host.busy = true) (hw : s.host.waiting = some m) (hc : s.reqNat 0 1 = 8) :
    exec .cmdstop s = if (s.cmd (s.reqNat 4 1)).st = .ready then .next s else .next (s.respond 0 [] []) := by
  rw [exec_cmdstop, execCmdstop]
  exact (if_pos (waits_of hb hw hc)).trans (if_congr beq_iff_eq rfl rfl)

end

/-- Settles O56: the commands by their rows, the mailbox by what a write makes of its bytes. -/
theorem managementInterfaceCompletes : Obligations.ManagementInterfaceCompletes := by
  unfold Obligations.ManagementInterfaceCompletes
  refine ⟨fun s => ⟨fun r hr hb hw hc => ?_, fun r hr hb => ?_, fun m hb hw => ⟨resume_waits hb hw, preempt_waits hb hw, fun hc hst => ?_, fun hc hst => ?_⟩⟩,
    fun s val off vec result data pay extra => ⟨respond_spec s result pay extra, submit_notReady, fun hr hb => ?_, fun hr hb hv => ?_, fun hr hb hv => ?_,
      fun hn hoff hrise => ?_, mailboxWrite_off, fun at_ n => ⟨?_, fun j hj => ⟨fun ho => ?_, fun hlo hhi => ?_⟩⟩, by rw [exec_overrunClear, execOverrunClear, State.clearOverrun],
      mailboxWatchdog_due, mailboxWatchdog_other, fun hv => ⟨fun hp hup => ?_, fun hno => ?_⟩, msixUnmask_beyond⟩⟩
  · obtain ⟨body, hexec, hbody⟩ := management_runs (.inr hw) r hr
    have hperf : s.Performs r.code := ⟨hb, hw, hc⟩
    rw [hexec]
    refine ⟨fun hl => perform_bad hperf (by rw [hl]; rfl), fun hl hm hn => perform_minimal hperf (by rw [hl]; rfl) hm hn, fun hl hm => ?_⟩
    have hcauses := perform_causes (causes := r.causes) (body := body) hperf (bad := !r.legal) (by rw [hl]; rfl) hm
    rw [hbody] at hcauses
    exact hcauses
  · obtain ⟨body, hexec, -⟩ := management_runs (.inl hb) r hr
    rw [hexec, perform_idle hb]
  · rw [cmdstop_waits hb hw hc, if_neg hst]
  · rw [cmdstop_waits hb hw hc, if_pos hst]
  · rw [submit_ready hr, if_pos hb]
  · rw [submit_ready hr, if_neg (by rw [hb]; decide), if_pos hv]
  · rw [submit_ready hr, if_neg (by rw [hb]; decide), if_neg (not_not.2 hv)]
  · intro new
    exact ⟨_, get_foldl_mailboxPut off data data.length off _ (le_refl _) (le_refl _) hrise, mailboxWrite_on hn hoff⟩
  · rw [State.mailboxRead, List.length_map, length_upto]
  · rw [mailboxRead_get s at_ n hj, State.mailboxByte, if_pos ho]
  · rw [mailboxRead_get s at_ n hj, State.mailboxByte, if_neg (by omega), if_pos hhi, getD_leBytes 4 _ _ (by omega), status_eq]
  · rw [msixUnmask_of hv, if_pos ⟨hp, hup⟩]
  · rw [msixUnmask_of hv, if_neg ?_]
    rintro ⟨hp, hup⟩
    rcases hno with hno | hno
    · rw [hp] at hno; cases hno
    · exact hno hup

end Sys2Proof.Machine
end

section
/-! PROOFS. The matrix engine: what an update makes of an accumulator element, and the tile instructions (R75, R199 to R205). -/

namespace Sys2Proof.Machine

-- The arithmetic of an update (R75).

theorem sgn_wrap_of_fits {r : Int} (hlo : -(2 ^ 79 : Int) ≤ r) (hhi : r ≤ 2 ^ 79 - 1) : sgn 80 (wrap 80 r) = r := by
  rw [sgn, wrap]
  split <;> omega

/-- An element of a FIX tile takes the floor of a finite product-block's exact sum, and saturates outside 80 bits. -/
theorem updateFix_fin (el : Nat) (anchor n e : Int) : let r := sgn 80 el + ⌊(n : ℚ) * (2 : ℚ) ^ (e - anchor)⌋
    (-(2 ^ 79 : Int) ≤ r ∧ r ≤ 2 ^ 79 - 1 → sgn 80 (updateFix el anchor (.fin n e)).1 = r ∧ (updateFix el anchor (.fin n e)).2 = false)
    ∧ (r < -(2 ^ 79 : Int) → sgn 80 (updateFix el anchor (.fin n e)).1 = -(2 ^ 79 : Int) ∧ (updateFix el anchor (.fin n e)).2 = true)
    ∧ ((2 ^ 79 : Int) - 1 < r → sgn 80 (updateFix el anchor (.fin n e)).1 = 2 ^ 79 - 1 ∧ (updateFix el anchor (.fin n e)).2 = true) := by
  intro r
  have hup : updateFix el anchor (.fin n e) = if r < -(2 ^ 79 : Int) then (wrap 80 (-(2 ^ 79)), true)
      else if (2 ^ 79 - 1 : Int) < r then (wrap 80 (2 ^ 79 - 1), true) else (wrap 80 r, false) := by
    rw [show r = sgn 80 el + floorScale n (e - anchor) by rw [floorScale_eq]]
    rfl
  rw [hup]
  refine ⟨fun ⟨hlo, hhi⟩ => ?_, fun hlo => ?_, fun hhi => ?_⟩
  · rw [if_neg (by omega), if_neg (by omega)]
    exact ⟨sgn_wrap_of_fits hlo hhi, rfl⟩
  · rw [if_pos hlo]
    exact ⟨sgn_wrap_of_fits (r := -(2 ^ 79)) (by omega) (by omega), rfl⟩
  · rw [if_neg (by omega), if_pos hhi]
    exact ⟨sgn_wrap_of_fits (r := 2 ^ 79 - 1) (by omega) (by omega), rfl⟩

/-- What an update makes of one element. -/
def Acc.updated (a : Acc) (i : Nat) (s : BlockSum) : BitVec 80 :=
  if a.fix then BitVec.ofNat 80 (updateFix (a.el.get 0 i).toNat a.anchorInt s).1 else BitVec.ofNat 80 (updateExt (a.el.get 0 i).toNat s)

/-- An update changes its element, and may set the mark of saturation. -/
theorem update_eq (a : Acc) (i : Nat) (s : BlockSum) : ∃ sat, a.update i s = { a with el := a.el.put 0 i (a.updated i s), sat := sat } := by
  rw [Acc.update, Acc.updated]
  simp only
  split
  · exact ⟨_, rfl⟩
  · exact ⟨a.sat, rfl⟩

theorem updated_congr {a b : Acc} (hf : b.fix = a.fix) (ha : b.anchor = a.anchor) {i : Nat} (he : b.el.get 0 i = a.el.get 0 i) (s : BlockSum) :
    b.updated i s = a.updated i s := by
  rw [Acc.updated, Acc.updated, hf, he, Acc.anchorInt, Acc.anchorInt, ha]

/-- A row's updates from a column on. -/
theorem updateRow_from (base : Nat) (x : List FVal) : ∀ (cols : List (List FVal × Bool)) (lo : Nat) (a : Acc), Tab.risingFrom 0 a.el = true →
    let b := (cols.zip (upto lo cols.length)).foldl (fun a c => a.update (base + c.2) (blockSum x c.1.1)) a
    (∀ j, lo ≤ j → j < lo + cols.length → b.el.get 0 (base + j) = a.updated (base + j) (blockSum x (cols.getD (j - lo) ([], false)).1))
    ∧ (∀ i, (i < base + lo ∨ base + lo + cols.length ≤ i) → b.el.get 0 i = a.el.get 0 i)
    ∧ b.fix = a.fix ∧ b.anchor = a.anchor ∧ b.owner = a.owner
  | [], lo, a, _ => ⟨fun j h h' => absurd h' (by simp; omega), fun _ _ => rfl, rfl, rfl, rfl⟩
  | c :: cols, lo, a, ha => by
    intro b
    obtain ⟨sat, hu⟩ := update_eq a (base + lo) (blockSum x c.1)
    have hrise : Tab.risingFrom 0 (a.update (base + lo) (blockSum x c.1)).el = true := by rw [hu]; exact Tab.rising_put 0 _ ha
    have hget : ∀ i, (a.update (base + lo) (blockSum x c.1)).el.get 0 i = if i = base + lo then a.updated i (blockSum x c.1) else a.el.get 0 i := fun i => by
      rw [hu, Tab.get_put 0 _ ha]
      by_cases hi : i = base + lo
      · rw [if_pos hi, if_pos hi, hi]
      · rw [if_neg hi, if_neg hi]
    obtain ⟨hin, hout, hfix, hanchor, howner⟩ := updateRow_from base x cols (lo + 1) _ hrise
    refine ⟨fun j hlo hhi => ?_, fun i hi => ?_, hfix.trans (by rw [hu]), hanchor.trans (by rw [hu]), howner.trans (by rw [hu])⟩
    · rw [List.length_cons] at hhi
      rcases Nat.eq_or_lt_of_le hlo with rfl | hlt
      · rw [Nat.sub_self, List.getD_cons_zero]
        exact (hout _ (.inl (by omega))).trans ((hget _).trans (if_pos rfl))
      · rw [show j - lo = j - (lo + 1) + 1 by omega, List.getD_cons_succ]
        refine (hin j hlt (by omega)).trans (updated_congr (by rw [hu]) (by rw [hu]) ?_ _)
        rw [hget, if_neg (by omega)]
    · rw [List.length_cons] at hi
      exact (hout i (by omega)).trans ((hget i).trans (if_neg (by omega)))

/-- R201: a row's update gives each of its elements the update by its column, and leaves every other element. -/
theorem updateRow_spec (a : Acc) (row : Nat) (x : List FVal) (cols : List (List FVal × Bool)) (hl : cols.length = 32) (ha : Tab.risingFrom 0 a.el = true) :
    (∀ j < 32, ((a.updateRow row x cols).el.get 0 (32 * row + j)) = (a.update (32 * row + j) (blockSum x (cols.getD j ([], false)).1)).el.get 0 (32 * row + j))
    ∧ (∀ i, (i < 32 * row ∨ 32 * row + 32 ≤ i) → (a.updateRow row x cols).el.get 0 i = a.el.get 0 i)
    ∧ (a.updateRow row x cols).fix = a.fix ∧ (a.updateRow row x cols).anchor = a.anchor ∧ (a.updateRow row x cols).owner = a.owner := by
  obtain ⟨hin, hout, hfix, hanchor, howner⟩ := updateRow_from (32 * row) x cols 0 a ha
  rw [hl] at hin hout hfix hanchor howner
  refine ⟨fun j hj => ?_, fun i hi => hout i (by omega), hfix, hanchor, howner⟩
  obtain ⟨sat, hu⟩ := update_eq a (32 * row + j) (blockSum x (cols.getD j ([], false)).1)
  rw [hu]
  refine (hin j (Nat.zero_le j) (by omega)).trans ?_
  rw [Nat.sub_zero]
  exact ((Tab.get_put 0 _ ha).trans (if_pos rfl)).symm

-- The tile instructions (R199 to R205).

/-- A check that passes lets what follows it go on. -/
theorem bind_fine {ε α β : Type} {x : Except ε α} (h : Fine x) (f : α → Except ε β) (d : α) : (x >>= f) = f (got x d) := by
  obtain ⟨a, rfl⟩ := h; rfl

theorem bind_fine_unit {ε β : Type} {x : Except ε Unit} (h : Fine x) (f : Unit → Except ε β) : (x >>= f) = f () := by
  obtain ⟨a, rfl⟩ := h; rfl

theorem upto_zero (n : Nat) : upto 0 n = List.range n := by rw [upto_eq, List.range_eq_range']

section
variable {s : State}

theorem checkElems_clean {p : EccPlace} {unit lo n info : Nat} (h : s.elemsPoisoned p unit lo n = false) : s.checkElems p unit lo n info = .ok () := by
  rw [State.checkElems]
  exact if_neg (by rw [h]; decide)

/-- A word whose groups' turns all pass performs them in order. -/
theorem perGroup_next {r : Req} {f : State → Nat → Nat → Except Flt State} {ok : State → Nat × Nat → Prop} {eff : State → Nat × Nat → State}
    (hp : s.Passes r) (hf : ∀ t e, ok t e → f t e.1 e.2 = .ok (eff t e)) (h : InTurn ok eff s s.issueGroups) :
    s.issueMany r (fun s => s.perGroup f) = .next (s.issueGroups.foldl eff s) :=
  (issueMany_of hp (perGroup_of hf h)).trans rfl

theorem keepRows_one (t : State) (k : Nat) (wr : Bool) (len va : Nat) : t.keepRows k wr len [va] = t.keepWay (t.agentOf k) { w := wr } va len := rfl

/-- One update of the translations that a unit holds leaves the threads, groups and tiles. -/
theorem addTlb_keeps (t : State) (u : Nat) (e : TlbEntry) : (t.addTlb u e).threads = t.threads ∧ (t.addTlb u e).groups = t.groups := by
  rw [State.addTlb]
  split
  · exact ⟨rfl, rfl⟩
  · exact ⟨rfl, rfl⟩

theorem keepWay_keeps (t : State) (a : Agent) (n : Need) (va len : Nat) :
    (t.keepWay a n va len).threads = t.threads ∧ (t.keepWay a n va len).groups = t.groups := by
  refine foldl_rel (R := fun s t => t.threads = s.threads ∧ t.groups = s.groups) (fun _ => ⟨rfl, rfl⟩)
    (fun _ _ _ h h' => ⟨h'.1.trans h.1, h'.2.trans h.2⟩) (fun t p => ?_) _ t
  split
  · split
    · exact addTlb_keeps _ _ _
    · exact ⟨rfl, rfl⟩
  · exact ⟨rfl, rfl⟩

theorem tileNo_keepRows (t : State) (k : Nat) (wr : Bool) (len va j n : Nat) : (t.keepRows k wr len [va]).tileNo j n = t.tileNo j n := by
  obtain ⟨hthreads, hgroups⟩ := keepWay_keeps t (t.agentOf k) { w := wr } va len
  rw [keepRows_one, State.tileNo, State.tileNo, State.grp, State.grp, State.thr, State.thr, hthreads, hgroups]

/-- ACCZ (R203). -/
theorem accz_spec {m : BitVec 1} {acc : BitVec 4} {anchor : BitVec 16} {eff : State → Nat × Nat → State}
    (heff : ∀ t e, eff t e = (t.took e.2 acc).replaceAcc (coreOfThread e.2) (t.tileNo e.2 acc.toNat)
      { fix := m == 1, anchor := if m = 1 then anchor else 0, owner := some (t.ctxOf e.2) })
    (hp : s.Passes { instr := .accz m acc anchor, ops := [.acc acc] })
    (h : InTurn (fun t e => Fine (t.takeover e.2 (t.tileNo e.2 acc.toNat))) eff s s.issueGroups) :
    exec (.accz m acc anchor) s = .next (s.issueGroups.foldl eff s) := by
  rw [exec_accz, execAccz]
  refine perGroup_next hp (fun t e hok => ?_) h
  rw [heff]
  exact bind_fine hok _ t

/-- The elements of a list with their numbers. -/
theorem zip_upto {α : Type} (l : List α) (d : α) : l.zip (upto 0 l.length) = (List.range l.length).map fun i => (l.getD i d, i) := by
  rw [upto_zero]
  refine List.ext_getElem (by simp) fun i h h' => ?_
  simp only [List.getElem_zip, List.getElem_range, List.getElem_map]
  rw [List.getD_eq_getElem _ _ (by simpa using h')]

theorem zip_strided (b : DWord) (w : Word) : (strided b w 32).zip (upto 0 32) = (List.range 32).map fun i => ((strided b w 32).getD i 0, i) := by
  have hl : (strided b w 32).length = 32 := by rw [strided, List.length_map, length_upto]
  have := zip_upto (strided b w 32) 0
  rwa [hl] at this

/-- ACCSV.save (R205). -/
theorem accsvSave_spec {acc : BitVec 4} {ga : BitVec 5} {va : State → Nat → Nat} {eff : State → Nat × Nat → State}
    (hva : ∀ t k, va t k = (t.ptrOf k ga.toNat).toNat)
    (heff : ∀ t e, eff t e = ((t.took e.2 acc).keepRows e.2 true 10256 [va t e.2]).engineStore e.2 (va t e.2)
      (((t.took e.2 acc).accOf (coreOfThread e.2) (t.tileNo e.2 acc.toNat)).image 0))
    (hp : s.Passes { instr := .accsvSave acc ga, ops := [.acc acc, .g ga] })
    (h : InTurn (fun t e => Fine (t.engineChecks e.2 (rowAsk 10256 16 ga true) false [va t e.2])
      ∧ Fine (t.checkWindow [(e.2, t.storeHomesOf e.2 (va t e.2) 10256)]) ∧ Fine (t.takeover e.2 (t.tileNo e.2 acc.toNat))
      ∧ (t.took e.2 acc).elemsPoisoned .acc (coreOfThread e.2) (1024 * t.tileNo e.2 acc.toNat) 1024 = false) eff s s.issueGroups) :
    exec (.accsvSave acc ga) s = .next (s.issueGroups.foldl eff s) := by
  rw [exec_accsvSave, execAccsvSave]
  refine perGroup_next hp (fun t e hok => ?_) h
  obtain ⟨hchecks, hwindow, htake, hclean⟩ := hok
  rw [hva] at hchecks hwindow
  refine (bind_fine_unit hchecks _).trans ((bind_fine_unit hwindow _).trans ((bind_fine htake _ t).trans ?_))
  refine (bind_fine_unit ⟨(), checkElems_clean hclean⟩ _).trans ?_
  rw [heff, hva]
  rfl

/-- ACCSV.load (R205). -/
theorem accsvLoad_spec {acc : BitVec 4} {ga : BitVec 5} {va : State → Nat → Nat} {eff : State → Nat × Nat → State}
    (hva : ∀ t k, va t k = (t.ptrOf k ga.toNat).toNat)
    (heff : ∀ t e, eff t e = ((t.keepRows e.2 false 10256 [va t e.2]).took e.2 acc).replaceAcc (coreOfThread e.2) (t.tileNo e.2 acc.toNat)
      (accOfImage (t.engineBytes e.2 (va t e.2) 10256).1 (some (((t.keepRows e.2 false 10256 [va t e.2]).took e.2 acc).ctxOf e.2))))
    (hp : s.Passes { instr := .accsvLoad acc ga, ops := [.acc acc, .g ga] })
    (h : InTurn (fun t e => Fine (t.engineChecks e.2 (rowAsk 10256 16 ga false) false [va t e.2])
      ∧ (let b := t.engineBytes e.2 (va t e.2) 10256
        let kept := t.keepRows e.2 false 10256 [va t e.2]
        kept.imageBad (kept.agentOf e.2) (va t e.2) = [] ∧ Fine (kept.takeover e.2 (t.tileNo e.2 acc.toNat)) ∧ (b.1.getD 10240 0).toNat ≤ 1
          ∧ ∀ x ∈ b.1.drop 10244, x = 0)) eff s s.issueGroups) :
    exec (.accsvLoad acc ga) s = .next (s.issueGroups.foldl eff s) := by
  rw [exec_accsvLoad, execAccsvLoad]
  refine perGroup_next hp (fun t e hok => ?_) h
  obtain ⟨hchecks, hbad, htake, hmode, hzero⟩ := hok
  rw [hva] at hchecks hbad htake hmode hzero
  refine (bind_fine_unit hchecks _).trans ?_
  have hheader : ¬ (1 < (((t.engineBytes e.2 (t.ptrOf e.2 ga.toNat).toNat 10256).1.drop 10240).getD 0 0).toNat
      ∨ (((t.engineBytes e.2 (t.ptrOf e.2 ga.toNat).toNat 10256).1.drop 10240).drop 4).any (· != 0)) := by
    rw [List.drop_drop, List.getD_eq_getElem?_getD, List.getElem?_drop, ← List.getD_eq_getElem?_getD]
    rintro (hm | hm)
    · exact absurd hm (Nat.not_lt.2 hmode)
    · obtain ⟨x, hx, hne⟩ := List.any_eq_true.1 hm
      exact absurd (hzero x hx) (by simpa using hne)
  refine (if_neg hheader).trans ((bind_fine htake _ (t.keepRows e.2 false 10256 [(t.ptrOf e.2 ga.toNat).toNat])).trans ?_)
  rw [hbad, heff, hva, State.took, tileNo_keepRows]
  rfl

/-- ACCRD (R205). -/
theorem accrd_spec {fr : BitVec 2} {d a : BitVec 7} {acc : BitVec 4} {elem : State → Nat → Nat} {eff : State → Nat × Nat → State}
    (helem : ∀ t k, elem t k = 32 * ((t.v k a.toNat).toNat % 32) + (t.v k a.toNat).toNat / 256 % 32)
    (heff : ∀ t e, eff t e = ((t.took e.2 acc).issuedOf e.1).foldl (fun w k => w.variable k ((t.took e.2 acc).intDst k false (fr == 1 || fr == 2) d.toNat
      (((t.took e.2 acc).accOf (coreOfThread e.2) (t.tileNo e.2 acc.toNat)).read fr.toNat (elem (t.took e.2 acc) k)))) (t.took e.2 acc))
    (hp : s.Passes { instr := .accrd fr d a acc, ops := [.dst d (fr == 1 || fr == 2), .src a, .acc acc] })
    (h : InTurn (fun t e => Fine (t.takeover e.2 (t.tileNo e.2 acc.toNat))
      ∧ ∀ k ∈ (t.took e.2 acc).issuedOf e.1, (t.took e.2 acc).elemsPoisoned .acc (coreOfThread e.2)
        (1024 * t.tileNo e.2 acc.toNat + elem (t.took e.2 acc) k) 1 = false) eff s s.issueGroups) :
    exec (.accrd fr d a acc) s = .next (s.issueGroups.foldl eff s) := by
  rw [exec_accrd, execAccrd]
  refine perGroup_next hp (fun t e hok => ?_) h
  obtain ⟨htake, hclean⟩ := hok
  have helem' : ∀ u k, elem u k = 32 * field (u.v k a.toNat).toNat 0 5 + field (u.v k a.toNat).toNat 8 5 := fun u k => by
    rw [helem, field, field, Nat.pow_zero, Nat.div_one]
    rfl
  simp only [helem'] at hclean
  refine (bind_fine htake _ t).trans ?_
  have hnone : firstThat (fun k => (t.took e.2 acc).elemsPoisoned .acc (coreOfThread e.2) (1024 * t.tileNo e.2 acc.toNat
      + (32 * field ((t.took e.2 acc).v k a.toNat).toNat 0 5 + field ((t.took e.2 acc).v k a.toNat).toNat 8 5)) 1) ((t.took e.2 acc).issuedOf e.1) = none :=
    firstThat_none.2 hclean
  show (match firstThat (fun k => (t.took e.2 acc).elemsPoisoned .acc (coreOfThread e.2) (1024 * t.tileNo e.2 acc.toNat
      + (32 * field ((t.took e.2 acc).v k a.toNat).toNat 0 5 + field ((t.took e.2 acc).v k a.toNat).toNat 8 5)) 1) ((t.took e.2 acc).issuedOf e.1) with
    | some _ => _
    | none => _) = _
  rw [hnone, heff]
  simp only [helem', State.intDst, Bool.false_eq_true, if_false]
  rfl

/-- TLD (R205). -/
theorem tld_spec {t3 : BitVec 3} {ga : BitVec 5} {wsa : BitVec 6} {eff : State → Nat × Nat → State}
    (heff : ∀ t e, eff t e = (t.keepRows e.2 false 64 (t.rowsOf e.1 e.2 ga wsa)).variable e.1 ((List.range 32).map fun i =>
      RegWrite.tile e.1 (32 * t3.toNat + i) ((List.range 32).map fun j =>
        BitVec.ofNat 16 (leNat ((((t.engineBytes e.2 ((t.rowsOf e.1 e.2 ga wsa).getD i 0) 64).1).drop (2 * j)).take 2))) false))
    (hp : s.Passes { instr := .tld t3 ga wsa, ops := [.tile t3.toNat, .g ga, .usrc wsa.toNat] })
    (h : InTurn (fun t e => Fine (t.engineChecks e.2 (rowAsk 64 2 ga false) false (t.rowsOf e.1 e.2 ga wsa))
      ∧ ∀ va ∈ t.rowsOf e.1 e.2 ga wsa, (t.engineBytes e.2 va 64).2 = false) eff s s.issueGroups) :
    exec (.tld t3 ga wsa) s = .next (s.issueGroups.foldl eff s) := by
  rw [exec_tld, execTld]
  refine perGroup_next hp (fun t e hok => ?_) h
  obtain ⟨hchecks, hbad⟩ := hok
  refine (bind_fine_unit hchecks _).trans ?_
  have hgood : ∀ i < 32, (t.engineBytes e.2 ((t.rowsOf e.1 e.2 ga wsa).getD i 0) 64).2 = false := fun i hi => by
    refine hbad _ ?_
    have hl : (t.rowsOf e.1 e.2 ga wsa).length = 32 := by rw [State.rowsOf, strided, List.length_map, length_upto]
    rw [List.getD_eq_getElem _ _ (by omega)]
    exact List.getElem_mem _
  have hdata : (((t.rowsOf e.1 e.2 ga wsa).zip (upto 0 32)).map fun x => ((x.2, (upto 0 32).map fun j =>
        leNat (((t.engineBytes e.2 x.1 64).1.drop (2 * j)).take 2), (t.engineBytes e.2 x.1 64).2) : Nat × List Nat × Bool))
      = (List.range 32).map fun i => (i, (List.range 32).map fun j =>
        leNat (((t.engineBytes e.2 ((t.rowsOf e.1 e.2 ga wsa).getD i 0) 64).1.drop (2 * j)).take 2), false) := by
    rw [State.rowsOf, zip_strided, List.map_map, upto_zero]
    refine List.map_congr_left fun i hi => ?_
    rw [Function.comp_apply]
    exact congrArg (fun b => (i, _, b)) (hgood i (List.mem_range.1 hi))
  have hstore : ∀ data : List (Nat × List Nat × Bool), data = ((List.range 32).map fun i => (i, (List.range 32).map fun j =>
        leNat (((t.engineBytes e.2 ((t.rowsOf e.1 e.2 ga wsa).getD i 0) 64).1.drop (2 * j)).take 2), false)) →
      (if data.any (·.2.2) then ((t.keepRows e.2 false 64 (t.rowsOf e.1 e.2 ga wsa)).tileRows e.1 t3.toNat data).poisonedSource e.2 2 0
        else (t.keepRows e.2 false 64 (t.rowsOf e.1 e.2 ga wsa)).tileRows e.1 t3.toNat data) = eff t e := by
    rintro _ rfl
    rw [if_neg (by rw [List.any_map, List.any_eq_true]; rintro ⟨i, _, hi⟩; exact absurd hi Bool.false_ne_true), heff, State.tileRows, List.map_map]
    refine congrArg (State.variable _ e.1) (List.map_congr_left fun i _ => ?_)
    rw [Function.comp_apply, List.map_map]
    rfl
  exact congrArg Except.ok (hstore _ hdata)

/-- TST (R205). -/
theorem tst_spec {t3 : BitVec 3} {ga : BitVec 5} {wsa : BitVec 6} {eff : State → Nat × Nat → State}
    (heff : ∀ t e, eff t e = (List.range 32).foldl (fun u i =>
      u.engineStore e.2 ((t.rowsOf e.1 e.2 ga wsa).getD i 0) (((t.tileBytes e.1 t3.toNat).drop (64 * i)).take 64)) (t.keepRows e.2 true 64 (t.rowsOf e.1 e.2 ga wsa)))
    (hp : s.Passes { instr := .tst t3 ga wsa, ops := [.tile t3.toNat, .g ga, .usrc wsa.toNat] })
    (h : InTurn (fun t e => Fine (t.engineChecks e.2 (rowAsk 64 2 ga true) false (t.rowsOf e.1 e.2 ga wsa))
      ∧ Fine (t.checkWindow [(e.2, (t.rowsOf e.1 e.2 ga wsa).flatMap fun va => t.storeHomesOf e.2 va 64)])
      ∧ t.tileBad e.1 t3.toNat = false) eff s s.issueGroups) :
    exec (.tst t3 ga wsa) s = .next (s.issueGroups.foldl eff s) := by
  rw [exec_tst, execTst]
  refine perGroup_next hp (fun t e hok => ?_) h
  obtain ⟨hchecks, hwindow, hbad⟩ := hok
  refine (bind_fine_unit hchecks _).trans ((bind_fine_unit hwindow _).trans ?_)
  refine (if_neg (by rw [hbad]; decide)).trans ?_
  rw [heff]
  refine congrArg Except.ok ?_
  rw [show strided (t.ptrOf e.2 ga.toNat) (t.w e.1 wsa.toNat) 32 = t.rowsOf e.1 e.2 ga wsa from rfl,
    show (t.rowsOf e.1 e.2 ga wsa).zip (upto 0 32) = (List.range 32).map fun i => ((t.rowsOf e.1 e.2 ga wsa).getD i 0, i) from zip_strided _ _, List.foldl_map]

/-- ACCDR (R204). -/
theorem accdr_spec {f acc : BitVec 4} {td : BitVec 1} {ga gb : BitVec 5} {res : BitVec 1} {rnd : BitVec 3} {scl drop : BitVec 1} {wsa : BitVec 6}
    {one : State → Nat × Nat → Except Flt State}
    (hone : ∀ t e, one t e
      = t.drain (t.drainOf e.1 f rnd scl drop wsa.toNat) acc (td == 1) ga gb (res == 1) (t.w e.1 (wsa.toNat + 1)) (t.w e.1 (wsa.toNat + 2)) e.1 e.2)
    (hp : s.Passes { instr := .accdr f acc td ga gb res rnd scl drop wsa,
                     ops := [.acc acc, if td == 1 then .tile ga.toNat else .g ga] ++ (if res == 1 then [.g gb] else []) ++ [.usrc wsa.toNat false 9] })
    (h : InTurn (fun t e => Fine (one t e)) (fun t e => got (one t e) t) s s.issueGroups) :
    exec (.accdr f acc td ga gb res rnd scl drop wsa) s = .next (s.issueGroups.foldl (fun t e => got (one t e) t) s) := by
  rw [exec_accdr, execAccdr]
  exact perGroup_next hp (fun t e hok => (hone t e).symm.trans (got_of hok t)) h

/-- A quarter whose slot of rows holds no poison meets none. -/
theorem mmqPoison_clean {t : State} {q : Quarter} {slot acc : Nat}
    (h : t.elemsPoisoned .acc (coreOfThread q.k) (1024 * q.tile + 256 * slot) 256 = false) : t.mmqPoison q slot acc = .ok () := by
  rw [State.mmqPoison]
  refine if_neg ?_
  rw [List.any_eq_true]
  rintro ⟨i, hi, hbad⟩
  have hlt := (mem_upto.1 (List.mem_filter.1 hi).1).2
  refine Bool.false_ne_true (h.symm.trans ?_)
  rw [State.elemsPoisoned, Bool.and_eq_true, List.any_eq_true] at hbad ⊢
  obtain ⟨hany, x, hx, hin⟩ := hbad
  refine ⟨hany, x, hx, ?_⟩
  simp only [Bool.and_eq_true, decide_eq_true_eq] at hin ⊢
  exact ⟨⟨hin.1.1, by omega⟩, by omega⟩

/-- MMQ (R201, R202). -/
theorem mmq_spec {kind acc : BitVec 4} {slot : BitVec 2} {ga gb : BitVec 5} {wsa wsb : BitVec 6}
    (hp : s.Passes { instr := .mmq kind acc slot ga gb wsa wsb, ops := [.acc acc, .g ga, .g gb, .usrc wsa.toNat, .usrc wsb.toNat] })
    (hchecks : Fine (s.mmqChecks kind.toNat ga gb (s.quarters acc ga gb wsa wsb)))
    (hwaits : ∀ q ∈ s.quarters acc ga gb wsa wsb, s.mmqWaits kind.toNat ga gb q = false) {eff : State → Quarter → State}
    (heff : ∀ t q, eff t q = ((got (t.takeover q.k q.tile) t).mmqQuarter kind.toNat ga gb slot.toNat q).1)
    (h : InTurn (fun t q => Fine (t.takeover q.k q.tile)
      ∧ (got (t.takeover q.k q.tile) t).elemsPoisoned .acc (coreOfThread q.k) (1024 * q.tile + 256 * slot.toNat) 256 = false
      ∧ ((got (t.takeover q.k q.tile) t).mmqQuarter kind.toNat ga gb slot.toNat q).2 = none) eff s (s.quarters acc ga gb wsa wsb)) :
    exec (.mmq kind acc slot ga gb wsa wsb) s = .next ((s.quarters acc ga gb wsa wsb).foldl eff s) := by
  have hone : ∀ (l : List Quarter) (t : State), InTurn (fun t q => Fine (t.takeover q.k q.tile)
        ∧ (got (t.takeover q.k q.tile) t).elemsPoisoned .acc (coreOfThread q.k) (1024 * q.tile + 256 * slot.toNat) 256 = false
        ∧ ((got (t.takeover q.k q.tile) t).mmqQuarter kind.toNat ga gb slot.toNat q).2 = none) eff t l →
      l.foldl (State.mmqOne kind.toNat ga gb slot.toNat acc.toNat) (t, []) = (l.foldl eff t, []) := by
    intro l
    induction l with
    | nil => intro t _; rfl
    | cons q l ih =>
      rintro t ⟨⟨htake, hclean, hstop⟩, hrest⟩
      rw [List.foldl_cons, List.foldl_cons, ← ih _ hrest]
      refine congrArg (fun a => List.foldl _ a l) ?_
      obtain ⟨u, hu⟩ := htake
      have hgot : got (t.takeover q.k q.tile) t = u := by rw [hu]; rfl
      rw [hgot] at hclean hstop
      rw [heff, hgot, State.mmqOne]
      simp only [hu, mmqPoison_clean (acc := acc.toNat) hclean]
      split
      · next hq => rw [hq]
      · next hq => rw [hq] at hstop; cases hstop
  obtain ⟨_, hok⟩ := hchecks
  rw [exec_mmq, execMmq]
  refine (issueMany_of (t := (s.quarters acc ga gb wsa wsb).foldl eff s) (fs := []) hp ?_).trans rfl
  simp only [hok]
  rw [if_neg (by rw [List.any_eq_true]; rintro ⟨q, hq, hw⟩; exact absurd (hwaits q hq) (by rw [hw]; decide)), hone _ _ h]

end

/-- Settles O42: the arithmetic of an update by the element, and each tile instruction by its groups or quarters in turn. -/
theorem accumulatorsAndTilesComplete : Obligations.AccumulatorsAndTilesComplete := by
  unfold Obligations.AccumulatorsAndTilesComplete
  refine ⟨⟨updateFix_fin, fun a row x cols => updateRow_spec a row x cols⟩,
    fun s acc kind f slot fr m td res scl drop anchor ga gb wsa wsb t3 rnd d a => ⟨?_, ⟨?_, ?_⟩, ?_, ?_, ?_, ?_, ?_⟩⟩
  · exact fun hp h => accz_spec (fun _ _ => rfl) hp h
  · exact fun hp h => accsvSave_spec (va := fun t k => (t.ptrOf k ga.toNat).toNat) (fun _ _ => rfl) (fun _ _ => rfl) hp h
  · exact fun hp h => accsvLoad_spec (va := fun t k => (t.ptrOf k ga.toNat).toNat) (fun _ _ => rfl) (fun _ _ => rfl) hp h
  · exact fun hp h => accrd_spec (elem := fun t k => 32 * ((t.v k a.toNat).toNat % 32) + (t.v k a.toNat).toNat / 256 % 32) (fun _ _ => rfl) (fun _ _ => rfl) hp h
  · exact fun hp h => tld_spec (fun _ _ => rfl) hp h
  · exact fun hp h => tst_spec (fun _ _ => rfl) hp h
  · exact fun hp h => accdr_spec (fun _ _ => rfl) hp h
  · exact fun hp hchecks hwaits h => mmq_spec hp hchecks hwaits (fun _ _ => rfl) h

end Sys2Proof.Machine
end

section
/-! PROOFS. Triangles: the walk of RAST, the rule of shared edges, and RAST, RASTG and EDGS where their checks pass (R209 to R218). -/

namespace Sys2Proof.Machine

-- The walk (R211, R212).

theorem firstFrom_some {t : Tri} {sc : BitVec 2} {v : Nat} {c : Sample} : ∀ {fuel w : Nat}, t.firstFrom sc fuel w = some (v, c) →
    w ≤ v ∧ t.candidate sc v = some c ∧ ∀ u, w ≤ u → u < v → t.candidate sc u = none
  | fuel + 1, w, h => by
    rw [Tri.firstFrom] at h
    cases hc : t.candidate sc w with
    | some c' =>
      simp only [hc, Option.some.injEq, Prod.mk.injEq] at h
      obtain ⟨rfl, rfl⟩ := h
      exact ⟨Nat.le_refl w, hc, fun u h h' => absurd h (by omega)⟩
    | none =>
      simp only [hc] at h
      obtain ⟨hle, hv, hnone⟩ := firstFrom_some h
      refine ⟨by omega, hv, fun u h h' => ?_⟩
      rcases Nat.eq_or_lt_of_le h with rfl | hlt
      · exact hc
      · exact hnone u hlt h'

theorem firstFrom_none {t : Tri} {sc : BitVec 2} : ∀ {fuel w : Nat}, t.firstFrom sc fuel w = none → ∀ u, w ≤ u → u < w + fuel → t.candidate sc u = none
  | 0, w, _, u, h, h' => absurd h' (by omega)
  | fuel + 1, w, hf, u, h, h' => by
    rw [Tri.firstFrom] at hf
    cases hc : t.candidate sc w with
    | some c => simp only [hc] at hf; cases hf
    | none =>
      simp only [hc] at hf
      rcases Nat.eq_or_lt_of_le h with rfl | hlt
      · exact hc
      · exact firstFrom_none hf u hlt (by omega)

/-- A candidate is covered where its sample lies. -/
theorem covers_of_candidate {t : Tri} {sc : BitVec 2} {v : Nat} {c : Sample} (h : t.candidate sc v = some c) :
    t.covers (256 * c.px + (sampleOffset sc c.s).1) (256 * c.py + (sampleOffset sc c.s).2) = true := by
  unfold Tri.candidate at h
  split at h
  split at h
  extract_lets n b r px py o at h
  split at h
  · next hcov =>
    cases h
    exact hcov.2.2.2
  · cases h

/-- Past the last position of a walk there is no candidate. -/
theorem candidate_none_of_le {t : Tri} {sc : BitVec 2} {u : Nat} (h : t.positions sc ≤ u) : t.candidate sc u = none := by
  unfold Tri.candidate
  split
  split
  next nx ny hblocks =>
  refine if_neg fun hcov => ?_
  have hlt := hcov.1
  rw [Tri.positions, hblocks] at h
  have hpos : 0 < 64 * sampleCount sc := Nat.mul_pos (by decide) (Nat.two_pow_pos sc.toNat)
  rw [Nat.div_lt_iff_lt_mul hpos, ← Nat.mul_assoc] at hlt
  exact absurd h (Nat.not_le.2 hlt)

theorem next_none {t : Tri} {sc : BitVec 2} {w : Nat} (h : t.next sc w = none) (u : Nat) (hu : w ≤ u) : t.candidate sc u = none := by
  rcases Nat.lt_or_ge u (t.positions sc) with hlt | hge
  · exact firstFrom_none h u hu (by omega)
  · exact candidate_none_of_le hge

/-- Of two triangles on opposite sides of an edge at most one owns it, so at most one covers a point of it (R210). -/
theorem not_covers_both {t u : Tri} {x y : Int} (h1 : u.v1 = t.v2) (h2 : u.v2 = t.v1) (hs : t.a2.sign = u.a2.sign) (he : t.edge 0 x y = 0) :
    ¬ (t.covers x y = true ∧ u.covers x y = true) := by
  rintro ⟨ht, hu⟩
  have he' : u.edge 0 x y = 0 := by
    have : u.edge 0 x y = -t.edge 0 x y := by
      simp only [Tri.edge, Tri.v, show ¬ (0 + 1) % 3 = 0 by decide, show ¬ (0 + 2) % 3 = 0 by decide, show ¬ (0 + 2) % 3 = 1 by decide,
        show (0 + 1) % 3 = 1 by decide, if_false, if_true, h1, h2, hs]
      ring
    rw [this, he, neg_zero]
  have howns : ∀ {v : Tri}, v.covers x y = true → v.edge 0 x y = 0 → v.owns 0 = true := fun {v} hv hz => by
    rw [Tri.covers, Bool.and_eq_true, List.all_eq_true] at hv
    have h0 := hv.2 0 (mem_upto.2 (by omega))
    simpa [hz] using h0
  have ho := howns ht he
  have ho' := howns hu he'
  simp only [Tri.owns, Tri.v, show ¬ (0 + 1) % 3 = 0 by decide, show ¬ (0 + 2) % 3 = 0 by decide, show ¬ (0 + 2) % 3 = 1 by decide,
    show (0 + 1) % 3 = 1 by decide, if_false, if_true, h1, h2, ← hs, Bool.or_eq_true, Bool.and_eq_true, decide_eq_true_eq, beq_iff_eq] at ho ho'
  have hx : t.a2.sign * (t.v1.x - t.v2.x) = -(t.a2.sign * (t.v2.x - t.v1.x)) := by ring
  have hy : t.a2.sign * (t.v1.y - t.v2.y) = -(t.a2.sign * (t.v2.y - t.v1.y)) := by ring
  rw [hx, hy] at ho'
  omega

-- The groups' checks (R400).

/-- Groups that all pass give their triangles in order. -/
theorem checkGroups_of {α : Type} {f : Nat → Except Nat α} : ∀ {l : List (Nat × Nat)} {ts : List (Nat × α)}, ts.map (·.1) = l.map (·.1) →
    (∀ e ∈ ts, f e.1 = .ok e.2) → checkGroups f l = .ok ts
  | [], [], _, _ => rfl
  | e :: l, x :: ts, h, hok => by
    rw [List.map_cons, List.map_cons, List.cons.injEq] at h
    rw [checkGroups, ← h.1, hok x List.mem_cons_self]
    simp only [checkGroups_of h.2 fun e he => hok e (List.mem_cons_of_mem _ he)]

/-- Each group stands once in the issue set's groups. -/
theorem nodup_issueGroups (s : State) : (s.issueGroups.map (·.1)).Nodup := by
  have hgo : ∀ (l : List Nat) (acc : List (Nat × Nat)), (acc.map (·.1)).Nodup →
      ((l.foldl (fun acc k => if acc.any (fun e => e.1 == (s.thr k).grp) then acc else acc ++ [((s.thr k).grp, k)]) acc).map (·.1)).Nodup := by
    intro l
    induction l with
    | nil => exact fun _ h => h
    | cons k l ih =>
      refine fun acc h => ih _ ?_
      beta_reduce
      split
      · exact h
      · next hany =>
        rw [List.map_append, List.map_singleton, List.nodup_append]
        refine ⟨h, List.nodup_singleton _, ?_⟩
        rintro g hg _ hg' rfl
        obtain ⟨e, he, rfl⟩ := List.mem_map.1 hg
        exact hany (List.any_eq_true.2 ⟨e, he, by simpa using List.mem_singleton.1 hg'⟩)
  exact hgo s.issue [] List.nodup_nil

/-- In a list of distinct keys, what is made of the first entry of a key is what is made of all its entries. -/
theorem flatMap_filter_key {α β : Type} {f : α → List β} {g : Nat} : ∀ {l : List (Nat × α)}, (l.map (·.1)).Nodup →
    (l.filter fun e => e.1 == g).flatMap (fun e => f e.2) = (match firstThat (fun (e : Nat × α) => e.1 == g) l with
      | some (_, x) => f x
      | none => [])
  | [], _ => rfl
  | e :: l, h => by
    rw [List.map_cons, List.nodup_cons] at h
    rw [firstThat, List.filter_cons]
    by_cases he : (e.1 == g) = true
    · rw [if_pos he, if_pos he, List.flatMap_cons, List.filter_eq_nil_iff.2, List.flatMap_nil, List.append_nil]
      intro x hx hxg
      exact h.1 (List.mem_map.2 ⟨x, hx, by rw [beq_iff_eq] at he hxg; rw [he, hxg]⟩)
    · rw [if_neg he, if_neg he]
      exact flatMap_filter_key h.2

-- The words.

section
variable {s : State} {ts : List (Nat × Tri)} (hts : ts.map (·.1) = s.issueGroups.map (·.1))
include hts

/-- RAST (R213). -/
theorem rast_spec {sc : BitVec 2} {d si : BitVec 7} {wv wt : BitVec 6} {p : BitVec 4}
    (hp : s.Passes { instr := .rast sc d wv wt p si,
                     ops := [{ cls := .vec, n := d.toNat, cnt := 4, quad := true, rd := false, wr := true }, .usrc wv.toNat false 12,
                             { cls := .uni, n := wt.toNat, wr := true }, .pdst p.toNat, .dst si] })
    (hok : ∀ e ∈ ts, s.triCheck e.1 wv = .ok e.2 ∧ rastToken e.2 sc (s.w e.1 wt.toNat) = true) {eff : State → Nat × Tri → State}
    (heff : ∀ t e, eff t e = if t.w e.1 wt.toNat = 0xFFFFFFFF then (t.issuedOf e.1).foldl (fun u k => u.variable k [.pred k p.toNat false]) t
      else ((t.rastLanes e.2 sc d p si (t.issuedOf e.1) (t.w e.1 wt.toNat).toNat).1.foldl (fun u x => u.variable x.1 x.2) t).variable ((t.issuedOf e.1).headD 0)
        [.ureg e.1 wt.toNat (if e.2.next sc (t.rastLanes e.2 sc d p si (t.issuedOf e.1) (t.w e.1 wt.toNat).toNat).2 = none then 0xFFFFFFFF
          else BitVec.ofNat 32 (t.rastLanes e.2 sc d p si (t.issuedOf e.1) (t.w e.1 wt.toNat).toNat).2)]) :
    exec (.rast sc d wv wt p si) s = .next (ts.foldl eff s) := by
  rw [exec_rast, execRast]
  refine issueWord_of hp ?_
  have hcheck := checkGroups_of (f := fun g => match s.triCheck g wv with
      | .error i => .error i
      | .ok t => if rastToken t sc (s.w g wt.toNat) then .ok t else .error 0x24) hts fun e he => by
    obtain ⟨htri, htok⟩ := hok e he
    simp only [htri, htok, if_true]
  refine (congrArg (· >>= _) hcheck).trans ?_
  refine congrArg Except.ok (congrArg (fun f => List.foldl f s ts) ?_)
  funext t e
  rw [heff]
  simp only [Option.isNone_iff_eq_none]
  rfl

/-- EDGS (R218). -/
theorem edgs_spec {d : BitVec 7} {wv wt wk : BitVec 6} {p : BitVec 4}
    (hp : s.Passes { instr := .edgs d wv wt p wk,
                     ops := [.block d 10 true true, { cls := .uni, n := wv.toNat, cnt := 12, rd := false, bound := true },
                             .usrc wv.toNat false 2, .usrc (wv.toNat + 4) false 2, .usrc (wv.toNat + 8) false 2,
                             { cls := .uni, n := wt.toNat, wr := true }, .pdst p.toNat, .usrc wk.toNat false 6] })
    (hok : ∀ e ∈ ts, s.edgeCheck e.1 wv wt wk = .ok e.2) {eff : State → Nat × Tri → State}
    (heff : ∀ t e, eff t e = if t.w e.1 wt.toNat = 0xFFFFFFFF ∨ e.2.eligible (t.edgePar e.1 wk).mask = [] then
        ((t.issuedOf e.1).foldl (fun u k => u.variable k [.pred k p.toNat false]) t).variable ((t.issuedOf e.1).headD 0) [.ureg e.1 wt.toNat 0xFFFFFFFF]
      else ((t.edgeLanes e.2 (t.edgePar e.1 wk) d p (t.issuedOf e.1) (t.w e.1 wt.toNat).toNat).1.foldl (fun u x => u.variable x.1 x.2) t).variable
        ((t.issuedOf e.1).headD 0) [.ureg e.1 wt.toNat
          (if (t.edgePar e.1 wk).n ≤ (t.edgeLanes e.2 (t.edgePar e.1 wk) d p (t.issuedOf e.1) (t.w e.1 wt.toNat).toNat).2 then 0xFFFFFFFF
            else BitVec.ofNat 32 (t.edgeLanes e.2 (t.edgePar e.1 wk) d p (t.issuedOf e.1) (t.w e.1 wt.toNat).toNat).2)]) :
    exec (.edgs d wv wt p wk) s = .next (ts.foldl eff s) := by
  rw [exec_edgs, execEdgs]
  refine issueWord_of hp ?_
  refine (congrArg (· >>= _) (checkGroups_of (f := fun g => s.edgeCheck g wv wt wk) hts hok)).trans ?_
  refine congrArg Except.ok (congrArg (fun f => List.foldl f s ts) ?_)
  funext t e
  rw [heff]
  simp only [List.isEmpty_iff]
  rfl

/-- RASTG (R216). -/
theorem rastg_spec {sc : BitVec 2} {g : BitVec 5} {a b si : BitVec 7} {wv : BitVec 6} {p : BitVec 4} {lanes : List (Nat × DWord × Nat)}
    {xs : List GaddLane}
    (hp : s.Passes { instr := .rastg sc g a b wv p si, ops := [.g g, .vblock a 3 2, .src b, .usrc wv.toNat false 12, .psrc p.toNat, .src si] })
    (hok : ∀ e ∈ ts, s.triCheck e.1 wv = .ok e.2)
    (hlanes : lanes = (s.issue.filter fun k => s.p k p.toNat).flatMap (fun k => (ts.filter fun e => e.1 == (s.thr k).grp).flatMap fun e =>
      ((s.rastgAddends e.2 sc a b si k).zip (List.range 12)).map fun x => (k, s.ptrOf k g.toNat + BitVec.ofNat 64 (4 * x.2), x.1.toNat)))
    (hadds : s.checkGadds g.toNat 0 0x59 lanes = .ok xs) (hwindow : Fine (s.checkGaddWindow xs)) :
    exec (.rastg sc g a b wv p si) s = .next (State.sendGadds { s with free := s.free + 1 } xs) := by
  rw [exec_rastg, execRastg]
  refine issueWord_of hp ?_
  refine (congrArg (· >>= _) (checkGroups_of (f := fun gr => s.triCheck gr wv) hts hok)).trans ?_
  have hsame : ((s.issue.filter fun k => s.p k p.toNat).flatMap fun k =>
      match firstThat (fun (e : Nat × Tri) => e.1 == (s.thr k).grp) ts with
      | some (_, t) => (s.rastgAddends t sc a b si k).zip (upto 0 12) |>.map fun e => (k, s.eaOf k g.toNat (4 * e.2 : Nat), e.1.toNat)
      | none => []) = lanes := by
    rw [hlanes]
    refine List.flatMap_congr fun k _ => ?_
    rw [flatMap_filter_key (f := fun t => ((s.rastgAddends t sc a b si k).zip (List.range 12)).map fun x =>
      (k, s.ptrOf k g.toNat + BitVec.ofNat 64 (4 * x.2), x.1.toNat)) (by rw [hts]; exact nodup_issueGroups s), upto_zero]
    simp only [eaOf_eq, BitVec.ofInt_natCast]
    cases firstThat (fun (e : Nat × Tri) => e.1 == (s.thr k).grp) ts <;> rfl
  refine Eq.trans (b := s.checkGadds g.toNat 0 0x59 lanes >>= fun xs => s.checkGaddWindow xs >>= fun _ => .ok (s.takeFree.2.sendGadds xs)) ?_ ?_
  · rw [← hsame]; rfl
  · rw [hadds]
    exact bind_fine_unit hwindow _

end

/-- Settles O43: the walk by the recursion over its positions, the shared edge by the ownership rule, and the words by their groups' checks. -/
theorem rasterInstructionsComplete : Obligations.RasterInstructionsComplete := by
  unfold Obligations.RasterInstructionsComplete
  intro s sc d si a b wv wt wk p g ts
  refine ⟨fun hp hts hok => rast_spec hts hp hok fun _ _ => rfl, fun t w => ⟨?_, ?_, ?_, ?_⟩, ?_, fun hp hts hok => edgs_spec hts hp hok fun _ _ => rfl⟩
  · exact fun v c h => firstFrom_some h
  · exact fun h => next_none h
  · exact fun v c h => covers_of_candidate h
  · exact fun u x y h1 h2 hs he => not_covers_both h1 h2 hs he
  · exact fun lanes xs hp hts hok hlanes hadds hwindow => rastg_spec hts hp hok hlanes hadds hwindow

end Sys2Proof.Machine
end

section
/-! PROOFS. Textures: the texture instructions and RREC where their records and accesses pass (R219 to R225). -/

namespace Sys2Proof.Machine

section
variable {s : State}

/-- Where the computation passes in every lane that has a record, the lanes' results stand in their order. -/
theorem texLanes_of {α : Type} {b : BitVec 7} {recs : List TexRec} {f : Nat → TexRec → Except Flt α} (d : α)
    (h : ∀ k ∈ s.issue, ∀ t, recs.find? (fun t => t.idx == s.texIdx b k) = some t → Fine (f k t)) :
    s.texLanes b recs f = .ok (s.issue.filterMap fun k => (recs.find? fun t => t.idx == s.texIdx b k).map fun t => got (f k t) d) := by
  rw [State.texLanes, List.map_filterMap]
  have hall : ∀ k ∈ s.issue, Option.map (fun x : Nat × Except Flt α => x.2) ((firstThat (fun t => t.idx == s.texIdx b k) recs).map fun t => (k, f k t))
      = ((recs.find? fun t => t.idx == s.texIdx b k).map fun t => got (f k t) d).map Except.ok := fun k hk => by
    rw [firstThat_eq]
    cases hf : recs.find? fun t => t.idx == s.texIdx b k with
    | none => rfl
    | some t => exact congrArg some (got_of (h k hk t hf) d)
  rw [List.filterMap_congr hall, ← List.map_filterMap]
  exact (lanesOf_of (l := s.issue.filterMap _) (f := Except.ok) (g := id) fun _ _ => rfl).trans (congrArg Except.ok (List.map_id _))

/-- TEX and TEXG (R223): `ch` is the channel that TEXG gathers. -/
theorem texWord_of {i : Instr} {lz : BitVec 1} {d a b : BitVec 7} {ch : Option Nat} (none_ : TexOut)
    (hexec : exec i s = s.issueWord { instr := i, ops := texOpds d a b lz } fun s => s.laneRecords b true false >>= fun recs =>
      s.texLanes b recs (fun k t => s.texLane d a lz ch k t) >>= fun outs =>
        .ok (outs.foldl State.putTex (s.takeFree.2.keepRecords (s.issue.headD 0) recs)))
    (hp : s.Passes { instr := i, ops := texOpds d a b lz }) (hr : Fine (s.laneRecords b true false))
    (h : ∀ k ∈ s.issue, ∀ t, (got (s.laneRecords b true false) []).find? (fun t => t.idx == s.texIdx b k) = some t → Fine (s.texLane d a lz ch k t)) :
    exec i s = .next ((s.issue.filterMap fun k => ((got (s.laneRecords b true false) []).find? fun t => t.idx == s.texIdx b k).map fun t =>
      got (s.texLane d a lz ch k t) none_).foldl State.putTex
        (State.keepRecords { s with free := s.free + 1 } (s.issue.headD 0) (got (s.laneRecords b true false) []))) := by
  rw [hexec]
  refine issueWord_of hp ((bind_fine hr _ []).trans ?_)
  rw [texLanes_of none_ h]
  rfl

/-- TEXL (R223). -/
theorem texl_spec {d a b : BitVec 7} (hp : s.Passes { instr := .texl d a b, ops := texOpds d a b 0 }) (hr : Fine (s.laneRecords b false false))
    {at_ : Nat → Nat → Nat} (hat : ∀ k i, at_ k i = (s.v k (a.toNat + i)).toNat) {out : Nat → TexOut}
    (hnone : ∀ k, (got (s.laneRecords b false false) []).find? (fun t => t.idx == s.texIdx b k) = none → out k = s.texWrites k d [0, 0, 0, 0] false)
    (hin : ∀ k ∈ s.issue, ∀ t, (got (s.laneRecords b false false) []).find? (fun t => t.idx == s.texIdx b k) = some t →
      at_ k 2 < t.res.levels ∧ at_ k 0 < (t.res.dims (at_ k 2)).1 ∧ at_ k 1 < (t.res.dims (at_ k 2)).2 →
      Fine (s.readTexel k t.res (at_ k 2) (at_ k 0) (at_ k 1))
      ∧ out k = { s.texWrites k d (got (s.readTexel k t.res (at_ k 2) (at_ k 0) (at_ k 1)) ([], false)).1
                    (t.poisoned || (got (s.readTexel k t.res (at_ k 2) (at_ k 0) (at_ k 1)) ([], false)).2)
                  with ways := [(t.res.texelVa (at_ k 2) (at_ k 0) (at_ k 1), texelBytes t.res.fmt)] })
    (hout : ∀ k t, (got (s.laneRecords b false false) []).find? (fun t => t.idx == s.texIdx b k) = some t →
      ¬ (at_ k 2 < t.res.levels ∧ at_ k 0 < (t.res.dims (at_ k 2)).1 ∧ at_ k 1 < (t.res.dims (at_ k 2)).2) →
      out k = s.texWrites k d [0, 0, 0, 0] t.poisoned) :
    exec (.texl d a b) s = .next ((s.issue.map out).foldl State.putTex
      (State.keepRecords { s with free := s.free + 1 } (s.issue.headD 0) (got (s.laneRecords b false false) []))) := by
  obtain rfl : at_ = fun k i => (s.v k (a.toNat + i)).toNat := funext fun k => funext fun i => hat k i
  rw [exec_texl, execTexl]
  refine issueWord_of hp ((bind_fine hr _ []).trans ?_)
  generalize got (s.laneRecords b false false) [] = recs at hnone hin hout ⊢
  extract_lets all one
  have hone : ∀ k ∈ s.issue, one k (s.texIdx b k) = .ok (out k) := fun k hk => by
    show (match firstThat (fun t => t.idx == s.texIdx b k) recs with | none => _ | some t => _) = _
    rw [firstThat_eq]
    cases hf : recs.find? fun t => t.idx == s.texIdx b k with
    | none => exact congrArg Except.ok (hnone k hf).symm
    | some t =>
      show (if t.res.levels ≤ (s.v k (a.toNat + 2)).toNat ∨ (t.res.dims (s.v k (a.toNat + 2)).toNat).1 ≤ (s.v k (a.toNat + 0)).toNat
        ∨ (t.res.dims (s.v k (a.toNat + 2)).toNat).2 ≤ (s.v k (a.toNat + 1)).toNat then _ else _) = _
      by_cases hi : (s.v k (a.toNat + 2)).toNat < t.res.levels ∧ (s.v k (a.toNat + 0)).toNat < (t.res.dims (s.v k (a.toNat + 2)).toNat).1
          ∧ (s.v k (a.toNat + 1)).toNat < (t.res.dims (s.v k (a.toNat + 2)).toNat).2
      · obtain ⟨⟨c, hc⟩, ho⟩ := hin k hk t hf hi
        simp only [hc] at ho
        rw [if_neg (by omega), ho, hc]
        rfl
      · rw [if_pos (by omega), hout k t hf hi]
  rw [List.map_map, lanesOf_of (f := (fun e => one e.1 e.2) ∘ fun k => (k, s.texIdx b k)) (g := out) hone]
  rfl

/-- TEXB (R224). -/
theorem texb_spec {lz : BitVec 1} {d a b gr : BitVec 7} (d0 : TexOut × List (Option GaddLane))
    (hp : s.Passes { instr := .texb lz d a b gr, ops := [.dst d true, .vblock a (if lz = 1 then 2 else 3) 2, .src b, .vblock gr 4 3] })
    (hr : Fine (s.laneRecords b true true))
    (h : ∀ k ∈ s.issue, ∀ t, (got (s.laneRecords b true true) []).find? (fun t => t.idx == s.texIdx b k) = some t → Fine (s.texbLane lz d a gr k t))
    {outs : List (TexOut × List (Option GaddLane))} (houts : outs = s.issue.filterMap fun k =>
      ((got (s.laneRecords b true true) []).find? fun t => t.idx == s.texIdx b k).map fun t => got (s.texbLane lz d a gr k t) d0)
    {adds : List GaddLane} (hadds : adds = (got (s.laneRecords b true true) []).flatMap fun r =>
      texOrder ((outs.filter fun o => s.texIdx b o.1.k == r.idx).map (·.2)))
    (hwindow : Fine (s.checkGaddWindow adds)) :
    exec (.texb lz d a b gr) s = .next ((outs.map (·.1)).foldl State.putTex
      ((State.keepRecords { s with free := s.free + 1 } (s.issue.headD 0) (got (s.laneRecords b true true) [])).sendGadds adds)) := by
  rw [exec_texb, execTexb]
  refine issueWord_of hp ((bind_fine hr _ []).trans ?_)
  rw [texLanes_of d0 h, ← houts]
  subst hadds
  exact bind_fine_unit hwindow _

/-- RREC of a field of the records (R225). -/
theorem rrec_of {r : Req} {d b : BitVec 7} {f : Nat → Resource → Word} {body : State → Except Flt State} {eff : State → Nat → State} (hp : s.Passes r)
    (hbody : body s = s.rrec d b f) (hr : Fine (s.laneRecords b false false))
    (hsome : ∀ t k x, (got (s.laneRecords b false false) []).find? (fun x => x.idx == s.texIdx b k) = some x →
      eff t k = t.putTex { k := k, writes := [s.toV k d.toNat (f k x.res)], poisoned := x.poisoned })
    (hnone : ∀ t k, (got (s.laneRecords b false false) []).find? (fun x => x.idx == s.texIdx b k) = none → eff t k = t) :
    s.issueWord r body = .next (s.issue.foldl eff (s.keepRecords (s.issue.headD 0) (got (s.laneRecords b false false) []))) := by
  refine issueWord_of hp (hbody.trans ((bind_fine hr _ []).trans ?_))
  refine congrArg Except.ok (congrArg (fun g => List.foldl g _ s.issue) ?_)
  funext t k
  rw [firstThat_eq]
  cases hf : (got (s.laneRecords b false false) []).find? fun x => x.idx == s.texIdx b k with
  | none => exact (hnone t k hf).symm
  | some x => exact (hsome t k x hf).symm

/-- RREC.dim (R225). -/
theorem rrecDim_spec {d a b : BitVec 7} {f : Nat → Resource → Word} {eff : State → Nat → State}
    (hf : ∀ k r, f k r = if (s.v k a.toNat).toNat < r.levels then
      BitVec.ofNat 32 ((r.dims (s.v k a.toNat).toNat).1 + 65536 * (r.dims (s.v k a.toNat).toNat).2) else 0)
    (hp : s.Passes { instr := .rrecDim d a b, ops := [.dst d, .src a, .src b] }) (hr : Fine (s.laneRecords b false false))
    (hsome : ∀ t k x, (got (s.laneRecords b false false) []).find? (fun x => x.idx == s.texIdx b k) = some x →
      eff t k = t.putTex { k := k, writes := [s.toV k d.toNat (f k x.res)], poisoned := x.poisoned })
    (hnone : ∀ t k, (got (s.laneRecords b false false) []).find? (fun x => x.idx == s.texIdx b k) = none → eff t k = t) :
    exec (.rrecDim d a b) s = .next (s.issue.foldl eff (s.keepRecords (s.issue.headD 0) (got (s.laneRecords b false false) []))) := by
  rw [exec_rrecDim, execRrecDim]
  refine rrec_of hp (f := f) (congrArg (s.rrec d b) (funext fun k => funext fun r => ?_)) hr hsome hnone
  rw [hf, Nat.mul_comm 65536]
  by_cases hl : (s.v k a.toNat).toNat < r.levels
  · exact (if_neg (Nat.not_le.2 hl)).trans (if_pos hl).symm
  · exact (if_pos (Nat.not_lt.1 hl)).trans (if_neg hl).symm

/-- RREC.fmt (R225). -/
theorem rrecFmt_spec {d b : BitVec 7} {f : Nat → Resource → Word} {eff : State → Nat → State} (hf : ∀ k r, f k r = BitVec.ofNat 32 (r.fmt + 256 * r.levels))
    (hp : s.Passes { instr := .rrecFmt d b, ops := [.dst d, .src b] }) (hr : Fine (s.laneRecords b false false))
    (hsome : ∀ t k x, (got (s.laneRecords b false false) []).find? (fun x => x.idx == s.texIdx b k) = some x →
      eff t k = t.putTex { k := k, writes := [s.toV k d.toNat (f k x.res)], poisoned := x.poisoned })
    (hnone : ∀ t k, (got (s.laneRecords b false false) []).find? (fun x => x.idx == s.texIdx b k) = none → eff t k = t) :
    exec (.rrecFmt d b) s = .next (s.issue.foldl eff (s.keepRecords (s.issue.headD 0) (got (s.laneRecords b false false) []))) := by
  rw [exec_rrecFmt, execRrecFmt]
  refine rrec_of hp (f := f) (congrArg (s.rrec d b) (funext fun k => funext fun r => ?_)) hr hsome hnone
  rw [hf, Nat.mul_comm 256]
  rfl

end

/-- Settles O44: the texture words by their lanes' records, and RREC by the fields of the records. -/
theorem textureInstructionsComplete : Obligations.TextureInstructionsComplete := by
  unfold Obligations.TextureInstructionsComplete
  intro s lz ch d a b gr
  refine ⟨fun hp hr h => ?_, fun hp hr h => ?_, fun hp hr h => ?_, fun hp hr h hwindow => ?_, fun e he => ?_, fun hp => ?_⟩
  · exact texWord_of _ (by rw [exec_tex]; rfl) hp hr h
  · exact texWord_of _ (by rw [exec_texg]; rfl) hp hr h
  · exact texl_spec hp hr (at_ := fun k i => (s.v k (a.toNat + i)).toNat) (fun _ _ => rfl)
      (fun k hk => by simp only [State.texIdx] at hk; simp only [hk])
      (fun k hk t ht hi => ⟨h k hk t ht hi, by simp only [State.texIdx] at ht; simp only [ht]; exact if_pos hi⟩)
      (fun k t ht hi => by simp only [State.texIdx] at ht; simp only [ht]; exact if_neg hi)
  · exact texb_spec _ hp hr h rfl rfl hwindow
  · rcases List.mem_cons.1 he with rfl | he
    · exact fun hp hr => rrecDim_spec (fun _ _ => rfl) hp hr (fun t k x hx => by simp only [State.texIdx] at hx; simp only [hx])
        (fun t k hx => by simp only [State.texIdx] at hx; simp only [hx])
    · obtain rfl := List.mem_singleton.1 he
      exact fun hp hr => rrecFmt_spec (fun _ _ => rfl) hp hr (fun t k x hx => by simp only [State.texIdx] at hx; simp only [hx])
        (fun t k hx => by simp only [State.texIdx] at hx; simp only [hx])
  · rw [exec_rrecInv, execRrecInv]
    exact issuePlain_of hp

end Sys2Proof.Machine
end

section
/-! PROOFS. Ray queries: the query instructions where their lanes and their log pass (R226 to R246). -/

namespace Sys2Proof.Machine

theorem bind_of_ok {ε α β : Type} {x : Except ε α} {a : α} (h : x = .ok a) (f : α → Except ε β) : (x >>= f) = f a := by rw [h]; rfl

/-- The lanes' outcomes act where their log records find room (R243). -/
theorem rqFinish_of {t : State} {outs : List RqOut} (h : t.LogsPass outs) : t.rqFinish outs = .ok (outs.foldl State.putQuery (t.logged outs)) := by
  obtain ⟨hpush, hcharge⟩ := h
  have hlanes := lanesOf_of (l := outs) (f := fun o => t.pushLog o.k o.recs) (g := fun o => got (t.pushLog o.k o.recs) t) fun o ho => got_of (hpush o ho) t
  rw [State.rqFinish]
  refine (bind_of_ok hlanes _).trans ?_
  have hlogged : (outs.foldl (fun t o => match t.pushLog o.k o.recs with | .ok u => u | .error _ => t) t) = t.logged outs :=
    congrArg (fun f => List.foldl f t outs) (funext fun t => funext fun o => by cases t.pushLog o.k o.recs <;> rfl)
  refine (congrArg (fun u => State.checkCharge u >>= fun _ => Except.ok (outs.foldl State.putQuery u)) hlogged).trans ?_
  exact bind_fine_unit hcharge _

/-- Leaving a query in Done leaves whether it logs. -/
theorem log_done (x : Query) : x.done.log = x.log := by
  rw [Query.log, Query.log, Query.done, bit_eq_testBit, bit_eq_testBit, Nat.testBit_eq_decide_div_mod_eq, Nat.testBit_eq_decide_div_mod_eq]
  refine decide_eq_decide.2 ?_
  simp only
  omega

section
variable {s : State}

/-- A query word whose lanes all pass. -/
theorem rqWord_of {r : Req} {body : State → Except Flt State} {t : State} {lane : Nat → Except Flt RqOut} {out : Nat → RqOut} (hp : s.Passes r)
    (hbody : body s = lanesOf (s.issue.map lane) >>= fun outs => t.rqFinish outs) (hlane : ∀ k ∈ s.issue, lane k = .ok (out k))
    (hlog : t.LogsPass (s.issue.map out)) :
    s.issueWord r body = .next ((s.issue.map out).foldl State.putQuery (t.logged (s.issue.map out))) := by
  refine issueWord_of hp (hbody.trans ?_)
  rw [lanesOf_of hlane]
  exact rqFinish_of hlog

/-- RQINIT (R234). -/
theorem rqinit_spec {q log fp opq fht : BitVec 1} {d a : BitVec 7} {x : Nat → Query}
    (hx : ∀ k, x k = { ctrl := 1 + 8 * log.toNat + 16 * fp.toNat + 32 * opq.toNat + 64 * fht.toNat, iid := 0xFFFFFFFF, trail := 0, leaf := 0,
                       inst := 0, t := 0, geom := 0xFFFFFFFF, prim := 0xFFFFFFFF, b1 := 0, b2 := 0, root := (s.v64 k d.toNat).toNat % 2 ^ 57 })
    (hp : s.Passes { instr := .rqinit q d a log fp opq fht, ops := [.src d true, { rayOpd a (fp == 1) none with rd := false }] })
    (hroom : ∀ k ∈ s.issue, 64 * q.toNat + 64 ≤ (s.thr k).laneSz)
    (hlog : s.LogsPass (s.issue.map fun k => { k := k, q := some (q.toNat, x k) })) :
    exec (.rqinit q d a log fp opq fht) s = .next ((s.issue.map fun k => ({ k := k, q := some (q.toNat, x k) } : RqOut)).foldl State.putQuery
      (s.logged (s.issue.map fun k => { k := k, q := some (q.toNat, x k) }))) := by
  rw [exec_rqinit, execRqinit]
  refine rqWord_of hp rfl (fun k hk => ?_) hlog
  rw [if_neg (Nat.not_lt.2 (hroom k hk)), hx]

/-- RQPROC (R235). -/
theorem rqproc_spec {q : BitVec 1} {d a : BitVec 7} {out : Nat → RqOut} (hout : ∀ k, out k = got (s.rqprocLane q.toNat d.toNat a k) { k := k })
    (hp : s.Passes { instr := .rqproc q d a, ops := .dst d :: s.rayOpds q a }) (hlane : ∀ k ∈ s.issue, Fine (s.rqprocLane q.toNat d.toNat a k))
    (hlog : s.LogsPass (s.issue.map out)) :
    exec (.rqproc q d a) s = .next ((s.issue.map out).foldl State.putQuery (s.logged (s.issue.map out))) := by
  rw [exec_rqproc, execRqproc]
  exact rqWord_of hp rfl (fun k hk => (got_of (hlane k hk) _).trans (congrArg Except.ok (hout k).symm)) hlog

/-- RQCAND (R236). -/
theorem rqcand_spec {f : BitVec 3} {q : BitVec 1} {d a : BitVec 7} {x : Nat → Query × (Entry × Option Inst × Seen) × (List RegWrite × Seen)}
    (hp : s.Passes { instr := .rqcand f q d a, ops := rqDst f d :: (if 1 ≤ f.toNat ∧ f.toNat ≤ 4 then s.rayOpds q a else []) })
    (hlane : ∀ k ∈ s.issue, s.useQuery k q.toNat [2, 3] = .ok (x k).1 ∧ s.candidate k (x k).1 = .ok (x k).2.1
      ∧ s.candField k f.toNat d.toNat (x k).1 (s.rayVals k a (x k).1.fp64) (x k).2.1.1 (x k).2.1.2.1 = .ok (x k).2.2) {out : Nat → RqOut}
    (hout : ∀ k, out k = { k := k, writes := (x k).2.2.1, seen := (x k).2.1.2.2.also (x k).2.2.2 })
    (hlog : State.LogsPass { s with free := s.free + 1 } (s.issue.map out)) :
    exec (.rqcand f q d a) s
      = .next ((s.issue.map out).foldl State.putQuery (State.logged { s with free := s.free + 1 } (s.issue.map out))) := by
  rw [exec_rqcand, execRqcand]
  have hray : (if candRay f then s.rayOpds q a else []) = if 1 ≤ f.toNat ∧ f.toNat ≤ 4 then s.rayOpds q a else [] :=
    if_congr (by rw [candRay, Bool.and_eq_true, decide_eq_true_eq, decide_eq_true_eq]) rfl rfl
  rw [hray]
  refine rqWord_of hp rfl (fun k hk => ?_) hlog
  obtain ⟨hquery, hcand, hfield⟩ := hlane k hk
  refine (bind_of_ok hquery _).trans ((bind_of_ok hcand _).trans ((bind_of_ok hfield _).trans ?_))
  exact congrArg Except.ok (hout k).symm

/-- RQCOMMIT (R237). -/
theorem rqcommit_spec {q : BitVec 1} {a b : BitVec 7} {out : Nat → RqOut} (hout : ∀ k, out k = got (s.rqcommitLane q.toNat a b k) { k := k })
    {procs : List Nat} (hprocs : procs = s.issue.filter fun k => match s.peekQuery q.toNat k with | some x => x.phase == 3 | none => false)
    (hp : s.Passes { instr := .rqcommit q a b, ops := s.rayOpds q a ++ [{ Opd.src b true with only := some procs }] })
    (hlane : ∀ k ∈ s.issue, Fine (s.rqcommitLane q.toNat a b k)) (hlog : s.LogsPass (s.issue.map out)) :
    exec (.rqcommit q a b) s = .next ((s.issue.map out).foldl State.putQuery (s.logged (s.issue.map out))) := by
  subst hprocs
  rw [exec_rqcommit, execRqcommit]
  exact rqWord_of hp rfl (fun k hk => (got_of (hlane k hk) _).trans (congrArg Except.ok (hout k).symm)) hlog

/-- RQABORT (R237). -/
theorem rqabort_spec {q : BitVec 1} {x : Nat → Query} {out : Nat → RqOut}
    (hout : ∀ k, out k = if (x k).phase = 4 then { k := k } else
      { k := k, q := some (q.toNat, (x k).done), recs := if (x k).log then [(0xE3, [(x k).done.ctrl, (x k).prim, (x k).geom, (x k).iid])] else [] })
    (hp : s.Passes { instr := .rqabort q }) (hquery : ∀ k ∈ s.issue, s.useQuery k q.toNat [1, 2, 3, 4] = .ok (x k))
    (hlog : s.LogsPass (s.issue.map out)) :
    exec (.rqabort q) s = .next ((s.issue.map out).foldl State.putQuery (s.logged (s.issue.map out))) := by
  rw [exec_rqabort, execRqabort]
  refine rqWord_of hp rfl (fun k hk => ?_) hlog
  refine (bind_of_ok (hquery k hk) _).trans ?_
  rw [hout]
  by_cases hphase : (x k).phase = 4
  · rw [if_pos hphase, if_pos hphase]
  · rw [if_neg hphase, if_neg hphase, ← log_done]
    cases hl : (x k).done.log
    · simp only [Trav.note, hl, Bool.false_eq_true, if_false]
    · simp only [Trav.note, hl, if_true, List.nil_append]
      rfl

/-- RQRES (R236). -/
theorem rqres_spec {f : BitVec 3} {q : BitVec 1} {d a : BitVec 7} {legal : List Nat} (hlegal : legal = if f = 6 then [0, 1, 2, 3, 4] else [1, 2, 3, 4])
    {x : Nat → Query} {out : Nat → RqOut} (hout : ∀ k, out k = { k := k, writes := s.resField k f.toNat d.toNat (x k) (s.rayVals k a (x k).fp64) })
    (hp : s.Passes { instr := .rqres f q d a, ops := rqDst f d :: (if f = 1 then s.rayOpds q a else []) })
    (hquery : ∀ k ∈ s.issue, s.useQuery k q.toNat legal = .ok (x k)) (hlog : s.LogsPass (s.issue.map out)) :
    exec (.rqres f q d a) s = .next ((s.issue.map out).foldl State.putQuery (s.logged (s.issue.map out))) := by
  subst hlegal
  rw [exec_rqres, execRqres]
  refine rqWord_of hp rfl (fun k hk => ?_) hlog
  exact (bind_of_ok (hquery k hk) _).trans (congrArg Except.ok (hout k).symm)

/-- RQTRI (R244): `r` is what the test finds in a lane. -/
theorem rqtri_spec {d a b ir : BitVec 7} {p : BitVec 4} {kind : BitVec 1} {x : Nat → Entry × Option Inst × Seen} {r : Nat → Bool × List DWord}
    (hhit : ∀ k h t b1 b2, triTest f64 f64 f64 (x k).1.vs (objectRay f64 (x k).2.1 (s.rayVals k a true)) = .value h t b1 b2 →
      r k = (h, [BitVec.ofNat 64 t, BitVec.ofNat 64 b1, BitVec.ofNat 64 b2]))
    (hmiss : ∀ k, (∀ h t b1 b2, triTest f64 f64 f64 (x k).1.vs (objectRay f64 (x k).2.1 (s.rayVals k a true)) ≠ .value h t b1 b2) →
      r k = (false, [nan64, nan64, nan64])) {out : Nat → RqOut}
    (hout : ∀ k, out k = { k := k, writes := s.toPairs k d.toNat (r k).2 ++ [.pred k p.toNat (r k).1], seen := (x k).2.2 })
    (hp : s.Passes { instr := .rqtri d a b ir p kind, ops := [.vdst d 6 5 true, rayOpd a true none, .src b true, .src ir true, .pdst p.toNat] })
    (hentry : ∀ k ∈ s.issue, s.namedEntry k kind b ir = .ok (x k)) (hlog : s.LogsPass (s.issue.map out)) :
    exec (.rqtri d a b ir p kind) s = .next ((s.issue.map out).foldl State.putQuery (s.logged (s.issue.map out))) := by
  rw [exec_rqtri, execRqtri]
  refine rqWord_of hp rfl (fun k hk => (bind_of_ok (hentry k hk) _).trans ?_) hlog
  rcases hx : x k with ⟨e, i, bad⟩
  have hh := hhit k
  have hm := hmiss k
  have ho := hout k
  rw [hx] at hh hm ho
  cases htest : triTest f64 f64 f64 e.vs (objectRay f64 i (s.rayVals k a true)) with
  | value h t b1 b2 =>
    rw [ho, hh h t b1 b2 htest]
    simp only [htest]
  | never =>
    rw [ho, hm fun _ _ _ _ => by rw [htest]; exact TriTest.noConfusion]
    simp only [htest]
  | flat =>
    rw [ho, hm fun _ _ _ _ => by rw [htest]; exact TriTest.noConfusion]
    simp only [htest]

/-- RQGRAD (R245). -/
theorem rqgrad_spec {d a b ir gu : BitVec 7} {g : BitVec 5} {kind : BitVec 1} {rs : List (RqOut × List Nat)}
    (hrs : rs = s.issue.map fun k => got (s.rqgradLane d a b ir gu kind k) ({ k := k }, []))
    {lanes : List (Nat × DWord × Nat)}
    (hlanes : lanes = rs.flatMap fun o => (o.2.zip (List.range 9)).map fun e => (o.1.k, s.ptrOf o.1.k g.toNat + BitVec.ofNat 64 (8 * e.2), e.1))
    {xs : List GaddLane} (hxs : xs = got (s.checkGadds g.toNat 1 0x66 lanes) []) {t : State}
    (ht : t = s.sendGadds ((List.range 9).flatMap fun i => (List.range (xs.length / 9)).filterMap fun l => xs[9 * l + i]?))
    (hp : s.Passes {
      instr := .rqgrad d a b ir gu g kind
      ops := [.vdst d 12 11 true, rayOpd a true none, .src b true, .src ir true, { Opd.vblock gu 6 5 with wide := true }, .g g] })
    (hlane : ∀ k ∈ s.issue, Fine (s.rqgradLane d a b ir gu kind k)) (hadds : Fine (s.checkGadds g.toNat 1 0x66 lanes)) (hwindow : Fine (s.checkGaddWindow xs))
    (hlog : t.LogsPass (rs.map (·.1))) :
    exec (.rqgrad d a b ir gu g kind) s = .next ((rs.map (·.1)).foldl State.putQuery (t.logged (rs.map (·.1)))) := by
  rw [exec_rqgrad, execRqgrad]
  refine issueWord_of hp ?_
  have hout : lanesOf (s.issue.map (s.rqgradLane d a b ir gu kind)) = .ok rs := by
    rw [hrs]
    exact lanesOf_of fun k hk => got_of (hlane k hk) _
  have hsame : (rs.flatMap fun o => (o.2.zip (upto 0 9)).map fun e => (o.1.k, s.eaOf o.1.k g.toNat (8 * e.2 : Nat), e.1)) = lanes := by
    rw [hlanes]
    simp only [upto_zero, eaOf_eq, BitVec.ofInt_natCast]
  have hcheck : s.checkGadds g.toNat 1 0x66 (rs.flatMap fun o => (o.2.zip (upto 0 9)).map fun e => (o.1.k, s.eaOf o.1.k g.toNat (8 * e.2 : Nat), e.1))
      = .ok xs := by
    rw [hsame, hxs]
    exact got_of hadds []
  refine (bind_of_ok hout _).trans ((bind_of_ok hcheck _).trans ?_)
  refine (bind_fine_unit hwindow _).trans ?_
  rw [upto_zero, upto_zero, ← ht]
  exact rqFinish_of hlog

end

/-- Settles O45: the query words by their lanes, and the log by its pushes. -/
theorem rayQueryInstructionsComplete : Obligations.RayQueryInstructionsComplete := by
  unfold Obligations.RayQueryInstructionsComplete
  intro s q log fp opq fht kind d a b ir gu f p g fresh finished
  refine ⟨fun hp hroom hlog => ?_, fun hp hlane hlog => ?_, fun x => ?_, fun hp hlane hlog => ?_, fun hp hquery hlog => ?_,
    fun hp hquery hlog => ?_, fun x => ?_, fun hp hlane hadds hwindow hlog => ?_⟩
  · exact rqinit_spec (x := fun k => { fresh with root := (s.v64 k d.toNat).toNat % 2 ^ 57 }) (fun _ => rfl) hp hroom hlog
  · exact rqproc_spec (fun _ => rfl) hp hlane hlog
  · exact fun hp hlane hlog => rqcand_spec hp hlane (fun _ => rfl) hlog
  · exact rqcommit_spec (fun _ => rfl) rfl hp hlane hlog
  · exact rqabort_spec (x := fun k => got (s.useQuery k q.toNat [1, 2, 3, 4]) fresh) (fun _ => rfl) hp (fun k hk => got_of (hquery k hk) _) hlog
  · exact rqres_spec rfl (x := fun k => got (s.useQuery k q.toNat (if f = 6 then [0, 1, 2, 3, 4] else [1, 2, 3, 4])) fresh) (fun _ => rfl) hp
      (fun k hk => got_of (hquery k hk) _) hlog
  · intro r outs hp hentry hlog
    refine rqtri_spec (r := r) (fun k h t b1 b2 htest => ?_) (fun k hmiss => ?_) (fun _ => rfl) hp hentry hlog
    · simp only [r, htest]
    · cases htest : triTest f64 f64 f64 (x k).1.vs (objectRay f64 (x k).2.1 (s.rayVals k a true)) with
      | value h t b1 b2 => exact absurd htest (hmiss h t b1 b2)
      | never => simp only [r, htest]
      | flat => simp only [r, htest]
  · exact rqgrad_spec rfl rfl rfl rfl hp hlane hadds hwindow hlog

end Sys2Proof.Machine
end

section
/-! PROOFS. Floating-point arithmetic rounds the exact result once (R66, R67). -/

namespace Sys2Proof.Machine

namespace Fmt

/-- A format has a fraction and an exponent field. -/
def Sound (f : Fmt) : Prop := 2 ≤ f.prec ∧ f.prec < f.width

/-- The magnitude part of an infinity's encoding: the codes below it are finite. -/
def top (f : Fmt) : Nat := (2 ^ f.ebits - 1) * 2 ^ f.frac

/-- The magnitude that a code stands for, also beyond the finite ones. -/
def mag (f : Fmt) (c : Nat) : ℚ :=
  ((c - (c / 2 ^ f.frac - 1) * 2 ^ f.frac : Nat) : ℚ) * 2 ^ (f.emin - f.frac + ((c / 2 ^ f.frac - 1 : Nat) : ℤ))

variable {f : Fmt}

/-- The magnitude of a code by its binade and its significand. -/
theorem mag_code {j k : Nat} (hj : j = 0 ∨ 2 ^ f.frac ≤ k) (hk : k ≤ 2 ^ (f.frac + 1)) : f.mag (j * 2 ^ f.frac + k) = k * 2 ^ (f.emin - f.frac + j) := by
  have hpos : 0 < 2 ^ f.frac := Nat.two_pow_pos _
  rw [pow_succ] at hk
  rw [mag]
  rcases Nat.lt_or_ge k (2 ^ f.frac) with hlt | hge
  · obtain rfl : j = 0 := hj.resolve_right (by omega)
    rw [Nat.zero_mul, Nat.zero_add, Nat.div_eq_of_lt hlt]
    simp
  · rcases Nat.eq_or_lt_of_le hk with rfl | hlt
    · have hdiv : (j * 2 ^ f.frac + 2 ^ f.frac * 2) / 2 ^ f.frac - 1 = j + 1 := by
        rw [Nat.mul_comm j, ← Nat.mul_add, Nat.mul_div_cancel_left _ hpos]; omega
      rw [hdiv, show j * 2 ^ f.frac + 2 ^ f.frac * 2 - (j + 1) * 2 ^ f.frac = 2 ^ f.frac by rw [Nat.add_mul]; omega]
      push_cast
      rw [← add_assoc, zpow_add₀ two_ne_zero _ 1, zpow_one]
      ring
    · have hdiv : (j * 2 ^ f.frac + k) / 2 ^ f.frac - 1 = j := by
        rw [Nat.mul_comm j, Nat.mul_add_div hpos, Nat.div_eq_of_lt_le (k := 1) (by omega) (by omega)]; omega
      rw [hdiv, Nat.add_sub_cancel_left]

/-- Every code has a binade and a significand. -/
theorem code_eq (f : Fmt) (c : Nat) : ∃ j k, c = j * 2 ^ f.frac + k ∧ (j = 0 ∨ 2 ^ f.frac ≤ k) ∧ k < 2 ^ (f.frac + 1) := by
  have hpos : 0 < 2 ^ f.frac := Nat.two_pow_pos _
  have hmod := Nat.mod_lt c hpos
  have hdiv := Nat.div_add_mod c (2 ^ f.frac)
  rw [pow_succ]
  rcases Nat.eq_zero_or_pos (c / 2 ^ f.frac) with hz | hp
  · rw [hz] at hdiv
    exact ⟨0, c, by omega, .inl rfl, by omega⟩
  · obtain ⟨j, hj⟩ := Nat.exists_eq_add_of_le' hp
    rw [hj, Nat.mul_comm, Nat.add_mul] at hdiv
    exact ⟨j, c % 2 ^ f.frac + 2 ^ f.frac, by omega, .inr (by omega), by omega⟩

theorem mag_strictMono (f : Fmt) : StrictMono f.mag := by
  refine strictMono_nat_of_lt_succ fun c => ?_
  obtain ⟨j, k, rfl, hj, hk⟩ := code_eq f c
  rw [Nat.add_assoc, mag_code hj hk.le, mag_code (k := k + 1) (by omega) hk]
  push_cast
  have : (0 : ℚ) < 2 ^ (f.emin - f.frac + j) := zpow_pos two_pos _
  linarith [add_mul (k : ℚ) 1 (2 ^ (f.emin - f.frac + j : ℤ))]

theorem mag_zero (f : Fmt) : f.mag 0 = 0 := by
  have := mag_code (f := f) (j := 0) (k := 0) (.inl rfl) (Nat.zero_le _)
  simpa using this

theorem mag_nonneg (f : Fmt) (c : Nat) : 0 ≤ f.mag c := by
  rw [← mag_zero f]
  exact (mag_strictMono f).monotone (Nat.zero_le c)

end Fmt

/-- A magnitude with a sign. -/
def signed (neg : Bool) (x : ℚ) : ℚ := if neg = true then -x else x

/-- An encoding of a sign and a code. -/
def encoded (f : Fmt) (neg : Bool) (c : Nat) : Nat := b2n neg * 2 ^ (f.width - 1) + c

section
variable {f : Fmt} (hf : f.Sound)
include hf

theorem width_sub_one : f.width - 1 = f.ebits + f.frac := by
  obtain ⟨hp, hw⟩ := hf
  rw [Fmt.ebits, Fmt.frac]; omega

theorem top_lt : f.top < 2 ^ (f.width - 1) := by
  rw [width_sub_one hf, pow_add, Fmt.top]
  exact Nat.mul_lt_mul_of_pos_right (Nat.sub_lt (Nat.two_pow_pos _) Nat.one_pos) (Nat.two_pow_pos _)

omit hf in
theorem encoded_div {neg : Bool} {c : Nat} (hc : c < 2 ^ (f.width - 1)) : encoded f neg c / 2 ^ (f.width - 1) = b2n neg := by
  rw [encoded, Nat.mul_comm, Nat.mul_add_div (Nat.two_pow_pos _), Nat.div_eq_of_lt hc, Nat.add_zero]

theorem encoded_lt {neg : Bool} {c : Nat} (hc : c < 2 ^ (f.width - 1)) : encoded f neg c < 2 ^ f.width := by
  have hw : 2 ^ f.width = 2 ^ (f.width - 1) * 2 := by rw [← pow_succ, Nat.sub_add_cancel (by have := hf.2; omega)]
  rw [encoded, hw]
  cases neg <;> simp only [b2n, Bool.false_eq_true, if_true, if_false] <;> omega

/-- The exponent field and the fraction of an encoding are those of its code. -/
theorem encoded_fields {neg : Bool} {c : Nat} (hc : c < 2 ^ (f.width - 1)) :
    encoded f neg c / 2 ^ f.frac % 2 ^ f.ebits = c / 2 ^ f.frac ∧ encoded f neg c % 2 ^ f.frac = c % 2 ^ f.frac := by
  have hpos : 0 < 2 ^ f.frac := Nat.two_pow_pos _
  have hs : b2n neg * 2 ^ (f.width - 1) = 2 ^ f.frac * (2 ^ f.ebits * b2n neg) := by rw [width_sub_one hf, pow_add]; ring
  have hce : c / 2 ^ f.frac < 2 ^ f.ebits := by
    rw [Nat.div_lt_iff_lt_mul hpos, ← pow_add, ← width_sub_one hf]; exact hc
  rw [encoded, hs]
  constructor
  · rw [Nat.mul_add_div hpos, Nat.mul_add_mod, Nat.mod_eq_of_lt hce]
  · rw [Nat.mul_add_mod]

theorem fpFinite_encoded {neg : Bool} {c : Nat} (hc : c < 2 ^ (f.width - 1)) : fpFinite f (encoded f neg c) = true ↔ c < f.top := by
  rw [fpFinite, Bool.and_eq_true, decide_eq_true_eq, bne_iff_ne]
  have hfield : encoded f neg c / 2 ^ (f.prec - 1) % 2 ^ (f.width - f.prec) = c / 2 ^ f.frac := (encoded_fields hf hc).1
  rw [hfield, Fmt.top, ← Nat.div_lt_iff_lt_mul (Nat.two_pow_pos _)]
  have hce : c / 2 ^ f.frac < 2 ^ f.ebits := by
    rw [Nat.div_lt_iff_lt_mul (Nat.two_pow_pos _), ← pow_add, ← width_sub_one hf]; exact hc
  constructor
  · rintro ⟨-, hne⟩
    exact lt_of_le_of_ne (Nat.le_sub_one_of_lt hce) hne
  · exact fun h => ⟨encoded_lt hf hc, h.ne⟩

/-- A finite encoding has a sign and a finite code. -/
theorem encoded_of_finite {y : Nat} (hy : fpFinite f y = true) : ∃ neg c, c < f.top ∧ y = encoded f neg c := by
  have hlt : y < 2 ^ f.width := by rw [fpFinite, Bool.and_eq_true, decide_eq_true_eq] at hy; exact hy.1
  have hw : 2 ^ f.width = 2 ^ (f.width - 1) * 2 := by rw [← pow_succ, Nat.sub_add_cancel (by have := hf.2; omega)]
  have hmod := Nat.mod_lt y (Nat.two_pow_pos (f.width - 1))
  have hdiv := Nat.div_add_mod y (2 ^ (f.width - 1))
  have hq : y / 2 ^ (f.width - 1) < 2 := by rw [Nat.div_lt_iff_lt_mul (Nat.two_pow_pos _)]; omega
  have heq : y = encoded f (decide (y / 2 ^ (f.width - 1) = 1)) (y % 2 ^ (f.width - 1)) := by
    rw [encoded]
    rcases Nat.le_one_iff_eq_zero_or_eq_one.1 (Nat.le_of_lt_succ hq) with h | h
    · rw [h] at hdiv ⊢
      simp only [b2n, zero_ne_one, decide_false, Bool.false_eq_true, if_false]
      omega
    · rw [h] at hdiv ⊢
      simp only [b2n, decide_true, if_true]
      omega
  refine ⟨_, _, ?_, heq⟩
  rw [heq] at hy
  exact (fpFinite_encoded hf hmod).1 hy

/-- The value of a finite encoding is its code's magnitude with its sign. -/
theorem fpRat_encoded {neg : Bool} {c : Nat} (hc : c < f.top) : fpRat f (encoded f neg c) = signed neg (f.mag c) := by
  have hc' := hc.trans (top_lt hf)
  have hmag : (if c / 2 ^ f.frac = 0 then ((c % 2 ^ f.frac : Nat) : ℚ) * 2 ^ (1 - (f.bias : ℤ) - (f.frac : ℤ))
      else ((2 ^ f.frac + c % 2 ^ f.frac : Nat) : ℚ) * 2 ^ (((c / 2 ^ f.frac : Nat) : ℤ) - f.bias - f.frac)) = f.mag c := by
    have hdiv := Nat.div_add_mod c (2 ^ f.frac)
    rw [Fmt.mag]
    split
    · next hz =>
      rw [hz] at hdiv ⊢
      rw [Nat.zero_sub, Nat.zero_mul, Nat.sub_zero, Fmt.emin, Nat.cast_zero, add_zero, show c % 2 ^ f.frac = c by omega]
    · next hz =>
      obtain ⟨j, hj⟩ := Nat.exists_eq_succ_of_ne_zero hz
      rw [hj] at hdiv ⊢
      rw [Nat.succ_sub_one, show c - j * 2 ^ f.frac = 2 ^ f.frac + c % 2 ^ f.frac by rw [Nat.mul_comm, Nat.succ_mul] at hdiv; omega, Fmt.emin]
      congr 2
      push_cast
      ring
  obtain ⟨hfield, hfrac⟩ := encoded_fields hf (neg := neg) hc'
  have hfield' : encoded f neg c / 2 ^ (f.prec - 1) % 2 ^ (f.width - f.prec) = c / 2 ^ f.frac := hfield
  have hfrac' : encoded f neg c % 2 ^ (f.prec - 1) = c % 2 ^ f.frac := hfrac
  rw [fpRat]
  simp only [hfield', hfrac', encoded_div hc']
  rw [signed, ← hmag]
  cases neg <;> rfl

end


-- The split of a magnitude at a quantum.

theorem bitlen_bounds {m : Nat} (hm : m ≠ 0) : 2 ^ (bitlen m - 1) ≤ m ∧ m < 2 ^ bitlen m ∧ 1 ≤ bitlen m := by
  rw [bitlen, if_neg hm, Nat.add_sub_cancel]
  exact ⟨Nat.log2_self_le hm, Nat.lt_log2_self, by omega⟩

/-- The top bit of a magnitude bounds it. -/
theorem top_bounds {m : Nat} (hm : m ≠ 0) (e : ℤ) :
    (2 : ℚ) ^ (e + (bitlen m : ℤ) - 1) ≤ m * 2 ^ e ∧ (m : ℚ) * 2 ^ e < 2 ^ (e + (bitlen m : ℤ)) := by
  obtain ⟨hlo, hhi, hl⟩ := bitlen_bounds hm
  have hpos : (0 : ℚ) < 2 ^ e := zpow_pos two_pos _
  constructor
  · have : (2 : ℚ) ^ (e + (bitlen m : ℤ) - 1) = (2 ^ (bitlen m - 1) : Nat) * 2 ^ e := by
      rw [show e + (bitlen m : ℤ) - 1 = ((bitlen m - 1 : Nat) : ℤ) + e by omega, zpow_add₀ two_ne_zero, zpow_natCast]; push_cast; rfl
    rw [this]
    exact mul_le_mul_of_nonneg_right (by exact_mod_cast hlo) hpos.le
  · have : (2 : ℚ) ^ (e + (bitlen m : ℤ)) = (2 ^ bitlen m : Nat) * 2 ^ e := by
      rw [add_comm, zpow_add₀ two_ne_zero, zpow_natCast]; push_cast; rfl
    rw [this]
    exact mul_lt_mul_of_pos_right (by exact_mod_cast hhi) hpos

/-- A split magnitude is its integer part and its remainder, in quanta. -/
theorem splitAt_spec (m : Nat) (e q : ℤ) : let x := splitAt m e q
    0 < x.2.2 ∧ x.2.1 < x.2.2 ∧ (m : ℚ) * 2 ^ e * x.2.2 = (x.1 * x.2.2 + x.2.1) * 2 ^ q := by
  rw [splitAt]
  split
  · next h =>
    refine ⟨Nat.one_pos, Nat.one_pos, ?_⟩
    obtain ⟨n, hn⟩ := Int.eq_ofNat_of_zero_le (show 0 ≤ e - q by omega)
    rw [hn, Int.toNat_natCast, show e = q + n by omega, zpow_add₀ two_ne_zero, zpow_natCast]
    push_cast
    ring
  · next h =>
    obtain ⟨n, hn⟩ := Int.eq_ofNat_of_zero_le (show 0 ≤ q - e by omega)
    rw [hn, Int.toNat_natCast]
    refine ⟨Nat.two_pow_pos _, Nat.mod_lt _ (Nat.two_pow_pos _), ?_⟩
    rw [show q = e + n by omega, zpow_add₀ two_ne_zero, zpow_natCast]
    have hm : ((m / 2 ^ n : Nat) : ℚ) * (2 ^ n : Nat) + (m % 2 ^ n : Nat) = m := by
      have := Nat.div_add_mod m (2 ^ n)
      rw [mul_comm]
      exact_mod_cast this
    rw [hm]
    push_cast
    ring

/-- Whether a static mode rounds a magnitude up, between the values below and above it. -/
def RoundsUp (r : Rnd) (neg odd : Bool) (lo hi x : ℚ) : Prop :=
  match r with
  | .rne => lo + hi < 2 * x ∨ lo + hi = 2 * x ∧ odd = true
  | .rtz => False
  | .rup => lo < x ∧ neg = false
  | .rdn => lo < x ∧ neg = true
  | .rsr _ => False

/-- The integer part, and what is decided of the remainder, in terms of the magnitude itself. -/
theorem split_rounds {m : Nat} {e q : ℤ} {k rem den : Nat} (h : splitAt m e q = (k, rem, den)) :
    (k : ℚ) * 2 ^ q ≤ m * 2 ^ e ∧ (m : ℚ) * 2 ^ e < (k + 1 : Nat) * 2 ^ q ∧ (rem ≠ 0 ↔ (k : ℚ) * 2 ^ q ≠ m * 2 ^ e)
    ∧ ∀ r ∈ [Rnd.rne, .rtz, .rup, .rdn], ∀ neg odd, (roundsUp r neg odd rem den = true ↔
      RoundsUp r neg odd (k * 2 ^ q) ((k + 1 : Nat) * 2 ^ q) (m * 2 ^ e)) := by
  obtain ⟨hden, hrem, heq⟩ := splitAt_spec m e q
  rw [h] at hden hrem heq
  simp only at hden hrem heq
  have hq : (0 : ℚ) < 2 ^ q := zpow_pos two_pos _
  have hd : (0 : ℚ) < den := by exact_mod_cast hden
  -- the magnitude exceeds the integer part by rem / den quanta
  obtain ⟨t, ht⟩ : ∃ t : ℚ, t = rem / den := ⟨_, rfl⟩
  have hx : (m : ℚ) * 2 ^ e = (k + t) * 2 ^ q := by
    rw [ht]; field_simp; linarith
  have ht0 : 0 ≤ t := by rw [ht]; positivity
  have ht1 : t < 1 := by rw [ht, div_lt_one hd]; exact_mod_cast hrem
  have htz : t = 0 ↔ rem = 0 := by rw [ht, div_eq_zero_iff, or_iff_left hd.ne', Nat.cast_eq_zero]
  have hpos : 0 < rem ↔ 0 < t :=
    ⟨fun h => lt_of_le_of_ne ht0 fun h0 => h.ne' (htz.1 h0.symm), fun h => Nat.pos_of_ne_zero fun h0 => h.ne' (htz.2 h0)⟩
  have hlt : ∀ a b : ℚ, a * 2 ^ q < b * 2 ^ q ↔ a < b := fun a b => mul_lt_mul_iff_left₀ hq
  have hle : ∀ a b : ℚ, a * 2 ^ q ≤ b * 2 ^ q ↔ a ≤ b := fun a b => mul_le_mul_iff_left₀ hq
  have heq' : ∀ a b : ℚ, a * 2 ^ q = b * 2 ^ q ↔ a = b := fun a b => mul_left_inj' hq.ne'
  rw [hx]
  refine ⟨(hle _ _).2 (by linarith), (hlt _ _).2 (by push_cast; linarith), ?_, fun r hr neg odd => ?_⟩
  · rw [ne_eq, ne_eq, heq', ← htz]
    constructor
    · intro h h'; exact h (by linarith)
    · intro h h'; exact h (by linarith)
  · simp only [List.mem_cons, List.not_mem_nil, or_false] at hr
    rcases hr with rfl | rfl | rfl | rfl
    · have hsum : (k : ℚ) * 2 ^ q + (k + 1 : Nat) * 2 ^ q = (2 * k + 1) * 2 ^ q := by push_cast; ring
      rw [roundsUp, RoundsUp, hsum, show 2 * ((k + t) * (2 : ℚ) ^ q) = (2 * (k + t)) * 2 ^ q by ring, hlt, heq', Bool.or_eq_true, Bool.and_eq_true,
        decide_eq_true_eq, beq_iff_eq]
      have h1 : den < 2 * rem ↔ 2 * (k : ℚ) + 1 < 2 * (k + t) := by
        rw [show 2 * (k : ℚ) + 1 < 2 * (k + t) ↔ 1 < 2 * t by constructor <;> intro h <;> linarith, ht, ← mul_div_assoc, one_lt_div hd]
        exact_mod_cast Iff.rfl
      have h2 : 2 * rem = den ↔ 2 * (k : ℚ) + 1 = 2 * (k + t) := by
        rw [show 2 * (k : ℚ) + 1 = 2 * (k + t) ↔ 2 * t = 1 by constructor <;> intro h <;> linarith, ht, ← mul_div_assoc, div_eq_one_iff_eq hd.ne']
        exact_mod_cast Iff.rfl
      rw [h1, h2]
    · rw [roundsUp, RoundsUp]
      exact iff_of_false Bool.false_ne_true not_false
    · rw [roundsUp, RoundsUp, hlt, Bool.and_eq_true, decide_eq_true_eq, hpos, Bool.not_eq_true']
      exact and_congr_left' (by constructor <;> intro h <;> linarith)
    · rw [roundsUp, RoundsUp, hlt, Bool.and_eq_true, decide_eq_true_eq, hpos]
      exact and_congr_left' (by constructor <;> intro h <;> linarith)


-- The code that a magnitude rounds to.

/-- A magnitude's quantum: the binade of the code below it, at least the smallest one, and the significand there. -/
theorem quantum_spec (f : Fmt) {m : Nat} (hm : m ≠ 0) (e : ℤ) : ∃ j k rem den : Nat,
    (if e + (bitlen m : ℤ) - 1 < f.emin then f.emin else e + (bitlen m : ℤ) - 1) - ((f.prec - 1 : Nat) : ℤ) = f.emin - f.frac + j
    ∧ splitAt m e (f.emin - f.frac + j) = (k, rem, den) ∧ (j = 0 ∨ 2 ^ f.frac ≤ k) ∧ k < 2 ^ (f.frac + 1)
    ∧ e + (bitlen m : ℤ) - 1 - f.frac ≤ f.emin - f.frac + j := by
  have hfrac : ((f.prec - 1 : Nat) : ℤ) = f.frac := rfl
  obtain ⟨hlo, hhi⟩ := top_bounds hm e
  rw [hfrac]
  by_cases htop : e + (bitlen m : ℤ) - 1 < f.emin
  · obtain ⟨k, rem, den, hsplit⟩ : ∃ k rem den, splitAt m e (f.emin - f.frac + (0 : Nat)) = (k, rem, den) := ⟨_, _, _, rfl⟩
    obtain ⟨hk, -, -, -⟩ := split_rounds hsplit
    refine ⟨0, k, rem, den, by rw [if_pos htop]; simp, hsplit, .inl rfl, ?_, by omega⟩
    have hlt : (k : ℚ) * 2 ^ (f.emin - f.frac + (0 : Nat)) < 2 ^ (f.frac : ℤ) * 2 ^ (f.emin - f.frac + (0 : Nat)) := by
      rw [← zpow_add₀ two_ne_zero]
      refine hk.trans_lt (hhi.trans_le (zpow_le_zpow_right₀ one_le_two (by omega)))
    have hk' : k < 2 ^ f.frac := by
      have := lt_of_mul_lt_mul_right hlt (zpow_pos two_pos _).le
      rw [zpow_natCast] at this
      exact_mod_cast this
    rw [pow_succ]; omega
  · obtain ⟨j, hj⟩ := Int.eq_ofNat_of_zero_le (show 0 ≤ e + (bitlen m : ℤ) - 1 - f.emin by omega)
    obtain ⟨k, rem, den, hsplit⟩ : ∃ k rem den, splitAt m e (f.emin - f.frac + j) = (k, rem, den) := ⟨_, _, _, rfl⟩
    obtain ⟨hk, hk1, -, -⟩ := split_rounds hsplit
    have hq : (0 : ℚ) < 2 ^ (f.emin - f.frac + (j : ℤ)) := zpow_pos two_pos _
    refine ⟨j, k, rem, den, by rw [if_neg htop]; omega, hsplit, .inr ?_, ?_, by omega⟩
    · have : (2 : ℚ) ^ (f.frac : ℤ) * 2 ^ (f.emin - f.frac + (j : ℤ)) < (k + 1 : Nat) * 2 ^ (f.emin - f.frac + (j : ℤ)) := by
        rw [← zpow_add₀ two_ne_zero]
        refine lt_of_le_of_lt ?_ hk1
        rw [show (f.frac : ℤ) + (f.emin - f.frac + j) = e + (bitlen m : ℤ) - 1 by omega]
        exact hlo
      have := lt_of_mul_lt_mul_right this hq.le
      rw [zpow_natCast] at this
      have : 2 ^ f.frac < k + 1 := by exact_mod_cast this
      omega
    · have : (k : ℚ) * 2 ^ (f.emin - f.frac + (j : ℤ)) < (2 : ℚ) ^ ((f.frac + 1 : Nat) : ℤ) * 2 ^ (f.emin - f.frac + (j : ℤ)) := by
        rw [← zpow_add₀ two_ne_zero]
        refine hk.trans_lt ?_
        rw [show ((f.frac + 1 : Nat) : ℤ) + (f.emin - f.frac + j) = e + (bitlen m : ℤ) by push_cast; omega]
        exact hhi
      have := lt_of_mul_lt_mul_right this hq.le
      rw [zpow_natCast] at this
      exact_mod_cast this

/-- Rounding to the significand's length: the rounded code by its binade and significand. -/
theorem roundCore_spec {f : Fmt} (hf : f.Sound) (r : Rnd) (neg : Bool) {m : Nat} (hm : m ≠ 0) (e : ℤ) : ∃ j k rem den j' k' : Nat,
    splitAt m e (f.emin - f.frac + j) = (k, rem, den) ∧ (j = 0 ∨ 2 ^ f.frac ≤ k) ∧ k < 2 ^ (f.frac + 1)
    ∧ e + (bitlen m : ℤ) - 1 - f.frac ≤ f.emin - f.frac + j
    ∧ roundCore f.prec f.emin r neg m e = (k', f.emin - f.frac + j', rem != 0)
    ∧ j' * 2 ^ f.frac + k' = j * 2 ^ f.frac + k + b2n (roundsUp r neg (k % 2 == 1) rem den) ∧ (j' = 0 ∨ 2 ^ f.frac ≤ k') ∧ k' < 2 ^ (f.frac + 1) := by
  obtain ⟨j, k, rem, den, hq, hsplit, hj, hk, hle⟩ := quantum_spec f hm e
  have hprec : f.frac + 1 = f.prec := Nat.sub_add_cancel (by have := hf.1; omega)
  have hpos : 0 < 2 ^ f.frac := Nat.two_pow_pos _
  obtain ⟨K, hK⟩ : ∃ K, K = if roundsUp r neg (k % 2 == 1) rem den then k + 1 else k := ⟨_, rfl⟩
  have hKb : K = k + b2n (roundsUp r neg (k % 2 == 1) rem den) := by
    rw [hK]
    cases roundsUp r neg (k % 2 == 1) rem den <;> rfl
  have hcore : roundCore f.prec f.emin r neg m e = if K = 2 ^ f.prec then (2 ^ (f.prec - 1), f.emin - f.frac + j + 1, rem != 0)
      else (K, f.emin - f.frac + j, rem != 0) := by
    rw [roundCore, if_neg hm]
    simp only [hq, hsplit, ← hK]
  have hKle : K ≤ 2 ^ (f.frac + 1) := by rw [hK]; split <;> omega
  have hkK : k ≤ K := by rw [hK]; split <;> omega
  rw [hprec] at hKle
  by_cases hc : K = 2 ^ f.prec
  · refine ⟨j, k, rem, den, j + 1, 2 ^ f.frac, hsplit, hj, hk, hle, ?_, ?_, .inr le_rfl, by rw [pow_succ]; omega⟩
    · rw [hcore, if_pos hc]
      refine Prod.ext rfl (Prod.ext ?_ rfl)
      push_cast
      ring
    · rw [Nat.add_assoc, ← hKb, hc, ← hprec, pow_succ]
      ring
  · refine ⟨j, k, rem, den, j, K, hsplit, hj, hk, hle, ?_, by rw [Nat.add_assoc, hKb], ?_, by rw [hprec]; omega⟩
    · rw [hcore, if_neg hc]
    · exact hj.imp_right fun h => h.trans hkK

/-- Whether a static mode takes a magnitude beyond the finite ones to infinity. -/
def toInfinity (r : Rnd) (neg : Bool) : Bool :=
  match r with
  | .rne => true
  | .rtz => false
  | .rup => !neg
  | .rdn => neg
  | .rsr _ => true

/-- What a rounded significand becomes: a code, or what stands for a magnitude beyond the finite ones. -/
theorem roundTo_eq {f : Fmt} {r : Rnd} (hr : r ∈ [Rnd.rne, .rtz, .rup, .rdn]) {neg inex : Bool} {m k : Nat} (hm : m ≠ 0) {e q : ℤ}
    (hcore : roundCore f.prec f.emin r neg m e = (k, q, inex)) : ∃ fl : Flags, (fl.getLsbD 0 = true ↔ inex = true) ∧
      roundTo f r neg m e = if k < 2 ^ f.frac then (encoded f neg k, fl)
        else if 2 ^ f.ebits - 1 ≤ q + f.frac + f.bias then (if toInfinity r neg then f.infBits neg else f.maxBits neg, flOF ||| flNX)
        else (encoded f neg ((q + f.frac + f.bias).toNat * 2 ^ f.frac + (k - 2 ^ f.frac)), fl) := by
  refine ⟨(if inex = true then flNX else 0) ||| (if (inex && tiny f.prec f.emin r neg m e) = true then flUF else 0), ?_, ?_⟩
  · cases inex <;> cases tiny f.prec f.emin r neg m e <;> decide
  · simp only [List.mem_cons, List.not_mem_nil, or_false] at hr
    rw [roundTo.eq_def]
    simp only [if_neg hm, hcore, encoded, ← Nat.add_assoc]
    rcases hr with rfl | rfl | rfl | rfl <;> rfl

/-- The encoding of an infinity, and of the largest finite number. -/
theorem infBits_eq (f : Fmt) (neg : Bool) : f.infBits neg = encoded f neg f.top := rfl

theorem maxBits_eq {f : Fmt} (hf : f.Sound) (neg : Bool) : f.maxBits neg = encoded f neg (f.top - 1) := by
  have : 1 ≤ f.top := Nat.mul_pos (Nat.sub_pos_of_lt (Nat.one_lt_two_pow (by have := hf.2; rw [Fmt.ebits]; omega))) (Nat.two_pow_pos _)
  rw [Fmt.maxBits, infBits_eq, encoded, encoded]
  omega

/-- Rounding of a magnitude that is not 0: the code below it, or the next one, as decided; beyond the finite codes the infinity or the
largest finite one. -/
theorem roundTo_spec {f : Fmt} (hf : f.Sound) {r : Rnd} (hr : r ∈ [Rnd.rne, .rtz, .rup, .rdn]) (neg : Bool) {m : Nat} (hm : m ≠ 0) (e : ℤ) :
    ∃ j k rem den : Nat, splitAt m e (f.emin - f.frac + j) = (k, rem, den) ∧ (j = 0 ∨ 2 ^ f.frac ≤ k) ∧ k < 2 ^ (f.frac + 1)
      ∧ e + (bitlen m : ℤ) - 1 - f.frac ≤ f.emin - f.frac + j
      ∧ ∀ c, c = j * 2 ^ f.frac + k + b2n (roundsUp r neg (k % 2 == 1) rem den) →
        (c < f.top → (roundTo f r neg m e).1 = encoded f neg c ∧ ((roundTo f r neg m e).2.getLsbD 0 = true ↔ rem ≠ 0))
        ∧ (f.top ≤ c → (roundTo f r neg m e).1 = encoded f neg (if toInfinity r neg then f.top else f.top - 1)
          ∧ (roundTo f r neg m e).2.getLsbD 0 = true) := by
  obtain ⟨j, k, rem, den, j', k', hsplit, hj, hk, hle, hcore, hcode, hj', hk'⟩ := roundCore_spec hf r neg hm e
  refine ⟨j, k, rem, den, hsplit, hj, hk, hle, ?_⟩
  rintro c rfl
  rw [← hcode]
  obtain ⟨fl, hfl, heq⟩ := roundTo_eq hr hm hcore
  have hpos : 0 < 2 ^ f.frac := Nat.two_pow_pos _
  have heb : 1 < 2 ^ f.ebits := Nat.one_lt_two_pow (by have := hf.2; rw [Fmt.ebits]; omega)
  have hbe : f.emin - f.frac + (j' : ℤ) + f.frac + f.bias = ((j' + 1 : Nat) : ℤ) := by rw [Fmt.emin]; push_cast; ring
  have hinex : fl.getLsbD 0 = true ↔ rem ≠ 0 := hfl.trans bne_iff_ne
  rw [hbe, Int.toNat_natCast] at heq
  rw [pow_succ] at hk'
  by_cases hsmall : k' < 2 ^ f.frac
  · obtain rfl : j' = 0 := hj'.resolve_right (by omega)
    have htop : 2 ^ f.frac ≤ f.top := Nat.le_mul_of_pos_left _ (by omega)
    rw [Nat.zero_mul, Nat.zero_add, heq, if_pos hsmall]
    exact ⟨fun _ => ⟨rfl, hinex⟩, fun h => absurd h (by omega)⟩
  · have hcode' : j' * 2 ^ f.frac + k' = (j' + 1) * 2 ^ f.frac + (k' - 2 ^ f.frac) := by rw [Nat.add_mul]; omega
    have htop : f.top ≤ j' * 2 ^ f.frac + k' ↔ (2 ^ f.ebits - 1 : ℤ) ≤ ((j' + 1 : Nat) : ℤ) := by
      have : (2 ^ f.ebits - 1 : ℤ) ≤ ((j' + 1 : Nat) : ℤ) ↔ 2 ^ f.ebits - 1 ≤ j' + 1 := by
        rw [← Nat.cast_le (α := ℤ), Nat.cast_sub heb.le]; push_cast; rfl
      rw [this, hcode', Fmt.top, ← Nat.le_div_iff_mul_le hpos, Nat.mul_comm, Nat.mul_add_div hpos, Nat.div_eq_of_lt (by omega), Nat.add_zero]
    rw [heq, if_neg hsmall]
    refine ⟨fun h => ?_, fun h => ?_⟩
    · rw [if_neg fun h' => absurd (htop.2 h') (by omega), hcode']
      exact ⟨rfl, hinex⟩
    · rw [if_pos (htop.1 h), maxBits_eq hf, infBits_eq]
      refine ⟨?_, show (flOF ||| flNX).getLsbD 0 = true by decide⟩
      cases toInfinity r neg <;> rfl


-- A value that stands for an exact one.

/-- A significand and exponent stand for a value: they are it, or have bits to spare and lie between the same points of a coarser grid. -/
def StandsFor (p m : Nat) (e : ℤ) (x : ℚ) : Prop :=
  x = m * 2 ^ e ∨ (p + 3 ≤ bitlen m ∧ ∀ (n : Nat) (g : ℤ), e < g → ((n : ℚ) * 2 ^ g < x ↔ (n : ℚ) * 2 ^ g < m * 2 ^ e) ∧ ((n : ℚ) * 2 ^ g = x ↔ (n : ℚ) * 2 ^ g = m * 2 ^ e))

/-- The code below a value, and whether its rounding goes to the next one. -/
theorem roundTo_of_standsFor {f : Fmt} (hf : f.Sound) {r : Rnd} (hr : r ∈ [Rnd.rne, .rtz, .rup, .rdn]) (neg : Bool) {m : Nat} (hm : m ≠ 0) {e : ℤ} {x : ℚ}
    (hx : StandsFor f.prec m e x) : ∃ (c : Nat) (up : Bool), f.mag c ≤ x ∧ x < f.mag (c + 1)
      ∧ (up = true ↔ RoundsUp r neg (c % 2 == 1) (f.mag c) (f.mag (c + 1)) x)
      ∧ (c + b2n up < f.top → (roundTo f r neg m e).1 = encoded f neg (c + b2n up) ∧ ((roundTo f r neg m e).2.getLsbD 0 = true ↔ f.mag c ≠ x))
      ∧ (f.top ≤ c + b2n up → (roundTo f r neg m e).1 = encoded f neg (if toInfinity r neg then f.top else f.top - 1)
          ∧ (roundTo f r neg m e).2.getLsbD 0 = true) := by
  obtain ⟨j, k, rem, den, hsplit, hj, hk, hle, hround⟩ := roundTo_spec hf hr neg hm e
  obtain ⟨hlo, hhi, hrem, hups⟩ := split_rounds hsplit
  obtain ⟨q, hq⟩ : ∃ q : ℤ, q = f.emin - f.frac + j := ⟨_, rfl⟩
  rw [← hq] at hlo hhi hrem hups hle
  have hfrac : (f.frac : ℤ) = f.prec - 1 := by have := hf.1; rw [Fmt.frac]; omega
  -- the points that decide are points of the coarser grid
  have hgrid : ∀ (n : Nat) (g : ℤ), q - 1 ≤ g → ((n : ℚ) * 2 ^ g < x ↔ (n : ℚ) * 2 ^ g < m * 2 ^ e) ∧ ((n : ℚ) * 2 ^ g = x ↔ (n : ℚ) * 2 ^ g = m * 2 ^ e) :=
    fun n g hg => by
      rcases hx with rfl | ⟨hbits, hsame⟩
      · exact ⟨Iff.rfl, Iff.rfl⟩
      · exact hsame n g (by omega)
  have hmag : f.mag (j * 2 ^ f.frac + k) = k * 2 ^ q := by rw [Fmt.mag_code hj hk.le, hq]
  have hmag1 : f.mag (j * 2 ^ f.frac + k + 1) = (k + 1 : Nat) * 2 ^ q := by
    rw [Nat.add_assoc, Fmt.mag_code (k := k + 1) (hj.imp_right fun h => h.trans (Nat.le_succ k)) hk, hq]
  obtain ⟨hlt, heq⟩ := hgrid k q (by omega)
  obtain ⟨hlt1, heq1⟩ := hgrid (k + 1) q (by omega)
  have hodd : ((j * 2 ^ f.frac + k) % 2 == 1) = (k % 2 == 1) := by
    obtain ⟨n, hn⟩ : ∃ n, 2 ^ f.frac = 2 * n := ⟨2 ^ (f.frac - 1), by rw [← pow_succ', Nat.sub_add_cancel (by have := hf.1; rw [Fmt.frac]; omega)]⟩
    rw [hn, show j * (2 * n) = 2 * (j * n) by ring, Nat.mul_add_mod]
  have hhalf : ∀ y : ℚ, (k : ℚ) * 2 ^ q + (k + 1 : Nat) * 2 ^ q = 2 * y ↔ ((2 * k + 1 : Nat) : ℚ) * 2 ^ (q - 1) = y := fun y => by
    rw [zpow_sub_one₀ two_ne_zero]; push_cast; constructor <;> intro h <;> linarith
  have hhalf' : ∀ y : ℚ, (k : ℚ) * 2 ^ q + (k + 1 : Nat) * 2 ^ q < 2 * y ↔ ((2 * k + 1 : Nat) : ℚ) * 2 ^ (q - 1) < y := fun y => by
    rw [zpow_sub_one₀ two_ne_zero]; push_cast; constructor <;> intro h <;> linarith
  obtain ⟨hltm, heqm⟩ := hgrid (2 * k + 1) (q - 1) le_rfl
  have hsame : ∀ odd, RoundsUp r neg odd (k * 2 ^ q) ((k + 1 : Nat) * 2 ^ q) (m * 2 ^ e) ↔ RoundsUp r neg odd (k * 2 ^ q) ((k + 1 : Nat) * 2 ^ q) x := fun odd => by
    cases r <;> simp only [RoundsUp, hhalf, hhalf', hlt, hltm, heqm]
  refine ⟨j * 2 ^ f.frac + k, roundsUp r neg (k % 2 == 1) rem den, ?_, ?_, ?_, fun h => ?_, (hround _ rfl).2⟩
  · rw [hmag, le_iff_lt_or_eq, hlt, heq, ← le_iff_lt_or_eq]; exact hlo
  · rw [hmag1, ← not_le, le_iff_lt_or_eq, hlt1, heq1, ← le_iff_lt_or_eq, not_le]; exact hhi
  · rw [hodd, hmag, hmag1, hups r hr, hsame]
  · obtain ⟨hres, hflag⟩ := (hround _ rfl).1 h
    refine ⟨hres, hflag.trans (hrem.trans ?_)⟩
    rw [hmag]
    exact heq.not.symm


-- What each mode asks of a code (R67).

/-- The greatest finite code not above a magnitude. -/
def Below (f : Fmt) (x : ℚ) (c : Nat) : Prop := f.mag c ≤ x ∧ ∀ d < f.top, f.mag d ≤ x → f.mag d ≤ f.mag c

/-- The least finite code not below a magnitude. -/
def Above (f : Fmt) (x : ℚ) (c : Nat) : Prop := x ≤ f.mag c ∧ ∀ d < f.top, x ≤ f.mag d → f.mag c ≤ f.mag d

/-- A nearest finite code, the even one of two. -/
def Nearest (f : Fmt) (x : ℚ) (c : Nat) : Prop :=
  ∀ d < f.top, |f.mag c - x| ≤ |f.mag d - x| ∧ (f.mag d ≠ f.mag c → |f.mag d - x| = |f.mag c - x| → c % 2 = 0)

section
variable {f : Fmt} {x : ℚ} {c : Nat} (hlo : f.mag c ≤ x) (hhi : x < f.mag (c + 1))

include hhi in
theorem le_of_mag_le {d : Nat} (h : f.mag d ≤ x) : d ≤ c := Nat.le_of_lt_succ ((Fmt.mag_strictMono f).lt_iff_lt.1 (h.trans_lt hhi))

include hlo hhi in
theorem below_of : Below f x c := ⟨hlo, fun _ _ hd => (Fmt.mag_strictMono f).monotone (le_of_mag_le hhi hd)⟩

include hlo in
/-- Of a magnitude beyond the finite codes the greatest one is below it. -/
theorem below_top (hc : f.top ≤ c) (htop : 0 < f.top) : Below f x (f.top - 1) ∧ f.mag (f.top - 1) ≠ x := by
  have hlt : f.mag (f.top - 1) < f.mag c := Fmt.mag_strictMono f (by omega)
  exact ⟨⟨hlt.le.trans hlo, fun d hd _ => (Fmt.mag_strictMono f).monotone (by omega)⟩, (hlt.trans_le hlo).ne⟩

include hhi in
theorem above_succ (h : f.mag c < x) : Above f x (c + 1) :=
  ⟨hhi.le, fun _ _ hd => (Fmt.mag_strictMono f).monotone ((Fmt.mag_strictMono f).lt_iff_lt.1 (h.trans_le hd))⟩

theorem above_self (h : f.mag c = x) : Above f x c := ⟨h.ge, fun _ _ hd => h.le.trans hd⟩

include hlo hhi in
theorem nearest_self (h : ¬ (f.mag c + f.mag (c + 1) < 2 * x ∨ f.mag c + f.mag (c + 1) = 2 * x ∧ (c % 2 == 1) = true)) : Nearest f x c := by
  rw [not_or, not_lt, not_and] at h
  intro d _
  rw [abs_sub_comm (f.mag c), abs_of_nonneg (sub_nonneg.2 hlo)]
  rcases Nat.lt_or_ge c d with hlt | hge
  · have hd : f.mag (c + 1) ≤ f.mag d := (Fmt.mag_strictMono f).monotone hlt
    rw [abs_of_nonneg (by linarith)]
    refine ⟨by linarith [h.1], fun _ heq => ?_⟩
    have hodd := h.2 (by linarith [h.1])
    rw [beq_iff_eq] at hodd
    omega
  · have hd : f.mag d ≤ f.mag c := (Fmt.mag_strictMono f).monotone hge
    rw [abs_sub_comm, abs_of_nonneg (by linarith)]
    exact ⟨by linarith, fun hne heq => absurd (by linarith) hne⟩

include hhi in
theorem nearest_succ (h : f.mag c + f.mag (c + 1) < 2 * x ∨ f.mag c + f.mag (c + 1) = 2 * x ∧ (c % 2 == 1) = true) : Nearest f x (c + 1) := by
  have hle : f.mag c + f.mag (c + 1) ≤ 2 * x := h.elim le_of_lt fun h => h.1.le
  intro d _
  rw [abs_of_nonneg (sub_nonneg.2 hhi.le)]
  rcases Nat.lt_or_ge c d with hlt | hge
  · have hd : f.mag (c + 1) ≤ f.mag d := (Fmt.mag_strictMono f).monotone hlt
    rw [abs_of_nonneg (by linarith)]
    exact ⟨by linarith, fun hne heq => absurd (by linarith) hne⟩
  · have hd : f.mag d ≤ f.mag c := (Fmt.mag_strictMono f).monotone hge
    rw [abs_sub_comm, abs_of_nonneg (by linarith)]
    refine ⟨by linarith, fun _ heq => ?_⟩
    have hodd := (h.resolve_left (by linarith)).2
    rw [beq_iff_eq] at hodd
    omega

end

section
variable {f : Fmt} (hf : f.Sound) {x : ℚ} (hx : 0 ≤ x) {c : Nat} (hc : c < f.top)
include hf hx hc

theorem roundsRight_rtz {neg : Bool} (h : Below f x c) : RoundsRight f .rtz (signed neg x) (encoded f neg c) := by
  have habs : ∀ (neg : Bool) (y : ℚ), 0 ≤ y → |signed neg y| = y := fun neg y hy => by
    cases neg <;> simp [signed, abs_of_nonneg hy]
  rw [RoundsRight, fpRat_encoded hf hc, habs _ _ (Fmt.mag_nonneg f c), habs _ _ hx]
  refine ⟨h.1, ?_, fun y hy hle => ?_⟩
  · have := mul_nonneg (Fmt.mag_nonneg f c) hx
    cases neg <;> simpa [signed] using this
  · obtain ⟨neg', d, hd, rfl⟩ := encoded_of_finite hf hy
    rw [fpRat_encoded hf hd, habs _ _ (Fmt.mag_nonneg f d)] at hle ⊢
    exact h.2 d hd hle

omit hf hx in
/-- A magnitude of 0 is rounded up to 0. -/
theorem mag_nonpos_of_above (h : Above f x c) (h0 : x ≤ 0) : f.mag c ≤ 0 := by
  have := h.2 0 (Nat.lt_of_le_of_lt (Nat.zero_le c) hc) (by rw [Fmt.mag_zero]; exact h0)
  rwa [Fmt.mag_zero] at this

theorem roundsRight_up {neg : Bool} (h : if neg = true then Below f x c else Above f x c) : RoundsRight f .rup (signed neg x) (encoded f neg c) := by
  rw [RoundsRight, fpRat_encoded hf hc]
  cases neg with
  | false =>
    obtain ⟨hle, hleast⟩ := (show Above f x c from h)
    refine ⟨hle, fun y hy hxy => ?_⟩
    obtain ⟨neg', d, hd, rfl⟩ := encoded_of_finite hf hy
    rw [fpRat_encoded hf hd] at hxy ⊢
    have hd0 := Fmt.mag_nonneg f d
    cases neg' with
    | false => exact hleast d hd hxy
    | true =>
      have hxy' : x ≤ -f.mag d := hxy
      have := mag_nonpos_of_above hc (show Above f x c from h) (by linarith)
      exact (by linarith : f.mag c ≤ -f.mag d)
  | true =>
    obtain ⟨hle, hgreatest⟩ : Below f x c := h
    refine ⟨neg_le_neg hle, fun y hy hxy => ?_⟩
    obtain ⟨neg', d, hd, rfl⟩ := encoded_of_finite hf hy
    rw [fpRat_encoded hf hd] at hxy ⊢
    have hc0 := Fmt.mag_nonneg f c
    have hd0 := Fmt.mag_nonneg f d
    cases neg' with
    | false => exact (by linarith : -f.mag c ≤ f.mag d)
    | true => exact neg_le_neg (hgreatest d hd (neg_le_neg_iff.1 hxy))

theorem roundsRight_down {neg : Bool} (h : if neg = true then Above f x c else Below f x c) : RoundsRight f .rdn (signed neg x) (encoded f neg c) := by
  rw [RoundsRight, fpRat_encoded hf hc]
  cases neg with
  | false =>
    obtain ⟨hle, hgreatest⟩ : Below f x c := h
    refine ⟨hle, fun y hy hxy => ?_⟩
    obtain ⟨neg', d, hd, rfl⟩ := encoded_of_finite hf hy
    rw [fpRat_encoded hf hd] at hxy ⊢
    have hc0 := Fmt.mag_nonneg f c
    have hd0 := Fmt.mag_nonneg f d
    cases neg' with
    | false => exact hgreatest d hd hxy
    | true => exact (by linarith : -f.mag d ≤ f.mag c)
  | true =>
    obtain ⟨hle, hleast⟩ := (show Above f x c from h)
    refine ⟨neg_le_neg hle, fun y hy hxy => ?_⟩
    obtain ⟨neg', d, hd, rfl⟩ := encoded_of_finite hf hy
    rw [fpRat_encoded hf hd] at hxy ⊢
    have hd0 := Fmt.mag_nonneg f d
    cases neg' with
    | false =>
      have hxy' : f.mag d ≤ -x := hxy
      have := mag_nonpos_of_above hc (show Above f x c from h) (by linarith)
      exact (by linarith : f.mag d ≤ -f.mag c)
    | true => exact neg_le_neg (hleast d hd (neg_le_neg_iff.1 hxy))

theorem roundsRight_rne {neg : Bool} (h : Nearest f x c) : RoundsRight f .rne (signed neg x) (encoded f neg c) := by
  have htop : 0 < f.top := Nat.lt_of_le_of_lt (Nat.zero_le c) hc
  have hsame : ∀ y : ℚ, |signed neg y - signed neg x| = |y - x| := fun y => by
    cases neg
    · rfl
    · show |-y - -x| = _
      rw [neg_sub_neg, abs_sub_comm]
  have hother : ∀ (neg' : Bool) (d : Nat), neg' ≠ neg → |signed neg' (f.mag d) - signed neg x| = f.mag d + x := fun neg' d hne => by
    have hd0 := Fmt.mag_nonneg f d
    cases neg <;> cases neg'
    · exact absurd rfl hne
    · show |-f.mag d - x| = _
      rw [abs_of_nonpos (by linarith)]; ring
    · show |f.mag d - -x| = _
      rw [abs_of_nonneg (by linarith)]; ring
    · exact absurd rfl hne
  obtain ⟨hzero, hzeroTie⟩ := h 0 htop
  rw [Fmt.mag_zero, zero_sub, abs_neg, abs_of_nonneg hx] at hzero hzeroTie
  have heven : encoded f neg c % 2 = c % 2 := by
    obtain ⟨n, hn⟩ : ∃ n, 2 ^ (f.width - 1) = 2 * n := ⟨2 ^ (f.width - 2), by
      rw [← pow_succ', show f.width - 2 + 1 = f.width - 1 by have := hf.1; have := hf.2; omega]⟩
    rw [encoded, hn, show b2n neg * (2 * n) = 2 * (b2n neg * n) by ring, Nat.mul_add_mod]
  rw [RoundsRight, fpRat_encoded hf hc, hsame, heven]
  constructor
  · intro y hy
    obtain ⟨neg', d, hd, rfl⟩ := encoded_of_finite hf hy
    rw [fpRat_encoded hf hd]
    by_cases hne : neg' = neg
    · rw [hne, hsame]
      exact (h d hd).1
    · rw [hother _ _ hne]
      exact hzero.trans (by linarith [Fmt.mag_nonneg f d])
  · rintro ⟨y, hy, hval, heq⟩
    obtain ⟨neg', d, hd, rfl⟩ := encoded_of_finite hf hy
    rw [fpRat_encoded hf hd] at hval heq
    by_cases hne : neg' = neg
    · rw [hne, hsame] at heq
      rw [hne] at hval
      exact (h d hd).2 (fun he => hval (by rw [he])) heq
    · rw [hother _ _ hne] at heq
      have hd0 : f.mag d = 0 := le_antisymm (by linarith) (Fmt.mag_nonneg f d)
      refine hzeroTie (fun h0 => hval ?_) (by linarith)
      rw [hd0, ← h0]
      cases neg <;> cases neg' <;> simp [signed]

end


-- The rounding of an exact value, and the operations.

theorem signed_inj {neg : Bool} {x y : ℚ} : signed neg x = signed neg y ↔ x = y := by
  cases neg
  · exact Iff.rfl
  · exact neg_inj

theorem lt_of_roundsUp {r : Rnd} {neg odd : Bool} {lo hi x : ℚ} (hlohi : lo < hi) (h : RoundsUp r neg odd lo hi x) : lo < x := by
  cases r with
  | rne => exact h.elim (fun h => by linarith) fun h => by linarith [h.1]
  | rtz => exact h.elim
  | rup => exact h.1
  | rdn => exact h.1
  | rsr u => exact h.elim

/-- A mode that takes a magnitude beyond the finite ones to the largest of them rounds no such sign away from 0. -/
theorem not_roundsUp_of_finite {r : Rnd} {neg odd : Bool} {lo hi x : ℚ} (hinf : toInfinity r neg = false) : ¬ RoundsUp r neg odd lo hi x := by
  cases r with
  | rne => exact absurd (show true = false from hinf) (by decide)
  | rtz => exact not_false
  | rup => rintro ⟨-, rfl⟩; exact absurd hinf (by decide)
  | rdn => rintro ⟨-, rfl⟩; exact absurd hinf (by decide)
  | rsr u => exact not_false

/-- A finite result rounds the value that a significand and exponent stand for, and NX tells whether it differs (R67). -/
theorem roundTo_right {f : Fmt} (hf : f.Sound) {r : Rnd} (hr : r ∈ [Rnd.rne, .rtz, .rup, .rdn]) (neg : Bool) {m : Nat} {e : ℤ} {x : ℚ}
    (hz : m = 0 → x = 0) (hx : m ≠ 0 → StandsFor f.prec m e x) (hfin : fpFinite f (roundTo f r neg m e).1 = true) :
    RoundsRight f r (signed neg x) (roundTo f r neg m e).1 ∧ ((roundTo f r neg m e).2.getLsbD 0 = true ↔ fpRat f (roundTo f r neg m e).1 ≠ signed neg x) := by
  have htop : 0 < f.top := Nat.mul_pos (Nat.sub_pos_of_lt (Nat.one_lt_two_pow (by have := hf.2; rw [Fmt.ebits]; omega))) (Nat.two_pow_pos _)
  by_cases hm : m = 0
  · obtain rfl := hz hm
    have hout : roundTo f r neg m e = (encoded f neg 0, 0) := by rw [roundTo.eq_def]; exact if_pos hm
    have hlo : f.mag 0 ≤ 0 := (Fmt.mag_zero f).le
    have hhi : 0 < f.mag (0 + 1) := by rw [← Fmt.mag_zero f]; exact Fmt.mag_strictMono f (Nat.lt_succ_self 0)
    rw [hout, fpRat_encoded hf htop, Fmt.mag_zero]
    refine ⟨?_, by simp⟩
    simp only [List.mem_cons, List.not_mem_nil, or_false] at hr
    have hbelow := below_of hlo hhi
    have habove := above_self (Fmt.mag_zero f)
    rcases hr with rfl | rfl | rfl | rfl
    · exact roundsRight_rne hf le_rfl htop (nearest_self hlo hhi (by rw [Fmt.mag_zero] at *; simp; linarith))
    · exact roundsRight_rtz hf le_rfl htop hbelow
    · exact roundsRight_up hf le_rfl htop (by cases neg <;> assumption)
    · exact roundsRight_down hf le_rfl htop (by cases neg <;> assumption)
  · obtain ⟨c, up, hlo, hhi, hup, hin, hout⟩ := roundTo_of_standsFor hf hr neg hm (hx hm)
    have hx0 : 0 ≤ x := (Fmt.mag_nonneg f c).trans hlo
    have hlohi : f.mag c < f.mag (c + 1) := Fmt.mag_strictMono f (Nat.lt_succ_self c)
    simp only [List.mem_cons, List.not_mem_nil, or_false] at hr
    rcases Nat.lt_or_ge (c + b2n up) f.top with hlt | hge
    · obtain ⟨hres, hflag⟩ := hin hlt
      rw [hres, fpRat_encoded hf hlt, hflag, ne_eq, ne_eq, signed_inj]
      constructor
      · rcases hr with rfl | rfl | rfl | rfl
        · cases up with
          | false => exact roundsRight_rne hf hx0 hlt (nearest_self hlo hhi fun h => Bool.false_ne_true (hup.2 h))
          | true => exact roundsRight_rne hf hx0 hlt (nearest_succ hhi (hup.1 rfl))
        · obtain rfl : up = false := Bool.eq_false_iff.2 fun h => hup.1 h
          exact roundsRight_rtz hf hx0 hlt (below_of hlo hhi)
        · refine roundsRight_up hf hx0 hlt ?_
          cases up with
          | true =>
            obtain ⟨hlt, rfl⟩ := hup.1 rfl
            exact above_succ hhi hlt
          | false =>
            cases neg with
            | true => exact below_of hlo hhi
            | false => exact above_self (eq_of_le_of_not_lt hlo fun h => Bool.false_ne_true (hup.2 ⟨h, rfl⟩))
        · refine roundsRight_down hf hx0 hlt ?_
          cases up with
          | true =>
            obtain ⟨hlt, rfl⟩ := hup.1 rfl
            exact above_succ hhi hlt
          | false =>
            cases neg with
            | false => exact below_of hlo hhi
            | true => exact above_self (eq_of_le_of_not_lt hlo fun h => Bool.false_ne_true (hup.2 ⟨h, rfl⟩))
      · cases up with
        | false => exact Iff.rfl
        | true => exact iff_of_true (lt_of_roundsUp hlohi (hup.1 rfl)).ne hhi.ne'
    · obtain ⟨hres, hflag⟩ := hout hge
      have hinf : toInfinity r neg = false := by
        refine Bool.eq_false_iff.2 fun h => ?_
        rw [hres, if_pos h, fpFinite_encoded hf (top_lt hf)] at hfin
        exact lt_irrefl _ hfin
      obtain rfl : up = false := Bool.eq_false_iff.2 fun h => not_roundsUp_of_finite hinf (hup.1 h)
      obtain ⟨hbelow, hne⟩ := below_top hlo hge htop
      have hlt : f.top - 1 < f.top := by omega
      rw [hres, hinf, if_neg Bool.false_ne_true, fpRat_encoded hf hlt, ne_eq, signed_inj]
      refine ⟨?_, iff_of_true hflag hne⟩
      rcases hr with rfl | rfl | rfl | rfl
      · exact absurd (show true = false from hinf) (by decide)
      · exact roundsRight_rtz hf hx0 hlt hbelow
      · obtain rfl : neg = true := by simpa [toInfinity] using hinf
        exact roundsRight_up hf hx0 hlt hbelow
      · obtain rfl : neg = false := hinf
        exact roundsRight_down hf hx0 hlt hbelow


theorem smant_cast_eq (neg : Bool) (m : Nat) : ((smant neg m : Int) : ℚ) = signed neg m := smant_cast neg m

theorem signed_mul (neg : Bool) (x y : ℚ) : signed neg x * y = signed neg (x * y) := by
  cases neg
  · rfl
  · exact neg_mul x y

/-- A finite operand decodes to a sign, a significand and an exponent of its value. -/
theorem decode_signed {f : Fmt} {a : Nat} (h : fpFinite f a = true) : ∃ neg m e, f.decode a = .fin neg m e ∧ fpRat f a = signed neg (m * 2 ^ e) := by
  obtain ⟨m, e, hd, hv⟩ := decode_finite h
  refine ⟨_, m, e, hd, ?_⟩
  rw [FVal.rat, pow2_eq, Option.some_inj, smant_cast_eq, signed_mul] at hv
  exact hv.symm

/-- An exact sum is the sum. -/
theorem addExact_spec (a ea b eb : Int) : (((addExact a ea b eb).1 : Int) : ℚ) * 2 ^ (addExact a ea b eb).2 = a * 2 ^ ea + b * 2 ^ eb := by
  rw [addExact]
  split
  · next h =>
    obtain ⟨n, hn⟩ := Int.eq_ofNat_of_zero_le (show 0 ≤ eb - ea by omega)
    rw [hn, Int.toNat_natCast, show eb = ea + n by omega, zpow_add₀ two_ne_zero, zpow_natCast]
    push_cast
    ring
  · next h =>
    obtain ⟨n, hn⟩ := Int.eq_ofNat_of_zero_le (show 0 ≤ ea - eb by omega)
    rw [hn, Int.toNat_natCast, show ea = eb + n by omega, zpow_add₀ two_ne_zero, zpow_natCast]
    push_cast
    ring

/-- A result rounds an exact value once, and NX tells whether it differs (R67). -/
def RoundsOnce (f : Fmt) (r : Rnd) (x : ℚ) (out : Nat × Flags) : Prop :=
  fpFinite f out.1 = true → RoundsRight f r x out.1 ∧ (out.2.getLsbD 0 = true ↔ fpRat f out.1 ≠ x)

section
variable {f : Fmt} (hf : f.Sound) {r : Rnd} (hr : r ∈ [Rnd.rne, .rtz, .rup, .rdn])
include hf hr

/-- The rounding of an exact magnitude. -/
theorem roundTo_exact (neg : Bool) (m : Nat) (e : ℤ) : RoundsOnce f r (signed neg (m * 2 ^ e)) (roundTo f r neg m e) :=
  roundTo_right hf hr neg (fun hm => by rw [hm, Nat.cast_zero, zero_mul]) fun _ => .inl rfl

theorem roundSum_exact (na nb : Bool) (s e : ℤ) : RoundsOnce f r (s * 2 ^ e) (roundSum f r na nb s e) := by
  rw [roundSum]
  split
  · next h =>
    have := roundTo_exact hf hr (if (na == nb) = true then na else decide (r = .rdn)) 0 0
    rw [roundTo.eq_def, if_pos rfl, Nat.cast_zero, zero_mul] at this
    rw [h, Int.cast_zero, zero_mul]
    have h0 : ∀ neg, signed neg 0 = 0 := fun neg => by cases neg <;> simp [signed]
    rwa [h0] at this
  · next h =>
    have := roundTo_exact hf hr (decide (s < 0)) s.natAbs e
    rw [← signed_mul] at this
    have habs : signed (decide (s < 0)) ((s.natAbs : Nat) : ℚ) = s := by
      rw [signed, Nat.cast_natAbs, Int.cast_abs]
      split
      · next hneg => rw [abs_of_neg (by exact_mod_cast of_decide_eq_true hneg), neg_neg]
      · next hneg => rw [abs_of_nonneg (by exact_mod_cast not_lt.1 fun h => hneg (decide_eq_true h))]
    rwa [habs] at this

theorem fAdd_exact (na nb : Bool) (ma mb : Nat) (ea eb : ℤ) :
    RoundsOnce f r (signed na (ma * 2 ^ ea) + signed nb (mb * 2 ^ eb)) (fAdd f r (.fin na ma ea) (.fin nb mb eb)) := by
  have hsum := addExact_spec (smant na ma) ea (smant nb mb) eb
  rw [smant_cast_eq, smant_cast_eq, signed_mul, signed_mul] at hsum
  rw [← hsum]
  have heq : fAdd f r (.fin na ma ea) (.fin nb mb eb)
      = if ma = 0 ∧ mb = 0 then roundSum f r na nb 0 0
        else if (addExact (smant na ma) ea (smant nb mb) eb).1 = 0 then roundSum f r na (!na) 0 0
        else roundSum f r na nb (addExact (smant na ma) ea (smant nb mb) eb).1 (addExact (smant na ma) ea (smant nb mb) eb).2 := rfl
  rw [heq]
  have hzero : ∀ nc, RoundsOnce f r 0 (roundSum f r na nc 0 0) := fun nc => by
    have := roundSum_exact hf hr na nc 0 0
    rwa [Int.cast_zero, zero_mul] at this
  split
  · next h =>
    have h0 : ((addExact (smant na ma) ea (smant nb mb) eb).1 : ℚ) * 2 ^ (addExact (smant na ma) ea (smant nb mb) eb).2 = 0 := by
      rw [hsum, h.1, h.2]; cases na <;> cases nb <;> simp [signed]
    rw [h0]
    exact hzero nb
  · split
    · next h =>
      rw [h, Int.cast_zero, zero_mul]
      exact hzero _
    · exact roundSum_exact hf hr na nb _ _

theorem fMul_exact (na nb : Bool) (ma mb : Nat) (ea eb : ℤ) :
    RoundsOnce f r (signed na (ma * 2 ^ ea) * signed nb (mb * 2 ^ eb)) (fMul f r (.fin na ma ea) (.fin nb mb eb)) := by
  have h : RoundsOnce f r _ (fMul f r (.fin na ma ea) (.fin nb mb eb)) := roundTo_exact hf hr (na != nb) (ma * mb) (ea + eb)
  have hval : signed (na != nb) ((ma * mb : Nat) * 2 ^ (ea + eb)) = signed na (ma * 2 ^ ea) * signed nb (mb * 2 ^ eb) := by
    rw [zpow_add₀ two_ne_zero]
    push_cast
    cases na <;> cases nb <;> simp [signed] <;> ring
  rwa [hval] at h

end

/-- The jammed quotient of two significands stands for the quotient. -/
theorem divJam_standsFor {m n : Nat} (hm : m ≠ 0) (hn : n ≠ 0) (p : Nat) (e : ℤ) :
    (divJam m n (p + 3)).1 ≠ 0 ∧ StandsFor p (divJam m n (p + 3)).1 (e + (divJam m n (p + 3)).2) (m / n * 2 ^ e) := by
  obtain ⟨sh, hsh⟩ : ∃ sh, sh = p + 3 + bitlen n := ⟨_, rfl⟩
  obtain ⟨q, hq⟩ : ∃ q, q = m * 2 ^ sh / n := ⟨_, rfl⟩
  obtain ⟨b, hb⟩ : ∃ b, b = (m * 2 ^ sh % n != 0) := ⟨_, rfl⟩
  have hjam : divJam m n (p + 3) = (2 * q + b2n b, -(sh : ℤ) - 1) := by rw [divJam, hq, hb, hsh]
  have hnpos : 0 < n := Nat.pos_of_ne_zero hn
  have hbig : 2 ^ (p + 3) ≤ q := by
    rw [hq, Nat.le_div_iff_mul_le hnpos, hsh, pow_add 2 (p + 3)]
    have := (bitlen_bounds hn).2.1
    calc 2 ^ (p + 3) * n ≤ 2 ^ (p + 3) * 2 ^ bitlen n := Nat.mul_le_mul_left _ this.le
      _ ≤ m * (2 ^ (p + 3) * 2 ^ bitlen n) := Nat.le_mul_of_pos_left _ (Nat.pos_of_ne_zero hm)
  have hqpos : 0 < q := lt_of_lt_of_le (Nat.two_pow_pos _) hbig
  rw [hjam]
  refine ⟨by simp only; omega, ?_⟩
  simp only
  obtain ⟨g, hg⟩ : ∃ g : ℤ, g = e + (-(sh : ℤ) - 1) := ⟨_, rfl⟩
  rw [← hg]
  obtain ⟨y, hy⟩ : ∃ y : ℚ, y = 2 * (m * 2 ^ sh : Nat) / n := ⟨_, rfl⟩
  have hgpos : (0 : ℚ) < 2 ^ g := zpow_pos two_pos _
  have hnq : (n : ℚ) ≠ 0 := Nat.cast_ne_zero.2 hn
  have hx : (m : ℚ) / n * 2 ^ e = y * 2 ^ g := by
    rw [hy, hg, show e + (-(sh : ℤ) - 1) = e - ((sh + 1 : Nat) : ℤ) by push_cast; ring, zpow_sub₀ two_ne_zero, zpow_natCast, pow_succ]
    push_cast
    field_simp
  have hdiv := Nat.div_add_mod (m * 2 ^ sh) n
  have hmod := Nat.mod_lt (m * 2 ^ sh) hnpos
  rw [← hq] at hdiv
  rw [hx]
  have hyn : y * n = 2 * (n * q + m * 2 ^ sh % n : Nat) := by rw [hdiv, hy]; field_simp
  by_cases hz : m * 2 ^ sh % n = 0
  · left
    have : y = (2 * q : Nat) := by
      rw [hz, Nat.add_zero] at hyn
      push_cast at hyn ⊢
      have : y * n = 2 * q * n := by rw [hyn]; ring
      exact mul_right_cancel₀ hnq this
    rw [hb, hz, this]
    rfl
  · right
    have hbt : b = true := by rw [hb]; exact bne_iff_ne.2 hz
    rw [hbt]
    have hn0 : (0 : ℚ) < n := by exact_mod_cast hnpos
    have hylo : (2 * q : Nat) < y := by
      have : ((2 * q : Nat) : ℚ) * n < y * n := by
        rw [hyn]; exact_mod_cast (by rw [Nat.mul_assoc, Nat.mul_comm q]; omega : 2 * q * n < 2 * (n * q + m * 2 ^ sh % n))
      exact lt_of_mul_lt_mul_right this hn0.le
    have hyhi : y < (2 * q + 2 : Nat) := by
      have : y * n < ((2 * q + 2 : Nat) : ℚ) * n := by
        rw [hyn]; exact_mod_cast (by rw [show (2 * q + 2) * n = 2 * (n * q + n) by ring]; omega : 2 * (n * q + m * 2 ^ sh % n) < (2 * q + 2) * n)
      exact lt_of_mul_lt_mul_right this hn0.le
    constructor
    · have hJ : 2 * q + b2n true ≠ 0 := by show 2 * q + 1 ≠ 0; omega
      by_contra hlt
      have h1 := (bitlen_bounds hJ).2.1
      have h2 : 2 ^ bitlen (2 * q + b2n true) ≤ 2 ^ (p + 3) := Nat.pow_le_pow_right two_pos (by omega)
      omega
    · intro N g' hg'
      obtain ⟨d, hd⟩ := Int.eq_ofNat_of_zero_le (show 0 ≤ g' - g - 1 by omega)
      have hN : (N : ℚ) * 2 ^ g' = (2 * (N * 2 ^ d) : Nat) * 2 ^ g := by
        rw [show g' = g + 1 + d by omega, zpow_add₀ two_ne_zero, zpow_add_one₀ two_ne_zero, zpow_natCast]
        push_cast
        ring
      obtain ⟨M, hM⟩ : ∃ M, M = N * 2 ^ d := ⟨_, rfl⟩
      rw [hN, ← hM, mul_lt_mul_iff_left₀ hgpos, mul_lt_mul_iff_left₀ hgpos, mul_left_inj' hgpos.ne', mul_left_inj' hgpos.ne', Nat.cast_lt, Nat.cast_inj]
      have hb1 : b2n true = 1 := rfl
      rw [hb1]
      rcases Nat.lt_or_ge q M with hlt | hge
      · have hge2 : ((2 * q + 2 : Nat) : ℚ) ≤ (2 * M : Nat) := by exact_mod_cast (by omega : 2 * q + 2 ≤ 2 * M)
        exact ⟨iff_of_false (by linarith) (by omega), iff_of_false (by intro h; linarith) (by omega)⟩
      · have hle2 : ((2 * M : Nat) : ℚ) ≤ (2 * q : Nat) := by exact_mod_cast (by omega : 2 * M ≤ 2 * q)
        exact ⟨iff_of_true (by linarith) (by omega), iff_of_false (by intro h; linarith) (by omega)⟩

theorem fDiv_exact {f : Fmt} (hf : f.Sound) {r : Rnd} (hr : r ∈ [Rnd.rne, .rtz, .rup, .rdn]) (na nb : Bool) (ma : Nat) {mb : Nat} (hb : mb ≠ 0) (ea eb : ℤ) :
    RoundsOnce f r (signed na (ma * 2 ^ ea) / signed nb (mb * 2 ^ eb)) (fDiv f r (.fin na ma ea) (.fin nb mb eb)) := by
  have heq : fDiv f r (.fin na ma ea) (.fin nb mb eb)
      = roundTo f r (na != nb) (divJam ma mb (f.prec + 3)).1 (ea - eb + (divJam ma mb (f.prec + 3)).2) := if_neg hb
  have hval : signed (na != nb) (ma / mb * 2 ^ (ea - eb)) = signed na (ma * 2 ^ ea) / signed nb (mb * 2 ^ eb) := by
    rw [zpow_sub₀ two_ne_zero]
    have hmb : (mb : ℚ) ≠ 0 := Nat.cast_ne_zero.2 hb
    have hpow : (2 : ℚ) ^ eb ≠ 0 := zpow_ne_zero _ two_ne_zero
    cases na <;> cases nb <;> simp [signed] <;> field_simp
  rw [heq, ← hval]
  refine roundTo_right hf hr (na != nb) (fun hz => ?_) (fun hz => ?_)
  · by_cases hm : ma = 0
    · rw [hm, Nat.cast_zero, zero_div, zero_mul]
    · exact absurd hz (divJam_standsFor hm hb f.prec (ea - eb)).1
  · by_cases hm : ma = 0
    · refine absurd ?_ hz
      rw [divJam, hm, Nat.zero_mul, Nat.zero_div, Nat.zero_mod]
      rfl
    · exact (divJam_standsFor hm hb f.prec (ea - eb)).2

/-- Settles O25: a result's code is the one below the exact magnitude or the next, as the mode decides; a quotient's sticky bit decides as
the quotient does. -/
theorem arithmeticRoundsTheExactResultOnce : Obligations.ArithmeticRoundsTheExactResultOnce := by
  unfold Obligations.ArithmeticRoundsTheExactResultOnce
  intro f hmem r hr a b ha hb e he out hfin
  have hf : f.Sound := by
    simp only [List.mem_cons, List.not_mem_nil, or_false] at hmem
    rcases hmem with rfl | rfl | rfl | rfl <;> exact ⟨by decide, by decide⟩
  obtain ⟨na, ma, ea, hda, hva⟩ := decode_signed ha
  obtain ⟨nb, mb, eb, hdb, hvb⟩ := decode_signed hb
  have hout : out = e.1 (.fin na ma ea) (.fin nb mb eb) := by rw [← hda, ← hdb]
  rw [hout] at hfin ⊢
  rw [hva, hvb] at he
  rcases List.mem_append.1 he with he | he
  · simp only [List.mem_cons, List.not_mem_nil, or_false] at he
    rcases he with rfl | rfl | rfl
    · exact fAdd_exact hf hr na nb ma mb ea eb hfin
    · have hneg : -signed nb (mb * 2 ^ eb) = signed (!nb) ((mb : ℚ) * 2 ^ eb) := by cases nb <;> simp [signed]
      have := fAdd_exact hf hr na (!nb) ma mb ea eb hfin
      rwa [← hneg, ← sub_eq_add_neg] at this
    · exact fMul_exact hf hr na nb ma mb ea eb hfin
  · split at he
    · exact absurd he List.not_mem_nil
    · next hne =>
      obtain rfl := List.mem_singleton.1 he
      have hmb : mb ≠ 0 := fun h => hne (by rw [h]; cases nb <;> simp [signed])
      exact fDiv_exact hf hr na nb ma hmb ea eb hfin

end Sys2Proof.Machine
end

section
/-! PROOFS. What every step keeps: the canonical form of memory, and tidy tables. Each operation of the model that answers a state has one lemma here that it
keeps both, in the order of the model's files: `Kept.op` carries on from what the operations before it keep, so a proof reads as the operation's own text. -/

namespace Sys2Proof.Machine

-- Many short proofs: elaborated one after another they need less memory.
set_option Elab.async false

/-- From one state to another: a canonical memory stays canonical, and tidy tables stay tidy. -/
structure Kept (s t : State) : Prop where
  wf : s.wf = true → t.wf = true
  tidy : s.tidy = true → t.tidy = true

/-- Every answer's state, taken out by `π`, keeps what the state before has. -/
def KeptAs {ε α : Type} (π : α → State) (s : State) (x : Except ε α) : Prop := ∀ a, x = .ok a → Kept s (π a)

/-- Every state that an answer may be keeps what the state before has. -/
abbrev KeptOk {ε : Type} (s : State) (x : Except ε State) : Prop := KeptAs (fun t => t) s x

/-- The state that an answer may hold keeps what the state before has. -/
def KeptSome (s : State) (o : Option State) : Prop := ∀ t, o = some t → Kept s t

/-- The next state that an instruction leads to, if any, keeps what the state before has. -/
def Leads (s : State) (o : Host.Outcome State Fault Refusal) : Prop := ∀ t, o = .next t → Kept s t

section
variable {s t u : State}

theorem Kept.refl : Kept s s := ⟨id, id⟩

theorem Kept.trans (h : Kept s t) (h' : Kept t u) : Kept s u := ⟨h'.wf ∘ h.wf, h'.tidy ∘ h.tidy⟩

/-- The state of a pair that is taken apart. -/
theorem Kept.snd {α : Type} {p : α × State} {a : α} (h : Kept s p.2) (hp : p = (a, t)) : Kept s t := by
  subst hp
  exact h

theorem Kept.fst {α : Type} {p : State × α} {a : α} (h : Kept s p.1) (hp : p = (t, a)) : Kept s t := by
  subst hp
  exact h

theorem Kept.ite {c : Prop} {_ : Decidable c} {x y : State} (hx : Kept s x) (hy : Kept s y) : Kept s (if c then x else y) := by
  split
  · exact hx
  · exact hy

theorem Kept.foldl {α : Type} {f : State → α → State} {l : List α} (h : Kept s t) (hf : ∀ u x, Kept s u → Kept s (f u x)) : Kept s (l.foldl f t) := by
  induction l generalizing t with
  | nil => exact h
  | cons x l ih => exact ih (hf t x h)

/-- A fold that carries a state along with something else. -/
theorem Kept.foldlSnd {α β : Type} {f : β × State → α → β × State} {l : List α} {a : β × State} (h : Kept s a.2) (hf : ∀ a x, Kept s a.2 → Kept s (f a x).2) :
    Kept s (l.foldl f a).2 := by
  induction l generalizing a with
  | nil => exact h
  | cons x l ih => exact ih (hf a x h)

theorem Kept.foldlFst {α β : Type} {f : State × β → α → State × β} {l : List α} {a : State × β} (h : Kept s a.1) (hf : ∀ a x, Kept s a.1 → Kept s (f a x).1) :
    Kept s (l.foldl f a).1 := by
  induction l generalizing a with
  | nil => exact h
  | cons x l ih => exact ih (hf a x h)

theorem KeptAs.ok {ε α : Type} {π : α → State} {a : α} (h : Kept s (π a)) : KeptAs (ε := ε) π s (.ok a) := by
  rintro _ ⟨⟩
  exact h

theorem KeptAs.error {ε α : Type} {π : α → State} {e : ε} : KeptAs π s (.error e) := by rintro _ ⟨⟩

theorem KeptAs.bind {ε α β : Type} {π : β → State} {x : Except ε α} {f : α → Except ε β} (hf : ∀ a, x = .ok a → KeptAs π s (f a)) :
    KeptAs π s (x >>= f) := by
  cases x with
  | error e => exact KeptAs.error
  | ok a => exact hf a rfl

/-- What follows a state that keeps what the state before has. -/
theorem KeptAs.andThen {ε α β : Type} {ρ : α → State} {π : β → State} {x : Except ε α} {f : α → Except ε β} (hx : KeptAs ρ s x)
    (hf : ∀ a, Kept s (ρ a) → KeptAs π s (f a)) : KeptAs π s (x >>= f) := KeptAs.bind fun a ha => hf a (hx a ha)

theorem KeptAs.ite {ε α : Type} {π : α → State} {c : Prop} {_ : Decidable c} {x y : Except ε α} (hx : KeptAs π s x) (hy : KeptAs π s y) :
    KeptAs π s (if c then x else y) := by
  split
  · exact hx
  · exact hy

theorem KeptSome.some (h : Kept s t) : KeptSome s (some t) := by
  rintro _ ⟨⟩
  exact h

theorem KeptSome.none : KeptSome s none := by rintro _ ⟨⟩

theorem KeptSome.ite {c : Prop} {_ : Decidable c} {x y : Option State} (hx : KeptSome s x) (hy : KeptSome s y) : KeptSome s (if c then x else y) := by
  split
  · exact hx
  · exact hy

theorem Leads.next (h : Kept s t) : Leads s (.next t) := by
  rintro _ ⟨⟩
  exact h

theorem Leads.refused {r : Refusal} : Leads s (.refused r) := by rintro _ ⟨⟩

theorem Leads.ite {c : Prop} {_ : Decidable c} {x y : Host.Outcome State Fault Refusal} (hx : Leads s x) (hy : Leads s y) : Leads s (if c then x else y) := by
  split
  · exact hx
  · exact hy

end

-- The tables of a tidy state.

/-- What a save leaves of a core, if anything, is tidy. -/
def savedTidy : Option SavedCore → Bool
  | none => true
  | some v => v.tidy

/-- What a save leaves of a context's cores is tidy. -/
def Ctx.tidy (c : Ctx) : Bool := c.saved.all fun x => savedTidy x.2

/-- The tables of a tidy state, by name. -/
structure Tidy (s : State) : Prop where
  threads : Tab.risingFrom 0 s.threads = true
  groups : Tab.risingFrom 0 s.groups = true
  teams : Tab.risingFrom 0 s.teams = true
  cores : Tab.risingFrom 0 s.cores = true
  slots : Tab.risingFrom 0 s.slots = true
  owned : Tab.risingFrom 0 s.owned = true
  thread : (s.threads.all fun e => e.2.tidy) = true
  group : (s.groups.all fun e => e.2.tidy) = true
  team : (s.teams.all fun e => Tab.risingFrom 0 e.2.bars) = true
  core : (s.cores.all fun e => e.2.tidy) = true
  ctx : (s.ctxs.all fun e => e.2.tidy) = true

theorem tidy_iff {s : State} : s.tidy = true ↔ Tidy s := by
  constructor
  · intro h
    simp only [State.tidy, Bool.and_eq_true] at h
    obtain ⟨⟨⟨⟨⟨⟨⟨⟨⟨⟨h1, h2⟩, h3⟩, h4⟩, h5⟩, h6⟩, h7⟩, h8⟩, h9⟩, h10⟩, h11⟩ := h
    exact ⟨h1, h2, h3, h4, h5, h6, h7, h8, h9, h10, h11⟩
  · rintro ⟨h1, h2, h3, h4, h5, h6, h7, h8, h9, h10, h11⟩
    simp only [State.tidy, Bool.and_eq_true]
    exact ⟨⟨⟨⟨⟨⟨⟨⟨⟨⟨h1, h2⟩, h3⟩, h4⟩, h5⟩, h6⟩, h7⟩, h8⟩, h9⟩, h10⟩, h11⟩

theorem tidy_cx {s : State} (h : s.tidy = true) (k : Nat) : (s.cx k).tidy = true := Tab.all_get (p := Ctx.tidy) k rfl (tidy_iff.1 h).ctx

section
variable {s t : State}

-- Units: the entries of the tables, and the agenda.

theorem Kept.setThr {k : Nat} {x : Thread} (h : Kept s t) (hx : t.tidy = true → x.tidy = true := by exact fun ht => tidy_thr ht _) : Kept s (t.setThr k x) :=
  ⟨h.wf, fun ht => setThr_tidy (h.tidy ht) k (hx (h.tidy ht))⟩

theorem Kept.setGrp {k : Nat} {x : Group} (h : Kept s t) (hx : t.tidy = true → x.tidy = true := by exact fun ht => tidy_grp ht _) : Kept s (t.setGrp k x) :=
  ⟨h.wf, fun ht => setGrp_tidy (h.tidy ht) k (hx (h.tidy ht))⟩

theorem Kept.setTeam {k : Nat} {x : Team} (h : Kept s t)
    (hx : t.tidy = true → Tab.risingFrom 0 x.bars = true := by exact fun ht => tidy_team ht _) : Kept s (t.setTeam k x) := by
  refine ⟨h.wf, fun ht => tidy_iff.2 ?_⟩
  have h1 := tidy_iff.1 (h.tidy ht)
  exact { h1 with
    teams := Tab.rising_put _ _ h1.teams
    team := Tab.all_put (p := fun t : Team => Tab.risingFrom 0 t.bars) (hx (h.tidy ht)) h1.team }

theorem Kept.setCore {k : Nat} {x : Core} (h : Kept s t) (hx : t.tidy = true → x.tidy = true := by exact fun ht => tidy_core ht _) : Kept s (t.setCore k x) := by
  refine ⟨h.wf, fun ht => tidy_iff.2 ?_⟩
  have h1 := tidy_iff.1 (h.tidy ht)
  exact { h1 with
    cores := Tab.rising_put _ _ h1.cores
    core := Tab.all_put (p := Core.tidy) (hx (h.tidy ht)) h1.core }

theorem Kept.setCx {k : Nat} {x : Ctx} (h : Kept s t) (hx : t.tidy = true → x.tidy = true := by exact fun ht => tidy_cx ht _) : Kept s (t.setCx k x) := by
  refine ⟨h.wf, fun ht => tidy_iff.2 ?_⟩
  have h1 := tidy_iff.1 (h.tidy ht)
  exact { h1 with ctx := Tab.all_put (p := Ctx.tidy) (hx (h.tidy ht)) h1.ctx }

theorem Kept.setSlot {k : Nat} {x : Slot} (h : Kept s t) : Kept s (t.setSlot k x) := by
  refine ⟨h.wf, fun ht => tidy_iff.2 ?_⟩
  have h1 := tidy_iff.1 (h.tidy ht)
  exact { h1 with slots := Tab.rising_put _ _ h1.slots }

theorem Kept.setGrid {k : Nat} {x : Grid} (h : Kept s t) : Kept s (t.setGrid k x) := { h with }
theorem Kept.setDie {k : Nat} {x : Die} (h : Kept s t) : Kept s (t.setDie k x) := { h with }
theorem Kept.setCmd {k : Nat} {x : Cmd} (h : Kept s t) : Kept s (t.setCmd k x) := { h with }

/-- An update of a thread keeps tidy tables where it leaves the thread's own tables, or keeps them tidy. -/
theorem Kept.updThr {k : Nat} {f : Thread → Thread} (h : Kept s t) (hf : ∀ x : Thread, x.tidy = true → (f x).tidy = true := by exact fun _ hx => hx) :
    Kept s (t.updThr k f) := h.setThr fun ht => hf _ (tidy_thr ht k)

theorem Kept.updGrp {k : Nat} {f : Group → Group} (h : Kept s t) (hf : ∀ x : Group, x.tidy = true → (f x).tidy = true := by exact fun _ hx => hx) :
    Kept s (t.updGrp k f) := h.setGrp fun ht => hf _ (tidy_grp ht k)

theorem Kept.updTeam {k : Nat} {f : Team → Team} (h : Kept s t)
    (hf : ∀ x : Team, Tab.risingFrom 0 x.bars = true → Tab.risingFrom 0 (f x).bars = true := by exact fun _ hx => hx) :
    Kept s (t.updTeam k f) := h.setTeam fun ht => hf _ (tidy_team ht k)

theorem Kept.updCore {k : Nat} {f : Core → Core} (h : Kept s t) (hf : ∀ x : Core, x.tidy = true → (f x).tidy = true := by exact fun _ hx => hx) :
    Kept s (t.updCore k f) := h.setCore fun ht => hf _ (tidy_core ht k)

theorem Kept.updCx {k : Nat} {f : Ctx → Ctx} (h : Kept s t) (hf : ∀ x : Ctx, x.tidy = true → (f x).tidy = true := by exact fun _ hx => hx) :
    Kept s (t.updCx k f) := h.setCx fun ht => hf _ (tidy_cx ht k)

theorem Kept.updSlot {k : Nat} {f : Slot → Slot} (h : Kept s t) : Kept s (t.updSlot k f) := h.setSlot
theorem Kept.updGrid {k : Nat} {f : Grid → Grid} (h : Kept s t) : Kept s (t.updGrid k f) := h.setGrid
theorem Kept.updDie {k : Nat} {f : Die → Die} (h : Kept s t) : Kept s (t.updDie k f) := h.setDie
theorem Kept.updCmd {k : Nat} {f : Cmd → Cmd} (h : Kept s t) : Kept s (t.updCmd k f) := h.setCmd

theorem Kept.scheduleAt {n : Nat} {e : Instr} (h : Kept s t) : Kept s (t.scheduleAt n e) := { h with }
theorem Kept.poll {n : Nat} {e : Instr} (h : Kept s t) : Kept s (t.poll n e) := Kept.ite h h.scheduleAt
theorem Kept.unschedule {p : Instr → Bool} (h : Kept s t) : Kept s (t.unschedule p) := { h with }
theorem Kept.takeFree (h : Kept s t) : Kept s t.takeFree.2 := { h with }
theorem Kept.newId (h : Kept s t) : Kept s t.newId.2 := { h with }
theorem Kept.laterFrom {n : Nat} {e : Instr} (h : Kept s t) : Kept s (t.laterFrom n e).2 := h.takeFree.scheduleAt
theorem Kept.later {e : Instr} (h : Kept s t) : Kept s (t.later e) := h.laterFrom

theorem Kept.setRun {r : Run} (h : Kept s t) : Kept s (t.setRun r) := by
  unfold State.setRun
  split
  · exact h.updSlot
  · exact h

-- Log: fault records and messages.

theorem Kept.msix {v : Nat} (h : Kept s t) : Kept s (t.msix v) := by
  unfold State.msix
  extract_lets
  split <;> exact { h with }

theorem Kept.noteFault {ctx code place : Nat} (h : Kept s t) : Kept s (t.noteFault ctx code place) := by
  unfold State.noteFault
  split
  · exact h
  split
  · exact { h with }
  split
  · exact Kept.msix { h with }
  · exact { h with }

theorem Kept.setLog {log : List Record} {n : Nat} (h : Kept s t) : Kept s { t with log := log, logSeq := n } := { h with }

theorem Kept.logRecord {r : Record} (h : Kept s t) : Kept s (t.logRecord r) := by
  unfold State.logRecord
  exact h.setLog.noteFault

theorem Kept.logEvent {code cls ctx stop src info cmd : Nat} {addr : DWord} {flags : Nat} (h : Kept s t) :
    Kept s (t.logEvent code cls ctx stop src info cmd addr flags) := by
  unfold State.logEvent
  exact h.logRecord

-- Operands: register writes.

/-- A write to one of a thread's tables keeps them tidy. -/
theorem Thread.tidy_iff {x : Thread} : x.tidy = true ↔ Tab.risingFrom 0 x.v = true ∧ Tab.risingFrom 0 x.tm = true ∧ Tab.risingFrom 0 x.rsv = true
    ∧ Tab.risingFrom 0 x.ptr = true := by
  simp only [Thread.tidy, Bool.and_eq_true, and_assoc]

theorem Group.tidy_iff {x : Group} : x.tidy = true ↔ Tab.risingFrom 0 x.w = true ∧ Tab.risingFrom 0 x.g = true ∧ Tab.risingFrom 0 x.tile = true
    ∧ Tab.risingFrom 0 x.bars = true := by
  simp only [Group.tidy, Bool.and_eq_true, and_assoc]

theorem Core.tidy_iff {x : Core} : x.tidy = true ↔ Tab.risingFrom 0 x.pend = true ∧ Tab.risingFrom 0 x.tables = true
    ∧ (x.pubs.all (Tab.risingFrom 0)) = true := by
  simp only [Core.tidy, Bool.and_eq_true, and_assoc]

theorem Kept.cleanReg {w : RegWrite} (h : Kept s t) : Kept s (t.cleanReg w) := by
  cases w <;> exact { h with }

theorem Kept.setReg {w : RegWrite} (h : Kept s t) : Kept s (t.setReg w) := by
  obtain ⟨threads, groups, heq⟩ := setReg_spec t w
  exact ⟨fun ht => by rw [heq]; exact h.wf ht, fun ht => setReg_tidy (h.tidy ht) w⟩

theorem Kept.writeReg {w : RegWrite} (h : Kept s t) : Kept s (t.writeReg w) := Kept.ite h.setReg h.setReg.cleanReg

theorem Kept.writeRegs {ws : List RegWrite} (h : Kept s t) : Kept s (t.writeRegs ws) := h.foldl fun _ _ h => h.writeReg

theorem Kept.landFixed (h : Kept s t) : Kept s t.landFixed := h.setRun.writeRegs

theorem Kept.landAll (h : Kept s t) : Kept s t.landAll := h.setRun.writeRegs

theorem Kept.markTemps {ws : List RegWrite} (h : Kept s t) : Kept s (t.markTemps ws) := by
  refine h.foldl fun _ w h => ?_
  split
  · exact h.updThr
  · exact h

theorem Kept.fixed {lat : Nat} {ws : List RegWrite} (h : Kept s t) : Kept s (t.fixed lat ws) := h.setRun.markTemps

theorem Kept.noteLate {ws : List RegWrite} (h : Kept s t) : Kept s (t.noteLate ws) := h.setRun

theorem Kept.setPend {l : List Pending} (h : Kept s t) : Kept s { t with pend := l } := { h with }

theorem Kept.variableFrom {t0 th : Nat} {ws : List RegWrite} {flags : Flags} {bad quiet : Bool} (h : Kept s t) :
    Kept s (t.variableFrom t0 th ws flags bad quiet).2 := by
  unfold State.variableFrom
  split
  · exact h
  · exact (Kept.newId h.noteLate).setPend.laterFrom

theorem Kept.variable {th : Nat} {ws : List RegWrite} {flags : Flags} {bad quiet : Bool} (h : Kept s t) :
    Kept s (t.variable th ws flags bad quiet) := h.variableFrom

theorem Kept.variableInOrder {l : List (Nat × List RegWrite)} (h : Kept s t) : Kept s (t.variableInOrder l) :=
  Kept.foldlSnd (a := (0, t)) h fun _ _ h => h.variableFrom

-- Memory: bytes at their homes, and poison.

theorem Kept.updDetTask {g p : Nat} {f : DetTask → DetTask} (h : Kept s t) : Kept s (t.updDetTask g p f) := h.updGrid

theorem Kept.holdHostLine {n : Nat} (h : Kept s t) : Kept s (t.holdHostLine n) := by
  obtain ⟨host, poison, heq, hw⟩ := holdHostLine_spec t n
  rw [heq]
  exact ⟨fun ht => by have h1 := wf_parts.1 (h.wf ht); exact wf_parts.2 ⟨h1.1, h1.2.1, hw h1.2.2.1, h1.2.2.2⟩, h.tidy⟩

theorem Kept.recall {n : Nat} (h : Kept s t) : Kept s (t.recall n) := by
  unfold State.recall
  split
  · exact h
  · refine ⟨fun ht => ?_, fun ht => ?_⟩
    · obtain ⟨hm, ho, hp, hb, hh⟩ := wf_parts.1 (h.wf ht)
      exact wf_parts.2 ⟨hm, Tab.wf_del _ ho, Tab.wf_put _ _ hp, Tab.wf_del _ hb, hh⟩
    · have h1 := tidy_iff.1 (h.tidy ht)
      exact tidy_iff.2 { h1 with owned := Tab.rising_del h1.owned }

theorem Kept.writeHome {n : Nat} {b : Byte} (h : Kept s t) : Kept s (t.writeHome n b) := by
  refine ⟨fun ht => writeHome_wf (h.wf ht) n b, ?_⟩
  unfold State.writeHome
  split
  · have h1 : Kept s ((t.holdHostLine n).recall n) := h.holdHostLine.recall
    exact h1.tidy
  · exact h.updDetTask.tidy

theorem Kept.writeHomes {n : Nat} {bs : List Byte} (h : Kept s t) : Kept s (t.writeHomes n bs) := by
  induction bs generalizing n t with
  | nil => exact h
  | cons b bs ih =>
    unfold State.writeHomes
    exact ih h.writeHome

/-- Marks set or removed leave the poison marks canonical. -/
theorem Kept.setPoison {l : List Nat} {b : Bool} (h : Kept s t) : Kept s { t with poison := l.foldl (fun p g => p.put false g b) t.poison } := by
  refine ⟨fun ht => ?_, h.tidy⟩
  obtain ⟨hm, ho, hp, hb, hh⟩ := wf_parts.1 (h.wf ht)
  exact wf_parts.2 ⟨hm, ho, putAll_wf hp, hb, hh⟩

theorem Kept.clearPoison {n m : Nat} (h : Kept s t) : Kept s (t.clearPoison n m) := Kept.ite h h.setPoison
theorem Kept.markPoison {n m : Nat} (h : Kept s t) : Kept s (t.markPoison n m) := Kept.ite h h.setPoison
theorem Kept.storeHomes {n : Nat} {bs : List Byte} (h : Kept s t) : Kept s (t.storeHomes n bs) := h.writeHomes.clearPoison

end

end Sys2Proof.Machine
end

section
/-! PROOFS. What every step keeps: caches, pending stores and publications, strong accesses, and the writes of engines. -/

namespace Sys2Proof.Machine

-- Many short proofs: elaborated one after another they need less memory.
set_option Elab.async false

variable {s t : State}

theorem Kept.addTlb {unit : Nat} {e : TlbEntry} (h : Kept s t) : Kept s (t.addTlb unit e) := Kept.ite h.updCmd h.updCore.updDie

theorem Kept.landL0 {iss line : Nat} {x : Line} (h : Kept s t) : Kept s (t.landL0 iss line x) := h.updSlot

theorem Kept.landL1 {core line : Nat} {x : Line} (h : Kept s t) : Kept s (t.landL1 core line x) := h.updCore fun c hc => by
  extract_lets
  split
  · exact hc
  · exact hc

theorem Kept.landFills {iss core : Nat} (h : Kept s t) : Kept s (t.landFills iss core) := by
  unfold State.landFills
  extract_lets _ u1
  have h1 : Kept s u1 := by
    unfold u1
    exact h.foldl fun _ _ h1 => by
        split
        · exact h1.landL1
        · exact h1
  exact h1.foldl fun _ _ h2 => by
      split
      · exact h2.landL0
      · exact h2

theorem Kept.fillLine {k line : Nat} (h : Kept s t) : Kept s (t.fillLine k line) := by
  unfold State.fillLine
  extract_lets
  split
  · split
    · exact (Kept.ite (Kept.ite h.landL1 h.setCore) h).landL0
    · exact (Kept.ite (Kept.ite h.landL1 h.setCore) h).setSlot
  · exact Kept.ite (Kept.ite h.landL1 h.setCore) h

theorem Kept.afterLoad {k : Nat} {p : Spot} (h : Kept s t) : Kept s (t.afterLoad k p) := by
  unfold State.afterLoad
  split
  · exact h
  · exact Kept.ite h.addTlb h.addTlb.fillLine

theorem Kept.withTorcOver {torcOver : List Nat} (h : Kept s t) : Kept s { t with torcOver := torcOver } := { h with }

theorem Kept.overTorc {hs : List Nat} (h : Kept s t) : Kept s (t.overTorc hs) := Kept.ite h h.withTorcOver

theorem Kept.writeBack {core h' : Nat} {b : Byte} (h : Kept s t) : Kept s (t.writeBack core h' b) := h.overTorc.writeHome.updCore

theorem Kept.afterWriteBack {core line : Nat} (h : Kept s t) : Kept s (t.afterWriteBack core line) := Kept.ite h h.updCore

theorem Kept.writeBackLine {core line : Nat} {t' : Tab (Option Byte)} (h : Kept s t) : Kept s (t.writeBackLine core line t') := by
  unfold State.writeBackLine
  split
  · exact h
  extract_lets
  split
  · exact h.logEvent
  extract_lets u1
  have h1 : Kept s u1 := by
    unfold u1
    split
    · exact h.addTlb
    · exact h
  exact (h1.foldl fun _ _ h2 => by
      split
      · exact h2.writeBack
      · exact h2).afterWriteBack

theorem Kept.writeBacks {core : Nat} {t' : Tab (Option Byte)} (h : Kept s t) : Kept s (t.writeBacks core t') := h.foldl fun _ _ h1 => h1.writeBackLine

theorem Kept.settleWho {core : Nat} (h : Kept s t) : Kept s (t.settleWho core) := h.updCore

/-- A core's pending stores taken out, or kept in part, leave its tables tidy. -/
theorem Core.tidy_pending {c : Core} {pend : Tab (Option Byte)} {pubs : List (Tab (Option Byte))} (hc : c.tidy = true) (hp : Tab.risingFrom 0 pend =
    true)
    (hq : pubs.all (Tab.risingFrom 0) = true) : Core.tidy { c with pend := pend, pubs := pubs } = true := by
  obtain ⟨-, ht, -⟩ := Core.tidy_iff.1 hc
  exact Core.tidy_iff.2 ⟨hp, ht, hq⟩

theorem Tab.rising_keepAll {α : Type} {l : List (Tab α)} (p : Nat → Bool) (hl : l.all (Tab.risingFrom 0) = true) :
    (l.map fun t => t.keep p).all (Tab.risingFrom 0) = true := by
  simp only [List.all_map, List.all_eq_true, Function.comp_apply] at hl ⊢
  exact fun t ht => Tab.rising_keep p (hl t ht)

/-- Stores kept in part. -/
theorem Core.tidy_keepPending {c : Core} (p : Nat → Bool) (hc : c.tidy = true) :
    Core.tidy { c with pend := c.pend.keep p, pubs := c.pubs.map fun t => t.keep p } = true := by
  obtain ⟨hp, -, hq⟩ := Core.tidy_iff.1 hc
  exact Core.tidy_pending hc (Tab.rising_keep p hp) (Tab.rising_keepAll p hq)

theorem Kept.publish {core : Nat} (h : Kept s t) : Kept s (t.publish core) := by
  have h1 : Kept s (t.setCore core { t.core core with pend := [], pubs := [] }) := h.setCore fun ht => Core.tidy_pending (tidy_core ht core) rfl rfl
  exact (h1.foldl fun _ _ h1 => h1.writeBacks).settleWho

theorem Kept.beginPublication {core : Nat} (h : Kept s t) : Kept s (t.beginPublication core) := by
  have h1 : Kept s (t.setCore core { t.core core with pend := [], pubs := (t.core core).pubs ++ [(t.core core).pend] }) := h.setCore fun ht => by
    have hc := tidy_core ht core
    obtain ⟨hp, -, hq⟩ := Core.tidy_iff.1 hc
    exact Core.tidy_pending hc rfl (by rw [List.all_append, hq, List.all_cons, hp]; rfl)
  exact Kept.ite h h1.later

theorem Kept.finishPublications {core : Nat} (h : Kept s t) : Kept s (t.finishPublications core) := by
  have h1 : Kept s (t.setCore core { t.core core with pubs := [] }) := h.setCore fun ht => by
    have hc := tidy_core ht core
    exact Core.tidy_pending hc (Core.tidy_iff.1 hc).1 rfl
  exact (h1.foldl fun _ _ h1 => h1.writeBacks).settleWho

theorem Kept.flushLine {core line : Nat} (h : Kept s t) : Kept s (t.flushLine core line) := by
  refine Kept.ite h (Kept.foldl (h.setCore fun ht => ?_) fun _ _ h1 => h1.writeBacks).settleWho
  exact Core.tidy_keepPending _ (tidy_core ht core)

theorem Kept.makeRoom {core line : Nat} (h : Kept s t) : Kept s (t.makeRoom core line) := Kept.ite h (Kept.ite h.publish h).updCore

theorem Tab.rising_puts {α β : Type} {_ : DecidableEq α} {d : α} {f : β → Nat} {g : β → α} {l : List β} {t : Tab α} (ht : Tab.risingFrom 0 t = true) :
    Tab.risingFrom 0 (l.foldl (fun t e => t.put d (f e) (g e)) t) = true := by
  induction l generalizing t with
  | nil => exact ht
  | cons x l ih => exact ih (Tab.rising_put _ _ ht)

theorem Kept.weakWrite {k : Nat} {p : Spot} {h' : Nat} {bs : List Byte} {va : Nat} (h : Kept s t) : Kept s (t.weakWrite k p h' bs va) := by
  unfold State.weakWrite
  extract_lets _ _ u1 u2
  have h1 : Kept s u1 := by
    unfold u1
    split
    · exact h.addTlb
    · exact h
  have h2 : Kept s u2 := Kept.ite h1.makeRoom h1
  split
  · exact h.storeHomes
  split
  · refine Kept.foldl (h2.updSlot.updCore.updCore fun c hc => ?_) fun _ _ h3 => h3.writeBack
    exact Core.tidy_keepPending _ hc
  · refine h2.updSlot.updCore.updCore fun c hc => ?_
    obtain ⟨hp, -, hq⟩ := Core.tidy_iff.1 hc
    exact Core.tidy_pending hc (Tab.rising_puts hp) hq

theorem Kept.beforeStrong {k : Nat} {p : Spot} (h : Kept s t) : Kept s (t.beforeStrong k p) := by
  unfold State.beforeStrong
  extract_lets u1
  have h1 : Kept s u1 := by
    unfold u1
    split
    · exact h.addTlb
    · exact h
  exact Kept.ite h1 h1.flushLine

theorem Kept.dropLine {k h' n : Nat} (h : Kept s t) : Kept s (t.dropLine k h' n) := Kept.ite h h.updSlot.updCore

theorem Kept.strongRead {k : Nat} {p : Spot} {n : Nat} (h : Kept s t) : Kept s (t.strongRead k p n).2 := h.beforeStrong

theorem Kept.strongWrite {k : Nat} {p : Spot} {bs : List Byte} (h : Kept s t) : Kept s (t.strongWrite k p bs) := h.beforeStrong.storeHomes.dropLine

theorem Kept.refresh {k scope : Nat} (h : Kept s t) : Kept s (t.refresh k scope) := Kept.ite h (Kept.ite h.updSlot.updThr.updCore h.updSlot.updThr)

theorem Kept.publishAt {k scope : Nat} (h : Kept s t) : Kept s (t.publishAt k scope) := Kept.ite h (Kept.ite h.publish h)

theorem Kept.keepWay {a : Agent} {n : Need} {va len : Nat} (h : Kept s t) : Kept s (t.keepWay a n va len) := h.foldl fun _ _ h1 => by
    split
    · split
      · exact h1.addTlb
      · exact h1
    · exact h1

theorem Kept.keepWays {a : Agent} {l : List (Nat × Nat)} (h : Kept s t) : Kept s (t.keepWays a l) := h.foldl fun _ _ h1 => h1.keepWay

theorem Kept.engineWriteByte {h' : Nat} {b : Byte} (h : Kept s t) : Kept s (t.engineWriteByte h' b) := h.writeHome

theorem Kept.clearWhole {hs : List Nat} (h : Kept s t) : Kept s (t.clearWhole hs) := Kept.ite h h.setPoison

theorem Kept.engineWrites {l : List (Nat × Byte)} (h : Kept s t) : Kept s (t.engineWrites l) :=
  (h.overTorc.foldl fun _ _ h1 => h1.engineWriteByte).clearWhole

theorem Kept.engineWrite {a : Agent} {va : Nat} {bs : List Byte} (h : Kept s t) : Kept s (t.engineWrite a va bs) := by
  unfold State.engineWrite
  split
  · exact h
  · exact h.keepWay.engineWrites

theorem Kept.engineWriteBad {a : Agent} {va : Nat} {bs : List Byte} {bad : List Nat} (h : Kept s t) : Kept s (t.engineWriteBad a va bs bad) := by
  unfold State.engineWriteBad
  split
  · exact h
  · exact h.keepWay.engineWrites.foldl fun _ _ h1 => by
        split
        · exact h1.markPoison
        · exact h1

theorem Kept.noteWrite {view va : Nat} {hs : List Nat} {bs : List Byte} (h : Kept s t) : Kept s (t.noteWrite view va hs bs) := Kept.ite h h.updDetTask

theorem Kept.raiseFlags {k : Nat} {fl : Flags} (h : Kept s t) : Kept s (t.raiseFlags k fl) := Kept.ite h h.updThr

theorem Kept.raiseAll {l : List (Nat × Flags)} (h : Kept s t) : Kept s (t.raiseAll l) := h.foldl fun _ _ h1 => h1.raiseFlags

end Sys2Proof.Machine
end

section
/-! PROOFS. What every step keeps: stops and faults, tapes, tasks and counters, the service of queues, and the placing of teams. -/

namespace Sys2Proof.Machine

-- Many short proofs: elaborated one after another they need less memory.
set_option Elab.async false

variable {s t : State}

theorem Kept.stopOnDie {ctx d : Nat} (h : Kept s t) : Kept s (t.stopOnDie ctx d) := by
  unfold State.stopOnDie
  split
  · exact ((h.updCx.foldl fun _ _ h1 => h1.updCore).foldl fun _ _ h1 => h1.updCore).foldl fun _ _ h1 => h1.poll
  · exact h

theorem Kept.failGrid {g : Nat} (h : Kept s t) : Kept s (t.failGrid g) := h.updGrid.poll

theorem Kept.binUpdate {u' : BinUpd} (h : Kept s t) : Kept s (t.binUpdate u') := Kept.ite h.logRecord (Kept.ite h.writeHomes.dropLine h.logRecord)

theorem Kept.withBins {bins : List BinUpd} (h : Kept s t) : Kept s { t with bins := bins } := { h with }

theorem Kept.flushBins {p : BinUpd → Bool} (h : Kept s t) : Kept s (t.flushBins p) := h.withBins.foldl fun _ _ h1 => h1.binUpdate

theorem Kept.ownBins {k h' n : Nat} (h : Kept s t) : Kept s (t.ownBins k h' n) := Kept.ite h h.flushBins

theorem Kept.release {k scope : Nat} (h : Kept s t) : Kept s (t.release k scope) := h.flushBins.publishAt

theorem Kept.firmwareWrite {k va : Nat} {bs : List Byte} (h : Kept s t) : Kept s (t.firmwareWrite k va bs) := by
  unfold State.firmwareWrite
  split
  · exact h
  · exact h.engineWrites

theorem Kept.deliverTo {t' : TrapTable} {r : Record} {rpc : DWord} {rpos k : Nat} (h : Kept s t) : Kept s (t.deliverTo t' r rpc rpos k) := by
  unfold State.deliverTo
  exact h.firmwareWrite.updThr

theorem Kept.holdAt {rpc : DWord} {rpos k : Nat} (h : Kept s t) : Kept s (t.holdAt rpc rpos k) := h.updThr

theorem Kept.stopDone {k : Nat} (h : Kept s t) : Kept s (t.stopDone k) := Kept.ite h.updCmd.poll h

theorem Kept.firmwareTakes {f : Flt} {pc : DWord} {pos : Nat} {rpc : DWord} {rpos : Nat} {stopped : List Nat} (h : Kept s t) :
    Kept s (t.firmwareTakes f pc pos rpc rpos stopped) := by
  unfold State.firmwareTakes
  extract_lets
  split
  rename_i _ u1 heq
  extract_lets u2 _ _ _ _ saving tbl _ ready _ u3 u4
  have h2 : Kept s u2 := (h.newId.snd heq).foldl fun _ _ h1 => h1.updThr
  have h3 : Kept s u3 := h2.logRecord.foldl fun _ _ h3 => h3.holdAt
  have h4 : Kept s u4 := Kept.ite (h3.foldl fun _ _ h4 => h4.updThr) h3
  split
  · exact (h2.logRecord.foldl fun _ _ h3 => Kept.ite h3.updThr h3.holdAt).failGrid
  split
  · exact h2.logRecord.updCmd.updThr.stopDone
  clear_value tbl ready saving
  split
  · exact h2.foldl fun _ _ h3 => h3.deliverTo
  · exact h4.stopOnDie

theorem Kept.leaveRun {gone : List Nat} (h : Kept s t) : Kept s (t.leaveRun gone) := Kept.ite h.landAll.updSlot h.setRun.writeRegs

theorem Kept.takeFault {f : Flt} (h : Kept s t) : Kept s (t.takeFault f) := by
  unfold State.takeFault
  extract_lets _ _ _ _ _ _ _ _ u1
  have h1 : Kept s u1 := by
    unfold u1
    split
    · exact (h.leaveRun.foldl fun _ _ h1 => h1.updThr).foldl fun _ _ h1 => h1.updThr
    · exact h.leaveRun.foldl fun _ _ h1 => h1.updThr
  exact Kept.ite h.setRun (Kept.ite h h1.firmwareTakes)

theorem Kept.boundaryFault {f : Flt} {pc : DWord} {pos : Nat} {rpc : DWord} {rpos : Nat} {stopped : List Nat} (h : Kept s t) :
    Kept s (t.boundaryFault f pc pos rpc rpos stopped) :=
  Kept.ite h h.firmwareTakes

theorem Kept.rejoin {fid : Nat} (h : Kept s t) : Kept s (t.rejoin fid) := Kept.ite h (h.updSlot.foldl fun _ _ h1 => h1.updThr)

/-- A thread that takes other temporaries stays tidy. -/
theorem Thread.tidy_temps {x : Thread} {tm : Tab Word} (hx : x.tidy = true) (ht : Tab.risingFrom 0 tm = true) : Thread.tidy { x with tm := tm } = true := by
  obtain ⟨hv, -, hr, hp⟩ := Thread.tidy_iff.1 hx
  exact Thread.tidy_iff.2 ⟨hv, ht, hr, hp⟩

theorem Kept.handlerReturn {t' : TrapTable} {k : Nat} (h : Kept s t) : Kept s (t.handlerReturn t' k) := by
  unfold State.handlerReturn
  extract_lets
  split
  · exact h
  · exact h.firmwareWrite.updThr fun x hx => Thread.tidy_temps (x := x) hx (Tab.rising_puts rfl)

theorem Kept.tapeWrite {k va : Nat} {bs : List Byte} (h : Kept s t) : Kept s (t.tapeWrite k va bs) := by
  unfold State.tapeWrite
  split
  · exact h
  · exact h.keepWay.noteWrite.engineWrites

theorem Kept.tapeLost {k va : Nat} {f : AccFault} (h : Kept s t) : Kept s (t.tapeLost k va f) := h.logEvent.updThr.stopOnDie

theorem Kept.tapeCommit {k : Nat} {ws : List (Nat × List Byte)} {t' : Tape} (h : Kept s t) : Kept s (t.tapeCommit k ws t') := by
  unfold State.tapeCommit
  split
  · exact h.tapeLost
  · exact (h.foldl fun _ _ h1 => h1.tapeWrite).updThr

theorem Kept.tapePoison {k : Nat} {bad : Bool} (h : Kept s t) : Kept s (t.tapePoison k bad) := Kept.ite h.logEvent h

theorem Kept.discardSpan {k : Nat} {fin : Tape → Tape} (h : Kept s t) : Kept s (t.discardSpan k fin) := by
  unfold State.discardSpan
  extract_lets
  split
  exact h.tapeCommit

theorem Kept.tapePush {k kind : Nat} {xs : List Word} {fin : Tape → Tape} (h : Kept s t) : KeptOk s (t.tapePush k kind xs fin) := by
  unfold State.tapePush
  extract_lets
  split
  · exact KeptAs.error
  split
  · exact KeptAs.ok h.updThr
  split
  · exact KeptAs.ite (KeptAs.ok h.discardSpan) KeptAs.error
  split
  · exact KeptAs.error
  · exact KeptAs.ok h.tapeCommit

theorem Kept.tapePop {k : Nat} (h : Kept s t) : KeptAs Prod.snd s (t.tapePop k) := by
  unfold State.tapePop
  extract_lets
  split
  · exact KeptAs.error
  split
  · exact KeptAs.error
  split
  · exact KeptAs.error
  extract_lets
  split
  · exact KeptAs.ok h.tapePoison.tapeCommit
  · exact KeptAs.error
  · exact KeptAs.error

theorem Kept.tapeSeek {k target n : Nat} (h : Kept s t) : KeptOk s (t.tapeSeek k target n) := by
  induction n generalizing t with
  | zero => exact KeptAs.ok h
  | succ n ih =>
    unfold State.tapeSeek
    refine KeptAs.ite (KeptAs.ok h) ?_
    split
    · exact KeptAs.error
    rename_i p u heq
    have h1 : Kept s u := h.tapePop _ heq
    exact KeptAs.ite (KeptAs.ok h1) (ih h1)

theorem Kept.tapeSync {k : Nat} {counted : Bool} (h : Kept s t) : Kept s (t.tapeSync k counted) := by
  unfold State.tapeSync
  extract_lets
  split
  · exact h
  split
  · exact h.tapeLost
  · exact (Kept.ite h.tapeWrite h.engineWrite).updThr.release

theorem Kept.semWake {n c : Nat} (h : Kept s t) : Kept s (t.semWake n c) := by
  unfold State.semWake
  extract_lets
  split
  · exact Kept.ite h.writeRegs.updThr.updCmd h
  · exact h

theorem Kept.semServe {n : Nat} (h : Kept s t) : Kept s (t.semServe n) := h.foldl fun _ _ h1 => h1.semWake

theorem Kept.semWrite {n : Nat} {v : DWord} (h : Kept s t) : Kept s (t.semWrite n v) := h.storeHomes.semServe

theorem Kept.devStored {p : Spot} (h : Kept s t) : Kept s (t.devStored p) := Kept.ite h.semServe h

theorem Kept.taskOvf {ctx : Nat} {t' : Task} {info : Nat} (h : Kept s t) : Kept s (t.taskOvf ctx t' info) := h.logRecord.stopOnDie

theorem Kept.updQueue {d q : Nat} {f : Queue → Queue} (h : Kept s t) : Kept s (t.updQueue d q f) := h.updDie

theorem Kept.unspill {d q : Nat} (h : Kept s t) : Kept s (t.unspill d q) := by
  unfold State.unspill
  extract_lets
  split
  · split
    · exact h
    extract_lets
    split
    · exact h.updQueue
    · exact (Kept.ite h.keepWay.logEvent h.keepWay).updQueue
  · exact h

theorem Kept.putTask {d : Nat} {t' : Task} (h : Kept s t) : Kept s (t.putTask d t') := by
  unfold State.putTask
  extract_lets
  split
  · exact h.updQueue
  split
  · exact h.taskOvf
  split
  · exact h.updQueue.taskOvf
  · exact h.engineWrite.updQueue

theorem Kept.releaseTasks {d n : Nat} (h : Kept s t) : Kept s (t.releaseTasks d n) := h.updDie.foldl fun _ _ h1 => h1.putTask

theorem Kept.ctrStore {d n : Nat} {v : Word} (h : Kept s t) : Kept s (t.ctrStore d n v) := Kept.ite h.updDie.releaseTasks h.updDie

theorem Kept.dropHeads {d n : Nat} (h : Kept s t) : Kept s (t.dropHeads d n) := by
  induction n generalizing t with
  | zero => exact h
  | succ n ih =>
    unfold State.dropHeads
    split
    · exact h
    extract_lets u
    have h1 : Kept s u := h.updQueue.unspill
    split
    · exact ih h1.ctrStore
    · exact ih h1

theorem Kept.settleQueues {d : Nat} (h : Kept s t) : Kept s (t.settleQueues d) := h.dropHeads

theorem Kept.enqueue {d : Nat} {t' : Task} (h : Kept s t) : Kept s (t.enqueue d t') := h.putTask.settleQueues

theorem Kept.ctrWrite {d n : Nat} {v : Word} (h : Kept s t) : Kept s (t.ctrWrite d n v) := h.ctrStore.settleQueues

theorem Kept.ctrDec {d n : Nat} (h : Kept s t) : Kept s (t.ctrDec d n) := h.ctrWrite

theorem Kept.taskComplete {d : Nat} {sctr : Option Nat} (h : Kept s t) : Kept s (t.taskComplete d sctr) := by
  unfold State.taskComplete
  split
  · exact h.ctrDec
  · exact h

theorem Kept.closeTask {d task : Nat} (h : Kept s t) : Kept s (t.closeTask d task) := by
  unfold State.closeTask
  extract_lets
  split
  · exact h
  · exact Kept.ite h h.updDie.taskComplete

theorem Kept.chunkDone {d task : Nat} (h : Kept s t) : Kept s (t.chunkDone d task) := h.updDie.closeTask

theorem Kept.giveFrom {d : Nat} {p : Piece} (h : Kept s t) : Kept s (t.giveFrom d p).2 := by
  unfold State.giveFrom
  extract_lets _ u
  have h1 : Kept s u := h.updDie
  exact h1

theorem Kept.serve {core q : Nat} (h : Kept s t) : Kept s (t.serve core q).2 := by
  unfold State.serve
  extract_lets
  split
  · exact h.giveFrom
  split
  · exact h.updDie.unspill.settleQueues.giveFrom
  split
  · exact h.updDie.giveFrom
  split
  · exact h
  · exact h

theorem Kept.receive {g th q dreg : Nat} {r : Served} (h : Kept s t) : Kept s (t.receive g th q dreg r) := by
  unfold State.receive
  split
  · exact h.writeRegs.updGrp.refresh
  · exact h.writeRegs

theorem Thread.tidy_served {x : Thread} {q ask : Nat} (hx : x.tidy = true) : (x.served q ask).tidy = true := by
  unfold Thread.served
  split
  · exact hx
  split
  · exact hx
  · exact hx

theorem Kept.serveAskers {d q : Nat} {l : List Asker} (h : Kept s t) : Kept s (t.serveAskers d q l) := by
  induction l generalizing t with
  | nil => exact h
  | cons a l ih =>
    unfold State.serveAskers
    refine Kept.ite (ih h) ?_
    have h1 : Kept s (t.serve (coreOfThread a.grp) q).2 := h.serve
    split
    · rename_i u heq
      exact ih (h1.snd heq)
    rename_i res u hres heq
    exact ih ((h1.snd heq).receive.foldl fun _ _ h2 => h2.updThr fun _ hx => Thread.tidy_served hx).updDie

theorem Kept.serveQueues {d n : Nat} (h : Kept s t) : Kept s (t.serveQueues d n) := by
  induction n generalizing t with
  | zero => exact h
  | succ n ih =>
    unfold State.serveQueues
    extract_lets u
    have h1 : Kept s u := h.foldl fun _ _ h1 => h1.serveAskers
    exact Kept.ite (ih h1) h1

theorem Kept.serveDie {d : Nat} (h : Kept s t) : Kept s (t.serveDie d) := h.serveQueues

theorem Kept.withServing {serving : List Nat} (h : Kept s t) : Kept s { t with serving := serving } := { h with }

theorem Kept.serveLater {d : Nat} (h : Kept s t) : Kept s (t.serveLater d) := Kept.ite h h.withServing

theorem Kept.serveDue (h : Kept s t) : Kept s t.serveDue := h.withServing.foldl fun _ _ h1 => h1.serveDie

theorem Kept.finishChunks {g q : Nat} (h : Kept s t) : Kept s (t.finishChunks g q) := Kept.ite h (h.updGrp.foldl fun _ _ h1 => h1.chunkDone).serveLater

theorem Kept.finishAllChunks {g : Nat} (h : Kept s t) : Kept s (t.finishAllChunks g) := h.foldl fun _ _ h1 => h1.finishChunks

theorem Kept.signal {a : Signal} (h : Kept s t) : Kept s (t.signal a) := by
  unfold State.signal
  split
  · exact h
  · exact h.semWrite
  · exact h.ctrDec.serveLater

theorem Kept.cmdDone {a : Option Nat} (h : Kept s t) : Kept s (t.cmdDone a) := by
  unfold State.cmdDone
  split
  · exact h.updCmd
  · exact h

theorem Tab.rising_launchRegs (d : Desc) : Tab.risingFrom 0 (launchRegs d) = true := Tab.rising_puts rfl

theorem Kept.makeGroup {team lin g : Nat} {d : Desc} {p : Pos} (h : Kept s t) : Kept s (t.makeGroup team lin g d p) := by
  refine Kept.foldl (h.setGrp fun _ => ?_) fun u i h1 => ?_
  · exact Group.tidy_iff.2 ⟨Tab.rising_launchRegs d, rfl, rfl, rfl⟩
  split
  rename_i _ u2 heq
  exact (h1.newId.snd heq).setThr fun _ => rfl

theorem Kept.takeTag {team : Nat} (h : Kept s t) : Kept s (t.takeTag team) := by
  unfold State.takeTag
  extract_lets
  split
  · exact Kept.ite h h.updDie.updTeam
  · exact h

theorem Kept.makeResident {team : Nat} (h : Kept s t) : Kept s (t.makeResident team) :=
  ((h.takeTag.updTeam.foldl fun _ _ h1 => h1.updCore).foldl fun _ _ h1 => h1.foldl fun _ _ h2 => h2.updSlot).foldl fun _ _ h1 => h1.updThr

theorem Core.tidy_own {c : Core} {ctx : Nat} (hc : c.tidy = true) : (c.own ctx).tidy = true := by
  unfold Core.own
  split
  · exact hc
  obtain ⟨hp, -, hq⟩ := Core.tidy_iff.1 hc
  exact Core.tidy_iff.2 ⟨hp, rfl, hq⟩

theorem Kept.ownCore {ctx c : Nat} (h : Kept s t) : Kept s (t.ownCore ctx c) :=
  (h.setCore fun ht => Core.tidy_own (tidy_core ht c)).foldl fun _ _ h1 => h1.poll

theorem Kept.claimGranules {team c n : Nat} (h : Kept s t) : Kept s (t.claimGranules team c n).2 :=
  (Kept.ite h.updCore h.updCore.beginPublication).foldl fun _ _ h1 => h1.later

theorem Kept.makeTeam {grid : Nat} {at_ : Place} {block : List Nat} {ps : List Pos} (h : Kept s t) : Kept s (t.makeTeam grid at_ block ps) := by
  unfold State.makeTeam
  extract_lets
  split
  rename_i _ u1 heq
  have h1 : Kept s u1 := h.newId.snd heq
  extract_lets
  split
  rename_i _ u2 heq
  have h2 : Kept s u2 := Kept.snd (by exact Kept.foldlSnd (h1.foldl fun _ _ h2 => h2.ownCore) fun _ _ h2 => h2.claimGranules) heq
  split
  rename_i _ u3 heq
  have h3 : Kept s u3 := Kept.snd (by exact Kept.foldlSnd h2 fun _ _ h3 => h3.claimGranules) heq
  extract_lets u4 u5
  have h4 : Kept s u4 := h3.setTeam fun _ => rfl
  have h5 : Kept s u5 := h4.foldl fun _ _ h4 => h4.makeGroup
  exact Kept.ite h5.makeResident h5

theorem Kept.placeCluster {grid d : Nat} {l : List Place} (h : Kept s t) : KeptSome s (t.placeCluster grid d l) := by
  induction l generalizing t with
  | nil => exact KeptSome.some h
  | cons a l ih =>
    unfold State.placeCluster
    extract_lets
    split
    · exact KeptSome.none
    · exact KeptSome.ite (ih h.makeTeam) KeptSome.none

theorem Kept.placeDet {grid d : Nat} {t' : Det} (h : Kept s t) : KeptSome s (t.placeDet grid d t') := by
  unfold State.placeDet
  extract_lets
  split
  extract_lets _ _ found
  clear_value found
  split
  · exact KeptSome.none
  split
  · exact KeptSome.none
  split
  · exact KeptSome.none
  rename_i u1 heq
  have h1 : Kept s u1 := h.placeCluster _ heq
  exact KeptSome.some h1.updGrid

theorem Kept.placeStage {grid d launch i : Nat} (h : Kept s t) : KeptSome s (t.placeStage grid d launch i) := by
  unfold State.placeStage
  split
  · exact KeptSome.none
  split
  · exact KeptSome.none
  extract_lets
  split
  · exact KeptSome.none
  split
  · exact KeptSome.none
  · exact KeptSome.some h.makeTeam.updDie

theorem Kept.placeOne {d grid : Nat} (h : Kept s t) : KeptSome s (t.placeOne d grid) := by
  unfold State.placeOne
  extract_lets _ found
  clear_value found
  split
  · exact h.placeDet
  split
  · exact h.placeStage
  split
  · exact KeptSome.none
  split
  · exact KeptSome.none
  split
  · exact KeptSome.none
  · exact KeptSome.some h.makeTeam.updGrid

theorem Kept.placeFirst {d : Nat} {l : List Nat} (h : Kept s t) : KeptSome s (t.placeFirst d l) := by
  induction l with
  | nil => exact KeptSome.none
  | cons g l ih =>
    unfold State.placeFirst
    split
    · rename_i u heq
      exact KeptSome.some (h.placeOne _ heq)
    · exact ih

theorem Kept.pokePlace {d : Nat} (h : Kept s t) : Kept s (t.pokePlace d) := h.poll

theorem Kept.acceptGrid {g : Grid} (h : Kept s t) : Kept s (t.acceptGrid g).2 := by
  unfold State.acceptGrid
  split
  rename_i _ u1 heq
  have h1 : Kept s u1 := h.newId.snd heq
  exact h1.setGrid.foldl fun _ _ h2 => h2.updDie.pokePlace

end Sys2Proof.Machine
end

section
/-! PROOFS. What every step keeps: strands and the threads that wait at them, pipelines and their stages, and the end of teams. -/

namespace Sys2Proof.Machine

-- Many short proofs: elaborated one after another they need less memory.
set_option Elab.async false

variable {s t : State}

theorem Kept.updPipe {d launch : Nat} {f : Pipe → Pipe} (h : Kept s t) : Kept s (t.updPipe d launch f) := h.updDie

theorem Kept.storeBead {d l : Nat} {t' : Strand} {b : Bead} (h : Kept s t) : Kept s (t.storeBead d l t' b) := by
  unfold State.storeBead
  exact h.engineWrites.foldl fun _ _ h1 => by
      split
      · exact h1.markPoison
      · exact h1

theorem Kept.moveBlock {d l k : Nat} (h : Kept s t) : Kept s (t.moveBlock d l k) := by
  unfold State.moveBlock
  split
  · exact h
  · exact h.takeFree.storeHomes.updPipe

theorem Kept.putBead {d l k : Nat} {b : Bead} (h : Kept s t) : Kept s (t.putBead d l k b) := by
  unfold State.putBead
  split
  · exact h
  rename_i st _
  exact (h.storeBead (t' := st)).updPipe.moveBlock

theorem Kept.beadBack {d l k : Nat} (h : Kept s t) : Kept s (t.beadBack d l k) := by
  unfold State.beadBack
  split
  · exact h
  rename_i st _
  split
  · exact h
  split
  · exact h
  · exact (h.storeBead (t' := st)).updPipe

theorem Kept.dropBead {d l k : Nat} (h : Kept s t) : Kept s (t.dropBead d l k) := h.updPipe.beadBack.moveBlock

theorem Kept.withWaiters {waiters : List Nat} (h : Kept s t) : Kept s { t with waiters := waiters } := { h with }

theorem Kept.wake {k : Nat} {ws : List RegWrite} (h : Kept s t) : Kept s (t.wake k ws) := h.writeRegs.withWaiters.updThr

theorem Kept.waitFault {k : Nat} {f : Flt} (h : Kept s t) : Kept s (t.waitFault k f) := h.withWaiters.boundaryFault

/-- The state that an attempt leads to, if it succeeds, keeps what the state before has. -/
def KeptTry {ε : Type} (s : State) (x : Except ε (Option State)) : Prop := ∀ u, x = .ok (some u) → Kept s u

theorem KeptTry.done {ε : Type} (h : Kept s t) : KeptTry (ε := ε) s (.ok (some t)) := by
  rintro _ ⟨⟩
  exact h

theorem KeptTry.wait {ε : Type} : KeptTry (ε := ε) s (.ok none) := by rintro _ ⟨⟩

theorem KeptTry.error {ε : Type} {e : ε} : KeptTry s (.error e) := by rintro _ ⟨⟩

theorem Kept.tryPop {k : Nat} {va : DWord} {dreg : Nat} {put : State → List RegWrite → State} (h : Kept s t)
    (hput : ∀ u ws, Kept s u → Kept s (put u ws)) : KeptTry s (t.tryPop k va dreg put) := by
  unfold State.tryPop
  split
  · exact KeptTry.wait
  extract_lets
  split
  · exact KeptTry.done (hput _ _ h)
  split
  · exact KeptTry.wait
  split
  · extract_lets
    split
    · exact KeptTry.error
    · exact KeptTry.done (hput _ _ (h.keepWay.dropBead.engineWrites.foldl fun _ _ h1 => h1.markPoison)).refresh
  split
  · exact KeptTry.done (hput _ _ h)
  · exact KeptTry.wait

theorem Kept.tryPush {k out : Nat} {va : DWord} {seq : Word} {put : State → State} (h : Kept s t) (hput : ∀ u, Kept s u → Kept s (put u)) :
    KeptTry s (t.tryPush k out va seq put) := by
  unfold State.tryPush
  split
  · exact KeptTry.wait
  split
  · exact KeptTry.wait
  split
  · exact KeptTry.wait
  split
  · exact KeptTry.error
  split
  · exact KeptTry.wait
  · exact KeptTry.done (hput _ (Kept.putBead (Kept.ite h.keepWay h.keepWay.logEvent)))

theorem Kept.retryStrand {k : Nat} (h : Kept s t) : Kept s (t.retryStrand k).1 := by
  unfold State.retryStrand
  split
  · exact h
  extract_lets r
  have hr : KeptTry s r.1 := by
    unfold r
    split <;> dsimp only
    · exact h.tryPop fun _ _ h1 => h1.wake
    · exact h.tryPush fun _ h1 => h1.wake
    · exact KeptTry.wait
  clear_value r
  split
  · exact hr _ rfl
  · exact h
  · exact h.waitFault

theorem Kept.serveStrands {n : Nat} (h : Kept s t) : Kept s (t.serveStrands n) := by
  induction n generalizing t with
  | zero => exact h
  | succ n ih =>
    unfold State.serveStrands
    split
    rename_i u _ heq
    have h1 : Kept s u := Kept.fst (by exact Kept.foldlFst h fun _ _ h1 => h1.retryStrand) heq
    exact Kept.ite (ih h1) h1

theorem Kept.runStrands (h : Kept s t) : Kept s t.runStrands := h.serveStrands

theorem Kept.pokeRestores {d : Nat} (h : Kept s t) : Kept s (t.pokeRestores d) := h.foldl fun _ _ h1 => h1.poll

theorem Kept.coreIdle {c : Nat} (h : Kept s t) : Kept s (t.coreIdle c) := Kept.ite h (Kept.ite h.pokeRestores.updCore.updPipe h.pokeRestores.updCore)

theorem Kept.withLaunches {launches : List (Nat × PipeLaunch)} (h : Kept s t) : Kept s { t with launches := launches } := { h with }

theorem Kept.pipeDone {d l : Nat} (h : Kept s t) : Kept s (t.pipeDone d l) := by
  unfold State.pipeDone
  extract_lets u1 u2
  have h1 : Kept s u1 := h.foldl fun _ _ h1 => by
    split
    · exact Kept.ite h1.updCore h1
    · exact h1
  have h2 : Kept s u2 := h1.updDie
  split
  · exact h2.pokePlace
  extract_lets
  split
  · exact h2.withLaunches.signal.cmdDone.pokePlace
  · exact h2.withLaunches.pokePlace

theorem Kept.stageDone {d l i : Nat} (h : Kept s t) : Kept s (t.stageDone d l i) :=
  ((h.updPipe.foldl fun _ _ h1 => h1.updCore).foldl fun _ _ h1 => h1.updCore).updPipe.runStrands

theorem Kept.checkStages {d l n : Nat} (h : Kept s t) : Kept s (t.checkStages d l n) := by
  induction n generalizing t with
  | zero => exact h
  | succ n ih =>
    unfold State.checkStages
    split
    · exact h
    split
    · exact h
    split
    · exact ih h.stageDone
    · exact Kept.ite h.pipeDone h

theorem Kept.checkPipes {d : Nat} (h : Kept s t) : Kept s (t.checkPipes d) := h.foldl fun _ _ h1 => h1.checkStages

theorem Kept.withGrids {grids : Tab Grid} (h : Kept s t) : Kept s { t with grids := grids } := { h with }

theorem Kept.dropGrid {g : Nat} (h : Kept s t) : Kept s (t.dropGrid g) := (h.foldl fun _ _ h1 => h1.updDie).withGrids

theorem Tab.all_del {α : Type} {p : α → Bool} {t : Tab α} {k : Nat} (ht : (t.all fun e => p e.2) = true) : ((t.del k).all fun e => p e.2) = true :=
  List.all_eq_true.2 fun e he => List.all_eq_true.1 ht e (Tab.mem_del he)

theorem Kept.delTeam {k : Nat} (h : Kept s t) : Kept s { t with teams := t.teams.del k } := by
  refine ⟨h.wf, fun ht => tidy_iff.2 ?_⟩
  have h1 := tidy_iff.1 (h.tidy ht)
  exact { h1 with
    teams := Tab.rising_del h1.teams
    team := Tab.all_del (p := fun t : Team => Tab.risingFrom 0 t.bars) h1.team }

theorem Kept.retire {n team : Nat} (h : Kept s t) : Kept s (t.retire n team) := by
  induction n generalizing t team with
  | zero => exact h
  | succ n ih =>
    unfold State.retire
    extract_lets _ _ u1 u2 _ _ u3 u4 u5
    have h2 : Kept s u2 := h.delTeam.updGrid
    have h4 : Kept s u4 := h2.signal.cmdDone.dropGrid
    have h5 : Kept s u5 := by
      unfold u5
      split
      · exact h4.stageDone.checkPipes
      · exact h4
    split
    · exact h
    split
    · exact h2
    split
    · exact h5
    · exact ih h5.updTeam

theorem Kept.releaseTeam {team : Nat} (h : Kept s t) : Kept s (t.releaseTeam team) := (h.foldl fun _ _ h1 => h1.updCore).foldl fun _ _ h1 => h1.coreIdle

theorem Kept.freeTag {team : Nat} (h : Kept s t) : Kept s (t.freeTag team) := by
  unfold State.freeTag
  extract_lets
  split
  · exact h
  · exact h.updDie

theorem Kept.finishTeam {team : Nat} (h : Kept s t) : Kept s (t.finishTeam team) := by
  unfold State.finishTeam
  extract_lets _ _ _ u1 _ u2
  have h1 : Kept s u1 := (h.flushBins.foldl fun _ _ h1 => h1.publish).updTeam
  have h2 : Kept s u2 := by
    unfold u2
    split
    · exact Kept.ite h1.releaseTeam (Kept.ite h1.releaseTeam.updDetTask.poll h1.releaseTeam.updDetTask)
    · exact h1.releaseTeam
  exact h2.retire.checkPipes.pokePlace

end Sys2Proof.Machine
end

section
/-! PROOFS. What every step keeps: barriers, the end of threads, the begin of runs, the words that issue, and copy rings. -/

namespace Sys2Proof.Machine

-- Many short proofs: elaborated one after another they need less memory.
set_option Elab.async false

variable {s t : State}

/-- Barrier states of a group, and of a team, in a tidy table. -/
theorem Group.tidy_bars {x : Group} {bars : Tab GBar} (hx : x.tidy = true) (hb : Tab.risingFrom 0 x.bars = true → Tab.risingFrom 0 bars = true) :
    Group.tidy { x with bars := bars } = true := by
  obtain ⟨hw, hg, ht, hold⟩ := Group.tidy_iff.1 hx
  exact Group.tidy_iff.2 ⟨hw, hg, ht, hb hold⟩

theorem Tab.rising_upd {α : Type} {_ : DecidableEq α} {d : α} {t : Tab α} {n : Nat} {f : α → α} (ht : Tab.risingFrom 0 t = true) :
    Tab.risingFrom 0 (t.upd d n f) = true := Tab.rising_put _ _ ht

theorem Kept.updBars {k b : Nat} {g : TBar → TBar} (h : Kept s t) : Kept s (t.updTeam k fun x => { x with bars := x.bars.upd {} b g }) :=
  h.updTeam fun _ hx => Tab.rising_put _ _ hx

theorem Kept.arriveNow {k b : Nat} (h : Kept s t) : Kept s (t.arriveNow k b) := by
  unfold State.arriveNow
  extract_lets u1 u2
  have h2 : Kept s u2 := h.release.updThr
  split
  · exact h2.updGrp fun _ hx => Group.tidy_bars hx Tab.rising_upd
  · exact h2.updBars

theorem Kept.tryWait {k : Nat} (h : Kept s t) : Kept s (t.tryWait k) := by
  unfold State.tryWait
  split
  · exact h
  split
  · exact Kept.ite h.updThr h
  · exact Kept.ite h.updThr.refresh h

theorem Kept.nextPhase {o : BarOf} {b : Nat} (h : Kept s t) : Kept s (t.nextPhase o b) := by
  unfold State.nextPhase
  split
  · exact h.updGrp fun _ hx => Group.tidy_bars hx Tab.rising_upd
  · exact h.updBars

theorem Kept.countHeld {k b : Nat} (h : Kept s t) : Kept s (t.countHeld k b) := Kept.ite h.arriveNow.updThr h

theorem Kept.releaseLater {o : BarOf} {b : Nat} (h : Kept s t) : Kept s (t.releaseLater o b) :=
  h.updBars.scheduleAt

theorem Kept.releasePhase {o : BarOf} {b n : Nat} (h : Kept s t) : Kept s (t.releasePhase o b n) := by
  induction n generalizing t with
  | zero => exact h
  | succ n ih =>
    unfold State.releasePhase
    extract_lets _ _ _ u
    have h1 : Kept s u := (h.nextPhase.foldl fun _ _ h1 => h1.countHeld).foldl fun _ _ h1 => h1.tryWait
    exact Kept.ite h1 (Kept.ite h1.releaseLater (ih h1))

theorem Kept.checkBarrier {o : BarOf} {b : Nat} (h : Kept s t) : Kept s (t.checkBarrier o b) :=
  Kept.ite h (Kept.ite (Kept.ite h h.releaseLater) h.releasePhase)

theorem Kept.arrive {k b : Nat} (h : Kept s t) : Kept s (t.arrive k b) := Kept.ite h.updThr h.arriveNow.checkBarrier

theorem Tab.rising_foldl {α β : Type} {f : Tab α → β → Tab α} {l : List β} {t : Tab α} (ht : Tab.risingFrom 0 t = true)
    (hf : ∀ t e, Tab.risingFrom 0 t = true → Tab.risingFrom 0 (f t e) = true) : Tab.risingFrom 0 (l.foldl f t) = true := by
  induction l generalizing t with
  | nil => exact ht
  | cons b l ih => exact ih (hf t b ht)

theorem Kept.leaveBarriers {k : Nat} (h : Kept s t) : Kept s (t.leaveBarriers k) := by
  unfold State.leaveBarriers
  extract_lets x _ u1 u2
  have h1 : Kept s u1 := h.updGrp fun _ hx => Group.tidy_bars hx fun hb => Tab.rising_foldl hb fun _ _ hb => Tab.rising_upd hb
  have h2 : Kept s u2 := h1.updTeam fun _ hx => by
    refine Tab.rising_foldl hx fun _ _ hb => ?_
    split
    · exact Tab.rising_upd hb
    · exact hb
  exact h2.updThr

theorem Kept.freeDrains {core : Nat} (h : Kept s t) : Kept s (t.freeDrains core) := Kept.ite h h.setCore.pokePlace

theorem Kept.drainThread {k : Nat} (h : Kept s t) : Kept s (t.drainThread k) := Kept.ite h h.updCore

theorem Kept.drainTiles {g : Nat} (h : Kept s t) : Kept s (t.drainTiles g) := Kept.ite h h.updCore

theorem Tab.all_keep {α : Type} {p : α → Bool} {t : Tab α} {q : Nat → Bool} (ht : (t.all fun e => p e.2) = true) :
    ((t.keep q).all fun e => p e.2) = true := List.all_eq_true.2 fun e he => List.all_eq_true.1 ht e (List.mem_filter.1 he).1

/-- A group and its threads go. -/
theorem Kept.delGroup {g : Nat} {p : Nat → Bool} {poisonReg : List (EccPlace × Nat × Nat)} (h : Kept s t) :
    Kept s { t with groups := t.groups.del g, threads := t.threads.keep p, poisonReg := poisonReg } := by
  refine ⟨h.wf, fun ht => tidy_iff.2 ?_⟩
  have h1 := tidy_iff.1 (h.tidy ht)
  exact { h1 with
    groups := Tab.rising_del h1.groups
    threads := Tab.rising_keep p h1.threads
    group := Tab.all_del (p := Group.tidy) h1.group
    thread := Tab.all_keep (p := Thread.tidy) h1.thread }

theorem Kept.dropGroup {g : Nat} (h : Kept s t) : Kept s (t.dropGroup g) := by
  unfold State.dropGroup
  extract_lets _ u1 u2
  have h2 : Kept s u2 := h.finishAllChunks.drainTiles.foldl fun _ _ h1 => h1.poll
  exact h2.delGroup

theorem Kept.exitThread {k : Nat} (h : Kept s t) : Kept s (t.exitThread k) := by
  unfold State.exitThread
  extract_lets _ _ u1 _ u2 _ _ u3 _ u4
  have h1 : Kept s u1 := Kept.ite h.tapeSync.logRecord.failGrid h.tapeSync
  have h2 : Kept s u2 := h1.leaveBarriers.updThr.foldl fun _ _ h2 => h2.checkBarrier
  have h3 : Kept s u3 := by
    unfold u3
    split
    · exact (h2.drainThread.foldl fun _ _ h3 => h3.rejoin).dropGroup
    · exact h2.drainThread.foldl fun _ _ h3 => h3.rejoin
  have h4 : Kept s u4 := h3.freeTag.updTeam.foldl fun _ _ h4 => h4.beginPublication
  exact Kept.ite h4.later h3.pokePlace

theorem Kept.endCommand {k : Nat} {st : CmdState} (h : Kept s t) : Kept s (t.endCommand k st) := h.updCmd.updThr.stopDone

theorem Kept.passTurn {g : Nat} (h : Kept s t) : Kept s (t.passTurn g) := by
  unfold State.passTurn
  split
  · exact h
  extract_lets
  split
  · exact h
  split
  · exact h.updGrid
  · exact h

theorem Kept.passTurns (h : Kept s t) : Kept s t.passTurns := h.foldl fun _ _ h1 => h1.passTurn

theorem Kept.pick {iss : Nat} (h : Kept s t) : Kept s (t.pick iss) := by
  unfold State.pick
  extract_lets
  split
  · split
    · exact h.setSlot
    · exact Kept.ite h (Kept.ite h.setSlot h.setSlot)
  · exact h

theorem Kept.detach {ks : List Nat} (h : Kept s t) : Kept s (t.detach ks) := h.withWaiters.foldl fun _ _ h1 => h1.updSlot

theorem Kept.keepCode {k va : Nat} {f : Fetched} (h : Kept s t) : Kept s (t.keepCode k va f) := by
  unfold State.keepCode
  extract_lets _ _ _ _ _ lines u1 u2
  have h1 : Kept s u1 := Kept.ite (h.foldl fun _ _ h1 => h1.addTlb) h
  have h2 : Kept s u2 := Kept.ite h1 h1.updSlot
  clear_value lines
  split
  · exact h2
  · refine h2.updCore fun x hx => ?_
    split
    · exact hx
    · exact hx

theorem Kept.alsoDue {e : DueTrap} {stopped : List Nat} (h : Kept s t) : Kept s (t.alsoDue e stopped) := h.logRecord.stopOnDie

theorem Kept.restDue {stopped : List Nat} {n : Nat} (h : Kept s t) : Kept s (t.restDue stopped n) := by
  induction n generalizing t with
  | zero => exact h
  | succ n ih =>
    unfold State.restDue
    split
    · exact h
    · exact ih (Kept.alsoDue (h.foldl fun _ _ h1 => h1.updThr))

theorem Kept.dueTraps {pc : DWord} {pos n : Nat} {ks : List Nat} (h : Kept s t) : Kept s (t.dueTraps pc pos ks n).2 := by
  induction n generalizing t ks with
  | zero => exact h
  | succ n ih =>
    unfold State.dueTraps
    split
    · exact h
    · exact ih (Kept.boundaryFault (h.foldl fun _ _ h1 => h1.updThr)).restDue

theorem Kept.boundaryTraps {pc : DWord} {pos : Nat} {ks : List Nat} (h : Kept s t) : Kept s (t.boundaryTraps pc pos ks).2 := by
  unfold State.boundaryTraps
  extract_lets _ _ _ _ _ u1
  have h1 : Kept s u1 := (h.foldl fun _ _ h1 => h1.updThr).boundaryFault
  split
  · exact (Kept.ite h h1.restDue).dueTraps
  · exact h

theorem Kept.applyAges {iss : Nat} {chosen cand : List Nat} (h : Kept s t) : Kept s (t.applyAges iss chosen cand) :=
  Kept.ite h ((h.foldl fun _ _ h1 => h1.updThr).foldl fun _ _ h1 => h1.updThr)

theorem Kept.beginRun {iss : Nat} (h : Kept s t) : Kept s (t.beginRun iss) := by
  unfold State.beginRun
  split
  · extract_lets u1 _ u2
    have h2 : Kept s u2 := h.updSlot.applyAges
    split
    rename_i _ u3 heq
    have h3 : Kept s u3 := h2.boundaryTraps.snd heq
    extract_lets
    split
    · exact h3
    split
    · exact h3.boundaryFault
    extract_lets _ u4
    have h4 : Kept s u4 := h3.keepCode
    split
    · exact h3.boundaryFault
    split
    · exact h3.boundaryFault
    split
    rename_i _ u5 heq5
    refine Kept.updSlot (Kept.foldl (h4.newId.snd heq5) fun _ _ h6 => h6.updThr fun x hx => ?_)
    split
    · exact Thread.tidy_temps (x := x) hx rfl
    · exact hx
  · exact h

theorem Kept.issueMany {r : Req} {body : State → Except Flt (State × List Flt)} (h : Kept s t) (hb : KeptAs Prod.fst s (body t)) :
    Leads s (t.issueMany r body) := by
  unfold State.issueMany
  split
  · exact Leads.next h.takeFault
  split
  · exact Leads.next h.takeFault
  rename_i u _ heq
  have h1 : Kept s u := hb _ heq
  exact Leads.next (h1.foldl fun _ _ h1 => h1.takeFault)

theorem Kept.perGroup {f : State → Nat → Nat → Except Flt State} (h : Kept s t) (hf : ∀ u g k, Kept s u → KeptOk s (f u g k)) :
    KeptAs Prod.fst s (t.perGroup f) := by
  unfold State.perGroup
  extract_lets r
  have h1 : Kept s r.1 := Kept.foldlFst h fun a e h1 => by
    split
    · rename_i u heq
      exact hf _ _ _ h1 u heq
    · exact h1
  refine KeptAs.ok ?_
  split
  · exact h
  · exact h1

theorem Kept.issueWord {r : Req} {body : State → Except Flt State} (h : Kept s t) (hb : KeptOk s (body t)) : Leads s (t.issueWord r body) := by
  unfold State.issueWord
  split
  · exact Leads.next h.takeFault
  split
  · exact Leads.next h.takeFault
  rename_i u heq
  exact Leads.next (hb u heq)

theorem Kept.issuePlain {r : Req} {body : State → State} (h : Kept s t) (hb : Kept s (body t)) : Leads s (t.issuePlain r body) := by
  unfold State.issuePlain
  split
  · exact Leads.next h.takeFault
  · exact Leads.next hb

theorem Kept.fpTrap {n : Nat} {raised : List (Nat × Flags)} (h : Kept s t) : Kept s (t.fpTrap n raised) :=
  Kept.ite h (Kept.ite (h.foldl fun _ _ h1 => h1.updThr) h).takeFault

theorem Kept.issueFp {r : Req} {n : Nat} {body : State → State × List (Nat × Flags)} (h : Kept s t) (hb : Kept s (body t).1) :
    Leads s (t.issueFp r n body) := by
  unfold State.issueFp
  split
  · exact Leads.next h.takeFault
  · exact Leads.next hb.raiseAll.fpTrap

theorem Kept.undecoded {w : Word} {e : DecodeError} (h : Kept s t) : Kept s (t.undecoded w e) := by
  unfold State.undecoded
  split
  · exact h.takeFault
  · exact h.takeFault
  · exact h.takeFault

theorem Kept.endThread {pc : DWord} {len : Nat} {aw : List Nat} {k : Nat} (h : Kept s t) : Kept s (t.endThread pc len aw k) := by
  unfold State.endThread
  exact h.updThr

theorem Kept.settleHeaps {k : Nat} (h : Kept s t) : Kept s (t.settleHeaps k) := Kept.ite h h.updCx.updThr

theorem Kept.settleThread {k : Nat} (h : Kept s t) : Kept s (t.settleThread k) := by
  unfold State.settleThread
  extract_lets
  split
  · split
    · exact h.settleHeaps.updThr.endCommand
    split
    · exact h.settleHeaps.updCmd.updThr.stopDone
    · exact Kept.ite h.settleHeaps.endCommand h.settleHeaps
  · exact Kept.ite h.updThr.exitThread h.tryWait

theorem Kept.advance {iss n : Nat} (h : Kept s t) : Kept s (t.advance iss n) := by
  unfold State.advance
  split
  · extract_lets _ _ _ _ _ u1
    have h1 : Kept s u1 := h.landAll.updSlot.foldl fun _ _ h1 => h1.endThread
    exact Kept.ite h.updSlot (Kept.ite h.updSlot (h1.foldl fun _ _ h2 => h2.settleThread))
  · exact h

theorem Kept.endClk (h : Kept s t) : Kept s t.endClk := Kept.ite h h.serveDue

theorem Kept.setSlotState {h' k v : Nat} (h : Kept s t) : Kept s (t.setSlotState h' k v) := h.writeHome

theorem Kept.ringCount {h' : Nat} {filled up : Bool} (h : Kept s t) : Kept s (t.ringCount h' filled up) := h.writeHomes

theorem Kept.ringClaim {h' : Nat} {fill : Bool} (h : Kept s t) : Kept s (t.ringClaim h' fill).2 := h.setSlotState.ringCount.writeHomes

theorem Kept.ringPut {h' k : Nat} {fill : Bool} (h : Kept s t) :
    Kept s (t.ringPut h' k fill) := Kept.ite h.setSlotState.ringCount h.setSlotState.ringCount

theorem Kept.serveRing {k : Nat} (h : Kept s t) : Kept s (t.serveRing k) := by
  unfold State.serveRing
  split
  · exact Kept.ite h (Kept.ite h.waitFault (Kept.ite h.ringClaim.wake.refresh h))
  · exact h

theorem Kept.updRing {core key : Nat} {f : CopyRing → CopyRing} (h : Kept s t) : Kept s (t.updRing core key f) := h.updCore

theorem Kept.copyFault {core : Nat} {r : CopyRing} {code info cmd : Nat} {addr : DWord} {cls : Nat} (h : Kept s t) :
    Kept s (t.copyFault core r code info cmd addr cls) :=
  h.writeHomes.logEvent

theorem Kept.notify {team off : Nat} (h : Kept s t) : Kept s (t.notify team off) :=
  Kept.ite h (Kept.ite h.copyFault (Kept.ite h.copyFault h.updCore.updRing.poll))

theorem Kept.mayNotify {p : Spot} (h : Kept s t) : Kept s (t.mayNotify p) := Kept.ite h.notify h

theorem Kept.updTorc {d : Nat} {f : Torc → Torc} (h : Kept s t) : Kept s (t.updTorc d f) := h.updDie

theorem Kept.updBlock {d off : Nat} {f : TorcBlock → TorcBlock} (h : Kept s t) : Kept s (t.updBlock d off f) := h.updTorc

theorem Kept.beginInstance {d off : Nat} (h : Kept s t) : Kept s (t.beginInstance d off) := h.updBlock.later

theorem Kept.activate {d n : Nat} (h : Kept s t) : Kept s (t.activate d n) := by
  induction n generalizing t with
  | zero => exact h
  | succ n ih =>
    unfold State.activate
    extract_lets _ _ first
    clear_value first
    split
    · exact h
    · exact Kept.ite h (ih h.beginInstance)

theorem Kept.torcStart {d off ctx old new : Nat} (h : Kept s t) : Kept s (t.torcStart d off ctx old new) := by
  unfold State.torcStart
  extract_lets
  split
  · exact h
  split
  rename_i _ u1 heq
  have h1 : Kept s u1 := h.newId.snd heq
  exact (Kept.ite h1.updTorc h1.updTorc.updTorc).updBlock.activate.poll

theorem Kept.mayStart {k : Nat} {p : Spot} {old : Nat} (h : Kept s t) : Kept s (t.mayStart k p old) := Kept.ite h.torcStart h

theorem Kept.noteSegs {a : Agent} {l : List Seg} {bs : List Byte} (h : Kept s t) : Kept s (t.noteSegs a l bs) := Kept.foldlFst h fun _ _ h1 => by
    split
    · exact h1.noteWrite
    · exact h1

theorem Kept.keepSegs {a : Agent} {l : List Seg} (h : Kept s t) : Kept s (t.keepSegs a l) := h.foldl fun _ _ h1 => h1.keepWay

theorem Kept.engineWritesBad {ws : List (Nat × Byte × Bool)} (h : Kept s t) : Kept s (t.engineWritesBad ws) :=
  h.engineWrites.foldl fun _ _ h1 => h1.markPoison

/-- Bytes that an engine's command comes to own, and whether each is poisoned. -/
theorem Kept.own {n : Nat} {b : Option Byte} {bad : Bool} (h : Kept s t) :
    Kept s { t with owned := t.owned.put none n b, ownedBad := t.ownedBad.put false n bad } := by
  refine ⟨fun ht => ?_, fun ht => ?_⟩
  · obtain ⟨hm, ho, hp, hb, hh⟩ := wf_parts.1 (h.wf ht)
    exact wf_parts.2 ⟨hm, Tab.wf_put _ _ ho, hp, Tab.wf_put _ _ hb, hh⟩
  have h1 := tidy_iff.1 (h.tidy ht)
  exact tidy_iff.2 { h1 with owned := Tab.rising_put _ _ h1.owned }

theorem Kept.copyBegin {a : Agent} {core : Nat} {r : CopyRing} {c : CopyCmd} (h : Kept s t) : Kept s (t.copyBegin a core r c) := by
  unfold State.copyBegin
  extract_lets _ _ _ _ u1 u2 u3 u4
  have h2 : Kept s u2 := (Kept.ite h.logEvent h).keepSegs.engineWritesBad
  have h4 : Kept s u4 := Kept.foldl (Kept.ite h2 h2.noteSegs) fun _ _ h3 => h3.own
  split
  rename_i _ u5 heq
  have h5 : Kept s u5 := Kept.snd (by exact Kept.foldlSnd h4 fun _ _ h5 => h5.ringClaim) heq
  exact h5.updRing.later

theorem Kept.copyTry {core : Nat} {r : CopyRing} {c : CopyCmd} (h : Kept s t) : Kept s (t.copyTry core r c) := by
  unfold State.copyTry
  extract_lets
  split
  · exact Kept.ite h h.withWaiters
  split
  · exact h.withWaiters.updRing.copyFault
  · exact Kept.ite h.poll (Kept.ite h.withWaiters.updRing.copyFault.failGrid h.withWaiters.copyBegin)

theorem Kept.copyAccept {core : Nat} {r : CopyRing} (h : Kept s t) : Kept s (t.copyAccept core r) :=
  Kept.ite h.writeHomes.copyFault h.writeHomes.updRing.copyTry

theorem Kept.acceptAll {core key n : Nat} (h : Kept s t) : Kept s (t.acceptAll core key n) := by
  induction n generalizing t with
  | zero => exact h
  | succ n ih =>
    unfold State.acceptAll
    split
    · exact h
    · exact Kept.ite h (ih h.copyAccept)

theorem Kept.copyStep {core : Nat} {r : CopyRing} (h : Kept s t) : Kept s (t.copyStep core r) := by
  unfold State.copyStep
  extract_lets u1
  have h1 : Kept s u1 := by
    unfold u1
    split
    · exact h.copyTry
    · exact h
  exact Kept.ite h (Kept.ite h.updRing h1.acceptAll)

theorem Kept.serveWaiter {w : Nat} (h : Kept s t) : Kept s (t.serveWaiter w) := by
  unfold State.serveWaiter
  split
  · exact h.serveRing
  split
  · exact h.withWaiters
  split
  · exact h.withWaiters
  · exact Kept.ite h h.copyTry.poll

theorem Kept.runRings (h : Kept s t) : Kept s t.runRings := h.foldl fun _ _ h1 => h1.serveWaiter

theorem Kept.ringsMoved (h : Kept s t) : Kept s t.ringsMoved := h.runRings

theorem Kept.copyCommit {core : Nat} {r : CopyRing} {e : Nat} {claim : Nat × Nat} (h : Kept s t) : Kept s (t.copyCommit core r e claim) :=
  Kept.ite h (Kept.ite h.ringPut h.logEvent)

theorem Tab.rising_dels {α : Type} {l : List Nat} {t : Tab α} (ht : Tab.risingFrom 0 t = true) : Tab.risingFrom 0 (l.foldl Tab.del t) = true := by
  induction l generalizing t with
  | nil => exact ht
  | cons n l ih => exact ih (Tab.rising_del ht)

theorem Tab.wf_dels {α : Type} {_ : DecidableEq α} {d : α} {l : List Nat} {t : Tab α} (ht : Tab.wf d t = true) : Tab.wf d (l.foldl Tab.del t) = true := by
  induction l generalizing t with
  | nil => exact ht
  | cons n l ih => exact ih (Tab.wf_del d ht)

/-- Bytes that no command owns any longer. -/
theorem Kept.disown {l : List Nat} (h : Kept s t) : Kept s { t with owned := l.foldl Tab.del t.owned, ownedBad := l.foldl Tab.del t.ownedBad } := by
  refine ⟨fun ht => ?_, fun ht => ?_⟩
  · obtain ⟨hm, ho, hp, hb, hh⟩ := wf_parts.1 (h.wf ht)
    exact wf_parts.2 ⟨hm, Tab.wf_dels ho, hp, Tab.wf_dels hb, hh⟩
  have h1 := tidy_iff.1 (h.tidy ht)
  exact tidy_iff.2 { h1 with owned := Tab.rising_dels h1.owned }

theorem Kept.writeOwned {dests : List Nat} (h : Kept s t) : Kept s (t.writeOwned dests) :=
  h.disown.engineWrites.foldl fun _ _ h1 => h1.markPoison

theorem Kept.copyFinish {core : Nat} {r : CopyRing} {c : CopyCmd} (h : Kept s t) : Kept s (t.copyFinish core r c) := by
  unfold State.copyFinish
  extract_lets _ u1 _ _ u2
  have h1 : Kept s u1 := h.writeOwned.foldl fun _ _ h1 => h1.copyCommit
  have h2 : Kept s u2 := Kept.ite (Kept.ite h1.ctrDec.serveLater h1).writeHomes (Kept.ite h1.ctrDec.serveLater h1)
  exact h2.updRing.updCore.ringsMoved

theorem execCopyCmdIssue_leads {core ring : Nat} (h : Kept s t) : Leads s (execCopyCmdIssue core ring t) := by
  unfold execCopyCmdIssue
  split
  · exact Leads.next h.copyStep
  · exact Leads.next h

theorem execCopyCmdComplete_leads {core ring : Nat} (h : Kept s t) : Leads s (execCopyCmdComplete core ring t) := by
  unfold execCopyCmdComplete
  split
  · split
    · exact Leads.ite (Leads.next h.copyFinish) (Leads.next h)
    · exact Leads.next h
  · exact Leads.next h

end Sys2Proof.Machine
end

section
/-! PROOFS. What every step keeps: loads and stores, atomics, tiles and accumulators, binned regions, phases and barriers, and control. -/

namespace Sys2Proof.Machine

-- Many short proofs: elaborated one after another they need less memory.
set_option Elab.async false

variable {s t : State}

theorem Kept.loadLane {k : Nat} {p : Spot} {size : Nat} (h : Kept s t) : Kept s (t.loadLane k p size).2 := h.landFills.ownBins.takeFree.afterLoad

theorem Kept.weakLoad {z : Nat} {d : BitVec 7} {g : BitVec 5} {eas : List (Nat × DWord)} (h : Kept s t) : KeptOk s (t.weakLoad z d g eas) := by
  unfold State.weakLoad
  refine KeptAs.bind fun spots _ => ?_
  split
  rename_i _ u heq
  have h1 : Kept s u := Kept.snd (by exact Kept.foldlSnd h fun _ _ h1 => h1.loadLane) heq
  exact KeptAs.ok h1.variableInOrder

theorem Kept.weakStore {z : Nat} {d : BitVec 7} {g : BitVec 5} {eas : List (Nat × DWord)} (h : Kept s t) : KeptOk s (t.weakStore z d g eas) :=
  KeptAs.bind fun _ _ => KeptAs.bind fun _ _ => KeptAs.ok (h.foldl fun _ _ h1 => h1.ownBins.weakWrite.noteWrite)

theorem execLd_leads {z : BitVec 3} {d : BitVec 7} {g : BitVec 5} {o : BitVec 9} (h : Kept s t) : Leads s (execLd z d g o t) := h.issueWord h.weakLoad

theorem execSt_leads {z : BitVec 3} {d : BitVec 7} {g : BitVec 5} {o : BitVec 9} (h : Kept s t) : Leads s (execSt z d g o t) := h.issueWord h.weakStore

theorem execLdx_leads {z : BitVec 3} {d : BitVec 7} {g : BitVec 5} {i : BitVec 7} {c : BitVec 2} (h : Kept s t) : Leads s (execLdx z d g i c t) :=
  h.issueWord h.weakLoad

theorem execStx_leads {z : BitVec 3} {d : BitVec 7} {g : BitVec 5} {i : BitVec 7} {c : BitVec 2} (h : Kept s t) : Leads s (execStx z d g i c t) :=
  h.issueWord h.weakStore

theorem Kept.orderBefore {o : BitVec 2} {scope : Nat} (h : Kept s t) : Kept s (t.orderBefore o scope) := Kept.ite (h.foldl fun _ _ h1 => h1.release) h

theorem Kept.orderAfter {o : BitVec 2} {scope : Nat} (h : Kept s t) : Kept s (t.orderAfter o scope) := Kept.ite (h.foldl fun _ _ h1 => h1.refresh) h

theorem Kept.wrote {p : Spot} (h : Kept s t) : Kept s (t.wrote p) := Kept.ite h.devStored.ringsMoved h.devStored

theorem Kept.beforeAccess {k : Nat} {p : Spot} {n : Nat} (h : Kept s t) : Kept s (t.beforeAccess k p n) := h.beforeStrong.ownBins

theorem Kept.homeStore {k : Nat} {p : Spot} {va : DWord} {b : List Byte} (h : Kept s t) : Kept s (t.homeStore k p va b) :=
  h.beforeAccess.strongWrite.noteWrite.wrote

theorem execLds_leads {o z : BitVec 2} {d : BitVec 7} {g : BitVec 5} {sc : BitVec 3} (h : Kept s t) : Leads s (execLds o z d g sc t) :=
  h.issueWord <| KeptAs.bind fun _ _ => KeptAs.ok (h.foldl fun _ _ h1 => h1.beforeAccess.variable).orderAfter

theorem execSts_leads {o z : BitVec 2} {d : BitVec 7} {g : BitVec 5} {sc : BitVec 3} (h : Kept s t) :
    Leads s (execSts o z d g sc t) := h.issueWord <| by
    extract_lets
    exact KeptAs.bind fun _ _ => KeptAs.bind fun _ _ => KeptAs.ok (h.orderBefore.foldl fun _ _ h1 => by
            extract_lets
            split
            · exact (Kept.ite h1.homeStore.mayNotify h1.homeStore).mayStart
            · exact Kept.ite h1.homeStore.mayNotify h1.homeStore)

theorem execGset_leads {u' : BitVec 1} {g : BitVec 5} {a b : BitVec 7} {perm : BitVec 4} {kind : BitVec 2} (h : Kept s t) :
    Leads s (execGset u' g a b perm kind t) := by
  unfold execGset
  exact h.issuePlain h.fixed

theorem execGadv_leads {g : BitVec 5} {a : BitVec 7} {w : BitVec 1} {sc : BitVec 2} (h : Kept s t) : Leads s (execGadv g a w sc t) :=
  h.issueWord (KeptAs.bind fun _ _ => KeptAs.ok h.fixed)

theorem execGptr_leads {g : BitVec 5} {a : BitVec 7} (h : Kept s t) : Leads s (execGptr g a t) := h.issueWord (KeptAs.bind fun _ _ => KeptAs.ok h.fixed)

theorem execGget_leads {d : BitVec 7} {g : BitVec 5} {f : BitVec 2} (h : Kept s t) : Leads s (execGget d g f t) := h.issuePlain h.fixed

theorem Kept.rmw {k : Nat} {p : Spot} {va : DWord} {n : Nat} {f : Nat → Option Nat} (h : Kept s t) : Kept s (t.rmw k p va n f).2 := by
  unfold State.rmw
  extract_lets
  split
  · exact h.beforeAccess.homeStore
  · exact h.beforeAccess

theorem execAtom_leads {f : BitVec 4} {d a : BitVec 7} {g : BitVec 5} {o : BitVec 2} {sc : BitVec 3} {ty : BitVec 2} (h : Kept s t) :
    Leads s (execAtom f d a g o sc ty t) := by
  unfold execAtom
  extract_lets
  exact h.issueWord <| by
      extract_lets
      exact KeptAs.bind fun _ _ => KeptAs.ok (h.orderBefore.foldl fun _ _ h1 => by
            extract_lets
            split
            rename_i _ u2 heq
            have h2 : Kept s u2 := h1.rmw.snd heq
            exact (Kept.ite (Kept.ite h2.mayNotify h2).mayStart (Kept.ite h2.mayNotify h2)).variable).orderAfter

theorem execAcas_leads {d a b : BitVec 7} {g : BitVec 5} {o : BitVec 2} {sc : BitVec 3} {ty : BitVec 2} {p : BitVec 4} (h : Kept s t) :
    Leads s (execAcas d a b g o sc ty p t) := by
  unfold execAcas
  refine h.issueWord (KeptAs.bind fun spots _ => KeptAs.ok (Kept.orderAfter (h.orderBefore.foldl fun _ _ h1 => ?_)))
  dsimp only
  exact h1.rmw.variable

theorem Kept.sendGaddFrom {t0 : Nat} {x : GaddLane} (h : Kept s t) : Kept s (t.sendGaddFrom t0 x).2 := by
  unfold State.sendGaddFrom
  split
  rename_i _ u1 heq
  have h1 : Kept s u1 := h.newId.snd heq
  extract_lets
  split
  · exact h1.beforeStrong.withBins.laterFrom
  · exact h1.updDetTask

theorem Kept.sendGadds {xs : List GaddLane} (h : Kept s t) : Kept s (t.sendGadds xs) := Kept.foldlSnd h fun _ _ h1 => h1.sendGaddFrom

theorem execFatom_leads {f : BitVec 4} {d a : BitVec 7} {g : BitVec 5} {o : BitVec 2} {sc : BitVec 3} {ty : BitVec 2} (h : Kept s t) :
    Leads s (execFatom f d a g o sc ty t) := by
  unfold execFatom
  refine h.issueWord (KeptAs.bind fun p _ => ?_)
  split
  refine KeptAs.bind fun _ _ => KeptAs.ok (Kept.orderAfter (Kept.foldl (h.orderBefore.sendGadds.foldl fun _ _ h1 => h1.variable) fun _ _ h1 => ?_))
  dsimp only
  exact h1.rmw.variable

theorem execGadd_leads {a : BitVec 7} {g : BitVec 5} {o : BitVec 2} {sc : BitVec 3} {ty : BitVec 1} (h : Kept s t) :
    Leads s (execGadd a g o sc ty t) := by
  unfold execGadd
  exact h.issueWord <| KeptAs.bind fun _ _ => KeptAs.bind fun _ _ => KeptAs.ok h.orderBefore.sendGadds

theorem execBankAluBinUpdate_leads {id : Nat} (h : Kept s t) : Leads s (execBankAluBinUpdate id t) := by
  unfold execBankAluBinUpdate
  split
  · exact Leads.next (Kept.ite h.flushBins.scheduleAt h.flushBins)
  · exact Leads.next h

theorem Kept.engineStore {k va : Nat} {bs : List Byte} (h : Kept s t) : Kept s (t.engineStore k va bs) := h.noteWrite.engineWrites

theorem Kept.poisonedSource {k src cmd : Nat} (h : Kept s t) : Kept s (t.poisonedSource k src cmd) := h.logEvent

theorem Kept.setAcc {core n : Nat} {a : Acc} (h : Kept s t) : Kept s (t.setAcc core n a) := h.updCore

theorem Kept.withPoisonReg {poisonReg : List (EccPlace × Nat × Nat)} (h : Kept s t) : Kept s { t with poisonReg := poisonReg } := { h with }

theorem Kept.markElems {p : EccPlace} {unit : Nat} {l : List Nat} (h : Kept s t) : Kept s (t.markElems p unit l) := h.withPoisonReg

theorem Kept.cleanElems {p : EccPlace} {unit lo n : Nat} (h : Kept s t) : Kept s (t.cleanElems p unit lo n) := Kept.ite h h.withPoisonReg

theorem Kept.replaceAcc {core n : Nat} {a : Acc} {bad : List Nat} (h : Kept s t) : Kept s (t.replaceAcc core n a bad) := h.setAcc.cleanElems.markElems

theorem Kept.tileRows {g t' : Nat} {rows : List (Nat × List Nat × Bool)} (h : Kept s t) : Kept s (t.tileRows g t' rows) := h.variable

theorem Kept.spillTile {core n : Nat} {owner : Agent} {va : Nat} (h : Kept s t) : Kept s (t.spillTile core n owner va) := by
  unfold State.spillTile
  exact h.engineWrite.foldl fun _ _ h1 => by
      split
      · exact h1.foldl fun _ _ h2 => h2.markPoison
      · exact h1

theorem Kept.takeover {k n : Nat} (h : Kept s t) : KeptOk s (t.takeover k n) := by
  unfold State.takeover
  extract_lets core c a va me owner _ _ _ _ spill
  refine KeptAs.ite (KeptAs.ok h) (KeptAs.ite KeptAs.error (KeptAs.ite KeptAs.error ?_))
  refine KeptAs.ite KeptAs.error ?_
  have hs : KeptOk s spill := by
    unfold spill
    split
    · exact KeptAs.ok h
    · exact KeptAs.ite KeptAs.error (KeptAs.ok h.spillTile)
  clear_value spill
  split
  · exact KeptAs.error
  rename_i u
  have h1 : Kept s u := hs u rfl
  have h2 : Kept s (u.keepWay me { w := true } va 10256) := h1.keepWay
  exact KeptAs.ok (Kept.ite (Kept.ite h2.replaceAcc.engineWrite h2.replaceAcc) (Kept.ite h2.replaceAcc.engineWrite h2.replaceAcc).poisonedSource)

theorem Kept.putRegion {k id : Nat} {r : Option Region} (h : Kept s t) : Kept s (t.putRegion k id r) := h.release.updCx

theorem execBinctlDecl_leads {id : BitVec 6} {g : BitVec 5} (h : Kept s t) : Leads s (execBinctlDecl id g t) :=
  h.issueMany <| h.perGroup fun _ _ _ h1 => KeptAs.bind fun _ _ => KeptAs.ite KeptAs.error (KeptAs.ite KeptAs.error (KeptAs.ite KeptAs.error
      (KeptAs.ok h1.putRegion)))

theorem execBinctlFree_leads {id : BitVec 6} (h : Kept s t) : Leads s (execBinctlFree id t) :=
  h.issuePlain (h.foldl fun _ _ h1 => Kept.ite h1.putRegion h1)

theorem Kept.finalise {r : Region} {clear : Bool} {x : FinElem} (h : Kept s t) : Kept s (t.finalise r clear x) :=
  Kept.ite h.logRecord (Kept.ite h.beforeStrong.strongWrite h.beforeStrong).strongWrite

theorem Kept.finAll {id : Nat} {a b : BitVec 7} {clear : Bool} (h : Kept s t) : Kept s (t.finAll id a b clear).1 := by
  unfold State.finAll
  extract_lets
  split
  · exact h
  · exact h.flushBins.foldl fun _ _ h1 => h1.finalise

theorem execBinctlFin_leads {id : BitVec 6} {a b : BitVec 7} (h : Kept s t) : Leads s (execBinctlFin id a b t) := h.issueMany (KeptAs.ok h.finAll)

theorem execBinctlFinclr_leads {id : BitVec 6} {a b : BitVec 7} (h : Kept s t) : Leads s (execBinctlFinclr id a b t) := h.issueMany (KeptAs.ok h.finAll)

theorem Kept.releaseAll {scope : Nat} (h : Kept s t) : Kept s (t.releaseAll scope) := h.foldl fun _ _ h1 => h1.release

theorem Kept.acquireAll {scope : Nat} (h : Kept s t) : Kept s (t.acquireAll scope) := h.foldl fun _ _ h1 => h1.refresh

theorem execPhase_leads {sc : BitVec 3} (h : Kept s t) : Leads s (execPhase sc t) := h.issuePlain h.releaseAll.acquireAll

theorem execPhasePub_leads {sc : BitVec 3} (h : Kept s t) : Leads s (execPhasePub sc t) := h.issuePlain h.releaseAll

theorem execPhaseAcq_leads {sc : BitVec 3} (h : Kept s t) : Leads s (execPhaseAcq sc t) := h.issuePlain h.acquireAll

theorem execFencesc_leads (h : Kept s t) : Leads s (execFencesc t) := h.issuePlain <| (h.releaseAll.foldl fun _ _ h1 => h1.updThr.scheduleAt).setRun

theorem execFencescComplete_leads {th : Nat} (h : Kept s t) : Leads s (execFencescComplete th t) := by
  unfold execFencescComplete
  split
  · exact Leads.ite (Leads.next h.updThr.refresh) (Leads.next h)
  · exact Leads.next h

theorem execPublicationComplete_leads {core : Nat} (h : Kept s t) :
    Leads s (execPublicationComplete core t) := Leads.next h.finishPublications.ringsMoved

theorem execBarArrive_leads {sc : BitVec 1} {i : BitVec 4} (h : Kept s t) : Leads s (execBarArrive sc i t) :=
  h.issuePlain (h.foldl fun _ _ h1 => h1.arrive)

theorem Kept.waitAtBar {b : Nat} (h : Kept s t) : Kept s (t.waitAtBar b) := h.foldl fun _ _ h1 => h1.updThr

theorem execBarWait_leads {sc : BitVec 1} {i : BitVec 4} (h : Kept s t) : Leads s (execBarWait sc i t) := h.issuePlain h.waitAtBar

theorem execBarSync_leads {sc : BitVec 1} {i : BitVec 4} (h : Kept s t) : Leads s (execBarSync sc i t) :=
  h.issuePlain (h.foldl fun _ _ h1 => h1.arrive).waitAtBar

theorem execBarrierRelease_leads {isTeam : Bool} {owner bar : Nat} (h : Kept s t) : Leads s (execBarrierRelease isTeam owner bar t) :=
  Leads.ite (Leads.next h) (Leads.next h.releasePhase)

theorem Kept.blockAt {k : Nat} {w : Wait} (h : Kept s t) : Kept s (t.blockAt k w) := by
  unfold State.blockAt
  exact h.newId.withWaiters.updThr

theorem Kept.claimOrWait {fill : Bool} {d : BitVec 7} {k : Nat} {p : Spot} (h : Kept s t) : Kept s (t.claimOrWait fill d k p) :=
  Kept.ite h.beforeStrong.dropLine.ringClaim.variable.refresh h.beforeStrong.blockAt

theorem execSlwait_leads {d : BitVec 7} {g : BitVec 5} (h : Kept s t) : Leads s (execSlwait d g t) :=
  h.issueWord <| KeptAs.bind fun _ _ => KeptAs.ok (h.foldl fun _ _ h1 => h1.claimOrWait).ringsMoved

theorem execSlfree_leads {d : BitVec 7} {g : BitVec 5} (h : Kept s t) : Leads s (execSlfree d g t) :=
  h.issueWord <| KeptAs.bind fun _ _ => KeptAs.ok (h.foldl fun _ _ h1 => h1.claimOrWait).ringsMoved

theorem Kept.putSlot {fill : Bool} {k : Nat} {p : Spot} {n : Nat} (h : Kept s t) : Kept s (t.putSlot fill k p n) :=
  h.release.beforeStrong.dropLine.ringPut.runRings

theorem execSlrel_leads {g : BitVec 5} {b : BitVec 7} (h : Kept s t) : Leads s (execSlrel g b t) :=
  h.issueWord <| KeptAs.bind fun _ _ => KeptAs.ok (h.foldl fun _ _ h1 => h1.putSlot).ringsMoved

theorem execSlcommit_leads {g : BitVec 5} {b : BitVec 7} (h : Kept s t) : Leads s (execSlcommit g b t) :=
  h.issueWord <| KeptAs.bind fun _ _ => KeptAs.ok (h.foldl fun _ _ h1 => h1.putSlot).ringsMoved

theorem execSleepWake_leads {th : Nat} (h : Kept s t) : Leads s (execSleepWake th t) := by
  unfold execSleepWake
  split
  · exact Leads.next h.updThr
  · exact Leads.next h

theorem execNop_leads (h : Kept s t) : Leads s (execNop t) := h.issuePlain h

theorem Kept.goTo {l : List (Nat × DWord)} (h : Kept s t) : Kept s (t.goTo l) := h.foldl fun _ _ h1 => h1.updThr

theorem Kept.pushFrames {ks : List Nat} (h : Kept s t) : Kept s (t.pushFrames ks) := h.foldl fun _ _ h1 => h1.storeHomes.updThr

theorem execBr_leads {n : BitVec 1} {p : BitVec 4} {o : BitVec 20} (h : Kept s t) : Leads s (execBr n p o t) :=
  h.issueWord (KeptAs.bind fun _ _ => KeptAs.ok h.goTo)

theorem execBri_leads {n : BitVec 1} {p : BitVec 4} {a : BitVec 7} (h : Kept s t) : Leads s (execBri n p a t) :=
  h.issueWord (KeptAs.bind fun _ _ => KeptAs.ok h.goTo)

theorem execCall_leads {n : BitVec 1} {p : BitVec 4} {o : BitVec 20} (h : Kept s t) : Leads s (execCall n p o t) :=
  h.issueWord (KeptAs.bind fun _ _ => KeptAs.ok h.pushFrames.goTo)

theorem execCalli_leads {n : BitVec 1} {p : BitVec 4} {a : BitVec 7} (h : Kept s t) : Leads s (execCalli n p a t) :=
  h.issueWord (KeptAs.bind fun _ _ => KeptAs.ok h.pushFrames.goTo)

theorem execRet_leads {n : BitVec 1} {p : BitVec 4} (h : Kept s t) : Leads s (execRet n p t) :=
  h.issueWord <| KeptAs.bind fun _ _ => KeptAs.ok (h.foldl fun _ _ h1 => h1.updThr)

theorem execExit_leads {n : BitVec 1} {p : BitVec 4} (h : Kept s t) : Leads s (execExit n p t) :=
  h.issueWord <| KeptAs.bind fun _ _ => KeptAs.ok (h.foldl fun _ _ h1 => h1.updThr)

theorem execYield_leads {n : BitVec 1} {p : BitVec 4} (h : Kept s t) : Leads s (execYield n p t) := h.issuePlain (h.foldl fun _ _ h1 => h1.updThr)

theorem execWinb_leads {rel : BitVec 1} {i : BitVec 11} (h : Kept s t) : Leads s (execWinb rel i t) :=
  h.issueWord <| KeptAs.ite KeptAs.error (KeptAs.ok (h.foldl fun _ _ h1 => h1.updThr))

theorem execSysr_leads {d : BitVec 7} {c w : BitVec 1} {sel : BitVec 11} (h : Kept s t) : Leads s (execSysr d c w sel t) := h.issuePlain h.fixed

theorem Thread.tidy_sysw {x : Thread} {sel : Nat} {v : Word} (hx : x.tidy = true) : (x.sysw sel v).tidy = true := by
  unfold Thread.sysw
  split
  · exact hx
  split
  · exact hx
  · exact hx

theorem execSysw_leads {c w : BitVec 1} {a : BitVec 7} {sel : BitVec 11} (h : Kept s t) : Leads s (execSysw c w a sel t) := by
  unfold execSysw
  refine h.issueWord (KeptAs.ite KeptAs.error (KeptAs.ok (h.foldl fun _ _ h1 => h1.updThr fun x hx => ?_)))
  dsimp only
  split
  · exact Thread.tidy_sysw (Thread.tidy_sysw hx)
  · exact Thread.tidy_sysw hx

theorem Kept.trapReturn (h : Kept s t) : Kept s t.trapReturn.1 := by
  unfold State.trapReturn
  split
  · exact h
  extract_lets
  split
  rename_i _ u1 heq
  have h1 : Kept s u1 := h.newId.snd heq
  extract_lets _ _ _ u2 _ u3
  have h2 : Kept s u2 := Kept.ite (h1.foldl fun _ _ h2 => h2.updThr) (h1.foldl fun _ _ h2 => h2.updThr).leaveRun
  have h3 : Kept s u3 := (h2.foldl fun _ _ h3 => h3.handlerReturn).foldl fun _ _ h3 => h3.rejoin
  exact h3

theorem execTrap_leads {i : BitVec 11} (h : Kept s t) : Leads s (execTrap i t) := h.issueMany (KeptAs.ite (KeptAs.ok h.trapReturn) KeptAs.error)

theorem execIcinv_leads (h : Kept s t) : Leads s (execIcinv t) := h.issuePlain (h.updCore.foldl fun _ _ h1 => h1.updSlot)

theorem execSleep_leads {v : BitVec 1} {a : BitVec 7} {i : BitVec 11} (h : Kept s t) : Leads s (execSleep v a i t) :=
  h.issuePlain (h.foldl fun _ _ h1 => Kept.ite h1 h1.updThr)

theorem execFwret_leads (h : Kept s t) : Leads s (execFwret t) := h.issueWord KeptAs.error

end Sys2Proof.Machine
end

section
/-! PROOFS. What every step keeps: the raster, texture and ray-query instructions. -/

namespace Sys2Proof.Machine

-- Many short proofs: elaborated one after another they need less memory.
set_option Elab.async false

variable {s t : State}

theorem execRast_leads {sc : BitVec 2} {d : BitVec 7} {wv wt : BitVec 6} {p : BitVec 4} {si : BitVec 7} (h : Kept s t) :
    Leads s (execRast sc d wv wt p si t) :=
  h.issueWord <| KeptAs.bind fun _ _ => KeptAs.ok (h.foldl fun _ _ h1 => by
        extract_lets
        split
        · exact h1.foldl fun _ _ h2 => h2.variable
        · split
          exact (h1.foldl fun _ _ h2 => h2.variable).variable)

theorem execRastg_leads {sc : BitVec 2} {g : BitVec 5} {a b : BitVec 7} {wv : BitVec 6} {p : BitVec 4} {si : BitVec 7} (h : Kept s t) :
    Leads s (execRastg sc g a b wv p si t) :=
  h.issueWord <| KeptAs.bind fun _ _ => KeptAs.bind fun _ _ => KeptAs.bind fun _ _ => KeptAs.ok h.takeFree.sendGadds

theorem execEdgs_leads {d : BitVec 7} {wv wt : BitVec 6} {p : BitVec 4} {wk : BitVec 6} (h : Kept s t) : Leads s (execEdgs d wv wt p wk t) :=
  h.issueWord <| KeptAs.bind fun _ _ => KeptAs.ok (h.foldl fun _ _ h1 => by
        extract_lets
        split
        · exact (h1.foldl fun _ _ h2 => h2.variable).variable
        · exact (h1.foldl fun _ _ h2 => h2.variable).variable)

theorem Kept.keepRecord {core : Nat} {x : CachedRecord} (h : Kept s t) : Kept s (t.keepRecord core x) := by
  unfold State.keepRecord
  exact h.updCore

theorem Kept.keepRecords {k : Nat} {l : List TexRec} (h : Kept s t) : Kept s (t.keepRecords k l) := h.keepWays.foldl fun _ _ h1 => h1.keepRecord

theorem Kept.putTex {o : TexOut} (h : Kept s t) : Kept s (t.putTex o) := Kept.ite h.keepWays.variable.poisonedSource h.keepWays.variable

theorem execTex_leads {lz : BitVec 1} {d a b : BitVec 7} (h : Kept s t) : Leads s (execTex lz d a b t) :=
  h.issueWord <| KeptAs.bind fun _ _ => KeptAs.bind fun _ _ => KeptAs.ok (h.takeFree.keepRecords.foldl fun _ _ h1 => h1.putTex)

theorem execTexg_leads {lz : BitVec 1} {ch : BitVec 2} {d a b : BitVec 7} (h : Kept s t) : Leads s (execTexg lz ch d a b t) :=
  h.issueWord <| KeptAs.bind fun _ _ => KeptAs.bind fun _ _ => KeptAs.ok (h.takeFree.keepRecords.foldl fun _ _ h1 => h1.putTex)

theorem execTexl_leads {d a b : BitVec 7} (h : Kept s t) : Leads s (execTexl d a b t) :=
  h.issueWord <| KeptAs.bind fun _ _ => KeptAs.bind fun _ _ => KeptAs.ok (h.takeFree.keepRecords.foldl fun _ _ h1 => h1.putTex)

theorem execTexb_leads {lz : BitVec 1} {d a b gr : BitVec 7} (h : Kept s t) : Leads s (execTexb lz d a b gr t) :=
  h.issueWord <| KeptAs.bind fun _ _ => KeptAs.bind fun _ _ => KeptAs.bind fun _ _ => KeptAs.ok (h.takeFree.keepRecords.sendGadds.foldl fun _ _ h1 =>
      h1.putTex)

theorem Kept.rrec {d b : BitVec 7} {f : Nat → Resource → Word} (h : Kept s t) : KeptOk s (t.rrec d b f) :=
  KeptAs.bind fun _ _ => KeptAs.ok (h.keepRecords.foldl fun _ _ h1 => by
      split
      · exact h1.putTex
      · exact h1)

theorem execRrecDim_leads {d a b : BitVec 7} (h : Kept s t) : Leads s (execRrecDim d a b t) := h.issueWord h.rrec

theorem execRrecFmt_leads {d b : BitVec 7} (h : Kept s t) : Leads s (execRrecFmt d b t) := h.issueWord h.rrec

theorem execRrecInv_leads (h : Kept s t) : Leads s (execRrecInv t) := h.issuePlain (h.foldl fun _ _ h1 => h1.updCore)

theorem Kept.pushLog {k : Nat} {l : List LogRec} (h : Kept s t) : KeptOk s (t.pushLog k l) := by
  induction l generalizing t with
  | nil => exact KeptAs.ok h
  | cons r l ih =>
    unfold State.pushLog
    split
    · exact KeptAs.error
    rename_i u heq
    exact ih (h.tapePush u heq)

theorem Kept.putQuery {o : RqOut} (h : Kept s t) : Kept s (t.putQuery o) := by
  unfold State.putQuery
  extract_lets _ u1
  have h1 : Kept s u1 := by
    unfold u1
    split
    · exact Kept.ite h.keepWays.storeHomes.markPoison h.keepWays.storeHomes
    · exact h.keepWays
  exact (Kept.ite h1.poisonedSource h1).variable

theorem Kept.rqFinish {outs : List RqOut} (h : Kept s t) : KeptOk s (t.rqFinish outs) := KeptAs.bind fun _ _ => by
    extract_lets u1
    have h1 : Kept s u1 := by
      unfold u1
      exact h.foldl fun _ _ h1 => by
          split
          · rename_i u2 heq
            have h2 : Kept s u2 := h1.pushLog _ heq
            exact h2
          · exact h1
    exact KeptAs.bind fun _ _ => KeptAs.ok (h1.foldl fun _ _ h2 => h2.putQuery)

theorem execRqinit_leads {q : BitVec 1} {d a : BitVec 7} {log fp opq fht : BitVec 1} (h : Kept s t) : Leads s (execRqinit q d a log fp opq fht t) :=
  h.issueWord (KeptAs.bind fun _ _ => h.rqFinish)

theorem execRqproc_leads {q : BitVec 1} {d a : BitVec 7} (h : Kept s t) :
    Leads s (execRqproc q d a t) := h.issueWord (KeptAs.bind fun _ _ => h.rqFinish)

theorem execRqcand_leads {f : BitVec 3} {q : BitVec 1} {d a : BitVec 7} (h : Kept s t) : Leads s (execRqcand f q d a t) :=
  h.issueWord (KeptAs.bind fun _ _ => h.takeFree.rqFinish)

theorem execRqcommit_leads {q : BitVec 1} {a b : BitVec 7} (h : Kept s t) : Leads s (execRqcommit q a b t) := by
  unfold execRqcommit
  exact h.issueWord (KeptAs.bind fun _ _ => h.rqFinish)

theorem execRqabort_leads {q : BitVec 1} (h : Kept s t) : Leads s (execRqabort q t) := h.issueWord (KeptAs.bind fun _ _ => h.rqFinish)

theorem execRqres_leads {f : BitVec 3} {q : BitVec 1} {d a : BitVec 7} (h : Kept s t) : Leads s (execRqres f q d a t) :=
  h.issueWord (KeptAs.bind fun _ _ => h.rqFinish)

theorem execRqtri_leads {d a b ir : BitVec 7} {p : BitVec 4} {kind : BitVec 1} (h : Kept s t) : Leads s (execRqtri d a b ir p kind t) :=
  h.issueWord (KeptAs.bind fun _ _ => h.rqFinish)

theorem execRqgrad_leads {d a b ir gu : BitVec 7} {g : BitVec 5} {kind : BitVec 1} (h : Kept s t) : Leads s (execRqgrad d a b ir gu g kind t) :=
  h.issueWord <| KeptAs.bind fun _ _ => KeptAs.bind fun _ _ => KeptAs.bind fun _ _ => h.sendGadds.rqFinish

end Sys2Proof.Machine
end

section
/-! PROOFS. What every step keeps: the tape, task, strand and command-processor instructions, and the mailbox. -/

namespace Sys2Proof.Machine

-- Many short proofs: elaborated one after another they need less memory.
set_option Elab.async false

variable {s t : State}

theorem Kept.tapeAll {f : State → Nat → Except Flt State} {low : Nat → Nat} (h : Kept s t) (hf : ∀ u k, Kept s u → KeptOk s (f u k)) :
    KeptOk s (t.tapeAll f low) := by
  have h1 : Kept s (t.issue.foldl (fun t k => match f t k with | .ok u => u | .error _ => t) t) := h.foldl fun _ _ h1 => by
    split
    · rename_i u heq
      exact hf _ _ h1 u heq
    · exact h1
  unfold State.tapeAll
  split
  · exact KeptAs.bind fun _ hx => nomatch hx
  · exact KeptAs.bind fun _ _ => KeptAs.bind fun _ _ => KeptAs.ok h1

theorem execTrec_leads {n : BitVec 2} {kind a : BitVec 7} (h : Kept s t) : Leads s (execTrec n kind a t) :=
  h.issueWord (h.tapeAll fun _ _ h1 => h1.tapePush)

theorem Kept.popTo {d a : BitVec 7} {k : Nat} (h : Kept s t) : KeptOk s (t.popTo d a k) := by
  unfold State.popTo
  split
  · exact KeptAs.error
  rename_i _ u1 heq
  have h1 : Kept s u1 := h.tapePop _ heq
  exact KeptAs.ok h1.variable

theorem execTpop_leads {d a : BitVec 7} (h : Kept s t) : Leads s (execTpop d a t) := h.issueWord (h.tapeAll fun _ _ h1 => h1.popTo)

theorem Kept.closeSpan {k : Nat} (h : Kept s t) : KeptOk s (t.closeSpan k) := KeptAs.ite KeptAs.error (KeptAs.ite (KeptAs.ok h) h.tapePush)

theorem Kept.openSpan {k : Nat} {pc : DWord} {x y : Word} (h : Kept s t) : KeptOk s (t.openSpan k pc x y) := by
  unfold State.openSpan
  split
  · exact KeptAs.error
  rename_i u1 heq
  have h1 : Kept s u1 := h.closeSpan _ heq
  exact h1.tapePush

theorem execTmarkOpen_leads {a b : BitVec 7} (h : Kept s t) : Leads s (execTmarkOpen a b t) := h.issueWord (h.tapeAll fun _ _ h1 => h1.openSpan)

theorem execTmarkClose_leads (h : Kept s t) : Leads s (execTmarkClose t) := h.issueWord (h.tapeAll fun _ _ h1 => h1.closeSpan)

theorem Kept.syncThread {k : Nat} (h : Kept s t) : Kept s (t.syncThread k) := Kept.ite h h.tapeSync.updThr.later

theorem Kept.bindTape {d : TapeDesc} {k : Nat} (h : Kept s t) : KeptOk s (t.bindTape d k) := by
  unfold State.bindTape
  extract_lets
  split
  · exact KeptAs.ok h.tapeWrite.updThr
  split
  · exact KeptAs.error
  split
  · exact KeptAs.error
  · exact KeptAs.ok h.tapePoison.updThr

theorem Kept.bindThreads {g : Nat} (h : Kept s t) : KeptOk s (t.bindThreads g) := by
  unfold State.bindThreads
  extract_lets _ u1
  have h1 : Kept s u1 := h.foldl fun _ _ h1 => h1.syncThread
  refine KeptAs.bind fun _ _ => KeptAs.bind fun ds _ => ?_
  extract_lets of_ bad _ u2 bind u3
  have h2 : Kept s u2 := h1.foldl fun _ _ h2 => by
    split
    · exact h2.keepWay
    · exact h2
  have hb : ∀ u k, Kept s u → KeptOk s (bind u k) := fun u k hu => by
    unfold bind
    split
    · exact hu.bindTape
    · exact KeptAs.ok hu
  have h3 : Kept s u3 := h2.foldl fun _ _ h3 => by
    split
    · rename_i u heq
      exact hb _ _ h3 u heq
    · exact h3
  split
  · exact KeptAs.error
  · refine KeptAs.ite KeptAs.error (KeptAs.bind fun _ _ => KeptAs.bind fun _ _ => KeptAs.ok (h3.foldl fun _ _ h4 => h4.tapePoison))

theorem execTctlBind_leads {g : BitVec 5} (h : Kept s t) : Leads s (execTctlBind g t) := h.issueWord h.bindThreads

theorem execTctlStat_leads {d : BitVec 7} (h : Kept s t) : Leads s (execTctlStat d t) := h.issuePlain (h.foldl fun _ _ h1 => h1.variable)

theorem execTctlSeek_leads {a : BitVec 7} (h : Kept s t) : Leads s (execTctlSeek a t) :=
  h.issueWord (h.tapeAll fun _ _ h1 => KeptAs.ite KeptAs.error h1.tapeSeek)

theorem execTctlSync_leads (h : Kept s t) : Leads s (execTctlSync t) :=
  h.issueWord <| KeptAs.bind fun _ _ => KeptAs.ok (h.foldl fun _ _ h1 => h1.syncThread)

theorem execTapeSyncComplete_leads {th : Nat} (h : Kept s t) : Leads s (execTapeSyncComplete th t) := Leads.next h.updThr

theorem execRsvupd_leads {q : BitVec 3} {a b : BitVec 7} (h : Kept s t) : Leads s (execRsvupd q a b t) :=
  h.issuePlain (h.takeFree.foldl fun _ _ h1 => h1.variable)

theorem execRsvmrg_leads {qs qd : BitVec 3} {a b : BitVec 7} (h : Kept s t) : Leads s (execRsvmrg qs qd a b t) :=
  h.issuePlain (h.takeFree.foldl fun _ _ h1 => h1.variable)

theorem execRsvinit_leads {q : BitVec 3} (h : Kept s t) : Leads s (execRsvinit q t) := h.issuePlain (h.foldl fun _ _ h1 => h1.variable)

theorem execRsvfin_leads {d : BitVec 7} {q : BitVec 3} (h : Kept s t) : Leads s (execRsvfin d q t) :=
  h.issuePlain (h.takeFree.foldl fun _ _ h1 => h1.variable)

theorem execRsvget_leads {d : BitVec 7} {q : BitVec 3} {b : BitVec 7} (h : Kept s t) : Leads s (execRsvget d q b t) :=
  h.issuePlain (h.takeFree.foldl fun _ _ h1 => h1.variable)

theorem execRsvset_leads {q : BitVec 3} {a b : BitVec 7} (h : Kept s t) : Leads s (execRsvset q a b t) :=
  h.issuePlain (h.takeFree.foldl fun _ _ h1 => h1.variable)

theorem execClove_leads {u' vk : BitVec 1} {d a b : BitVec 7} (h : Kept s t) : Leads s (execClove u' vk d a b t) :=
  h.issuePlain (h.foldl fun _ _ h1 => h1.variable)

theorem Kept.spawnOne {k : Nat} {bad : Bool} {x : Grid} (h : Kept s t) : Kept s (t.spawnOne k bad x) :=
  (Kept.ite h.poisonedSource h).release.updTeam.acceptGrid

theorem execSpawn_leads {g : BitVec 5} {dm : BitVec 4} {ctr : BitVec 12} {sig : BitVec 1} (h : Kept s t) : Leads s (execSpawn g dm ctr sig t) :=
  h.issueWord <| KeptAs.bind fun _ _ => KeptAs.bind fun _ _ => KeptAs.ok (h.foldl fun _ _ h1 => h1.spawnOne)

theorem Kept.addTask {d q k : Nat} {e : List Byte} {va : DWord} (h : Kept s t) : Kept s (t.addTask d q k e va) :=
  Kept.ite (Kept.ite h.updDie.taskOvf h.updDie.updDie) h.updDie.enqueue

theorem execTqadd_leads {g : BitVec 5} {q : BitVec 6} {xd : BitVec 1} {die : BitVec 2} (h : Kept s t) : Leads s (execTqadd g q xd die t) :=
  h.issueWord <| KeptAs.bind fun _ _ => KeptAs.bind fun _ _ => KeptAs.ok (h.foldl fun _ _ h1 => (Kept.ite h1.poisonedSource
      h1).release.addTask.serveLater)

theorem Kept.waitHere {k : Nat} {w : Wait} (h : Kept s t) : Kept s (t.waitHere k w) := by
  unfold State.waitHere
  exact h.updThr

theorem Kept.tqget {g low q dreg : Nat} (h : Kept s t) : Kept s (t.tqget g low q dreg) := by
  unfold State.tqget
  extract_lets _ u1
  have h1 : Kept s u1 := Kept.ite (h.foldl fun _ _ h1 => h1.release).finishChunks h
  have h2 : Kept s (if u1.askedBefore (dieOfThread g) q then (.wait, u1) else u1.serve (coreOfThread g) q : Served × State).2 := by
    split
    · exact h1
    · exact h1.serve
  split
  · rename_i u2 heq
    have h3 : Kept s u2 := h2.snd heq
    split
    rename_i _ u3 heq3
    exact (h3.newId.snd heq3).updDie.foldl fun _ _ h4 => h4.waitHere
  rename_i _ u2 _ heq
  have h3 : Kept s u2 := h2.snd heq
  split
  · exact h3.variable.updGrp.refresh
  · exact h3.variable

theorem execTqget_leads {d : BitVec 7} {q : BitVec 6} (h : Kept s t) : Leads s (execTqget d q t) :=
  h.issueWord <| KeptAs.ite KeptAs.error (KeptAs.ok (h.foldl fun _ _ h1 => h1.tqget).serveLater)

theorem Kept.depop {d a : BitVec 7} {f : Nat → Word → Option Word} (h : Kept s t) : KeptOk s (t.depop d a f) := by
  unfold State.depop
  extract_lets u1
  have h1 : Kept s u1 := by
    unfold u1
    exact h.foldl fun _ _ h1 => by
        extract_lets _ _ _ u2
        have h2 : Kept s u2 := by
          unfold u2
          split
          · exact h1.release.ctrWrite
          · exact h1.refresh
        exact h2.variable
  exact KeptAs.ite KeptAs.error (KeptAs.ok h1.serveLater)

theorem execDepopSet_leads {d a b : BitVec 7} (h : Kept s t) : Leads s (execDepopSet d a b t) := h.issueWord h.depop

theorem execDepopAdd_leads {d a b : BitVec 7} (h : Kept s t) : Leads s (execDepopAdd d a b t) := h.issueWord h.depop

theorem execDepopGet_leads {d a : BitVec 7} (h : Kept s t) : Leads s (execDepopGet d a t) := h.issueWord h.depop

theorem execSpush_leads {d : BitVec 7} {g : BitVec 5} {o : BitVec 1} (h : Kept s t) : Leads s (execSpush d g o t) := by
  unfold execSpush
  refine h.issueWord (KeptAs.bind fun _ _ => KeptAs.bind fun _ _ => KeptAs.bind fun _ _ => KeptAs.ok (h.foldl fun _ _ h1 => ?_))
  extract_lets u
  have h2 : Kept s u := h1.release
  split
  · rename_i u1 heq
    exact Kept.runStrands (h2.tryPush (fun _ h3 => h3) u1 heq)
  · exact h2.blockAt

theorem execSpop_leads {d : BitVec 7} {g : BitVec 5} (h : Kept s t) : Leads s (execSpop d g t) := by
  unfold execSpop
  refine h.issueWord (KeptAs.bind fun _ _ => KeptAs.bind fun _ _ => KeptAs.ok (h.foldl fun _ _ h1 => ?_))
  extract_lets
  split
  · rename_i u1 heq
    exact Kept.runStrands (h1.tryPop (fun _ _ h2 => h2.variable) u1 heq)
  · exact h1.blockAt

theorem Kept.closeOut {k o : Nat} (h : Kept s t) : Kept s (t.closeOut k o) := by
  unfold State.closeOut
  split
  · exact h
  · exact Kept.ite h h.updPipe.moveBlock

theorem execSctlClose_leads {o : BitVec 2} (h : Kept s t) : Leads s (execSctlClose o t) :=
  h.issueWord <| KeptAs.bind fun _ _ => KeptAs.ok (h.foldl fun _ _ h1 => h1.release.closeOut).runStrands.checkPipes

theorem execSctlStat_leads {d : BitVec 7} {o : BitVec 2} (h : Kept s t) : Leads s (execSctlStat d o t) :=
  h.issueWord <| KeptAs.bind fun _ _ => KeptAs.ok (h.foldl fun _ _ h1 => h1.variable)

theorem Kept.pipeResident {d : Nat} {p : Pipe} (h : Kept s t) : Kept s (t.pipeResident d p) := by
  unfold State.pipeResident
  extract_lets
  split
  rename_i _ u1 heq
  have h1 : Kept s u1 := Kept.snd (by exact Kept.foldlSnd (h.foldl fun _ _ h1 => h1.updCore) fun _ _ h1 => h1.acceptGrid) heq
  exact h1.updPipe.pokePlace

theorem execPipelineResident_leads {die pipe : Nat} (h : Kept s t) : Leads s (execPipelineResident die pipe t) := by
  unfold execPipelineResident
  split
  · exact Leads.ite (Leads.next h.pipeResident) (Leads.next h)
  · exact Leads.next h

theorem Kept.pokePipes {d : Nat} (h : Kept s t) : Kept s (t.pokePipes d) := h.foldl fun _ _ h1 => h1.poll

theorem Kept.revoke {r c : Nat} (h : Kept s t) : Kept s (t.revoke r c) := h.updCore.coreIdle

theorem Kept.balance {d : Nat} {p : Pipe} (h : Kept s t) : Kept s (t.balance d p) := by
  unfold State.balance
  split
  · exact h.updPipe
  split
  · exact h.updPipe
  · exact (Kept.ite (h.foldl fun _ _ h1 => h1.updCore).updPipe (h.foldl fun _ _ h1 => h1.revoke)).updPipe.updPipe.runStrands.pokePlace

theorem Kept.strandTest {d : Nat} {p : Pipe} (h : Kept s t) : Kept s (t.strandTest d p).2 := by
  unfold State.strandTest
  extract_lets
  split
  · exact h.updPipe.logEvent.stopOnDie
  · exact h.updPipe

theorem Kept.interval {d l : Nat} (h : Kept s t) : Kept s (t.interval d l) := by
  unfold State.interval
  split
  · exact h
  split
  · exact h
  split
  · exact h.updPipe
  split
  · rename_i u1 heq
    have h1 : Kept s u1 := h.strandTest.snd heq
    exact h1.updPipe
  rename_i u1 heq
  have h1 : Kept s u1 := h.strandTest.snd heq
  split
  · exact h1.balance
  · exact h1

theorem execBalancerInterval_leads {die : Nat} (h : Kept s t) : Leads s (execBalancerInterval die t) := Leads.next (h.foldl fun _ _ h1 => h1.interval)

theorem Kept.cmdIssued {c : Nat} (h : Kept s t) : Kept s (t.cmdIssued c) := h.updCmd

theorem Kept.launchPipe {p : Pipe} {dies : List Nat} {sg : Signal} {c : Nat} (h : Kept s t) : Kept s (t.launchPipe p dies sg c) := by
  unfold State.launchPipe
  split
  rename_i _ u1 heq
  have h1 : Kept s u1 := h.newId.snd heq
  exact h1.withLaunches.foldl fun _ _ h2 => h2.updDie.poll

theorem Kept.launchGrid {d : Desc} {det : Option Det} {dies : List Nat} {sg : Signal} {c : Nat} (h : Kept s t) :
    Kept s (t.launchGrid d det dies sg c) := by
  unfold State.launchGrid
  extract_lets u1
  have h1 : Kept s u1 := by
    unfold u1
    split
    · exact h.keepWay.engineWrite.engineWrite
    · exact h
  exact h1.acceptGrid

theorem execCpxLaunch_leads {a b : BitVec 7} {sem : BitVec 12} {dm : BitVec 4} {sig add : BitVec 1} (h : Kept s t) :
    Leads s (execCpxLaunch a b sem dm sig add t) :=
  h.issueWord <| by
    extract_lets
    exact KeptAs.ite KeptAs.error (KeptAs.bind fun _ _ => by
        split
        extract_lets
        split
        · exact KeptAs.error
        · split
          · exact KeptAs.bind fun _ _ => KeptAs.bind fun _ _ => KeptAs.ok (Kept.ite h.keepWays.poisonedSource h.keepWays).release.cmdIssued.launchPipe
          · split
            · exact KeptAs.error
            · split
              · exact KeptAs.error
              · split
                · exact KeptAs.bind fun _ _ => KeptAs.bind fun _ _ => KeptAs.ok (Kept.ite h.keepWays.poisonedSource
                    h.keepWays).release.cmdIssued.launchGrid
                · exact KeptAs.bind fun _ _ => KeptAs.bind fun _ _ => KeptAs.ok (Kept.ite h.keepWays.poisonedSource
                    h.keepWays).release.cmdIssued.launchGrid)

theorem execCpxSemwait_leads {d a : BitVec 7} {sem : BitVec 12} {ne : BitVec 1} (h : Kept s t) : Leads s (execCpxSemwait d a sem ne t) :=
  h.issueWord <| KeptAs.bind fun _ _ => KeptAs.ok (Kept.ite h.release.variable h.release.waitHere.updCmd)

theorem execCpxSemsig_leads {a : BitVec 7} {sem : BitVec 12} (h : Kept s t) : Leads s (execCpxSemsig a sem t) :=
  h.issueWord (KeptAs.bind fun _ _ => KeptAs.ok h.release.semWrite)

theorem execCpxSemadd_leads {d a : BitVec 7} {sem : BitVec 12} (h : Kept s t) : Leads s (execCpxSemadd d a sem t) :=
  h.issueWord (KeptAs.bind fun _ _ => KeptAs.ok h.release.semWrite.variable)

theorem Kept.beginCopy {k n : Nat} {dst src : DWord} {sg : Signal} (h : Kept s t) : Kept s (t.beginCopy k n dst src sg) := by
  unfold State.beginCopy
  extract_lets _ _ _ _ _ _ u
  have h1 : Kept s u := h.foldl fun _ _ h1 => h1.own
  exact h1.keepWay.keepWay.cmdIssued.updCmd.later

theorem execCpxCcopy_leads {d a b : BitVec 7} {sem : BitVec 12} {sig add : BitVec 1} {v : BitVec 7} (h : Kept s t) :
    Leads s (execCpxCcopy d a b sem sig add v t) :=
  h.issueWord <| by
    extract_lets
    split
    · exact KeptAs.error
    split
    · exact KeptAs.error
    · exact KeptAs.bind fun _ _ => by
          split
          · exact KeptAs.bind fun _ _ => KeptAs.ok h.release.beginCopy
          · exact KeptAs.bind fun _ _ => KeptAs.ok h.release.beginCopy

theorem Kept.copyStops {c code : Nat} (h : Kept s t) :
    Kept s (t.copyStops c code) := Kept.ite (Kept.ite h.updCmd.updCmd h.updCmd.updCmd.updThr) h.updCmd

theorem Kept.finishCopy {c : Nat} {x : CCopy} (h : Kept s t) : Kept s (t.finishCopy c x) := by
  unfold State.finishCopy
  extract_lets _ _ _ u1
  have h1 : Kept s u1 := (Kept.ite h.writeOwned h.writeOwned.logRecord).updCmd.cmdDone
  split
  · exact h1.signal
  · exact h1.logRecord.copyStops

theorem execCcopyComplete_leads {c : Nat} (h : Kept s t) : Leads s (execCcopyComplete c t) := by
  unfold execCcopyComplete
  split
  · exact Leads.next h.finishCopy
  · exact Leads.next h

theorem execCpxIrq_leads {vec : BitVec 11} (h : Kept s t) : Leads s (execCpxIrq vec t) := h.issuePlain h.release.msix

theorem execCpxChalt_leads (h : Kept s t) : Leads s (execCpxChalt t) := h.issuePlain (h.foldl fun _ _ h1 => h1.release.updThr)

theorem Kept.withHost {host : HostIf} (h : Kept s t) : Kept s { t with host := host } := { h with }

theorem Kept.respond {result : Nat} {payload extra : List Byte} (h : Kept s t) : Kept s (t.respond result payload extra) :=
  Kept.ite h.withHost.unschedule.msix h.withHost.unschedule

theorem Kept.fails {result : Nat} (h : Kept s t) : Kept s (t.fails result) := h.respond

theorem Kept.ok (h : Kept s t) : Kept s t.ok := h.respond

theorem Kept.perform {code : Nat} {bad minimal : Bool} {causes : List (Nat × Bool)} {body : State → State} (h : Kept s t) (hb : Kept s (body t)) :
    Leads s (t.perform code bad minimal causes body) := by
  unfold State.perform
  split
  · exact Leads.next h
  split
  · exact Leads.next h.fails
  split
  · exact Leads.next h.fails
  split
  · exact Leads.next h.fails
  · exact Leads.next hb

theorem Kept.accept (h : Kept s t) : Kept s t.accept := by
  unfold State.accept
  extract_lets _ u
  have h1 : Kept s u := h.withHost
  split
  · exact h1.later.scheduleAt
  · exact h1.fails

theorem Kept.submit {val : Nat} (h : Kept s t) : Kept s (t.submit val) := Kept.ite h (Kept.ite h.withHost (Kept.ite h h.accept))

theorem execSubmit_leads {val : BitVec 32} (h : Kept s t) : Leads s (execSubmit val t) := Leads.next h.submit

theorem Kept.clearOverrun (h : Kept s t) : Kept s t.clearOverrun := h.withHost

theorem Kept.mailboxWrite {off : Nat} {data : List Byte} (h : Kept s t) : Kept s (t.mailboxWrite off data) := by
  unfold State.mailboxWrite
  extract_lets _ _ _ _ u1
  have h1 : Kept s u1 := by
    unfold u1
    split
    · exact Kept.ite h.withHost.clearOverrun h.withHost
    · exact h.withHost
  exact Kept.ite h1.submit h1

theorem execMailboxWrite_leads {off : Nat} {data : List (BitVec 8)} (h : Kept s t) : Leads s (execMailboxWrite off data t) :=
  Leads.ite (Leads.next h.mailboxWrite) (Leads.next h)

theorem execOverrunClear_leads (h : Kept s t) : Leads s (execOverrunClear t) := Leads.next h.clearOverrun

theorem execMsixVectorUnmask_leads {vec : Nat} (h : Kept s t) : Leads s (execMsixVectorUnmask vec t) := by
  unfold execMsixVectorUnmask
  split
  · exact Leads.next h.withHost.withHost
  · exact Leads.ite (Leads.next h.withHost.withHost) (Leads.next h.withHost)

end Sys2Proof.Machine
end

section
/-! PROOFS. What every step keeps: saving and restoring contexts, and the collective engine. -/

namespace Sys2Proof.Machine

-- Many short proofs: elaborated one after another they need less memory.
set_option Elab.async false

variable {s t : State}

theorem SavedCore.tidy_iff {v : SavedCore} : v.tidy = true ↔ (v.threads.all fun e => e.2.tidy) = true ∧ (v.groups.all fun e => e.2.tidy) = true
    ∧ Tab.risingFrom 0 v.tables = true := by
  simp only [SavedCore.tidy, Bool.and_eq_true, and_assoc]

/-- What a save gathers of a tidy state is tidy. -/
theorem tidy_gather {s : State} (h : s.tidy = true) (c : Nat) : (s.gather c).tidy = true := by
  have h1 := tidy_iff.1 h
  refine SavedCore.tidy_iff.2 ⟨?_, ?_, (Core.tidy_iff.1 (tidy_core h c)).2.1⟩
  · exact List.all_eq_true.2 fun e he => List.all_eq_true.1 h1.thread e (List.mem_filter.1 he).1
  · exact List.all_eq_true.2 fun e he => List.all_eq_true.1 h1.group e (List.mem_filter.1 he).1

/-- A core set to what it was in an earlier state, but for fields that tidiness does not read. -/
theorem Kept.putCore {k : Nat} {x : Core} (h : Kept s t) (hx : s.tidy = true → x.tidy = true) : Kept s (t.setCore k x) :=
  ⟨h.wf, fun hs => (Kept.setCore (s := t) Kept.refl fun _ => hx hs).tidy (h.tidy hs)⟩

/-- Only some groups and threads stay. -/
theorem Kept.keepUnits {p q : Nat → Bool} {pend : List Pending} {poisonReg : List (EccPlace × Nat × Nat)} {waiters : List Nat} (h : Kept s t) :
    Kept s { t with groups := t.groups.keep p, threads := t.threads.keep q, pend := pend, poisonReg := poisonReg, waiters := waiters } := by
  refine ⟨h.wf, fun ht => tidy_iff.2 ?_⟩
  have h1 := tidy_iff.1 (h.tidy ht)
  exact { h1 with
    groups := Tab.rising_keep p h1.groups
    threads := Tab.rising_keep q h1.threads
    group := Tab.all_keep (p := Group.tidy) h1.group
    thread := Tab.all_keep (p := Thread.tidy) h1.thread }

theorem Kept.takeOut {c : Nat} (h : Kept s t) : Kept s (t.takeOut c) := by
  unfold State.takeOut
  extract_lets v k ctx _ _ u1 u2 u3 u4 u5
  have h1 : Kept s u1 := h.setCx fun ht => by
    change ((t.cx ctx).saved.put none c (some v)).all (fun e => savedTidy e.2) = true
    exact Tab.all_put (tidy_gather ht c) (tidy_cx ht ctx)
  have h4 : Kept s u4 := (h1.foldl fun _ _ h2 => h2.updTeam).updDie.foldl fun _ _ h3 => h3.updSlot
  have h5 : Kept s u5 := h4.putCore fun hs => tidy_core (h.tidy hs) c
  exact h5.keepUnits

theorem Kept.saveCore {c : Nat} (h : Kept s t) : Kept s (t.saveCore c) := (h.flushBins.foldl fun _ _ h1 => h1.tapeSync).publish.takeOut.pokeRestores

theorem Tab.rising_map {α : Type} {f : Nat × α → α} : ∀ {t : Tab α} {lo : Nat}, Tab.risingFrom lo t = true →
    Tab.risingFrom lo (t.map fun e => (e.1, f e)) = true
  | [], _, _ => rfl
  | e :: t, lo, h => by
    simp only [Tab.risingFrom, List.map_cons, Bool.and_eq_true] at h ⊢
    exact ⟨h.1, Tab.rising_map h.2⟩

/-- Teams that keep their barriers. -/
theorem Kept.mapTeams {f : Nat × Team → Team} (h : Kept s t) (hf : ∀ e, (f e).bars = e.2.bars) :
    Kept s { t with teams := t.teams.map fun e => (e.1, f e) } := by
  refine ⟨h.wf, fun ht => tidy_iff.2 ?_⟩
  have h1 := tidy_iff.1 (h.tidy ht)
  refine { h1 with teams := Tab.rising_map h1.teams, team := ?_ }
  rw [List.all_eq_true]
  intro e he
  obtain ⟨e', he', rfl⟩ := List.mem_map.1 he
  have h2 := List.all_eq_true.1 h1.team e' he'
  rw [← hf] at h2
  exact h2

theorem Kept.unrestore {c : Nat} (h : Kept s t) : Kept s (t.unrestore c) := by
  unfold State.unrestore
  extract_lets _ u
  have h1 : Kept s u := h.setCore
  exact h1.mapTeams fun _ => rfl

theorem Kept.closeSave {ctx d : Nat} (h : Kept s t) : Kept s (t.closeSave ctx d) := by
  unfold State.closeSave
  exact (Kept.ite h.engineWriteBad h).updCx

theorem Kept.pokeHost (h : Kept s t) : Kept s t.pokeHost := by
  unfold State.pokeHost
  split
  · exact h
  split
  · exact h.poll
  · exact h

theorem Kept.closeSaves {d : Nat} (h : Kept s t) : Kept s (t.closeSaves d) := by
  unfold State.closeSaves
  extract_lets
  split
  · exact h.foldl fun _ _ h1 => h1.closeSave
  · exact (h.foldl fun _ _ h1 => h1.closeSave).pokeHost.pokePlace.pokePipes

theorem Kept.trySave {c : Nat} (h : Kept s t) : Kept s (t.trySave c) := by
  unfold State.trySave
  extract_lets
  split
  · exact (h.foldl fun _ _ h1 => h1.updSlot).unrestore.closeSaves
  split
  · exact (h.foldl fun _ _ h1 => h1.updSlot).updCx.pokeHost
  split
  · exact (h.foldl fun _ _ h1 => h1.updSlot).saveCore.closeSaves
  · exact (h.foldl fun _ _ h1 => h1.updSlot).poll

theorem execCoreSave_leads {core : Nat} (h : Kept s t) : Leads s (execCoreSave core t) :=
  Leads.ite (Leads.next h.closeSaves) (Leads.ite (Leads.next h) (Leads.next h.trySave))

theorem Kept.deliverDue {k : Nat} (h : Kept s t) : Kept s (t.deliverDue k) := by
  unfold State.deliverDue
  split
  · exact h
  extract_lets
  split
  · split
    · exact (h.foldl fun _ _ h1 => h1.updThr).foldl fun _ _ h1 => h1.deliverTo
    · exact h.foldl fun _ _ h1 => h1.updThr
  · exact h.foldl fun _ _ h1 => h1.updThr

theorem Kept.rewait {k : Nat} (h : Kept s t) : Kept s (t.rewait k) := by
  unfold State.rewait
  extract_lets _ u1 _ u2
  have h1 : Kept s u1 := h.foldl fun _ _ h1 => h1.countHeld.checkBarrier
  have h2 : Kept s u2 := by
    unfold u2
    split
    · exact h1.tryWait.scheduleAt
    · exact h1.tryWait
  split
  · exact h2.poll
  · exact h2

theorem Kept.goOn {c : Nat} (h : Kept s t) : Kept s (t.goOn c) := by
  unfold State.goOn
  extract_lets _ _ u1 _ _ u2
  have h1 : Kept s u1 := (h.foldl fun _ _ h1 => h1.rewait).foldl fun _ _ h1 => h1.deliverDue
  have h2 : Kept s u2 := (h1.foldl fun _ _ h2 => h2.rejoin).foldl fun _ _ h2 => h2.poll
  exact (h2.foldl fun _ _ h3 => h3.poll).runRings.runStrands.serveLater.pokePlace

theorem Tab.all_puts {α : Type} {inst : DecidableEq α} {d : α} {p : α → Bool} {l : List (Nat × α)} {t : Tab α} (hl : (l.all fun e => p e.2) = true)
    (ht : (t.all fun e => p e.2) = true) : ((l.foldl (fun (t : Tab α) (e : Nat × α) => t.put d e.1 e.2) t).all fun e => p e.2) = true := by
  induction l generalizing t with
  | nil => exact ht
  | cons e l ih =>
    rw [List.all_cons, Bool.and_eq_true] at hl
    exact ih hl.2 (Tab.all_put hl.1 ht)

/-- Groups and threads that a save took out come back. -/
theorem Kept.putUnits {v : SavedCore} {pend : List Pending} {poisonReg : List (EccPlace × Nat × Nat)} (h : Kept s t) (hv : s.tidy = true → v.tidy =
    true) :
    Kept s { t with
      groups := v.groups.foldl (fun (t : Tab Group) (e : Nat × Group) => t.put {} e.1 e.2) t.groups
      threads := v.threads.foldl (fun (t : Tab Thread) (e : Nat × Thread) => t.put {} e.1 e.2) t.threads
      pend := pend, poisonReg := poisonReg } := by
  refine ⟨h.wf, fun hs => tidy_iff.2 ?_⟩
  have h1 := tidy_iff.1 (h.tidy hs)
  obtain ⟨ht, hg, -⟩ := SavedCore.tidy_iff.1 (hv hs)
  exact { h1 with
    groups := Tab.rising_puts h1.groups
    threads := Tab.rising_puts h1.threads
    group := Tab.all_puts (p := Group.tidy) hg h1.group
    thread := Tab.all_puts (p := Thread.tidy) ht h1.thread }

/-- A core's tables set. -/
theorem Kept.updTables {k : Nat} {f : Core → Core} (h : Kept s t)
    (hf : s.tidy = true → ∀ x, (f x).pend = x.pend ∧ (f x).pubs = x.pubs ∧ Tab.risingFrom 0 (f x).tables = true) : Kept s (t.updCore k f) := by
  refine ⟨h.wf, fun hs => (Kept.updCore (s := t) Kept.refl fun x hx => ?_).tidy (h.tidy hs)⟩
  obtain ⟨hp, -, hq⟩ := Core.tidy_iff.1 hx
  obtain ⟨ep, eq, ht⟩ := hf hs x
  exact Core.tidy_iff.2 ⟨by rw [ep]; exact hp, ht, by rw [eq]; exact hq⟩

theorem Kept.putBack {c : Nat} {v : SavedCore} (h : Kept s t) (hv : s.tidy = true → v.tidy = true) : Kept s (t.putBack c v) := by
  unfold State.putBack
  extract_lets u1 u2 u3 u4 u5
  have h1 : Kept s u1 := h.putUnits hv
  have h2 : Kept s u2 := h1.foldl fun _ _ h2 => Kept.ite h2.updTeam h2
  have h4 : Kept s u4 := h2.updDie.foldl fun _ _ h4 => h4.updSlot
  have h5 : Kept s u5 := h4.updTables fun hs _ => ⟨rfl, rfl, (SavedCore.tidy_iff.1 (hv hs)).2.2⟩
  exact h5.foldl fun _ _ h6 => h6.withWaiters

theorem Kept.endRestore {c : Nat} (h : Kept s t) : Kept s (t.endRestore c) := by
  unfold State.endRestore
  extract_lets ctx
  split
  · exact h.updCore.coreIdle
  rename_i v heq
  have hv : s.tidy = true → v.tidy = true := fun hs => by
    have h1 := Tab.all_get (d := none) (p := savedTidy) c rfl (tidy_cx (h.tidy hs) ctx)
    rwa [heq] at h1
  have h1 : Kept s (t.updCx ctx fun x => { x with saved := x.saved.del c }) := h.updCx fun x hx =>
    Tab.all_del (p := savedTidy) hx
  exact (h1.putBack hv).goOn.coreIdle

theorem Kept.reclaim {c m : Nat} (h : Kept s t) : Kept s (t.reclaim c m) := Kept.ite h h.claimGranules.claimGranules.updTeam

theorem Kept.beginRestore {ctx c : Nat} {v : SavedCore} (h : Kept s t) : Kept s (t.beginRestore ctx c v) := by
  unfold State.beginRestore
  extract_lets _ u1
  have h1 : Kept s u1 := h.ownCore.updCore.foldl fun _ _ h1 => h1.reclaim
  exact Kept.ite h1 h1.endRestore

theorem execCoreRestore_leads {core : Nat} (h : Kept s t) : Leads s (execCoreRestore core t) := by
  unfold execCoreRestore
  extract_lets
  split
  · exact Leads.next h
  extract_lets
  split
  · exact Leads.next h
  split
  · exact Leads.next h.updCore
  · exact Leads.ite (Leads.next h) (Leads.next h.beginRestore)

theorem Kept.dropClean {c : Nat} (h : Kept s t) : Kept s (t.dropClean c) := by
  unfold State.dropClean
  exact h.takeFree.updCore

theorem Kept.checkHeld {m : Nat} (h : Kept s t) : Kept s (t.checkHeld m) := Kept.ite h.makeResident.ringsMoved h

theorem execHandoverComplete_leads {core gran : Nat} (h : Kept s t) : Leads s (execHandoverComplete core gran t) := by
  unfold execHandoverComplete
  split
  · extract_lets
    split
    · split
      · exact Leads.next h.finishPublications.dropClean.updCore
      · exact Leads.next h.finishPublications.dropClean.updCore.endRestore
    · exact Leads.next h.finishPublications.dropClean.updCore.checkHeld
  · exact Leads.next h

theorem Kept.torcLog {i : CollRun} {e : TEnd} (h : Kept s t) : Kept s (t.torcLog i e) := h.logEvent

theorem Kept.torcPoison {i : CollRun} {bad : List Nat} (h : Kept s t) : Kept s (t.torcPoison i bad) := Kept.ite h h.torcLog

theorem Kept.torcWrite {late hs : List Nat} {x : Data} (h : Kept s t) :
    Kept s (t.torcWrite late hs x) := h.engineWrites.foldl fun _ _ h1 => h1.markPoison

theorem Kept.addChunk {d : Nat} {c : Chunk} (h : Kept s t) : Kept s (t.addChunk d c) := h.updTorc

theorem Kept.doom {d off : Nat} {x : Doom} (h : Kept s t) : Kept s (t.doom d off x) := h.updTorc.poll

theorem Kept.acceptedAt {d off : Nat} {c : Chunk} (h : Kept s t) : Kept s (t.acceptedAt d off c) := h.updBlock

theorem Kept.placeChunk {d : Nat} {c : Chunk} {p : ChunkPlace} (h : Kept s t) : Kept s (t.placeChunk d c p) := h.updTorc

theorem Kept.askPool {d off : Nat} {c : Chunk} (h : Kept s t) : Kept s (t.askPool d off c).2 := by
  unfold State.askPool
  extract_lets
  split
  rename_i _ u1 heq
  have h1 : Kept s u1 := h.takeFree.snd heq
  split
  · exact h1
  · exact h1.updTorc.poll

theorem Kept.spillData {d off : Nat} {c : Chunk} {p : ChunkPlace} (h : Kept s t) : KeptSome s (t.spillData d off c p) := by
  unfold State.spillData
  split
  · rename_i i
    cases t.spillHomes d off i c.data.length true with
    | none => exact KeptSome.none
    | some hs => exact KeptSome.some h.torcWrite.askPool
  · exact KeptSome.some h

theorem Kept.takeChunk {d : Nat} {c : Chunk} (h : Kept s t) : Kept s (t.takeChunk d c) := by
  unfold State.takeChunk
  split
  · exact h.logEvent
  split
  · exact h.addChunk
  split
  · exact h.doom
  rename_i u1 heq
  have h1 : Kept s u1 := h.spillData _ heq
  exact h1.acceptedAt.addChunk

theorem Kept.serveChunk {d : Nat} {before : List Chunk} {c : Chunk} (h : Kept s t) : Kept s (t.serveChunk d before c) := by
  unfold State.serveChunk
  split
  · exact h.updTorc.logEvent
  split
  · exact h
  split
  · exact h.updTorc.doom
  rename_i u1 heq
  have h1 : Kept s u1 := h.spillData _ heq
  exact h1.placeChunk.acceptedAt.poll

theorem Kept.serveWaiting {d n i : Nat} (h : Kept s t) : Kept s (t.serveWaiting d n i) := by
  induction n generalizing t i with
  | zero => exact h
  | succ n ih =>
    unfold State.serveWaiting
    split
    · exact h
    · exact Kept.ite (ih h.serveChunk) (ih h)

theorem Kept.slotsFreed {d : Nat} (h : Kept s t) : Kept s (t.slotsFreed d) := h.serveWaiting

theorem Kept.recv {i : CollRun} {src ch : Nat} {loc : Bool} (h : Kept s t) : KeptAs Prod.snd s (t.recv i src ch loc) := by
  unfold State.recv
  extract_lets
  split
  · exact KeptAs.ok h
  extract_lets
  split
  · exact KeptAs.ok h
  split
  · exact KeptAs.ok h.updTorc.slotsFreed
  split
  · exact KeptAs.error
  extract_lets
  split
  rename_i _ u1 heq
  have h1 : Kept s u1 := h.askPool.snd heq
  exact KeptAs.ok (by
    split
    · exact h1.updTorc.slotsFreed
    · exact h1)

theorem Kept.deliver {i : CollRun} {t' : TStep} {to_ : Target} {x : Data} (h : Kept s t) : Kept s (t.deliver i t' to_ x).2 := by
  unfold State.deliver
  extract_lets
  split
  · split
    rename_i _ u1 heq
    have h1 : Kept s u1 := h.newId.snd heq
    extract_lets _ u2
    have h2 : Kept s u2 := by
      unfold u2
      split
      · exact h1.takeChunk.poll
      · exact h1.takeChunk
    exact h2
  split
  · exact h
  dsimp only
  exact h.updTorc

theorem Kept.setTorcCmd {i : CollRun} {c : Option TorcCmd} (h : Kept s t) : Kept s (t.setTorcCmd i c) := h.updBlock

theorem Kept.ownLines {hs : List Nat} {on : Bool} (h : Kept s t) : Kept s (t.ownLines hs on) := by
  refine ⟨fun ht => ?_, h.tidy⟩
  obtain ⟨hm, ho, hp, hb, hh⟩ := wf_parts.1 (h.wf ht)
  exact wf_parts.2 ⟨hm, ho, hp, hb, putAll_wf hh⟩

theorem Kept.giveUp {hs : List Nat} (h : Kept s t) : Kept s (t.giveUp hs) := h.ownLines.withTorcOver

theorem Kept.dropTorcCmd {i : CollRun} (h : Kept s t) : Kept s (t.dropTorcCmd i) := by
  unfold State.dropTorcCmd
  split
  · exact h
  · exact h.giveUp.setTorcCmd.runStrands

theorem Kept.endInstance {i : CollRun} {status : Nat} (h : Kept s t) : Kept s (t.endInstance i status) := by
  unfold State.endInstance
  extract_lets _ _ _ _ _ u1
  have h1 : Kept s u1 := h.dropTorcCmd.updTorc.writeHomes.writeHomes.slotsFreed
  split
  · exact (Kept.ite h1.semWrite h1).updBlock.beginInstance
  · exact (Kept.ite h1.semWrite h1).updTorc.activate

theorem Kept.sendAborts {i : CollRun} (h : Kept s t) : Kept s (t.sendAborts i) := h.foldl fun _ _ h1 => by
    split
    · exact h1
    split
    · exact h1
    · exact Kept.ite h1.later h1.updTorc

theorem Kept.torcFault {i : CollRun} {e : TEnd} (h : Kept s t) : Kept s (t.torcFault i e) := (Kept.ite h.torcLog.sendAborts h.torcLog).endInstance

theorem Kept.memberLost {i : CollRun} {who : Nat} (h : Kept s t) : Kept s (t.memberLost i who) := h.torcLog.sendAborts.endInstance

theorem Kept.torcLater {d off : Nat} (h : Kept s t) : Kept s (t.torcLater d off) := Kept.ite h h.later

theorem Kept.stepped {i : CollRun} {next : Nat} {f : TorcBlock → TorcBlock} (h : Kept s t) : Kept s (t.stepped i next f) := h.updBlock.torcLater

theorem Kept.stepWaits {i : CollRun} (h : Kept s t) : Kept s (t.stepWaits i) := (Kept.ite h h.updBlock.poll).torcLater

theorem Kept.progress {i : CollRun} (h : Kept s t) : Kept s (t.progress i) := h.updBlock

theorem Kept.beginData {i : CollRun} {t' : TStep} (h : Kept s t) : KeptOk s (t.beginData i t') := by
  unfold State.beginData
  extract_lets a u1 u2 last after
  have h1 : Kept s u1 := Kept.ite h.keepWay h
  have h2 : Kept s u2 := Kept.ite h1.keepWay h1
  have hlast : ∀ y, KeptOk s (last y) := fun y => by
    unfold last
    refine KeptAs.bind fun p _ => ?_
    extract_lets u3 u4
    have h3 : Kept s u3 := Kept.ite h2 h2.keepWays
    have h4 : Kept s u4 := Kept.ite h3.torcPoison h3
    exact KeptAs.ok h4.setTorcCmd
  have hafter : ∀ x, KeptOk s (after x) := fun x => by
    unfold after
    exact KeptAs.ite (KeptAs.bind fun y _ => hlast y) (KeptAs.bind fun y _ => hlast y)
  exact KeptAs.ite (KeptAs.bind fun x _ => hafter x) (KeptAs.bind fun x _ => hafter x)

theorem Kept.endData {i : CollRun} {t' : TStep} {c : TorcCmd} {z : Data} (h : Kept s t) : Kept s (t.endData i t' c z) := by
  unfold State.endData
  extract_lets _ _ u1
  have h1 : Kept s u1 := Kept.ite h.dropTorcCmd.torcWrite h.dropTorcCmd
  exact (Kept.ite h1.slotsFreed h1).stepped

theorem Kept.sendData {i : CollRun} {t' : TStep} {c : TorcCmd} {z : Data} (h : Kept s t) : Kept s (t.sendData i t' c z) := by
  unfold State.sendData
  split
  · exact h.endData
  split
  · rename_i u1 heq
    have h1 : Kept s u1 := h.deliver.snd heq
    exact h1.progress.endData
  rename_i _ u1 heq
  have h1 : Kept s u1 := h.deliver.snd heq
  exact h1.setTorcCmd.stepWaits

theorem Kept.dataStep {i : CollRun} {t' : TStep} {c : TorcCmd} (h : Kept s t) : KeptOk s (t.dataStep i t' c) := by
  unfold State.dataStep
  split
  · exact KeptAs.ok (Kept.ite h.stepWaits h.progress.endData)
  · exact KeptAs.ok h.sendData
  refine KeptAs.ite (KeptAs.ok h.stepWaits) ?_
  extract_lets combines after
  have hafter : ∀ x, KeptOk s (after x) := fun x => by
    unfold after
    extract_lets last
    have hlast : ∀ y, Kept s y.2 → KeptOk s (last y) := fun y hy => by
      unfold last
      split
      rename_i got u
      split
      · exact KeptAs.ok (Kept.stepWaits hy)
      split
      extract_lets u1 u2 u3
      have h1 : Kept s u1 := Kept.ite (Kept.torcLog hy).updBlock hy
      have h3 : Kept s u3 := Kept.ite h1.torcPoison.progress h1.torcPoison
      exact KeptAs.ok h3.sendData
    split
    · exact KeptAs.bind fun _ hy => hlast _ (by cases hy; exact h)
    · exact KeptAs.ite (KeptAs.bind fun _ hy => hlast _ (by cases hy; exact h)) (KeptAs.andThen h.recv hlast)
  exact KeptAs.ite (KeptAs.bind fun x _ => hafter x) (KeptAs.bind fun x _ => hafter x)

theorem Kept.takeLines {i : CollRun} {t' : TStep} {c : TorcCmd} (h : Kept s t) : KeptOk s (t.takeLines i t' c) := by
  unfold State.takeLines
  split
  · exact h.dataStep
  extract_lets
  split
  · exact KeptAs.bind fun _ _ => KeptAs.ite (KeptAs.ok h.stepWaits) h.ownLines.setTorcCmd.dataStep
  · exact KeptAs.bind fun _ _ => KeptAs.ite (KeptAs.ok h.stepWaits) h.ownLines.setTorcCmd.dataStep

theorem Kept.runData {i : CollRun} {t' : TStep} (h : Kept s t) : KeptOk s (t.runData i t') := by
  unfold State.runData
  split
  · exact h.takeLines
  · exact KeptAs.andThen h.beginData fun _ h1 => by
        split
        · exact h1.takeLines
        · exact KeptAs.ok h1

theorem Kept.dropDest {i : CollRun} (h : Kept s t) : Kept s (t.dropDest i) := by
  unfold State.dropDest
  split
  · exact h
  · exact h.giveUp.setTorcCmd

theorem Kept.loopStep {i : CollRun} {t' : TStep} (h : Kept s t) : KeptOk s (t.loopStep i t') := by
  unfold State.loopStep
  cases t.loopNext i t' with
  | error e => exact KeptAs.error
  | ok x => exact KeptAs.ok h.stepped

theorem Kept.endlStep {i : CollRun} {t' : TStep} (h : Kept s t) : Kept s (t.endlStep i t') := h.stepped

theorem Kept.endStep {i : CollRun} (h : Kept s t) : Kept s (t.endStep i) := Kept.ite h.torcFault h.endInstance

theorem Kept.oneStep {i : CollRun} {t' : TStep} (h : Kept s t) : KeptOk s (t.oneStep i t') := by
  unfold State.oneStep
  split
  · exact KeptAs.error
  split
  · exact KeptAs.error
  split
  · exact h.runData
  split
  · exact KeptAs.ok (Kept.ite h.stepped h.stepWaits)
  split
  · exact h.loopStep
  split
  · exact KeptAs.ok h.endlStep
  · exact KeptAs.ite (KeptAs.ok (Kept.ite h.semWrite h.ctrDec.serveLater).stepped) (KeptAs.ok h.endStep)

theorem execTorcStep_leads {die block : Nat} (h : Kept s t) : Leads s (execTorcStep die block t) := by
  unfold execTorcStep
  split
  · exact Leads.next h
  extract_lets
  split
  · exact Leads.next h.slotsFreed
  split
  · exact Leads.next h.slotsFreed.torcFault
  split
  · exact Leads.next h.slotsFreed.torcFault
  extract_lets u1
  have h1 : Kept s u1 := Kept.ite h.slotsFreed.keepWay.torcPoison h.slotsFreed.keepWay
  split
  · exact Leads.next h1.torcFault
  rename_i u2 heq
  have h2 : Kept s u2 := h1.oneStep _ heq
  exact Leads.next h2

theorem execTorcChunkArrival_leads {die : Nat} {tag seq : BitVec 32} {src ch : Nat} {data : List (BitVec 8)} (h : Kept s t) :
    Leads s (execTorcChunkArrival die tag seq src ch data t) :=
  Leads.next h.newId.takeChunk

theorem execTorcAbortReceive_leads {die : Nat} {tag seq : BitVec 32} {rank : Nat} (h : Kept s t) :
    Leads s (execTorcAbortReceive die tag seq rank t) := by
  unfold execTorcAbortReceive
  split
  · exact Leads.next h
  split
  · exact Leads.next h
  split
  · exact Leads.ite (Leads.next h.torcFault) (Leads.next h.doom)
  · exact Leads.next h.doom

theorem execCollTimeout_leads {die block : Nat} (h : Kept s t) : Leads s (execCollTimeout die block t) := by
  unfold execCollTimeout
  split
  · exact Leads.next h
  · exact Leads.ite (Leads.next h.memberLost) (Leads.next h.poll)

theorem execPoolTimeout_leads {die block : Nat} (h : Kept s t) : Leads s (execPoolTimeout die block t) := by
  unfold execPoolTimeout
  split
  · exact Leads.next h
  extract_lets
  split
  · exact Leads.ite (Leads.next h.updTorc.torcFault) (Leads.next h.updTorc.doom)
  · exact Leads.next h.updTorc.doom

theorem Kept.portLost {d port : Nat} (h : Kept s t) : Kept s (t.portLost d port) := h.foldl fun _ _ h1 => by
    split
    · exact h1.memberLost
    · exact h1

end Sys2Proof.Machine
end

section
/-! PROOFS. What every step keeps: starts, deterministic tasks, the management commands, and the package's own events. -/

namespace Sys2Proof.Machine

-- Many short proofs: elaborated one after another they need less memory.
set_option Elab.async false

variable {s t : State}

theorem Kept.i3cRefresh {ts : List (BitVec 16)} (h : Kept s t) : Kept s (t.i3cRefresh ts) := h.withHost

theorem Kept.sense (h : Kept s t) : Kept s t.sense.2 := h.takeFree

theorem Kept.senseAll (h : Kept s t) : Kept s t.senseAll.2 := Kept.foldlSnd h fun _ _ h1 => h1.sense

theorem Kept.withFree {free : Nat} (h : Kept s t) : Kept s { t with free := free } := { h with }

theorem Kept.nextRefresh (h : Kept s t) : Kept s t.nextRefresh := h.sense.sense.sense.sense.sense.withFree.scheduleAt

theorem Kept.firstRefresh (h : Kept s t) : Kept s t.firstRefresh := h.senseAll.i3cRefresh.nextRefresh

theorem execI3cRefresh_leads {t0 t1 t2 t3 hub power : BitVec 16} (h : Kept s t) : Leads s (execI3cRefresh t0 t1 t2 t3 hub power t) :=
  Leads.next h.i3cRefresh.nextRefresh

theorem Kept.cleared (h : Kept s t) : Kept s t.cleared := by
  unfold State.cleared
  refine ⟨fun hs => ?_, fun _ => rfl⟩
  obtain ⟨hm, -, hp, -, -⟩ := wf_parts.1 (h.wf hs)
  have hp' : Tab.wf false (t.poison.keep fun g => decide (g < 2 ^ 47)) = true := Tab.wf_keep _ _ hp
  exact wf_parts.2 ⟨Memory.wf_keep hm fun h => decide (h < 2 ^ 52), rfl, hp', rfl, rfl⟩

theorem Kept.restart (h : Kept s t) : Kept s t.restart := h.takeFree.scheduleAt

theorem Kept.withBoot {boot : Boot} (h : Kept s t) : Kept s { t with boot := boot } := { h with }

theorem Kept.beginStart (h : Kept s t) : Kept s t.beginStart := h.cleared.withBoot

theorem Kept.noteCause {cause : Nat} (h : Kept s t) : Kept s (t.noteCause cause) := h.withBoot

theorem Kept.trainHost {top : Nat} (h : Kept s t) : Kept s (t.trainHost top) := by
  unfold State.trainHost
  split
  rename_i _ u1 heq
  have h1 : Kept s u1 := h.takeFree.snd heq
  exact h1.withHost

theorem Kept.withHostBoot {host : HostIf} {boot : Boot} (h : Kept s t) : Kept s { t with host := host, boot := boot } := { h with }

theorem Kept.enterMinimal {cause : Nat} (h : Kept s t) : Kept s (t.enterMinimal cause) := by
  unfold State.enterMinimal
  extract_lets _ _ _ _ _ u1
  have h1 : Kept s u1 := by
    unfold u1
    split
    · exact (Kept.ite h.noteCause h).withHostBoot.trainHost
    · exact (Kept.ite h.noteCause h).withHostBoot
  exact h1.firstRefresh.scheduleAt

theorem Kept.finishStart (h : Kept s t) : Kept s t.finishStart := h.withHostBoot.trainHost.firstRefresh.scheduleAt

theorem Kept.attempt {cause : Nat} (h : Kept s t) : Kept s (t.attempt cause) := by
  unfold State.attempt
  extract_lets
  split
  · exact h.beginStart.enterMinimal
  · exact Kept.ite h.beginStart.noteCause.restart h.beginStart.finishStart

theorem execPowerOn_leads {cause : BitVec 8} (h : Kept s t) : Leads s (execPowerOn cause t) := Leads.next (Kept.ite h.withBoot h).attempt

theorem execBootStepWatchdog_leads (h : Kept s t) : Leads s (execBootStepWatchdog t) := Leads.ite (Leads.next h) (Leads.next h.attempt)

theorem Kept.resetPackage {clear : Bool} (h : Kept s t) : Kept s (t.resetPackage clear) := h.withBoot.cleared.withHost.restart

theorem Kept.tickSleepers (h : Kept s t) : Kept s t.tickSleepers := h.foldl fun _ _ h1 => Kept.ite h1.updThr.poll h1.updThr

theorem Kept.withTicks {ticks : Nat} (h : Kept s t) : Kept s { t with ticks := ticks } := { h with }

theorem execHeartbeatTick_leads (h : Kept s t) : Leads s (execHeartbeatTick t) :=
  Leads.next (Kept.ite (h.withTicks.tickSleepers.foldl fun _ _ h1 => h1.poll) h.withTicks.tickSleepers).poll

theorem Kept.updDet {g : Nat} {f : Det → Det} (h : Kept s t) : Kept s (t.updDet g f) := h.updGrid

theorem Kept.tableWrite {g off n v : Nat} (h : Kept s t) : Kept s (t.tableWrite g off n v) := by
  unfold State.tableWrite
  split
  · exact h.engineWrite
  · exact h

theorem Kept.tablePoison {g off n cmd : Nat} (h : Kept s t) : Kept s (t.tablePoison g off n cmd) := by
  unfold State.tablePoison
  split
  · split
    · exact h.logEvent
    · exact h
  · exact h

theorem Kept.pokeGrid {g : Nat} (h : Kept s t) : Kept s (t.pokeGrid g) := h.foldl fun _ _ h1 => h1.pokePlace

/-- Poison marks that are canonical whatever marks were. -/
theorem Kept.mapPoison {f : Tab Bool → Tab Bool} (h : Kept s t) (hf : ∀ p, Tab.wf false p = true → Tab.wf false (f p) = true) :
    Kept s { t with poison := f t.poison } := by
  refine ⟨fun ht => ?_, h.tidy⟩
  obtain ⟨hm, ho, hp, hb, hh⟩ := wf_parts.1 (h.wf ht)
  exact wf_parts.2 ⟨hm, ho, hf _ hp, hb, hh⟩

theorem Tab.wf_foldl {α β : Type} {inst : DecidableEq α} {d : α} {f : Tab α → β → Tab α} {l : List β} {t : Tab α} (ht : Tab.wf d t = true)
    (hf : ∀ t e, Tab.wf d t = true → Tab.wf d (f t e) = true) : Tab.wf d (l.foldl f t) = true := by
  induction l generalizing t with
  | nil => exact ht
  | cons b l ih => exact ih (hf t b ht)

theorem Kept.commitPoison {view : Nat} {t' : DetTask} (h : Kept s t) : Kept s (t.commitPoison view t') := by
  unfold State.commitPoison
  extract_lets u mine
  have h1 : Kept s u := h.clearWhole
  exact h1.mapPoison (f := fun p => mine.foldl _ p) fun _ hp => Tab.wf_foldl hp fun _ _ hp => Tab.wf_put _ _ (Tab.wf_put _ _ hp)

theorem Kept.commitTask {g : Nat} {t' : DetTask} (h : Kept s t) : Kept s (t.commitTask g t') := by
  unfold State.commitTask
  extract_lets u1 u2
  have h1 : Kept s u1 := by
    unfold u1
    exact h.foldl fun _ _ h1 => by
        split
        · exact h1.writeHome
        · exact h1
  have h2 : Kept s u2 := h1.commitPoison.foldl fun _ _ h2 => h2.binUpdate
  exact h2.updDet

theorem Kept.completeGrid {g : Nat} (h : Kept s t) : Kept s (t.completeGrid g) := h.signal.cmdDone.dropGrid.foldl fun _ _ h1 => h1.pokePlace

theorem Kept.afterCommit {g : Nat} {t' : DetTask} (h : Kept s t) : Kept s (t.afterCommit g t') := by
  unfold State.afterCommit
  split
  · exact h
  extract_lets u1
  have h1 : Kept s u1 := by
    unfold u1
    split
    · exact h.tableWrite
    · exact h
  exact Kept.ite h1.pokeGrid.poll h1.tableWrite.completeGrid

theorem Kept.clearView {view : Nat} (h : Kept s t) : Kept s (t.clearView view) :=
  h.mapPoison (f := fun p => p.keep _) fun _ hp => Tab.wf_keep _ _ hp

theorem Kept.mismatch {g : Nat} {t' : DetTask} (h : Kept s t) : Kept s (t.mismatch g t') :=
  Kept.ite h.logEvent.failGrid h.logEvent.updDetTask.clearView.updDet.pokeGrid

theorem Kept.tryCommit {g : Nat} {d : Det} (h : Kept s t) : Kept s (t.tryCommit g d) := by
  unfold State.tryCommit
  split
  · exact h
  extract_lets
  split
  · exact h
  split
  · exact h.tableWrite.commitTask.afterCommit
  · exact Kept.ite h.tablePoison.commitTask.afterCommit h.tablePoison.mismatch

theorem Kept.endTeams {g : Nat} (h : Kept s t) : Kept s (t.endTeams g) := h.detach.foldl fun _ _ h1 => Kept.ite h1.exitThread h1

theorem Kept.failStep {g : Nat} (h : Kept s t) : Kept s (t.failStep g) := by
  unfold State.failStep
  extract_lets
  split
  · exact h.updDet.endTeams.poll
  · exact Kept.ite h.updDet.endTeams h.updDet.endTeams.tableWrite.tableWrite.completeGrid

theorem execDetCommit_leads {grid : Nat} (h : Kept s t) : Leads s (execDetCommit grid t) := by
  unfold execDetCommit
  split
  · exact Leads.next (Kept.ite h.failStep h.tryCommit)
  · exact Leads.next h

theorem execIdent_leads (h : Kept s t) : Leads s (execIdent t) := h.perform <| h.respond

theorem execResync_leads (h : Kept s t) : Leads s (execResync t) := h.perform <| h.respond

theorem execAttest_leads (h : Kept s t) : Leads s (execAttest t) := h.perform <| h.takeFree.respond

theorem execMeasureRead_leads (h : Kept s t) : Leads s (execMeasureRead t) := h.perform <| h.respond

theorem execMeasureExtend_leads (h : Kept s t) : Leads s (execMeasureExtend t) := by
  unfold execMeasureExtend
  exact h.perform <| h.withBoot.ok

theorem execFwlog_leads (h : Kept s t) : Leads s (execFwlog t) := h.perform <| h.respond

theorem execDegrade_leads (h : Kept s t) : Leads s (execDegrade t) := h.perform <| h.respond

theorem execReset_leads (h : Kept s t) : Leads s (execReset t) := h.perform <| h.ok.resetPackage

theorem execCtxnew_leads (h : Kept s t) : Leads s (execCtxnew t) := by
  unfold execCtxnew
  extract_lets
  refine h.perform (Kept.ok ?_)
  exact h.setCx fun _ => rfl

theorem Tab.all_map {α : Type} {p : α → Bool} {f : Nat × α → α} {t : Tab α} (ht : (t.all fun e => p e.2) = true) (hf : ∀ e, p e.2 = true → p (f e) =
    true) :
    ((t.map fun e => (e.1, f e)).all fun e => p e.2) = true := by
  rw [List.all_eq_true] at ht ⊢
  intro e he
  obtain ⟨e', he', rfl⟩ := List.mem_map.1 he
  exact hf e' (ht e' he')

theorem Tab.all_filter {α : Type} {p : α → Bool} {q : Nat × α → Bool} {t : Tab α} (ht : (t.all fun e => p e.2) = true) :
    ((t.filter q).all fun e => p e.2) = true := List.all_eq_true.2 fun e he => List.all_eq_true.1 ht e (List.mem_filter.1 he).1

theorem Tab.rising_filter {α : Type} {q : Nat × α → Bool} : ∀ {t : Tab α} {lo : Nat}, Tab.risingFrom lo t = true → Tab.risingFrom lo (t.filter q) = true
  | [], _, _ => rfl
  | e :: t, lo, h => by
    simp only [Tab.risingFrom, Bool.and_eq_true, decide_eq_true_eq] at h
    have ih := Tab.rising_filter (q := q) h.2
    rw [List.filter_cons]
    split
    · simp only [Tab.risingFrom, Bool.and_eq_true, decide_eq_true_eq]
      exact ⟨h.1, ih⟩
    · exact Tab.risingFrom_mono (by omega) ih

theorem Kept.dropCtx {c : Nat} (h : Kept s t) : Kept s (t.dropCtx c) := by
  refine ⟨h.wf, fun ht => tidy_iff.2 ?_⟩
  have h1 := tidy_iff.1 (h.tidy ht)
  unfold State.dropCtx
  exact { h1 with
    ctx := Tab.all_del (p := Ctx.tidy) h1.ctx
    teams := Tab.rising_filter h1.teams
    team := Tab.all_filter (p := fun t : Team => Tab.risingFrom 0 t.bars) h1.team
    cores := Tab.rising_map h1.cores
    core := Tab.all_map (p := Core.tidy) h1.core fun _ hx => hx }

theorem execCtxdel_leads (h : Kept s t) : Leads s (execCtxdel t) := by
  unfold execCtxdel
  exact h.perform <| h.dropCtx.ok

theorem Kept.withFaults {faults : List FaultEntry} (h : Kept s t) : Kept s { t with faults := faults } := { h with }

theorem Kept.clearFaults {c : Nat} (h : Kept s t) : Kept s (t.clearFaults c) := h.withFaults

theorem Kept.startPreempt {c : Nat} (h : Kept s t) : Kept s (t.startPreempt c) := (h.foldl fun _ _ h1 => h1.stopOnDie).withHost

theorem Kept.rereadPoison {c d : Nat} (h : Kept s t) : Kept s (t.rereadPoison c d) := by
  unfold State.rereadPoison
  split
  · exact h
  refine Kept.ite h ?_
  split
  rename_i rs hs _
  refine Kept.foldl (h.updCx fun x hx => ?_) fun _ _ h1 => h1.markPoison
  refine Tab.all_map (p := savedTidy) hx fun e he => ?_
  split
  · cases hv : e.2 with
    | none => rfl
    | some v =>
      rw [hv] at he
      exact he
  · exact he

theorem Kept.resumeSaved {c d : Nat} (h : Kept s t) : Kept s (t.resumeSaved c d) :=
  (h.rereadPoison.updCx.foldl fun _ _ h1 => h1.updCore.poll).pokePlace.pokePipes

theorem Kept.resumeInPlace {c d : Nat} (h : Kept s t) : Kept s (t.resumeInPlace c d) :=
  ((h.updCx.foldl fun _ _ h1 => h1.updCore).foldl fun _ _ h1 => h1.goOn).pokePipes

theorem Kept.resumeDie {c d : Nat} (h : Kept s t) : Kept s (t.resumeDie c d) := by
  unfold State.resumeDie
  split
  · exact h.resumeSaved
  · exact h.resumeInPlace
  · exact h

theorem Kept.reserve {c : Nat} {on : Bool} {ds : List Nat} (h : Kept s t) : Kept s (t.reserve c on ds) :=
  h.foldl fun _ _ h1 => h1.foldl fun _ _ h2 => h2.updCore

theorem Kept.doResume {c : Nat} {ds : List Nat} (h : Kept s t) : Kept s (t.doResume c ds) := by
  unfold State.doResume
  split
  · exact h.reserve.fails
  · exact Kept.ite h.withHost.reserve (h.foldl fun _ _ h1 => h1.resumeDie).clearFaults.ok

theorem execResume_leads (h : Kept s t) : Leads s (execResume t) := Leads.ite (Leads.next h.doResume) (h.perform <| h.doResume)

theorem Kept.undoPreempt {c : Nat} {ds : List Nat} (h : Kept s t) : Kept s (t.undoPreempt c ds) := h.foldl fun _ _ h1 => by
    split
    · exact h1.resumeSaved.resumeInPlace
    · exact h1
    · exact h1.resumeDie

theorem Kept.awaitPreempt {c : Nat} (h : Kept s t) : Kept s (t.awaitPreempt c) := Kept.ite h (Kept.ite h.undoPreempt.fails h.ok)

theorem execPreempt_leads (h : Kept s t) : Leads s (execPreempt t) := Leads.ite (Leads.next h.awaitPreempt) (h.perform <| h.startPreempt.awaitPreempt)

theorem Kept.trimShared {d : Nat} (h : Kept s t) : Kept s (t.trimShared d) := by
  unfold State.trimShared
  extract_lets out
  refine ⟨fun ht => ?_, h.tidy⟩
  obtain ⟨hm, ho, hp, hb, hh⟩ := wf_parts.1 (h.wf ht)
  have hp' : Tab.wf false (t.poison.keep fun g => !out (32 * g)) = true := Tab.wf_keep _ _ hp
  exact wf_parts.2 ⟨Memory.wf_keep hm fun h => !out h, ho, hp', hb, hh⟩

theorem execCtxmapDieShared_leads (h : Kept s t) : Leads s (execCtxmapDieShared t) := by
  unfold execCtxmapDieShared
  exact h.perform <| h.updDie.trimShared.ok

theorem execCtxmapQueueBind_leads (h : Kept s t) : Leads s (execCtxmapQueueBind t) := by
  unfold execCtxmapQueueBind
  exact h.perform <| h.updDie.ok

theorem execCtxmapCounters_leads (h : Kept s t) : Leads s (execCtxmapCounters t) := by
  unfold execCtxmapCounters
  exact h.perform <| h.updDie.ok

theorem Kept.withSemOwner {semOwner : Tab Nat} (h : Kept s t) : Kept s { t with semOwner := semOwner } := { h with }

theorem Kept.grantSems {first count owner : Nat} (h : Kept s t) : Kept s (t.grantSems first count owner) := h.withSemOwner

theorem execCtxmapSemGrant_leads (h : Kept s t) : Leads s (execCtxmapSemGrant t) := by
  unfold execCtxmapSemGrant
  exact h.perform <| h.grantSems.ok

theorem Kept.finishCopies {core n : Nat} (h : Kept s t) : Kept s (t.finishCopies core n) := by
  induction n generalizing t with
  | zero => exact h
  | succ n ih =>
    unfold State.finishCopies
    split
    · exact h
    split
    · exact Kept.ite (ih h.copyFinish) h
    · exact h

theorem Kept.finishCcopies {c n : Nat} (h : Kept s t) : Kept s (t.finishCcopies c n) := by
  induction n generalizing t with
  | zero => exact h
  | succ n ih =>
    unfold State.finishCcopies
    split
    · exact ih h.finishCopy
    · exact h

theorem Kept.settleCtx {c : Nat} (h : Kept s t) : Kept s (t.settleCtx c) := by
  unfold State.settleCtx
  extract_lets _ _ u1
  have h1 : Kept s u1 := h.flushBins.foldl fun _ _ h1 => h1.finishCopies
  exact (h1.foldl fun _ _ h2 => h2.finishCcopies).foldl fun _ _ h2 => h2.foldl fun _ _ h3 => h3.dropDest

theorem Kept.invalidate {c va n : Nat} (h : Kept s t) : Kept s (t.invalidate c va n) := by
  refine ⟨h.wf, fun ht => tidy_iff.2 ?_⟩
  have h1 := tidy_iff.1 (h.tidy ht)
  unfold State.invalidate
  exact { h1 with
    cores := Tab.rising_map h1.cores
    core := Tab.all_map (p := Core.tidy) h1.core fun _ hx => hx
    slots := Tab.rising_map h1.slots }

theorem execCtxmapInvalidate_leads (h : Kept s t) : Leads s (execCtxmapInvalidate t) := by
  unfold execCtxmapInvalidate
  exact h.perform <| h.settleCtx.invalidate.ok

theorem Kept.startCommand {c ctx : Nat} {pc : DWord} {first count : Nat} (h : Kept s t) : Kept s (t.startCommand c ctx pc first count) := by
  unfold State.startCommand
  split
  rename_i _ u1 heq
  have h1 : Kept s u1 := h.newId.snd heq
  extract_lets k u2 u3 u4 u5 u6
  have h4 : Kept s u4 := Kept.setThr h1.detach.withPoisonReg fun _ => rfl
  have h5 : Kept s u5 := h4.setGrp fun _ => rfl
  exact h5.setCmd.grantSems.clearFaults

theorem execCmdstart_leads (h : Kept s t) : Leads s (execCmdstart t) := by
  unfold execCmdstart
  exact h.perform <| h.startCommand.ok

theorem Kept.stopCommand {c : Nat} (h : Kept s t) : Kept s (t.stopCommand c) := by
  unfold State.stopCommand
  extract_lets
  split
  · exact h.endCommand.ok
  · exact Kept.ite h.updCmd.withHost h.endCommand.ok
  · exact h.ok

theorem execCmdstop_leads (h : Kept s t) :
    Leads s (execCmdstop t) := Leads.ite (Leads.ite (Leads.next h) (Leads.next h.ok)) (h.perform <| h.stopCommand)

theorem execPoolcfg_leads (h : Kept s t) : Leads s (execPoolcfg t) := by
  unfold execPoolcfg
  exact h.perform <| h.withHost.ok

theorem Kept.undoWait (h : Kept s t) : Kept s t.undoWait := by
  unfold State.undoWait
  split
  · exact h.undoPreempt
  · exact h.reserve
  · exact h.updCmd
  · exact h

theorem execMailboxWatchdog_leads (h : Kept s t) : Leads s (execMailboxWatchdog t) := Leads.ite (Leads.next h.undoWait.logEvent.fails) (Leads.next h)

theorem execPickerDecision_leads {iss : Nat} (h : Kept s t) : Leads s (execPickerDecision iss t) := Leads.next h.pick

theorem execRunIssue_leads {iss : Nat} (h : Kept s t) : Leads s (execRunIssue iss t) := Leads.next h.beginRun

theorem Kept.landFlags {p : Pending} (h : Kept s t) : Kept s (t.landFlags p) := by
  unfold State.landFlags
  refine Kept.ite h.raiseFlags (h.raiseFlags.updThr fun x hx => ?_)
  split
  · exact hx
  · exact hx

theorem Kept.land {p : Pending} (h : Kept s t) :
    Kept s (t.land p) := Kept.ite h (Kept.ite h.writeRegs.withPoisonReg h.writeRegs.withPoisonReg.landFlags)

theorem Kept.withPend {pend : List Pending} (h : Kept s t) : Kept s { t with pend := pend } := { h with }

theorem execResultLands_leads {id : Nat} (h : Kept s t) : Leads s (execResultLands id t) := by
  unfold execResultLands
  split
  · exact Leads.next h
  · exact Leads.next h.withPend.land.freeDrains

theorem execTeamPlace_leads {die : Nat} (h : Kept s t) : Leads s (execTeamPlace die t) := by
  unfold execTeamPlace
  split
  · rename_i u1 heq
    have h1 : Kept s u1 := h.placeFirst _ heq
    exact Leads.next h1.pokePlace.pokePipes
  · exact Leads.next h.pokePipes

theorem execTeamFinishComplete_leads {team : Nat} (h : Kept s t) : Leads s (execTeamFinishComplete team t) :=
  Leads.ite (Leads.next h.finishTeam.ringsMoved) (Leads.next h)

theorem execHostCxlMemAccess_leads {pa : Nat} {wr : Bool} {data : List (BitVec 8)} (h : Kept s t) : Leads s (execHostCxlMemAccess pa wr data t) := by
  unfold execHostCxlMemAccess
  split
  · exact Leads.ite (Leads.next h.poll) (Leads.ite (Leads.next h.storeHomes) (Leads.next h.withHost))
  · exact Leads.next h

theorem Kept.hostStores {line : Nat} (h : Kept s t) : Kept s (t.hostStores line) := Kept.ite h.withFree.storeHomes h.withFree

theorem execHostSnoop_leads {pa : Nat} (h : Kept s t) : Leads s (execHostSnoop pa t) :=
  Leads.ite (Leads.ite (Leads.next h.poll) (Leads.next h.withHost.hostStores)) (Leads.next h)

theorem Kept.logUncorrected {ctx a : Nat} (h : Kept s t) : Kept s (t.logUncorrected ctx a) := h.logEvent

theorem Kept.strikeData {h' n : Nat} (h : Kept s t) : Kept s (t.strikeData h' n) := h.markPoison.foldl fun _ _ h1 => h1.logUncorrected.failGrid

theorem Kept.strikeReg {kind : EccPlace} {unit index : Nat} (h : Kept s t) : Kept s (t.strikeReg kind unit index) := Kept.ite h.withPoisonReg h

theorem Kept.dropCopies {core line : Nat} (h : Kept s t) : Kept s (t.dropCopies core line) := h.updCore.foldl fun _ _ h1 => h1.updSlot

theorem execEccUncorrectable_leads {kind : EccPlace} {unit index : Nat} (h : Kept s t) : Leads s (execEccUncorrectable kind unit index t) := by
  unfold execEccUncorrectable
  split
  · exact Leads.next h.dropCopies
  · exact Leads.next h.strikeData
  · exact Leads.ite (Leads.next h.logUncorrected.strikeData) (Leads.next h)
  · exact Leads.next h.strikeData
  · exact Leads.next h.strikeReg

theorem Kept.logLink {info stop : Nat} (h : Kept s t) : Kept s (t.logLink info stop) := h.logEvent

theorem execMeshLinkError_leads {die stop : Nat} (h : Kept s t) : Leads s (execMeshLinkError die stop t) := Leads.next h.logLink.resetPackage

theorem execHostPortDown_leads (h : Kept s t) : Leads s (execHostPortDown t) := by
  unfold execHostPortDown
  split
  · exact Leads.next h
  split
  rename_i _ u1 heq
  have h1 : Kept s u1 := h.logLink.takeFree.snd heq
  exact Leads.next h1.withHost.scheduleAt

theorem Kept.sendPending (h : Kept s t) : Kept s t.sendPending := h.withHost

theorem execHostPortRetrained_leads (h : Kept s t) : Leads s (execHostPortRetrained t) := by
  unfold execHostPortRetrained
  split
  · exact Leads.next h.trainHost.withHost.unschedule.sendPending
  · exact Leads.next h.trainHost
  · exact Leads.next h

theorem execHostRetrainTimeout_leads (h : Kept s t) : Leads s (execHostRetrainTimeout t) := by
  unfold execHostRetrainTimeout
  split
  · exact Leads.ite (Leads.next h.withHost) (Leads.next h)
  · exact Leads.next h

theorem execUalinkPortDown_leads {die port : Nat} (h : Kept s t) : Leads s (execUalinkPortDown die port t) :=
  Leads.ite (Leads.next h) (Leads.next h.logLink.withHost.portLost)

theorem execPoolPortDown_leads (h : Kept s t) : Leads s (execPoolPortDown t) := Leads.ite (Leads.next h.logLink.withHost) (Leads.next h)

end Sys2Proof.Machine
end

section
/-! PROOFS. What every step keeps: integer, floating-point, lane and matrix instructions. -/

namespace Sys2Proof.Machine

-- Many short proofs: elaborated one after another they need less memory.
set_option Elab.async false

variable {s t : State}

theorem Kept.rrrFixed {i : Instr} {f : BitVec 4} {d a b : BitVec 7} {rdD wideB : Bool} {op : IntOp} (h : Kept s t) :
    Leads s (t.rrrFixed i f d a b rdD wideB op) :=
  h.issuePlain h.fixed

theorem Kept.rrrVariable {i : Instr} {f : BitVec 4} {d a b : BitVec 7} {op : IntOp} (h : Kept s t) : Leads s (t.rrrVariable i f d a b op) :=
  h.issuePlain (h.foldl fun _ _ h1 => h1.variable)

theorem execAdd_leads {f : BitVec 4} {d a b : BitVec 7} (h : Kept s t) : Leads s (execAdd f d a b t) := h.rrrFixed

theorem execSub_leads {f : BitVec 4} {d a b : BitVec 7} (h : Kept s t) : Leads s (execSub f d a b t) := h.rrrFixed

theorem execMul_leads {f : BitVec 4} {d a b : BitVec 7} (h : Kept s t) : Leads s (execMul f d a b t) := h.rrrFixed

theorem execMulh_leads {f : BitVec 4} {d a b : BitVec 7} (h : Kept s t) : Leads s (execMulh f d a b t) := h.rrrFixed

theorem execAnd_leads {f : BitVec 4} {d a b : BitVec 7} (h : Kept s t) : Leads s (execAnd f d a b t) := h.rrrFixed

theorem execOr_leads {f : BitVec 4} {d a b : BitVec 7} (h : Kept s t) : Leads s (execOr f d a b t) := h.rrrFixed

theorem execXor_leads {f : BitVec 4} {d a b : BitVec 7} (h : Kept s t) : Leads s (execXor f d a b t) := h.rrrFixed

theorem execMad_leads {f : BitVec 4} {d a b : BitVec 7} (h : Kept s t) : Leads s (execMad f d a b t) := h.rrrFixed

theorem execShl_leads {f : BitVec 4} {d a b : BitVec 7} (h : Kept s t) : Leads s (execShl f d a b t) := h.rrrFixed

theorem execShr_leads {f : BitVec 4} {d a b : BitVec 7} (h : Kept s t) : Leads s (execShr f d a b t) := h.rrrFixed

theorem execSar_leads {f : BitVec 4} {d a b : BitVec 7} (h : Kept s t) : Leads s (execSar f d a b t) := h.rrrFixed

theorem execRot_leads {f : BitVec 4} {d a b : BitVec 7} (h : Kept s t) : Leads s (execRot f d a b t) := h.rrrFixed

theorem execBfx_leads {f : BitVec 4} {d a b : BitVec 7} (h : Kept s t) : Leads s (execBfx f d a b t) := h.rrrFixed

theorem execBfi_leads {f : BitVec 3} {d a b : BitVec 7} (h : Kept s t) : Leads s (execBfi f d a b t) := h.rrrFixed

theorem execMin_leads {u' w sg : BitVec 1} {d a b : BitVec 7} (h : Kept s t) : Leads s (execMin u' w sg d a b t) := h.rrrFixed

theorem execMax_leads {u' w sg : BitVec 1} {d a b : BitVec 7} (h : Kept s t) : Leads s (execMax u' w sg d a b t) := h.rrrFixed

theorem execDiv_leads {f : BitVec 4} {d a b : BitVec 7} (h : Kept s t) : Leads s (execDiv f d a b t) := h.rrrVariable

theorem execRem_leads {f : BitVec 4} {d a b : BitVec 7} (h : Kept s t) : Leads s (execRem f d a b t) := h.rrrVariable

theorem execBitc_leads {f : BitVec 2} {w : BitVec 1} {d a : BitVec 7} (h : Kept s t) : Leads s (execBitc f w d a t) := by
  unfold execBitc
  exact h.issuePlain h.fixed

theorem Kept.riFixed {i : Instr} {d a : BitVec 7} {im : BitVec 11} {hi : Option (BitVec 25)} {op : Nat → Nat → Nat} (h : Kept s t) :
    Leads s (t.riFixed i d a im hi op) :=
  h.issuePlain h.fixed

theorem execAddi_leads {d a : BitVec 7} {i : BitVec 11} {hi : Option (BitVec 25)} (h : Kept s t) : Leads s (execAddi d a i hi t) := h.riFixed

theorem execAndi_leads {d a : BitVec 7} {i : BitVec 11} {hi : Option (BitVec 25)} (h : Kept s t) : Leads s (execAndi d a i hi t) := h.riFixed

theorem execOri_leads {d a : BitVec 7} {i : BitVec 11} {hi : Option (BitVec 25)} (h : Kept s t) : Leads s (execOri d a i hi t) := h.riFixed

theorem execXori_leads {d a : BitVec 7} {i : BitVec 11} {hi : Option (BitVec 25)} (h : Kept s t) : Leads s (execXori d a i hi t) := h.riFixed

theorem execMovi_leads {d : BitVec 7} {u' w : BitVec 1} {i : BitVec 11} {hi : Option (BitVec 25)} (h : Kept s t) : Leads s (execMovi d u' w i hi t) :=
  h.issuePlain h.fixed

theorem execCmp_leads {c : BitVec 4} {v w : BitVec 1} {p : BitVec 4} {a b : BitVec 7} (h : Kept s t) : Leads s (execCmp c v w p a b t) := by
  unfold execCmp
  exact h.issuePlain h.fixed

theorem execCmpi_leads {c p : BitVec 4} {a : BitVec 7} {i : BitVec 10} {hi : Option (BitVec 25)} (h : Kept s t) : Leads s (execCmpi c p a i hi t) :=
  h.issuePlain h.fixed

theorem execSel_leads {p : BitVec 4} {d a b : BitVec 7} (h : Kept s t) : Leads s (execSel p d a b t) := h.issuePlain h.fixed

theorem execMov_leads {f : BitVec 4} {d a : BitVec 7} (h : Kept s t) : Leads s (execMov f d a t) := h.issuePlain h.fixed

theorem execPlog_leads {t' d a b : BitVec 4} (h : Kept s t) : Leads s (execPlog t' d a b t) := h.issuePlain h.fixed

theorem execLea_leads {n : BitVec 1} {sc : BitVec 2} {d a : BitVec 7} {g : BitVec 5} (h : Kept s t) : Leads s (execLea n sc d a g t) :=
  h.issuePlain h.fixed

theorem execLeaLs_leads {sc : BitVec 2} {d a : BitVec 7} (h : Kept s t) : Leads s (execLeaLs sc d a t) := h.issuePlain h.fixed

theorem Kept.fpFixed {i : Instr} {t' : Nat} {srcs : List (BitVec 7)} {d : BitVec 7} {op : Nat → FpOp} (h : Kept s t) :
    Leads s (t.fpFixed i t' srcs d op) :=
  h.issueFp h.fixed

theorem Kept.fpVariable {i : Instr} {t' : Nat} {srcs : List (BitVec 7)} {d : BitVec 7} {op : Nat → FpOp} (h : Kept s t) :
    Leads s (t.fpVariable i t' srcs d op) :=
  h.issuePlain (h.foldl fun _ _ h1 => h1.variable)

theorem execFadd_leads {r t' : BitVec 2} {d a b : BitVec 7} (h : Kept s t) : Leads s (execFadd r t' d a b t) := h.fpFixed

theorem execFsub_leads {r t' : BitVec 2} {d a b : BitVec 7} (h : Kept s t) : Leads s (execFsub r t' d a b t) := h.fpFixed

theorem execFmul_leads {r t' : BitVec 2} {d a b : BitVec 7} (h : Kept s t) : Leads s (execFmul r t' d a b t) := h.fpFixed

theorem execFfma_leads {r t' : BitVec 2} {d a b : BitVec 7} (h : Kept s t) : Leads s (execFfma r t' d a b t) := h.fpFixed

theorem execFfmat_leads {c : BitVec 3} {y : BitVec 1} {d a b : BitVec 7} (h : Kept s t) : Leads s (execFfmat c y d a b t) := by
  unfold execFfmat
  exact h.issueFp h.fixed

theorem execFmin_leads {t' : BitVec 2} {d a b : BitVec 7} (h : Kept s t) : Leads s (execFmin t' d a b t) := h.fpFixed

theorem execFmax_leads {t' : BitVec 2} {d a b : BitVec 7} (h : Kept s t) : Leads s (execFmax t' d a b t) := h.fpFixed

theorem execFcmp_leads {c : BitVec 4} {t' : BitVec 2} {p : BitVec 4} {a b : BitVec 7} (h : Kept s t) : Leads s (execFcmp c t' p a b t) := by
  unfold execFcmp
  exact h.issueFp h.fixed

theorem execFrnd_leads {r t' : BitVec 2} {d a : BitVec 7} (h : Kept s t) : Leads s (execFrnd r t' d a t) := h.fpFixed

theorem execFdiv_leads {r t' : BitVec 2} {d a b : BitVec 7} (h : Kept s t) : Leads s (execFdiv r t' d a b t) := h.fpVariable

theorem execFsqrt_leads {r t' : BitVec 2} {d a : BitVec 7} (h : Kept s t) : Leads s (execFsqrt r t' d a t) := h.fpVariable

theorem execFsfu_leads {fn : BitVec 3} {d a : BitVec 7} (h : Kept s t) : Leads s (execFsfu fn d a t) := h.fpVariable

theorem execFsgn_leads {o t' : BitVec 2} {d a b : BitVec 7} (h : Kept s t) : Leads s (execFsgn o t' d a b t) := h.fpFixed

theorem execFclass_leads {t' : BitVec 2} {d a : BitVec 7} (h : Kept s t) : Leads s (execFclass t' d a t) := h.issuePlain h.fixed

theorem execFcvt_leads {d a b : BitVec 7} {dt st : BitVec 4} {rnd : BitVec 3} {seed : BitVec 6} (h : Kept s t) :
    Leads s (execFcvt d a b dt st rnd seed t) := by
  unfold execFcvt
  exact h.issueFp h.fixed

theorem Kept.latchTable {g t' : Nat} (h : Kept s t) : Kept s (t.latchTable g t') := Kept.ite h h.updGrp

theorem execLut_leads {t' : BitVec 2} {d a : BitVec 7} (h : Kept s t) : Leads s (execLut t' d a t) :=
  h.issuePlain <| (h.foldl fun _ _ h1 => h1.latchTable).foldl fun _ _ h1 => h1.variable

theorem Kept.hold {th : Nat} {ws : List RegWrite} (h : Kept s t) : Kept s (t.hold th ws).2 := h.noteLate.newId.withPend

theorem Kept.renumber {core t' : Nat} (h : Kept s t) : Kept s (t.renumber core t') := h.updCore.withPend

theorem Kept.lutldGroup {t' : Nat} {d : BitVec 7} {g : BitVec 5} {grp k : Nat} (h : Kept s t) : KeptOk s (t.lutldGroup t' d g grp k) := by
  unfold State.lutldGroup
  extract_lets
  split
  · exact KeptAs.error
  split
  · exact KeptAs.error
  split
  · exact KeptAs.error
  split
  rename_i _ u1 heq
  have h1 : Kept s u1 := Kept.snd (by exact Kept.foldlSnd h fun _ _ h1 => h1.hold) heq
  exact KeptAs.ok h1.updCore.poll

theorem execLutld_leads {t' : BitVec 2} {d : BitVec 7} {g : BitVec 5} (h : Kept s t) : Leads s (execLutld t' d g t) :=
  h.issueMany (h.perGroup fun _ _ _ h1 => h1.lutldGroup)

theorem Kept.failLoad {core : Nat} {l : TableLoad} {code cls info : Nat} (h : Kept s t) : Kept s (t.failLoad core l code cls info) :=
  (h.withPend.updCore.renumber.freeDrains.foldl fun _ _ h1 => h1.updThr).poll

theorem execLutldLoadBegin_leads {core t' : Nat} (h : Kept s t) : Leads s (execLutldLoadBegin core t' t) := by
  unfold execLutldLoadBegin
  split
  · exact Leads.next h
  extract_lets
  split
  · exact Leads.next h
  split
  · exact Leads.next h.poll
  split
  · exact Leads.next h.failLoad
  · exact Leads.ite (Leads.next h.failLoad) (Leads.next h.keepWay.updCore.later)

theorem execLutldLoadComplete_leads {core t' : Nat} (h : Kept s t) : Leads s (execLutldLoadComplete core t' t) := by
  unfold execLutldLoadComplete
  split
  · exact Leads.next h
  rename_i l _
  extract_lets u1 u2
  have h1 : Kept s u1 := h.updCore fun x hx => by
    obtain ⟨hp, ht, hq⟩ := Core.tidy_iff.1 hx
    exact Core.tidy_iff.2 ⟨hp, Tab.rising_put _ _ ht, hq⟩
  have h2 : Kept s u2 := h1.foldl fun _ _ h2 => h2.scheduleAt
  exact Leads.next h2.poll

theorem execLshuf_leads {f : BitVec 2} {w x : BitVec 1} {d a b : BitVec 7} (h : Kept s t) : Leads s (execLshuf f w x d a b t) := by
  unfold execLshuf
  exact h.issuePlain h.fixed

theorem execLrot_leads {f : BitVec 2} {w : BitVec 1} {d a b : BitVec 7} (h : Kept s t) : Leads s (execLrot f w d a b t) := by
  unfold execLrot
  exact h.issuePlain h.fixed

theorem execLpush_leads {p : BitVec 4} {d a b : BitVec 7} (h : Kept s t) : Leads s (execLpush p d a b t) := h.issuePlain h.fixed

theorem execLred_leads {f : BitVec 4} {d a : BitVec 7} (h : Kept s t) : Leads s (execLred f d a t) := by
  unfold execLred
  exact h.issueFp h.fixed

theorem execLscan_leads {e : BitVec 1} {f : BitVec 3} {d a : BitVec 7} (h : Kept s t) : Leads s (execLscan e f d a t) := h.issuePlain h.fixed

theorem execVote_leads {w : BitVec 1} {f : BitVec 2} {d a : BitVec 7} (h : Kept s t) : Leads s (execVote w f d a t) := h.issuePlain h.fixed

theorem execLmatch_leads {w : BitVec 1} {d a : BitVec 7} (h : Kept s t) : Leads s (execLmatch w d a t) := by
  unfold execLmatch
  exact h.issuePlain h.fixed

theorem Kept.keepRows {k : Nat} {wr : Bool} {len : Nat} {vas : List Nat} (h : Kept s t) : Kept s (t.keepRows k wr len vas) :=
  h.foldl fun _ _ h1 => h1.keepWay

theorem Kept.mmqKeep {kind k : Nat} {g : BitVec 5} {va : Nat} (h : Kept s t) : Kept s (t.mmqKeep kind k g va) := h.keepRows

theorem Kept.setMmq {m : Option MmqMask} {ks : List Nat} (h : Kept s t) : Kept s (t.setMmq m ks) := h.foldl fun _ _ h1 => h1.updThr

/-- A fold over something that holds a state. -/
theorem Kept.foldlAs {σ α : Type} {π : σ → State} {f : σ → α → σ} {l : List α} {a : σ} (h :
    Kept s (π a)) (hf : ∀ a x, Kept s (π a) → Kept s (π (f a x))) :
    Kept s (π (l.foldl f a)) := by
  induction l generalizing a with
  | nil => exact h
  | cons x l ih => exact ih (hf a x h)

theorem kept_mmqRows {kind : Nat} {q : Quarter} {ga : BitVec 5} {slot : Nat} {cols : List (List FVal × Bool)} {r : MmqRun} (h : Kept s r.s) :
    Kept s (State.mmqRows kind q ga slot cols r).s := Kept.foldlAs (π := MmqRun.s) h fun r e h1 => by
  split
  · exact h1
  split
  · exact h1
  extract_lets _ u1 _ u2 u3
  have h3 : Kept s u3 := h1.setAcc.markElems.mmqKeep
  exact Kept.ite h3 h3.poisonedSource

theorem Kept.mmqQuarter {kind : Nat} {ga gb : BitVec 5} {slot : Nat} {q : Quarter} (h : Kept s t) : Kept s (t.mmqQuarter kind ga gb slot q).1 := by
  unfold State.mmqQuarter
  extract_lets _ _ _ r _ u
  have hr : Kept s r.s := by
    unfold r
    split
    · exact h.foldl fun _ _ h1 => h1.mmqKeep
    · exact kept_mmqRows (h.foldl fun _ _ h1 => h1.mmqKeep)
  have hu : Kept s u := hr.setMmq
  split
  · exact hr.setMmq
  split
  · exact hu.foldl fun _ _ h1 => h1.updThr
  · exact hu

theorem kept_mmqOne {kind : Nat} {ga gb : BitVec 5} {slot acc : Nat} {a : State × List Flt} {q : Quarter} (h : Kept s a.1) :
    Kept s (State.mmqOne kind ga gb slot acc a q).1 := by
  unfold State.mmqOne
  extract_lets
  split
  · exact h
  rename_i u heq
  have h1 : Kept s u := h.takeover u heq
  split
  · exact h
  split
  · rename_i heq2
    exact h1.mmqQuarter.fst heq2
  rename_i heq2
  exact h1.mmqQuarter.fst heq2

theorem execMmq_leads {kind acc : BitVec 4} {slot : BitVec 2} {ga gb : BitVec 5} {wsa wsb : BitVec 6} (h : Kept s t) :
    Leads s (execMmq kind acc slot ga gb wsa wsb t) := by
  unfold execMmq
  refine h.issueMany ?_
  extract_lets
  split
  · exact KeptAs.ok (Kept.ite h h.setMmq)
  · exact KeptAs.ite (KeptAs.ok h) (KeptAs.ok (Kept.foldlAs (π := Prod.fst) h fun _ _ h1 => kept_mmqOne h1))

theorem execAccz_leads {m : BitVec 1} {acc : BitVec 4} {anchor : BitVec 16} (h : Kept s t) : Leads s (execAccz m acc anchor t) :=
  h.issueMany <| h.perGroup fun _ _ _ h1 => KeptAs.andThen h1.takeover fun _ h2 => KeptAs.ok h2.replaceAcc

theorem Kept.drain {p : DrainPar} {acc : BitVec 4} {td : Bool} {a rg : BitVec 5} {res : Bool} {dstride rstride : Word} {g k : Nat} (h : Kept s t) :
    KeptOk s (t.drain p acc td a rg res dstride rstride g k) := by
  unfold State.drain
  extract_lets sz core n dst rsd residual last window after
  have hlast : ∀ x, KeptOk s (last x) := fun x => by
    unfold last
    refine KeptAs.andThen h.takeover fun u hu => KeptAs.bind fun _ _ => ?_
    extract_lets u1 u2 tile rows t'
    have h1 : Kept s u1 := Kept.ite (Kept.keepRows hu) hu
    have h2 : Kept s u2 := Kept.ite h1 h1.keepRows
    have ht : Kept s t' := h2.tileRows
    split
    · exact KeptAs.ok (Kept.ite ht.poisonedSource ht)
    split
    rename_i v _ heq
    have hv : Kept s v := by
      refine Kept.fst ?_ heq
      refine Kept.foldlFst h2 fun x i hx => ?_
      extract_lets va
      split
      exact Kept.ite (hx.engineStore.foldl fun _ _ h4 => h4.markPoison) hx.engineStore
    exact KeptAs.ok (Kept.ite hv.poisonedSource hv)
  have hwindow : ∀ x, KeptOk s (window x) := fun x => by
    unfold window
    exact KeptAs.ite (KeptAs.bind fun y _ => hlast y) (hlast ())
  have hafter : ∀ x, KeptOk s (after x) := fun x => by
    unfold after
    exact KeptAs.ite (KeptAs.bind fun y _ => hwindow y) (hwindow ())
  exact KeptAs.ite KeptAs.error (KeptAs.ite KeptAs.error (KeptAs.ite (KeptAs.bind fun y _ => hafter y) (hafter ())))

theorem execAccdr_leads {f acc : BitVec 4} {td : BitVec 1} {a rg : BitVec 5} {res : BitVec 1} {rnd : BitVec 3} {scl drop : BitVec 1} {wu : BitVec 6}
    (h : Kept s t) : Leads s (execAccdr f acc td a rg res rnd scl drop wu t) :=
  h.issueMany (h.perGroup fun _ _ _ h1 => h1.drain)

theorem execAccsvSave_leads {acc : BitVec 4} {g : BitVec 5} (h : Kept s t) : Leads s (execAccsvSave acc g t) :=
  h.issueMany <| h.perGroup fun _ _ _ h1 => by
      extract_lets
      exact KeptAs.bind fun _ _ => KeptAs.bind fun _ _ => KeptAs.andThen h1.takeover fun _ h2 => KeptAs.bind fun _ _ => KeptAs.ok
          h2.keepRows.engineStore

theorem execAccsvLoad_leads {acc : BitVec 4} {g : BitVec 5} (h : Kept s t) : Leads s (execAccsvLoad acc g t) :=
  h.issueMany <| h.perGroup fun _ _ _ h1 => by
      extract_lets
      exact KeptAs.bind fun _ _ => by
          split
          exact KeptAs.ite KeptAs.error (KeptAs.andThen h1.keepRows.takeover fun _ h2 => KeptAs.ok (Kept.ite h2.replaceAcc
              h2.replaceAcc.poisonedSource))

theorem execTld_leads {t' : BitVec 3} {g : BitVec 5} {ws : BitVec 6} (h : Kept s t) : Leads s (execTld t' g ws t) :=
  h.issueMany <| h.perGroup fun _ _ _ h1 => KeptAs.bind fun _ _ => KeptAs.ok (Kept.ite h1.keepRows.tileRows.poisonedSource h1.keepRows.tileRows)

theorem execTst_leads {t' : BitVec 3} {g : BitVec 5} {ws : BitVec 6} (h : Kept s t) : Leads s (execTst t' g ws t) :=
  h.issueMany <| h.perGroup fun _ _ _ h1 => by
      extract_lets
      exact KeptAs.bind fun _ _ => KeptAs.bind fun _ _ => by
            split
            · exact KeptAs.bind fun _ _ => KeptAs.ok (h1.keepRows.foldl fun _ _ h2 => h2.engineStore)
            · exact KeptAs.ok (h1.keepRows.foldl fun _ _ h2 => h2.engineStore)

theorem execAccrd_leads {f : BitVec 2} {d a : BitVec 7} {acc : BitVec 4} (h : Kept s t) : Leads s (execAccrd f d a acc t) := by
  unfold execAccrd
  extract_lets
  exact h.issueMany <| h.perGroup fun _ _ _ h1 => by
        extract_lets
        exact KeptAs.andThen h1.takeover fun _ h2 => by
            extract_lets
            split
            · exact KeptAs.error
            · exact KeptAs.ok (h2.foldl fun _ _ h3 => h3.variable)

end Sys2Proof.Machine
end

section
/-! PROOFS. What every step keeps: the dispatch of an instruction or event, and the step; the two invariants. -/

namespace Sys2Proof.Machine

-- Many short proofs: elaborated one after another they need less memory.
set_option Elab.async false

variable {s t : State}

/-- Every instruction and event leads to a state that keeps what the state before has. -/
theorem exec_leads {i : Instr} (h : Kept s t) : Leads s (exec i t) :=
  match i with
  | .powerOn _ => execPowerOn_leads h
  | .bootStepWatchdog => execBootStepWatchdog_leads h
  | .heartbeatTick => execHeartbeatTick_leads h
  | .sleepWake _ => execSleepWake_leads h
  | .balancerInterval _ => execBalancerInterval_leads h
  | .i3cRefresh _ _ _ _ _ _ => execI3cRefresh_leads h
  | .pickerDecision _ => execPickerDecision_leads h
  | .runIssue _ => execRunIssue_leads h
  | .resultLands _ => execResultLands_leads h
  | .teamPlace _ => execTeamPlace_leads h
  | .handoverComplete _ _ => execHandoverComplete_leads h
  | .teamFinishComplete _ => execTeamFinishComplete_leads h
  | .barrierRelease _ _ _ => execBarrierRelease_leads h
  | .publicationComplete _ => execPublicationComplete_leads h
  | .fencescComplete _ => execFencescComplete_leads h
  | .bankAluBinUpdate _ => execBankAluBinUpdate_leads h
  | .lutldLoadBegin _ _ => execLutldLoadBegin_leads h
  | .lutldLoadComplete _ _ => execLutldLoadComplete_leads h
  | .copyCmdIssue _ _ => execCopyCmdIssue_leads h
  | .copyCmdComplete _ _ => execCopyCmdComplete_leads h
  | .ccopyComplete _ => execCcopyComplete_leads h
  | .tapeSyncComplete _ => execTapeSyncComplete_leads h
  | .pipelineResident _ _ => execPipelineResident_leads h
  | .coreSave _ => execCoreSave_leads h
  | .coreRestore _ => execCoreRestore_leads h
  | .torcStep _ _ => execTorcStep_leads h
  | .torcChunkArrival _ _ _ _ _ _ => execTorcChunkArrival_leads h
  | .torcAbortReceive _ _ _ _ => execTorcAbortReceive_leads h
  | .collTimeout _ _ => execCollTimeout_leads h
  | .poolTimeout _ _ => execPoolTimeout_leads h
  | .detCommit _ => execDetCommit_leads h
  | .hostCxlMemAccess _ _ _ => execHostCxlMemAccess_leads h
  | .hostSnoop _ => execHostSnoop_leads h
  | .eccUncorrectable _ _ _ => execEccUncorrectable_leads h
  | .meshLinkError _ _ => execMeshLinkError_leads h
  | .hostPortDown => execHostPortDown_leads h
  | .hostPortRetrained => execHostPortRetrained_leads h
  | .hostRetrainTimeout => execHostRetrainTimeout_leads h
  | .ualinkPortDown _ _ => execUalinkPortDown_leads h
  | .poolPortDown => execPoolPortDown_leads h
  | .mailboxWatchdog => execMailboxWatchdog_leads h
  | .overrunClear => execOverrunClear_leads h
  | .mailboxWrite _ _ => execMailboxWrite_leads h
  | .ident => execIdent_leads h
  | .resync => execResync_leads h
  | .ctxnew => execCtxnew_leads h
  | .ctxdel => execCtxdel_leads h
  | .resume => execResume_leads h
  | .ctxmapDieShared => execCtxmapDieShared_leads h
  | .ctxmapQueueBind => execCtxmapQueueBind_leads h
  | .ctxmapCounters => execCtxmapCounters_leads h
  | .ctxmapSemGrant => execCtxmapSemGrant_leads h
  | .ctxmapInvalidate => execCtxmapInvalidate_leads h
  | .cmdstart => execCmdstart_leads h
  | .cmdstop => execCmdstop_leads h
  | .preempt => execPreempt_leads h
  | .poolcfg => execPoolcfg_leads h
  | .attest => execAttest_leads h
  | .measureRead => execMeasureRead_leads h
  | .measureExtend => execMeasureExtend_leads h
  | .fwlog => execFwlog_leads h
  | .degrade => execDegrade_leads h
  | .reset => execReset_leads h
  | .nop => execNop_leads h
  | .add _ _ _ _ => execAdd_leads h
  | .sub _ _ _ _ => execSub_leads h
  | .addi _ _ _ _ => execAddi_leads h
  | .mul _ _ _ _ => execMul_leads h
  | .mulh _ _ _ _ => execMulh_leads h
  | .mad _ _ _ _ => execMad_leads h
  | .and _ _ _ _ => execAnd_leads h
  | .or _ _ _ _ => execOr_leads h
  | .xor _ _ _ _ => execXor_leads h
  | .andi _ _ _ _ => execAndi_leads h
  | .ori _ _ _ _ => execOri_leads h
  | .xori _ _ _ _ => execXori_leads h
  | .shl _ _ _ _ => execShl_leads h
  | .shr _ _ _ _ => execShr_leads h
  | .sar _ _ _ _ => execSar_leads h
  | .rot _ _ _ _ => execRot_leads h
  | .bfx _ _ _ _ => execBfx_leads h
  | .bfi _ _ _ _ => execBfi_leads h
  | .bitc _ _ _ _ => execBitc_leads h
  | .min _ _ _ _ _ _ => execMin_leads h
  | .max _ _ _ _ _ _ => execMax_leads h
  | .cmp _ _ _ _ _ _ => execCmp_leads h
  | .cmpi _ _ _ _ _ => execCmpi_leads h
  | .sel _ _ _ _ => execSel_leads h
  | .mov _ _ _ => execMov_leads h
  | .movi _ _ _ _ _ => execMovi_leads h
  | .div _ _ _ _ => execDiv_leads h
  | .rem _ _ _ _ => execRem_leads h
  | .lea _ _ _ _ _ => execLea_leads h
  | .leaLs _ _ _ => execLeaLs_leads h
  | .plog _ _ _ _ => execPlog_leads h
  | .br _ _ _ => execBr_leads h
  | .bri _ _ _ => execBri_leads h
  | .call _ _ _ => execCall_leads h
  | .calli _ _ _ => execCalli_leads h
  | .ret _ _ => execRet_leads h
  | .exit _ _ => execExit_leads h
  | .yield _ _ => execYield_leads h
  | .winb _ _ => execWinb_leads h
  | .lshuf _ _ _ _ _ _ => execLshuf_leads h
  | .lpush _ _ _ _ => execLpush_leads h
  | .lrot _ _ _ _ _ => execLrot_leads h
  | .lred _ _ _ => execLred_leads h
  | .lscan _ _ _ _ => execLscan_leads h
  | .vote _ _ _ _ => execVote_leads h
  | .lmatch _ _ _ => execLmatch_leads h
  | .fadd _ _ _ _ _ => execFadd_leads h
  | .fsub _ _ _ _ _ => execFsub_leads h
  | .fmul _ _ _ _ _ => execFmul_leads h
  | .ffma _ _ _ _ _ => execFfma_leads h
  | .ffmat _ _ _ _ _ => execFfmat_leads h
  | .fmin _ _ _ _ => execFmin_leads h
  | .fmax _ _ _ _ => execFmax_leads h
  | .fcmp _ _ _ _ _ => execFcmp_leads h
  | .fcvt _ _ _ _ _ _ _ => execFcvt_leads h
  | .frnd _ _ _ _ => execFrnd_leads h
  | .fdiv _ _ _ _ _ => execFdiv_leads h
  | .fsqrt _ _ _ _ => execFsqrt_leads h
  | .fsfu _ _ _ => execFsfu_leads h
  | .fsgn _ _ _ _ _ => execFsgn_leads h
  | .fclass _ _ _ => execFclass_leads h
  | .lut _ _ _ => execLut_leads h
  | .lutld _ _ _ => execLutld_leads h
  | .ld _ _ _ _ => execLd_leads h
  | .st _ _ _ _ => execSt_leads h
  | .lds _ _ _ _ _ => execLds_leads h
  | .sts _ _ _ _ _ => execSts_leads h
  | .ldx _ _ _ _ _ => execLdx_leads h
  | .stx _ _ _ _ _ => execStx_leads h
  | .atom _ _ _ _ _ _ _ => execAtom_leads h
  | .acas _ _ _ _ _ _ _ _ => execAcas_leads h
  | .fatom _ _ _ _ _ _ _ => execFatom_leads h
  | .gadd _ _ _ _ _ => execGadd_leads h
  | .phase _ => execPhase_leads h
  | .phasePub _ => execPhasePub_leads h
  | .phaseAcq _ => execPhaseAcq_leads h
  | .fencesc => execFencesc_leads h
  | .gset _ _ _ _ _ _ => execGset_leads h
  | .gadv _ _ _ _ => execGadv_leads h
  | .gget _ _ _ => execGget_leads h
  | .gptr _ _ => execGptr_leads h
  | .barSync _ _ => execBarSync_leads h
  | .barArrive _ _ => execBarArrive_leads h
  | .barWait _ _ => execBarWait_leads h
  | .slwait _ _ => execSlwait_leads h
  | .slrel _ _ => execSlrel_leads h
  | .slfree _ _ => execSlfree_leads h
  | .slcommit _ _ => execSlcommit_leads h
  | .mmq _ _ _ _ _ _ _ => execMmq_leads h
  | .accz _ _ _ => execAccz_leads h
  | .accdr _ _ _ _ _ _ _ _ _ _ => execAccdr_leads h
  | .accsvSave _ _ => execAccsvSave_leads h
  | .accsvLoad _ _ => execAccsvLoad_leads h
  | .tld _ _ _ => execTld_leads h
  | .tst _ _ _ => execTst_leads h
  | .accrd _ _ _ _ => execAccrd_leads h
  | .binctlDecl _ _ => execBinctlDecl_leads h
  | .binctlFin _ _ _ => execBinctlFin_leads h
  | .binctlFinclr _ _ _ => execBinctlFinclr_leads h
  | .binctlFree _ => execBinctlFree_leads h
  | .rast _ _ _ _ _ _ => execRast_leads h
  | .rastg _ _ _ _ _ _ _ => execRastg_leads h
  | .edgs _ _ _ _ _ => execEdgs_leads h
  | .tex _ _ _ _ => execTex_leads h
  | .texg _ _ _ _ _ => execTexg_leads h
  | .texl _ _ _ => execTexl_leads h
  | .texb _ _ _ _ _ => execTexb_leads h
  | .rrecDim _ _ _ => execRrecDim_leads h
  | .rrecFmt _ _ => execRrecFmt_leads h
  | .rrecInv => execRrecInv_leads h
  | .rqinit _ _ _ _ _ _ _ => execRqinit_leads h
  | .rqproc _ _ _ => execRqproc_leads h
  | .rqcand _ _ _ _ => execRqcand_leads h
  | .rqcommit _ _ _ => execRqcommit_leads h
  | .rqabort _ => execRqabort_leads h
  | .rqres _ _ _ _ => execRqres_leads h
  | .rqgrad _ _ _ _ _ _ _ => execRqgrad_leads h
  | .rqtri _ _ _ _ _ _ => execRqtri_leads h
  | .trec _ _ _ => execTrec_leads h
  | .tpop _ _ => execTpop_leads h
  | .tmarkOpen _ _ => execTmarkOpen_leads h
  | .tmarkClose => execTmarkClose_leads h
  | .tctlBind _ => execTctlBind_leads h
  | .tctlStat _ => execTctlStat_leads h
  | .tctlSeek _ => execTctlSeek_leads h
  | .tctlSync => execTctlSync_leads h
  | .rsvupd _ _ _ => execRsvupd_leads h
  | .rsvmrg _ _ _ _ => execRsvmrg_leads h
  | .rsvinit _ => execRsvinit_leads h
  | .rsvfin _ _ => execRsvfin_leads h
  | .rsvget _ _ _ => execRsvget_leads h
  | .rsvset _ _ _ => execRsvset_leads h
  | .clove _ _ _ _ _ => execClove_leads h
  | .spawn _ _ _ _ => execSpawn_leads h
  | .tqadd _ _ _ _ => execTqadd_leads h
  | .tqget _ _ => execTqget_leads h
  | .depopSet _ _ _ => execDepopSet_leads h
  | .depopAdd _ _ _ => execDepopAdd_leads h
  | .depopGet _ _ => execDepopGet_leads h
  | .spush _ _ _ => execSpush_leads h
  | .spop _ _ => execSpop_leads h
  | .sctlClose _ => execSctlClose_leads h
  | .sctlStat _ _ => execSctlStat_leads h
  | .sysr _ _ _ _ => execSysr_leads h
  | .sysw _ _ _ _ => execSysw_leads h
  | .trap _ => execTrap_leads h
  | .icinv => execIcinv_leads h
  | .sleep _ _ _ => execSleep_leads h
  | .fwret => execFwret_leads h
  | .cpxLaunch _ _ _ _ _ _ => execCpxLaunch_leads h
  | .cpxSemwait _ _ _ _ => execCpxSemwait_leads h
  | .cpxSemsig _ _ => execCpxSemsig_leads h
  | .cpxSemadd _ _ _ => execCpxSemadd_leads h
  | .cpxCcopy _ _ _ _ _ _ _ => execCpxCcopy_leads h
  | .cpxIrq _ => execCpxIrq_leads h
  | .cpxChalt => execCpxChalt_leads h
  | .submit _ => execSubmit_leads h
  | .msixVectorUnmask _ => execMsixVectorUnmask_leads h

theorem Kept.word {iss : Nat} {r : Run} (h : Kept s t) : Leads s (t.word iss r) := by
  unfold State.word
  split
  · exact Leads.next h.undecoded
  rename_i i n _
  split
  · rename_i u heq
    have h1 : Kept s u := exec_leads h u heq
    exact Leads.next h1.advance
  · rintro _ ⟨⟩
  · exact Leads.refused

/-- The clk moves on to what is done next. -/
theorem Kept.withClkCur {clk cur : Nat} (h : Kept s t) : Kept s { t with clk := clk, cur := cur } := { h with }

theorem Kept.begin {n iss : Nat} (h : Kept s t) : Kept s (t.begin n iss) := h.withClkCur.landFixed

theorem Kept.moveIssuer {n iss : Nat} (h : Kept s t) : Leads s (t.moveIssuer n iss) := by
  unfold State.moveIssuer
  split
  · exact h.begin.word
  · exact exec_leads h.withClkCur
  · exact exec_leads h.withClkCur

theorem Kept.withClkAgenda {clk : Nat} {agenda : List (Nat × Instr)} (h : Kept s t) : Kept s { t with clk := clk, agenda := agenda } := { h with }

theorem Kept.act (h : Kept s t) : Leads s t.act := by
  unfold State.act
  split
  · exact Leads.next h
  · exact h.moveIssuer
  · exact exec_leads h.withClkAgenda
  · exact Leads.ite (exec_leads h.withClkAgenda) h.moveIssuer

/-- A step keeps the canonical forms of memory, and tidy tables. -/
theorem step_leads {s : State} : Leads s (step s) := by
  unfold step
  split
  · rename_i u heq
    have h1 : Kept s u := Kept.act Kept.refl u heq
    exact Leads.next h1.passTurns.endClk
  · rintro _ ⟨⟩
  · exact Leads.refused

/-- Settles O59: every operation of a step keeps the canonical forms, those that write memory by the laws of canonical tables. -/
theorem stepKeepsMemoryCanonical : Obligations.StepKeepsMemoryCanonical := by
  unfold Obligations.StepKeepsMemoryCanonical
  intro s t hs hstep
  exact (step_leads t hstep).wf hs

/-- Settles O60: every operation of a step keeps the tables tidy, those that put, delete or filter entries by the laws of rising keys. -/
theorem stepKeepsTablesTidy : Obligations.StepKeepsTablesTidy := by
  unfold Obligations.StepKeepsTablesTidy
  intro s t hs hstep
  exact (step_leads t hstep).tidy hs

end Sys2Proof.Machine
end
